-- ==== Sys2Proof/Word.lean ====
section
/-! DEFINITION. The word types of the device: bytes, 32-bit register words, 64-bit counters, 256-bit payloads. -/
namespace Sys2Proof

/-- One byte of a memory. -/
abbrev Byte := BitVec 8

/-- A register (00_scope.md: registers are 32 bits wide). -/
abbrev Word := BitVec 32

/-- A counter or a 64-bit memory word. -/
abbrev DWord := BitVec 64

/-- A queue payload, a tile word, a v register, a store unit. -/
abbrev Pay := BitVec 256

/-- A sparse table: keys strictly rising, no entry equal to what its key reads as when unlisted. -/
abbrev Tab (α : Type) := List (Nat × α)

/-- `len` bits of `n` from bit `lo`. -/
def nbits (n lo len : Nat) : Nat := (n / 2 ^ lo) % 2 ^ len

/-- `n` with its `len` bits from bit `lo` replaced by `v`. -/
def nput (n lo len v : Nat) : Nat :=
  n - nbits n lo len * 2 ^ lo + (v % 2 ^ len) * 2 ^ lo

/-- One bit of `n`. -/
def nbit (n i : Nat) : Bool := n / 2 ^ i % 2 == 1

/-- 0 or 1. -/
def b2n (b : Bool) : Nat := if b then 1 else 0

end Sys2Proof
end

