-- ==== Sys2Proof/Syntax.lean ====
section
/-! DEFINITION. The commands of the block: one constructor of `Instr` per row of spec/opcode_table.json, and the types of their operands.
A row that is a move of one of the device's own units names only the unit: what the unit does is read from its state.
A row that is an event outside the device carries what arrives with it (a packet, a submission entry, a reading). -/
namespace Sys2Proof

/-- Tile index 20·y + x (R6). -/
abbrev TileIx := Fin 400
/-- Region g = 5·⌊y/4⌋ + ⌊x/4⌋. -/
abbrev RegionIx := Fin 25
/-- Stream 0 to 255 (R59). -/
abbrev StreamIx := Fin 256
/-- Ingest channel. -/
abbrev ChanIx := Fin 32
/-- FERRY[n]. -/
abbrev FerryIx := Fin 256

/-- The PCIe function an access comes from (R35): the PF, or VF n for n from 1 to 255. -/
inductive Fn where
  | pf
  | vf (n : StreamIx)
deriving DecidableEq, Repr

/-- The four engines that take commands (CMD ENG: 0 MAT, 1 VEC, 2 LD, 3 ST). -/
inductive Eng where
  | mat
  | vec
  | ld
  | st
deriving DecidableEq, Repr

/-- A queue entry: 256-bit payload and 32-bit sideband (04_tile.md, Token sideband). -/
structure Entry where
  pay : Pay
  side : Word
deriving DecidableEq, Repr

/-- A host access through window B or C. -/
inductive HostAccess where
  | read (off len : Nat)
  | write (off : Nat) (data : List Byte)
deriving DecidableEq, Repr

/-- An ingest source: a CoaXPress master link or an Ethernet port. -/
inductive Source where
  | cxp (l : Fin 8)
  | eth (p : Fin 2)
deriving DecidableEq, Repr

/-- The body of a CoaXPress packet (02, CoaXPress host). -/
inductive CxpBody where
  /-- Image header: width, pixel format code of the PIXEL table, lines of the image. -/
  | header (width pixel lines : Nat)
  /-- One image line, the bytes of its pixels. -/
  | line (data : List Byte)
  /-- Event or heartbeat packet, carried to the host path. -/
  | event (data : List Byte)
  /-- Control reply, carried to the host path. -/
  | control (data : List Byte)
deriving DecidableEq, Repr

/-- A CoaXPress packet: stream ID, packet sequence number, whether its CRC holds, its body. -/
structure CxpPacket where
  streamId : BitVec 8
  seq : BitVec 8
  crcOk : Bool
  body : CxpBody
deriving DecidableEq, Repr

/-- What a UDP payload is to the GVSP receiver (02, Ethernet and GigE Vision). -/
inductive GvspBody where
  /-- Leader: width, pixel format code, lines, camera timestamp. -/
  | leader (width pixel lines : Nat) (camTime : DWord)
  /-- Data packet `id` of the block: one image line. -/
  | data (id : Nat) (line : List Byte)
  /-- Trailer with the number of data packets of the block. -/
  | trailer (packets : Nat)
  /-- A payload type that is not supported. -/
  | otherType
deriving DecidableEq, Repr

/-- A received Ethernet frame after its VLAN tag is stripped. -/
structure EthFrame where
  mac : BitVec 48
  ipv4 : Bool
  ip : Word
  frag : Bool
  udpPort : Option (BitVec 16)
  block : Nat
  gvsp : GvspBody
  ptpEvent : Bool
  raw : List Byte
deriving DecidableEq, Repr

/-- A 32-byte submission entry (03, Submission ring): its words 0 to 2 and bytes 12 to 31. -/
structure SqEntry where
  w0 : Word
  w1 : Word
  w2 : Word
  rest : BitVec 160
deriving DecidableEq, Repr

/-- The host's answer to a memory request of a ferry: data (empty for a write), or Unsupported Request / Completer Abort (R36). -/
inductive HostReply where
  | ok (data : List Byte)
  | abort
deriving DecidableEq, Repr

/-- Package section 2, one region: divider, sequencer code words and control-page registers. -/
structure RegionRec where
  region : RegionIx
  div : Nat
  code : List (Nat × Word)
  regs : List (Nat × Word)
deriving DecidableEq, Repr

/-- Package sections 3 to 5, one tile: words, register images, patch values, extent and weights. -/
structure TileRec where
  tile : TileIx
  code : List (Nat × Pay)
  regs : List (Nat × Word)
  uregs : List (Nat × Word)
  extBase : Nat
  extUnits : Nat
  weights : List (Nat × Pay)
deriving DecidableEq, Repr

/-- A run of portable records (13, Portable code): the tile, or the region plus 0x200, and the first word or code address. -/
structure PortableRun where
  target : Nat
  start : Nat
  records : List (BitVec 128)
deriving DecidableEq, Repr

/-- The sections of a package as the keel reads them. The byte format inside a section is not in the spec, so the
row carries the sections decoded; the header and the signature are read from the basin. -/
structure Sections where
  /-- Requirements: register offset, low bit, length, minimum. -/
  features : List (Nat × Nat × Nat × Nat)
  regions : List RegionRec
  tiles : List TileRec
  portable : List PortableRun
  /-- Circuit number, tile, queue number given by the binding section. -/
  circuits : List (Nat × Nat × Nat)
  /-- Label symbol and the word or code address it names. -/
  labels : List (Nat × Nat)
  /-- Offset within the stream range, MODE, TARGET. -/
  tidemarks : List (Nat × Nat × Nat)
  /-- Edge port, EDGE_CFG and EDGE_RING values. -/
  edges : List (Nat × Word × Word)
  /-- Tray position, and link, partner position, partner link. -/
  position : Option (Nat × List (Nat × Nat × Nat))
deriving DecidableEq, Repr

/-- A package header (13, Packages). -/
structure PkgHeader where
  magic : Nat
  form : Nat
  version : Nat
  layoutId : Nat
  regions : Nat
  lfab : Nat
  keySlot : Nat
  sections : Nat
  length : Nat
deriving DecidableEq, Repr

/-- Boot step 8: images flagged resident, with their slots and whether their signature verifies, and the job table bytes. -/
structure BootPolicy where
  images : List (Fin 8 × PkgHeader × Bool × Sections)
  jobTable : List (Nat × Byte)
deriving DecidableEq, Repr

/-- What ends the ebb hold (R365, R438). -/
inductive EbbEnd where
  | timeout
  | undervoltage (rail : Fin 3) (mv : BitVec 16)
  | trip
  | railPg (k : Fin 4)
deriving DecidableEq, Repr

/-- A keel firmware image the BMC writes: its version and whether it verifies. -/
structure FwImage where
  version : Word
  valid : Bool
deriving DecidableEq, Repr

/-- What the BMC reads of one keel (R421). -/
structure PackageStatus where
  present : Bool
  pwr : Word
  boot : Word
deriving DecidableEq, Repr

/-- The commands: one constructor per row of spec/opcode_table.json, in its order. -/
inductive Instr where
  /-- REGISTER_WRITE (R7): A host write to a window A register that has no row of its own takes effect under the field's access code. -/
  | registerWrite (fn : Fn) (off : Nat) (width : Nat) (data : DWord)
  /-- COUNTER_LOW_READ (R387): A read of a counter's low word latches that counter's high word for the reading function. -/
  | counterLowRead (fn : Fn) (off : Nat)
  /-- ACCESS_TIMEOUT (R425): A window A read not completed within 50 µs completes with zero data and sets ACC_TIMEOUT. -/
  | accessTimeout (fn : Fn) (off : Nat)
  /-- GLOBAL_STATUS_CLEAR (R426): Clearing REG_REJECT returns OFFSET and GLOBAL_REJECT to zero. -/
  | globalStatusClear (v : Word)
  /-- GLOBAL_INT_MASK_WRITE (R427): Unmasking a summary source that is already set sends one message on its vector. -/
  | globalIntMaskWrite (v : Word)
  /-- FABRIC_RESET (R428): GLOBAL_RESET.FABRIC drains every stream, abandons recoveries and layout operations, and applies the fabric reset column. -/
  | fabricReset
  /-- FABRIC_RESET_COMPLETE (R428): The fabric reset completes within 50 µs, and FATAL and RESET_BUSY clear. -/
  | fabricResetComplete
  /-- WARM_RESET (R429): GLOBAL_RESET.WARM acts exactly as RST_N. -/
  | warmReset
  /-- WARM_RESET_PIN (R441): RST_N held low for at least 1 µs after its 40 hk filter starts a warm reset. -/
  | warmResetPin
  /-- PERST_N (R442): PERST_N resets only the PCIe endpoint; the link goes down and no stream stops. -/
  | perstN
  /-- HOST_WINDOW_B_ACCESS (R424): A host access to the basin through window B, with partial writes merged under R263. -/
  | hostWindowBAccess (a : HostAccess)
  /-- HOST_WINDOW_C_ACCESS (R271): A host access to DRAM through window C; beyond usable capacity a read returns zero, a write is ignored and OOR is set. -/
  | hostWindowCAccess (a : HostAccess)
  /-- CXP_PACKET_RECEIVE (R29): A CoaXPress packet is received and checked for CRC, sequence and header geometry. -/
  | cxpPacketReceive (l : Fin 8) (p : CxpPacket)
  /-- ETH_FRAME_RECEIVE (R30): A received Ethernet frame is filtered to a GVSP ingest channel, to the host path receive ring, or to discard. -/
  | ethFrameReceive (p : Fin 2) (f : EthFrame)
  /-- HELD_FRAME_ADMIT (R48): A frame held at admission by the tag window is admitted once the oldest tag retires. -/
  | heldFrameAdmit (c : ChanIx)
  /-- WEST_EDGE_ROW_SEND (R52): The west-edge port takes a segment row's payloads from the pool into the fabric, freeing pool space after the last payload. -/
  | westEdgeRowSend (c : ChanIx)
  /-- SOURCE_LINK_DOWN (R55): A source link going down mid-frame drops the frame; the channel stays enabled. -/
  | sourceLinkDown (src : Source)
  /-- TRIGGER_PACKET_SEND (R28): With TRIG_FWD set, a trigger packet is sent on the master uplink 300 ns after a bound edge leaves the filter. -/
  | triggerPacketSend (l : Fin 8)
  /-- RESEND_WAIT_EXPIRY (R31): Missing packets not arrived within RESEND_WAIT µs of the gap make the block dropped. -/
  | resendWaitExpiry (c : ChanIx)
  /-- HOSTPATH_RX_HEAD_WRITE (R33): The driver writes its next read index to HOSTPATH_RX.HEAD, checked against the ring path. -/
  | hostpathRxHeadWrite (p : Fin 10) (i : BitVec 12)
  /-- HOSTPATH_TX_DOORBELL (R33): A write to HOSTPATH_TX.TAIL rings the doorbell for slots to transmit. -/
  | hostpathTxDoorbell (p : Fin 10) (i : BitVec 12)
  /-- HOSTPATH_TX_SEND (R33): The device sends a transmit slot, writes back DONE, timestamp or ERR, and advances HEAD. -/
  | hostpathTxSend (p : Fin 10)
  /-- PCIE_LINK_TRAINED (R37): The PCIe link trains; a width below x8 or rate below 32 GT/s sets DEGRADED. -/
  | pcieLinkTrained (width : BitVec 4) (rate : BitVec 3)
  /-- PCIE_LINK_DOWN (R37): Loss of the PCIe link aborts no stream; records wait in the gate. -/
  | pcieLinkDown
  /-- CWY_LINK_TRAINED (R39): Causeway training completes and the partner's position and link number appear in CWY_LINK_STATUS. -/
  | cwyLinkTrained (l : Fin 4) (pos link : BitVec 2)
  /-- CAUSEWAY_FLIT_RECEIVE (R40): A causeway flit is received, CRC-checked, acknowledged or nakked, and its payload or credits delivered. -/
  | causewayFlitReceive (l : Fin 4) (flit : BitVec 352)
  /-- CAUSEWAY_FLIT_SEND (R42): A data flit, possibly grouped under the codec, is sent on a channel holding a credit. -/
  | causewayFlitSend (l : Fin 4) (chan : Fin 16)
  /-- INGEST_CHANNEL_START (R46): EN = 1 starts an ingest channel if source, job, geometry and segments are valid, otherwise sets CFG_ERR. -/
  | ingestChannelStart (c : ChanIx)
  /-- INGEST_CHANNEL_STOP (R49): Clearing EN lets the frame in progress complete and admits no further frame. -/
  | ingestChannelStop (c : ChanIx)
  /-- SQ_DOORBELL (R68): A write to SQ_TAIL makes submission entries pending. -/
  | sqDoorbell (fn : Fn) (n : StreamIx) (i : BitVec 12)
  /-- SQ_NOP (R62): A NOP submission entry completes at once. -/
  | sqNop (n : StreamIx) (e : SqEntry)
  /-- CHANGEOVER (R72): A CHANGEOVER entry validates the named job slot and makes a changeover pending. -/
  | changeover (n : StreamIx) (e : SqEntry)
  /-- FENCE (R65): A FENCE entry waits for the records of every frame admitted before it was read. -/
  | fence (n : StreamIx) (e : SqEntry)
  /-- FENCE_COMPLETE (R65): The FENCE completion is written after the record of its TAG frame. -/
  | fenceComplete (n : StreamIx)
  /-- EVENT (R63): An EVENT entry increments a tidemark of the stream and completes after the increment is visible. -/
  | event (n : StreamIx) (e : SqEntry)
  /-- SQ_RESERVED_ENTRY (R63): An entry with a reserved opcode, reserved bit or argument out of range completes REJECTED. -/
  | sqReservedEntry (n : StreamIx) (e : SqEntry)
  /-- CHANGEOVER_GROUP_READY (R73): A fabric-altering changeover becomes ready when every stream of its group has a validated matching pending changeover. -/
  | changeoverGroupReady (n : StreamIx)
  /-- CHANGEOVER_APPLY (R75): Once the last old frame has left the touched stages, the patch set or exchange is applied at the group's slack water. -/
  | changeoverApply (n : StreamIx)
  /-- PATCH_SET_APPLIED (R76): Sequencers finish applying the patch set and the changeover frames are admitted to the fabric. -/
  | patchSetApplied (n : StreamIx)
  /-- CQ_HEAD_WRITE (R68): A write to CQ_HEAD frees completion ring space, checked against the ring path, and moves held or overflow entries in. -/
  | cqHeadWrite (fn : Fn) (n : StreamIx) (i : BitVec 12)
  /-- CQ_COALESCE_TIMER (R67): CQ_TIME µs after the first unsignalled entry, STREAM_INT_CAUSE.CQ is set. -/
  | cqCoalesceTimer (n : StreamIx)
  /-- START (R78): STREAM_CTL.START binds and validates the job slot and enters RUNNING, or sets BIND_ERR. -/
  | start (n : StreamIx)
  /-- DIRECT_LOAD_COMPLETE (R307): The direct load completes and the planes swap. -/
  | directLoadComplete (s : Fin 8)
  /-- STOP (R80): STREAM_CTL.STOP moves a RUNNING stream to STOPPING. -/
  | stop (n : StreamIx)
  /-- STOP_COMPLETE (R254): After the last admitted frame's record and the all-region barrier phase, a STOPPING stream becomes STOPPED. -/
  | stopComplete (n : StreamIx)
  /-- DRAIN (R80): STREAM_CTL.DRAIN stops admission and drains the stream without the ABORT fill. -/
  | drain (n : StreamIx)
  /-- ABORT (R80): STREAM_CTL.ABORT drains the stream with the ABORT fill of open slots. -/
  | abort (n : StreamIx)
  /-- CO_CANCEL (R74): STREAM_CTL.CO_CANCEL completes the pending changeover REJECTED with REASON 6. -/
  | coCancel (n : StreamIx)
  /-- TILE_WORD_ISSUE (R125): A tile issues its next word when every non-NOP engine slot finds an unbound command, binding them and executing IDX, SYN and header. -/
  | tileWordIssue (t : TileIx)
  /-- REPLAY_START (R124): A pending replay start begins at its entry word once the previous replay's END word has issued. -/
  | replayStart (t : TileIx)
  /-- LD_LDQ (R135): LDQ fires and walks its descriptor, pushing each 32-byte unit to the OQ. -/
  | ldLdq (t : TileIx)
  /-- LD_LDW (R168): LDW fires once its output row is ready and presents window vectors or blocks to MAT. -/
  | ldLdw (t : TileIx)
  /-- LD_LDT (R448): LDT fires and loads up to 16 units of the activation table. -/
  | ldLdt (t : TileIx)
  /-- ST_STQ (R135): STQ fires, popping one entry per unit and writing it at the walked address. -/
  | stStq (t : TileIx)
  /-- ST_STL (R162): STL fires when its ring slot is available and writes input rows into the line-buffer ring. -/
  | stStl (t : TileIx)
  /-- VEC_ADD (R154): Lane-wise A + B, saturated or IEEE. -/
  | vecAdd (t : TileIx)
  /-- VEC_SUB (R154): Lane-wise A − B. -/
  | vecSub (t : TileIx)
  /-- VEC_MUL (R154): Lane-wise A × B. -/
  | vecMul (t : TileIx)
  /-- VEC_MAX (R154): Lane-wise signed maximum. -/
  | vecMax (t : TileIx)
  /-- VEC_MIN (R154): Lane-wise signed minimum. -/
  | vecMin (t : TileIx)
  /-- VEC_CMPGT (R154): Lane all ones where A > B. -/
  | vecCmpgt (t : TileIx)
  /-- VEC_SEL (R154): Selects A or B per lane by the mask in v[VD]. -/
  | vecSel (t : TileIx)
  /-- VEC_ABS (R154): Lane-wise absolute value. -/
  | vecAbs (t : TileIx)
  /-- VEC_SHR (R154): Arithmetic right shift by u[AUX][4:0]. -/
  | vecShr (t : TileIx)
  /-- VEC_RQ (R152): Requantises a full accumulator bank and frees it. -/
  | vecRq (t : TileIx)
  /-- VEC_ACT (R157): Activation table lookup of A. -/
  | vecAct (t : TileIx)
  /-- VEC_RSUM (R154): Sum of A's lanes into lane 0. -/
  | vecRsum (t : TileIx)
  /-- VEC_RMAX (R154): Maximum of A's lanes into lane 0. -/
  | vecRmax (t : TileIx)
  /-- VEC_CVT (R156): Converts A from TY to the type AUX selects. -/
  | vecCvt (t : TileIx)
  /-- VEC_AND (R154): Bitwise A and B. -/
  | vecAnd (t : TileIx)
  /-- VEC_OR (R154): Bitwise A or B. -/
  | vecOr (t : TileIx)
  /-- VEC_XOR (R154): Bitwise A xor B. -/
  | vecXor (t : TileIx)
  /-- VEC_MOV (R154): Copies A. -/
  | vecMov (t : TileIx)
  /-- MAT_WLOAD (R447): Loads a 16 × 16 weight set into the standby weight buffer. -/
  | matWload (t : TileIx)
  /-- MAT_MMA (R147): Passes activation vectors through the array, accumulating into bank rows. -/
  | matMma (t : TileIx)
  /-- MAT_DMMA (R173): Accumulates under the diagonal mapping. -/
  | matDmma (t : TileIx)
  /-- MAT_READ (R149): Pushes a full bank's rows as int32 and frees the bank. -/
  | matRead (t : TileIx)
  /-- MAT_CLR (R142): Zeroes a free bank. -/
  | matClr (t : TileIx)
  /-- COMMAND_STEP (R138): A running command performs its next step when its operand entries have arrived. -/
  | commandStep (t : TileIx) (e : Eng) (wk : Fin 4)
  /-- ENGINE_COMMAND_COMPLETE (R127): An engine command completes, possibly passing its ERP test, sending awaited increments and finishing its replay. -/
  | engineCommandComplete (t : TileIx) (e : Eng) (wk : Fin 4)
  /-- TILE_PATROL_SCRUB (R87): Patrol scrub takes an idle bank cycle and rewrites corrected words. -/
  | tilePatrolScrub (t : TileIx) (bank : Fin 8)
  /-- TILE_FORCED_SCRUB (R87): Above threshold, after 63 rc without a grant, the scrub takes the bank by force. -/
  | tileForcedScrub (t : TileIx) (bank : Fin 8)
  /-- TILE_PATCH_APPLY (R223): A tile applies a pending patch write to u-registers while no replay is open. -/
  | tilePatchApply (t : TileIx)
  /-- LINK_SEND (R114): A switch sends an entry in an owned slot if its source holds a credit. -/
  | linkSend (t : TileIx) (d : Fin 4) (s : Fin 15)
  /-- LINK_ENTRY_ARRIVE (R104): An entry reaches the neighbour's switch 3 rc after sending, into an IQ, hold register or boundary lane. -/
  | linkEntryArrive (t : TileIx) (d : Fin 4)
  /-- BOUNDARY_LANE_MOVE (R112): A visible boundary lane entry moves into its IQ or waits for its outbound slot. -/
  | boundaryLaneMove (t : TileIx) (d : Fin 4) (lane : Fin 15)
  /-- CREDIT_RETURN (R114): A credit returned by a pop becomes usable by the sender. -/
  | creditReturn (k : Nat)
  /-- MANAGEMENT_PACKET_HOP (R110): A management packet advances one hop in slot 15 under the priority order. -/
  | managementPacketHop (t : TileIx) (d : Fin 4)
  /-- UNDERTOW_STUCK (R118): A dynamic group with no progress for WINDOW fc is detected stuck. -/
  | undertowStuck (grp : Fin 16)
  /-- UNDERTOW_SPILL_COMPLETE (R121): The spill completes and freed credits return to senders. -/
  | undertowSpillComplete (grp : Fin 16)
  /-- UNDERTOW_REFILL (R120): An IQ with space refills from its spill ring, oldest first. -/
  | undertowRefill (t : TileIx) (q : Fin 8)
  /-- DISPATCH_TOKEN (R181): The dispatch unit pairs a route entry with its token and routes it. -/
  | dispatchToken (t : TileIx)
  /-- GATHER_TOKEN (R189): The gather combines a token's residual with its expert outputs. -/
  | gatherToken (t : TileIx)
  /-- LOOP_GATE_DECISION (R196): A decision entry and its item continue the item or let it leave the loop. -/
  | loopGateDecision (t : TileIx)
  /-- LOOP_GATE_ADMIT (R197): A new item enters the loop while fewer than LIMIT items are inside. -/
  | loopGateAdmit (t : TileIx)
  /-- GROUP_TABLE_POP (R191): The tile pops a group table entry into its 16-entry table. -/
  | groupTablePop (t : TileIx)
  /-- SEQ_NOP (R203): Sequencer no operation. -/
  | seqNop (g : RegionIx)
  /-- SEQ_ADD (R203): RD = RA + RB. -/
  | seqAdd (g : RegionIx)
  /-- SEQ_SUB (R203): RD = RA − RB. -/
  | seqSub (g : RegionIx)
  /-- SEQ_AND (R203): RD = RA and RB. -/
  | seqAnd (g : RegionIx)
  /-- SEQ_OR (R203): RD = RA or RB. -/
  | seqOr (g : RegionIx)
  /-- SEQ_XOR (R203): RD = RA xor RB. -/
  | seqXor (g : RegionIx)
  /-- SEQ_SLL (R203): RD = RA shifted left by RB[4:0]. -/
  | seqSll (g : RegionIx)
  /-- SEQ_SRL (R203): RD = RA shifted right logically by RB[4:0]. -/
  | seqSrl (g : RegionIx)
  /-- SEQ_SRA (R203): RD = RA shifted right arithmetically by RB[4:0]. -/
  | seqSra (g : RegionIx)
  /-- SEQ_MUL (R203): RD = low 32 bits of RA × RB. -/
  | seqMul (g : RegionIx)
  /-- SEQ_SLT (R203): RD = 1 if RA < RB signed, else 0. -/
  | seqSlt (g : RegionIx)
  /-- SEQ_SLTU (R203): RD = 1 if RA < RB unsigned, else 0. -/
  | seqSltu (g : RegionIx)
  /-- SEQ_ADDI (R203): RD = RA + sign-extended IMM. -/
  | seqAddi (g : RegionIx)
  /-- SEQ_ANDI (R203): RD = RA and zero-extended IMM. -/
  | seqAndi (g : RegionIx)
  /-- SEQ_ORI (R203): RD = RA or zero-extended IMM. -/
  | seqOri (g : RegionIx)
  /-- SEQ_LUI (R203): RD = IMM << 16. -/
  | seqLui (g : RegionIx)
  /-- SEQ_LW (R201): Loads a word from sequencer memory. -/
  | seqLw (g : RegionIx)
  /-- SEQ_SW (R201): Stores a word to scratch, as a commit point under speculation. -/
  | seqSw (g : RegionIx)
  /-- SEQ_BEQ (R203): Branch if RA = RB. -/
  | seqBeq (g : RegionIx)
  /-- SEQ_BNE (R203): Branch if RA ≠ RB. -/
  | seqBne (g : RegionIx)
  /-- SEQ_BLT (R203): Branch if RA < RB, signed. -/
  | seqBlt (g : RegionIx)
  /-- SEQ_BGE (R203): Branch if RA ≥ RB, signed. -/
  | seqBge (g : RegionIx)
  /-- SEQ_JMP (R203): Jump. -/
  | seqJmp (g : RegionIx)
  /-- SEQ_CALL (R207): Calls into a new register window, trapping to spill if six windows are resident. -/
  | seqCall (g : RegionIx)
  /-- SEQ_JR (R203): Jump to RA[16:2]·4. -/
  | seqJr (g : RegionIx)
  /-- SEQ_RET (R208): Returns to the caller's window, filling it first if not resident. -/
  | seqRet (g : RegionIx)
  /-- SEQ_LOOP (R214): Pushes a loop level, or skips the body for a zero count. -/
  | seqLoop (g : RegionIx)
  /-- SEQ_LPOP (R215): Pops the innermost loop level. -/
  | seqLpop (g : RegionIx)
  /-- SEQ_AFF (R203): RD = RA + Σ LIDX·stride over active levels. -/
  | seqAff (g : RegionIx)
  /-- SEQ_CMD (R219): Forms a command and delivers it to the engine queue of every tile in TMASK. -/
  | seqCmd (g : RegionIx)
  /-- SEQ_REPLAY (R222): Sends a replay start to every tile in TMASK. -/
  | seqReplay (g : RegionIx)
  /-- SEQ_RWAIT (R222): Waits until every started replay is done. -/
  | seqRwait (g : RegionIx)
  /-- SEQ_PATCH (R223): Sends a patch write of u[RA] = RB to the masked tiles. -/
  | seqPatch (g : RegionIx)
  /-- SEQ_BCW (R225): Copies a 32-byte tile word into shadow words of the masked tiles. -/
  | seqBcw (g : RegionIx)
  /-- SEQ_TMINC (R226): Sends a tidemark increment over the sync ring at issue. -/
  | seqTminc (g : RegionIx)
  /-- SEQ_TMWAIT (R226): Waits until a tidemark is satisfied. -/
  | seqTmwait (g : RegionIx)
  /-- SEQ_KEYGET (R217): Waits for the oldest frame notice and loads its key. -/
  | seqKeyget (g : RegionIx)
  /-- SEQ_KEYI (R217): Sets KEY.ITER. -/
  | seqKeyi (g : RegionIx)
  /-- SEQ_SETKEY (R217): Sets KEY and makes it valid. -/
  | seqSetkey (g : RegionIx)
  /-- SEQ_SPECBR (R227): Opens a speculation with a checkpoint and commit and squash tidemarks. -/
  | seqSpecbr (g : RegionIx)
  /-- SEQ_FKICK (R281): Kicks a ferry on a block list, checked against KEY.STREAM. -/
  | seqFkick (g : RegionIx)
  /-- SEQ_MFS (R203): Reads a special register. -/
  | seqMfs (g : RegionIx)
  /-- SEQ_MTS (R204): Writes a special register. -/
  | seqMts (g : RegionIx)
  /-- FRAME_NOTICE_POST (R216): The watched IQ posts a notice for a newly open key, releasing a waiting KEYGET. -/
  | frameNoticePost (g : RegionIx)
  /-- SID_COMMIT (R229): A speculation observed to commit clears SPEC from its commands once older SIDs committed. -/
  | sidCommit (g : RegionIx) (sid : Fin 4)
  /-- SID_SQUASH (R230): A speculation observed to squash discards its and younger commands and restores the checkpoint. -/
  | sidSquash (g : RegionIx) (sid : Fin 4)
  /-- SEQ_MEM_DATA_ACCESS (R239): An access through SEQ_MEM_DATA reads or writes the word at ADDR and advances ADDR. -/
  | seqMemDataAccess (g : RegionIx) (wr : Option Word)
  /-- TIDEMARK_INCREMENT (R241): An increment reaches the tidemark unit, is checked and applied, completing phases or waits. -/
  | tidemarkIncrement (k : Nat)
  /-- TIDEMARK_WAIT (R241): A wait reaches the tidemark unit and is satisfied or queued. -/
  | tidemarkWait (k : Nat)
  /-- TIDEMARK_WAITER_RELEASE (R250): A satisfied waiter is released within the visibility bound. -/
  | tidemarkWaiterRelease (k : Nat)
  /-- BARRIER_PHASE_REPLY (R243): The phase of a barrier increment returns to its requester. -/
  | barrierPhaseReply (k : Nat)
  /-- TIDEMARK_HOST_WRITE (R260): A host write to a tidemark sets its layout value and re-evaluates waits. -/
  | tidemarkHostWrite (i : Fin 8192) (cfg : Bool) (v : Word)
  /-- REGION_QUIESCENT (R309): A region quiescent for a use adds 1 to the system tidemark. -/
  | regionQuiescent (g : RegionIx) (s : Fin 8)
  /-- BASIN_PATROL_SCRUB (R264): Basin scrub takes an idle bank cycle. -/
  | basinPatrolScrub (bank : Fin 16)
  /-- BASIN_FORCED_SCRUB (R264): Above threshold, the basin scrub takes a bank cycle by force after 63 fc. -/
  | basinForcedScrub (bank : Fin 16)
  /-- OUT_PORT_RECORD_WRITE (R267): An out-port writes an arriving entry as the next ring record and returns its credit. -/
  | outPortRecordWrite (e : Fin 40)
  /-- IN_PORT_RECORD_SEND (R268): An in-port sends its next ring record onto its circuit. -/
  | inPortRecordSend (e : Fin 40)
  /-- DRAM_REFRESH (R273): A per-bank refresh falls due and takes priority over all accesses. -/
  | dramRefresh
  /-- RETRAINING_DUE (R274): INTERVAL ms after the last retraining, a retraining falls due. -/
  | retrainingDue
  /-- DRAM_RETRAIN (R274): A due retraining runs at the next lull. -/
  | dramRetrain
  /-- FORCED_RETRAINING (R274): A retraining pending 100 ms is forced, stalling DRAM for at most 1.5 µs. -/
  | forcedRetraining
  /-- DRAM_PATROL_SCRUB (R275): DRAM patrol scrub uses an idle mc cycle on a touched page. -/
  | dramPatrolScrub
  /-- ZERO_FILL_COMPLETE (R278): The zero-fill of a first-written page completes and waiting writes and reads proceed. -/
  | zeroFillComplete (k : Nat)
  /-- MEM_UNTOUCH (R279): MEM_UNTOUCH.GO returns COUNT pages to untouched. -/
  | memUntouch (v : Word)
  /-- MEM_UNTOUCH_DONE (R279): The untouch operation completes and GO reads 0. -/
  | memUntouchDone
  /-- FERRY_KICK (R281): A host write to FERRY_KICK queues a kick without a key. -/
  | ferryKick (fn : Fn) (f : FerryIx) (list : BitVec 21)
  /-- FERRY_BLOCK_START (R284): A ferry checks a block's extent and form before its first access. -/
  | ferryBlockStart (f : FerryIx)
  /-- DRAM_READ_PORT_PICK (R287): The DRAM read port chooses a ferry by least slack. -/
  | dramReadPortPick
  /-- FERRY_READ_COMPLETE (R276): A 64-byte ferry read returns its data within 400 ns. -/
  | ferryReadComplete (f : FerryIx) (host : HostReply)
  /-- FERRY_WRITE (R285): A ferry writes staged data to its destination, encoding or decoding if set. -/
  | ferryWrite (f : FerryIx) (host : HostReply)
  /-- FERRY_BLOCK_COMPLETE (R252): A block's writes become visible and its TMEN increment is made. -/
  | ferryBlockComplete (f : FerryIx)
  /-- LAYOUT_INSTALL (R303): LAYOUT_CTL OP 1 translates and installs a package into a slot. -/
  | layoutInstall (s : Fin 8)
  /-- LAYOUT_EVICT (R303): LAYOUT_CTL OP 2 clears a slot not in use. -/
  | layoutEvict (s : Fin 8)
  /-- FORCED_EXCHANGE (R315): LAYOUT_CTL OP 3 swaps a ready group without waiting for quiescence, aborting frames in flight. -/
  | forcedExchange (s : Fin 8)
  /-- LAYOUT_INSTALL_COMPLETE (R299): Translation ends, accepting the image or rejecting it with a REASON. -/
  | layoutInstallComplete (p : Sections)
  /-- STAGING_COMPLETE (R306): Staging completes and SHADOW_VALID and STAGED become 1. -/
  | stagingComplete (s : Fin 8)
  /-- SLACK_WATER_SWAP (R310): With the barrier phase complete and staging done, the regions perform GSR, tidemark writes, dividers and the plane swap. -/
  | slackWaterSwap (s : Fin 8)
  /-- FINAL_TOKEN_POP (R318): The exit gate pops a final token and fills its slot with a verdict. -/
  | finalTokenPop (y : Fin 20)
  /-- GATE_SLOT_RELEASE (R321): A filled slot is released in admission order and its action is sent to the keel. -/
  | gateSlotRelease (n : StreamIx)
  /-- KEEL_ACTION_DECISION (R322): The keel decides an arriving action on time or LATE and disarms, confirms or fires the timer. -/
  | keelActionDecision
  /-- VERDICT_RECORD_WRITE (R323): The gate writes the 64-byte verdict record after the keel answers. -/
  | verdictRecordWrite (n : StreamIx)
  /-- DEADLINE_REACHED (R22): A bound frame's deadline passes without an accepted action and the keel sends LATE. -/
  | deadlineReached (tm : Fin 64)
  /-- LATE_RECEIVE (R319): A LATE from the keel fills or replaces the frame's unreleased slot. -/
  | lateReceive
  /-- ENCODER_TRANSITION (R324): A filtered quadrature transition updates the encoder position. -/
  | encoderTransition (e : Fin 4) (a b : Bool)
  /-- ENCODER_INDEX (R325): A rising ENC_Z latches the position into ENC_ZPOS under ZMODE 1. -/
  | encoderIndex (e : Fin 4)
  /-- TRIGGER_EDGE (R328): A filtered trigger edge is accepted, queued in its FIFO and arms a distance timer. -/
  | triggerEdge (i : Fin 16) (rising : Bool)
  /-- DISTANCE_TIMER_FIRE (R332): A timer not disarmed fires at its position and drives its actuator. -/
  | distanceTimerFire (tm : Fin 64)
  /-- PULSE_END (R335): A pulse ends after PULSE_WIDTH hk and the timer becomes free. -/
  | pulseEnd (tm : Fin 64)
  /-- INTERVAL_TIMER_EXPIRY (R336): An interval timer expires and performs its ACTION. -/
  | intervalTimerExpiry (k : Fin 32)
  /-- PRESS_ENABLE (R340): Setting PRESS_CTL.EN starts edge acceptance and output drive. -/
  | pressEnable
  /-- PRESS_DISABLE (R340): Clearing EN stops acceptance and turns drivers off after pulses end. -/
  | pressDisable
  /-- ENC_CTL_WRITE (R327): A write to ENC_CTL is refused if it disables or inverts an encoder with armed timers. -/
  | encCtlWrite (e : Fin 4) (v : Word)
  /-- DRAIN_POINT (R347): At the drain point the stream enters DRAINING, its channel admits and drops, and open slots receive ABORT. -/
  | drainPoint (n : StreamIx)
  /-- DRAIN_COMPLETE (R349): The drain completes, DRAINED is set, vector 4 signalled, and the stream may resume. -/
  | drainComplete (n : StreamIx)
  /-- SCAN_OUT_COMPLETE (R352): Region scan-out completes and GSR and scan-in begin. -/
  | scanOutComplete (g : RegionIx)
  /-- SCAN_IN_COMPLETE (R352): Scan-in completes, GSR is released and sequencers restart. -/
  | scanInComplete (g : RegionIx)
  /-- REGION_RECOVER (R352): REGION_FCTL.RECOVER starts recovery of a halted region, or raises HOST_RECOVER on a running one. -/
  | regionRecover (g : RegionIx)
  /-- RECOVERY_STEP_TIMEOUT (R358): A recovery step exceeding twice its bound raises RECOVERY_FAILED class F. -/
  | recoveryStepTimeout (g : RegionIx)
  /-- FAULT_HEAD_WRITE (R344): A write to FAULT_HEAD frees ring slots and clears LOST. -/
  | faultHeadWrite (fn : Fn) (n : StreamIx) (v : Word)
  /-- FLOG_HEAD_WRITE (R344): A write to FLOG_HEAD frees device log slots. -/
  | flogHeadWrite (v : Word)
  /-- FCLR (R344): FLOG_CTL.FCLR clears FLOG_FATAL. -/
  | fclr
  /-- CCLR (R341): FLOG_CTL.CCLR clears every FAULT_C_COUNT. -/
  | cclr
  /-- JOURNAL_DATA_READ (R360): A read of JOURNAL_DATA returns the MRAM word and advances ADDR. -/
  | journalDataRead
  /-- SUPPLY_SWITCH_OVER (R363): A VAON_MAIN crossing confirmed for 40 hk switches the keel to VBAK and enters BACKUP. -/
  | supplySwitchOver (mv : BitVec 16)
  /-- TRAY_INPUT_LOSS (R418): Loss of the tray's 12 V input makes all packages switch over together. -/
  | trayInputLoss (mv : BitVec 16)
  /-- EBB_HOLD_END (R365): The ebb hold ends on timeout, undervoltage or trip, raising SUPPLY_EBB class F. -/
  | ebbHoldEnd (why : EbbEnd)
  /-- RAIL_REMOVAL (R366): After the gate releases filled slots or 20 µs, the rails are removed in descending order. -/
  | railRemoval
  /-- RETURN_TO_MAIN (R367): VAON_MAIN above 1.66 V for 10 ms returns the keel to main supply. -/
  | returnToMain
  /-- VBAK_LOW (R368): VBAK below 3.0 V sets VBAK_LOW. -/
  | vbakLow (mv : BitVec 16)
  /-- VBAK_EXHAUSTED (R368): VBAK too low for the keel with VAON_MAIN absent brings the device to OFF. -/
  | vbakExhausted
  /-- POR_RELEASE (R432): POR is released, straps are sampled, and the ROM verifies firmware. -/
  | porRelease (smb : BitVec 2)
  /-- RAIL_POWER_GOOD (R362): A RAIL_PG input rises and the next enable is asserted. -/
  | railPowerGood (k : Fin 4)
  /-- RAIL_PG_TIMEOUT (R362): A RAIL_PG not high within 2 ms ends the boot with code 2. -/
  | railPgTimeout (k : Fin 4)
  /-- RAIL_PG_LOSS (R438): RAIL_PG low for 40 hk with its enable asserted raises SUPPLY_EBB class F. -/
  | railPgLoss (k : Fin 4)
  /-- VPRESS_UNDERVOLTAGE (R439): VPRESS below 90 % sets SUPPLY_MON[6].UV. -/
  | vpressUndervoltage (mv : BitVec 16)
  /-- PLL_LOCK (R374): The fabric and memory PLLs lock. -/
  | pllLock
  /-- BOOT_SCRUB_COMPLETE (R383): Tile stores, sequencer memories and the basin are scrubbed to zero. -/
  | bootScrubComplete
  /-- DRAM_TRAINING_COMPLETE (R383): DRAM training ends with every page untouched, and the boot policy runs. -/
  | dramTrainingComplete (pol : BootPolicy)
  /-- PWR_TARGET_DOZE (R371): PWR_CTL.TARGET = DOZE requests DOZE if all streams are stopped. -/
  | pwrTargetDoze
  /-- PWR_TARGET_KEEL (R371): PWR_CTL.TARGET = KEEL requests KEEL. -/
  | pwrTargetKeel
  /-- PWR_TARGET_RUN (R372): PWR_CTL.TARGET = RUN wakes the device. -/
  | pwrTargetRun
  /-- POWER_STATE_REACHED (R371): An accepted DOZE or KEEL request completes. -/
  | powerStateReached
  /-- WAKE_PIN (R373): WAKE_N falling wakes the device from KEEL. -/
  | wakePin
  /-- SMBUS_WAKE (R373): An SMBus wake command wakes the device. -/
  | smbusWake
  /-- RTC_ALARM (R373): RTC_SEC reaching RTC_ALARM wakes the device. -/
  | rtcAlarm
  /-- REGION_ARMED_ENTRY (R369): A region idle for IDLE rc enters ARMED. -/
  | regionArmedEntry (g : RegionIx)
  /-- REFCLK_LOSS (R375): REFCLK stops; HK holds and fabric PLLs lose lock. -/
  | refclkLoss
  /-- HK_FALLBACK (R375): After 1 ms HK switches to the internal oscillator. -/
  | hkFallback
  /-- HK_RESTORE (R375): HK returns to the PLL 1 ms after REFCLK is stable. -/
  | hkRestore
  /-- KTIME_STEP (R377): A write to KTIME_STEP adds its value to KTIME. -/
  | ktimeStep (v : Word)
  /-- THERMAL_WARN (R378): A reading reaches WARN and signals PF vector 7. -/
  | thermalWarn (sensor : Fin 27) (temp : BitVec 10)
  /-- THERMAL_THROTTLE (R379): A reading at THROTTLE makes region clocks omit pulses. -/
  | thermalThrottle (sensor : Fin 27) (temp : BitVec 10)
  /-- THERMAL_TRIP (R380): A reading at 115 °C raises THERMAL_TRIP class F and shuts down to KEEL. -/
  | thermalTrip (sensor : Fin 27) (temp : BitVec 10)
  /-- THERMAL_CALIBRATION (R398): Every 10 s the keel calibrates the sensors. -/
  | thermalCalibration
  /-- REGION_RESET (R381): REGION_PWR.RST resets an unoccupied region. -/
  | regionReset (g : RegionIx)
  /-- KEYSTORE_LOAD (R385): KEYSTORE_CTL.LOAD loads a public key into SLOT. -/
  | keystoreLoad (v : Word)
  /-- KEYSTORE_CLEAR (R385): KEYSTORE_CTL.CLEAR empties SLOT. -/
  | keystoreClear (v : Word)
  /-- KEYSTORE_LOCK (R385): KEYSTORE_CTL.LOCK locks the key store. -/
  | keystoreLock (v : Word)
  /-- OBS_CLR (R386): OBS_CTL.CLR clears every counter. -/
  | obsClr
  /-- OBS_FREEZE (R388): Setting FREEZE stops every counter. -/
  | obsFreeze
  /-- OBS_UNFREEZE (R388): Clearing FREEZE restarts every counter. -/
  | obsUnfreeze
  /-- TRACE_RECORD_WRITE (R391): A trace record is written from its FIFO to the trace ring. -/
  | traceRecordWrite (u : Nat)
  /-- TELEMETRY_SAMPLE (R393): Every PERIOD µs the counter set is sampled to the telemetry ring. -/
  | telemetrySample
  /-- SCAN_OUT (R394): SCAN_CTL.GO scans out a halted region. -/
  | scanOut (g : RegionIx)
  /-- TILE_DEBUG_HALT (R395): TILE_DBG_CTL.HALT stops word issue. -/
  | tileDebugHalt (t : TileIx)
  /-- TILE_DEBUG_STEP (R395): TILE_DBG_CTL.STEP issues one word. -/
  | tileDebugStep (t : TileIx)
  /-- SEQ_DEBUG_HALT (R395): SEQ_DBG_CTL.HALT stops the sequencer. -/
  | seqDebugHalt (g : RegionIx)
  /-- SEQ_DEBUG_STEP (R395): SEQ_DBG_CTL.STEP issues one instruction. -/
  | seqDebugStep (g : RegionIx)
  /-- DEBUG_UNLOCK (R397): DBG_LOCK.UNLOCK checks the signature and unlocks debug. -/
  | debugUnlock
  /-- DEBUG_RELOCK (R397): DBG_LOCK.RELOCK locks debug. -/
  | debugRelock
  /-- BIST_START (R399): BIST_CTL.GO runs a march test on the selected memories. -/
  | bistStart (targets : BitVec 3)
  /-- BIST_COMPLETE (R400): Self-test completes and reports failing regions and banks. -/
  | bistComplete (regions : BitVec 25) (banks : BitVec 16)
  /-- FABRIC_LOOPBACK (R401): TILE_DBG_LOOP starts a PRBS fabric loop-back. -/
  | fabricLoopback (t : TileIx) (dir depth : BitVec 2)
  /-- TAP_BYPASS (R403): TAP BYPASS. -/
  | tapBypass
  /-- TAP_IDCODE (R403): TAP IDCODE. -/
  | tapIdcode
  /-- TAP_SAMPLE_PRELOAD (R403): TAP SAMPLE/PRELOAD. -/
  | tapSamplePreload (load : BitVec 44)
  /-- TAP_EXTEST (R404): TAP EXTEST. -/
  | tapExtest
  /-- TAP_CLAMP (R403): TAP CLAMP. -/
  | tapClamp
  /-- TAP_HIGHZ (R403): TAP HIGHZ. -/
  | tapHighz
  /-- TAP_EXTEST_PULSE (R403): TAP EXTEST_PULSE. -/
  | tapExtestPulse
  /-- TAP_EXTEST_TRAIN (R403): TAP EXTEST_TRAIN. -/
  | tapExtestTrain
  /-- BMC_POLL (R421): The BMC reads every keel status every 100 ms. -/
  | bmcPoll (s : List PackageStatus)
  /-- BMC_FIRMWARE_WRITE (R420): The BMC writes keel firmware. -/
  | bmcFirmwareWrite (d : Fin 4) (image : FwImage)
  /-- TRAY_ACTIVATE (R420): TRAY_CTL.ACTIVATE warm-resets a package onto its new image. -/
  | trayActivate (v : Word)
  /-- BANK_LOW (R419): The tray bank below 4.0 V holds every package in KEEL. -/
  | bankLow (mv energy : BitVec 16)
  /-- SOURCE_LINK_UP (R46): A CoaXPress link regains lock and its group deskews, or an Ethernet port regains PCS block lock, and the bound ingest channel admits frames again. -/
  | sourceLinkUp (src : Source)
  /-- SEQ_RESERVED_OPCODE (R204): The sequencer reaches an instruction with a reserved opcode 0x2B–0x3F, raises ILLEGAL_WORD and traps to SEQ_RESTART. -/
  | seqReservedOpcode (g : RegionIx)
  /-- THROTTLE_END (R379): Every pipeline reading falls below THERM_CFG.THROTTLE and region clocks stop omitting pulses. -/
  | throttleEnd (cool : List (BitVec 10))
  /-- RST_N_RISE (R441): RST_N rises after being held low, and boot step 2 begins. -/
  | rstNRise
  /-- FIRMWARE_VERIFIED (R384): The keel ROM finishes verifying firmware image A or B, and step 2 starts or the boot fails with code 1. -/
  | firmwareVerified (okA okB : Bool) (fw : Word)
  /-- KEEL_FIRMWARE_READY (R362): Boot step 2 (journal, calibration, key loading) completes and the keel asserts RAIL_EN[0]. -/
  | keelFirmwareReady
  /-- DOZE_WAKE_COMPLETE (R372): The wake from DOZE completes within 40 µs, the device is in RUN, and deferred host accesses complete. -/
  | dozeWakeComplete
  /-- DRAM_RETRAIN_COMPLETE (R274): A periodic or forced DRAM retraining ends and stalled DRAM accesses resume. -/
  | dramRetrainComplete
  /-- BANK_RECHARGED (R419): The tray bank charges back above 4.0 V, BANK_LOW clears, and pipeline boot is no longer refused. -/
  | bankRecharged (mv energy : BitVec 16)
  /-- SMBUS_KEEL_WRITE (R418): The BMC writes a keel register such as PWR_EBB.HOLD over the keel's SMBus segment. -/
  | smbusKeelWrite (off : Nat) (v : Word)
deriving DecidableEq, Repr

end Sys2Proof
end

