-- ==== Sys2Proof/Config.lean ====
section
/-! DEFINITION. What an implementation or a board fixes, and the free values: constants without a body, so that nothing can be proved of their values. -/
namespace Sys2Proof.Config

/-- GLOBAL_ID.GRADE (20, GLOBAL registers): true for an EL4020-A. DESIGN CHOICE notes/assumptions/2.md: one unknown device. -/
opaque gradeA : Bool
/-- GLOBAL_SERIAL_LO and _HI: the device's unique number. -/
opaque serial : BitVec 64
/-- Keel firmware version read by GLOBAL_FW before any firmware row has named one. -/
opaque firmware : BitVec 32
/-- MEM_DRAM_CFG: RATE, CAP and RANKS of the board. -/
opaque dramCfg : BitVec 32
/-- The fused keys of key store slots 0 to 3 (16, Key store). -/
opaque fusedKey : Nat → BitVec 512
/-- The keys that flash holds for slots 4 to 15, if any (16, Boot step 2). -/
opaque flashKey : Nat → Option (BitVec 512)
/-- R385: a point lies on the curve P-256. The curve is named by the spec and not restated in it. -/
opaque onCurve : BitVec 512 → Bool
/-- R297, R397: an ECDSA P-256 signature (r then s) over the SHA-256 digest of the bytes verifies under the key. -/
opaque ecdsaValid : BitVec 512 → List (BitVec 8) → BitVec 512 → Bool
/-- DBG_CHAL: the n-th nonce drawn (R397; reset '—'). -/
opaque nonce : Nat → BitVec 64
/-- TRAY_ID and TRAY_STATUS.PRESENT of the tray (19, Registers). -/
opaque trayId : BitVec 32
opaque trayPresent : BitVec 4
/-- Journal words that nothing has written since manufacture (JOURNAL_A_NEXT, _B_NEXT and JOURNAL_DATA have reset '—'). -/
opaque journalA : Nat
opaque journalB : Nat
opaque journalSeq : Nat
opaque mram : Nat → BitVec 8
/-- The data an uncorrectable word gives: the spec marks it poisoned and states no data (R85, R263). -/
opaque badWord : Nat → BitVec 64 → BitVec 64
/-- WOFF of the group table entries that tile t's dispatch unit sends for expert e (R187): the spec gives the entry's field
and no register or rule for its value. -/
opaque expertOffset : Nat → Nat → BitVec 13
/-- R298: the local tile mask that a virtual tile mask becomes in a region whose tiles used are given as a mask: the spec
states no placement of virtual tiles. -/
opaque localMask : Nat → Nat → BitVec 16
/-- A fresh free value: the n-th one drawn. -/
opaque freeWord : Nat → BitVec 64

end Sys2Proof.Config
end

