-- ==== Sys2Proof/Machine/State.lean ====
section
/-! DEFINITION. The state of the block, as plain data, and the state right after reset.
Every register of window A has its home in `regs` (the value a read returns, unless the register shows one of the
structures below), `active` (the value in effect of an RWS register, R8) or `counters`; everything else the spec gives
the device stands in the structures of this file. A table lists only the entries that differ from their reset value. -/
namespace Sys2Proof.Machine

/-- What the check bits of one memory word say (R84 to R86, R263). -/
inductive Ecc where
  | clean
  | single
  | double
  | poison
deriving DecidableEq, Repr

/-- A memory: its bytes in canonical form and the words whose check bits are not clean. -/
structure Ram where
  cells : List Host.Cell
  ecc : Tab Ecc
deriving DecidableEq, Repr

/-- A job context (R69): the slot, the 16 words of the descriptor, the patch entries (TARGET, UREG, VALUE). -/
structure JobCtx where
  slot : Nat
  words : List Word
  patches : List (Nat × Nat × Word)
deriving DecidableEq, Repr

/-- The state of a frame slot of the exit gate (14, Frame slots and order). -/
inductive SlotSt where
  | free
  | opened
  | filled
  | closed
deriving DecidableEq, Repr

/-- An accepted trigger edge (R328) and the timer it armed (R331). -/
structure Edge where
  time : Nat
  encs : List Word
  hk : Word
  pos : Word
  timer : Option Nat
  slip : Bool
  coal : Bool
deriving DecidableEq, Repr

/-- A frame slot: its state and outcome, the job of its frame, its edge, and what the record copies (R318 to R323). -/
structure Slot where
  st : SlotSt
  outcome : Nat
  byToken : Bool
  job : JobCtx
  trig : Nat
  edge : Option Edge
  cls : Nat
  tmask : Nat
  scores : Nat
  user : Nat
  gov : Bool
  psn : Bool
  buffered : Bool
  camTime : DWord
  lastPixel : Nat
  inFabric : Bool
deriving DecidableEq, Repr

/-- A pending changeover (R72 to R76). -/
structure Pend where
  cid : Nat
  ctx : JobCtx
  atTag : Option Nat
  isLocal : Bool
  ready : Bool
  applying : Bool
  inForce : Bool
  firstTag : Option Nat
deriving DecidableEq, Repr

/-- Why a stream drains (R347, R349, the stream state table). -/
inductive DrainKind where
  | fault
  | abort
  | drain
deriving DecidableEq, Repr

/-- A stream beyond its page's registers. -/
structure Stream where
  job : Option JobCtx
  pend : Option Pend
  fence : Option (Nat × Nat)
  nextTag : Nat
  admitted : List Nat
  lastAdmitted : Option Nat
  slots : Tab Slot
  inspect : Nat
  held : List (List Word)
  waitq : List (List Word)
  ovf : Nat
  ovfAt : Nat
  cqSeq : Nat
  phase : Bool
  unsig : Nat
  drainReq : Option DrainKind
  drainKind : Option DrainKind
  loading : Bool
deriving DecidableEq, Repr

/-- One segment row in an ingest pool: its frame, the west-edge port it goes to, the payloads not yet taken, its space. -/
structure PoolRow where
  tag : Nat
  seg : Nat
  pays : List Entry
  bytes : Nat
deriving DecidableEq, Repr

/-- A frame of an ingest channel (R47 to R55): its tag (that it will receive, while it is held), lines in all and received,
the west-edge ports that took payloads with the ITER of the last one, lines that wait to be regrouped, the edge of a held
frame, and the values of FMT, GEOM, SEG and POOL it uses (R56). -/
structure Frame where
  tag : Nat
  lines : Nat
  got : Nat
  held : Bool
  refused : Bool
  dropped : Bool
  taken : List (Nat × Nat)
  part : List (List Byte)
  camTime : DWord
  edge : Option Edge
  cfg : List Word
deriving DecidableEq, Repr

/-- The GVSP block in progress (R31, R32): its ID, the next packet ID, the next one to deliver, those missing, those that
wait for one missing, the number of packets its trailer named. -/
structure GvBlock where
  id : Nat
  next : Nat
  due : Nat
  missing : List Nat
  early : List (Nat × List Byte)
  total : Option Nat
deriving DecidableEq, Repr

/-- An ingest channel beyond its registers: the frame arriving, frames received whole that wait for a tag, the pool, closing
payloads to send, the GVSP block, the block last ended, the next CoaXPress packet number. -/
structure Chan where
  frame : Option Frame
  waits : List Frame
  pool : List PoolRow
  closeTo : List (Nat × Entry)
  block : Option GvBlock
  lastBlock : Option Nat
  expect : Option (BitVec 8)
deriving DecidableEq, Repr

/-- An action on its way to the keel, or its answer (R321, R322). -/
structure Action where
  stream : Nat
  tag : Nat
  outcome : Nat
deriving DecidableEq, Repr

/-- The keel's answer to an action: the outcome it decides and what the record says of it (R322). -/
structure Answer where
  stream : Nat
  tag : Nat
  verdict : Nat
  fire : Bool
  ebb : Bool
  slip : Bool
  coal : Bool
  actionPos : Word
deriving DecidableEq, Repr

/-- A distance timer (R331 to R335). `st` is DT_INFO.STATE. -/
structure Timer where
  st : Nat
  fire : Word
  deadline : Word
  act : Nat
  pulse : Nat
  trig : Nat
  enc : Nat
  tbase : Bool
  stream : Nat
  tag : Option Nat
  edgePos : Word
  reached : Bool
  slip : Bool
  coal : List Word
  hot : Bool
  accepted : Bool
  done : Bool
deriving DecidableEq, Repr

/-- The press interface beyond its registers. -/
structure Press where
  levels : Tab Bool
  fifo : Tab (List Edge)
  timers : Tab Timer
  ticks : Tab Nat
  pulses : Tab Nat
  ctx : Tab JobCtx
  uplink : List Nat
deriving DecidableEq, Repr

/-- The completion path and the sideband between gate and keel. -/
structure Gate where
  ports : Tab (List Entry)
  free : Nat
  actions : List Action
  answers : List Answer
  lates : List (Nat × Nat)
deriving DecidableEq, Repr

/-- What a bound command took from its word at issue (R126). -/
structure Bound where
  word : Nat
  slot : Nat
  stream : Nat
  replay : Nat
  uoff : Nat
  xit : Option Nat
  us : List Word
  desc : Pay
  erp : Option Nat
deriving DecidableEq, Repr

/-- A fired command (R97, R138): its key, the steps it runs and has made, what it has popped. -/
structure Run where
  key : Word
  total : Nat
  made : Nat
  pushed : Nat
  gov : Bool
  psn : Bool
  last : Tab Word
  stopped : Bool
  woff : Nat
  guardHit : Bool
  image : List Pay
  bank : Nat
  ringSlot : Nat
deriving DecidableEq, Repr

/-- A command in an engine command queue: its 128 bits, its word if bound, its run if fired. -/
structure QCmd where
  cmd : BitVec 128
  bound : Option Bound
  run : Option Run
  dead : Bool
deriving DecidableEq, Repr

/-- An accumulator bank's state (R142, R148, R151). -/
structure Bank where
  full : Bool
  gov : Bool
  psn : Bool
  fp : Option Bool
  owner : Option Nat
deriving DecidableEq, Repr

/-- One staged effect of a SPEC command (R232). -/
inductive Staged where
  | push (q : Nat) (e : Entry)
  | vreg (i : Nat) (v : Pay)
  | row (b r : Nat) (lanes : List (BitVec 40))
  | bank (b : Nat) (st : Bank)
  | standby (ps : List Pay) (psn : Bool)
  | gtTake (e : Nat)
  | fin (e tag : Nat)
  | fault (code unit word stream tag : Nat)
deriving DecidableEq, Repr

/-- A SYN TMINC awaiting commands (R131): index, increment, stream, the commands it still awaits by engine and position tag. -/
structure Await where
  idx : Nat
  inc : Nat
  stream : Nat
  cmds : List (Nat × Nat)
deriving DecidableEq, Repr

/-- A window context (R158 to R171): its key, its number in TILE_WIN_CTX, the open row (slot, STLs completed, GOV, EOFR),
the rows held (slot and GOV), and its counts. -/
structure WinCtx where
  key : Word
  born : Nat
  open_ : Option (Nat × Nat × Bool × Bool)
  rows : Tab (Nat × Bool)
  inRows : Nat
  ih : Option Nat
  outRow : Nat
  ldwDone : Nat
deriving DecidableEq, Repr

/-- A presented vector or block (R168 to R171): one row of elements for a vector, rows X[k] of 16 elements for a block;
its stream and its flags. -/
structure Shown where
  stream : Nat
  x : List (List Nat)
  gov : Bool
  psn : Bool
deriving DecidableEq, Repr

/-- A halo push waiting for its units (R174). -/
structure Halo where
  h : Nat
  slot : Nat
  ctxKey : Word
  row : Nat
  next : Nat
  last : Word
  gov : Bool
  psn : Bool
deriving DecidableEq, Repr

/-- One token of a dispatch block: its entries and its route entry, and the mask decided. -/
structure Token where
  es : List Entry
  route : Entry
  mask : Nat
deriving DecidableEq, Repr

/-- The dispatch unit (09): the open block and its loads, what each OQ holds back, what waits for OQ space, loop items with
their trips, the gather block (records with residuals) and how far its outputs have come, and whether a fault stopped it. -/
structure Disp where
  block : List Token
  load : Tab Nat
  held : Tab (List (List Entry))
  out : List (Nat × Entry)
  items : List (Word × Nat)
  gather : List (Entry × List Entry)
  next : Nat
  stuck : Bool
deriving DecidableEq, Repr

/-- A tile beyond its page's registers. `staged` lists what SPEC commands have staged, in firing order: SID (4: committed and
retiring), engine, tag, effect (R232). -/
structure Tile where
  plane : Bool
  shadowValid : Bool
  gsr : Bool
  halted : Bool
  dhalt : Bool
  step : Bool
  imem : Tab Pay
  imemSh : Tab Pay
  imemBad : List Nat
  u : Tab Word
  uSh : Tab Word
  uBase : Tab Word
  x : Tab (BitVec 16)
  c : Tab Bool
  v : Tab Pay
  act : Tab (BitVec 16)
  acc : Tab (BitVec 40)
  banks : Tab Bank
  standby : List Pay
  standbyPsn : Bool
  cq : Tab (List QCmd)
  iq : Tab (List Entry)
  oq : Tab (List Entry)
  used : Tab Nat
  replay : Option (Nat × Nat × Nat)
  pendStart : Option (Nat × Nat × Nat)
  dead : Bool
  synWait : Option Nat
  open_ : List (Nat × Nat × Bool)
  eofSeen : List (Nat × Nat)
  awaits : List Await
  record : Option (Nat × Nat)
  patches : List (Nat × Word × Nat)
  wins : List WinCtx
  shown : List Shown
  halos : List Halo
  disp : Disp
  gt : List (Entry × List Nat)
  staged : List (Nat × Nat × Nat × Staged)
  trace : List (List Byte)
  scrub : Tab Nat
  store : Ram
  replayNo : Nat
deriving DecidableEq, Repr

/-- A speculation of a sequencer (R227 to R230): its tidemarks and targets, and its checkpoint. -/
structure Sid where
  sid : Nat
  cIdx : Nat
  sIdx : Nat
  cTgt : Nat
  sTgt : Nat
  onSquash : Nat
  committed : Bool
  regs : List Word
  g : Tab Word
  loops : List (Nat × Nat × Nat × Nat × Nat)
  key : Word
  tmask : Nat
  spill : Nat
deriving DecidableEq, Repr

/-- The region sequencer beyond its page's registers. `win` holds k0 to k7 and q0 to q3 of window w from 16·w; `loops` is
innermost first: trips that remain, LIDX, stride, first and last address of the body; `key` is KEY with VALID in bit 0;
`seen` is how many entries of the watched IQ need no further notice; `mem` is keyed by word address of R201. -/
structure Seq where
  pc : Nat
  g : Tab Word
  win : Tab Word
  ra : Tab Nat
  cwp : Nat
  resident : Nat
  depth : Nat
  loops : List (Nat × Nat × Nat × Nat × Nat)
  key : Word
  tmask : Nat
  tag : Nat
  spill : Nat
  sids : List Sid
  notices : List Word
  keys : List Word
  seen : Nat
  wait : Nat
  waitIdx : Option Nat
  granted : Bool
  record : Option (Nat × Nat)
  patchNo : Nat
  started : Nat
  doneReplays : Nat
  patch : List (Nat × Nat × Word)
  patching : Bool
  halted : Bool
  trapped : Bool
  dhalt : Bool
  step : Bool
  mem : Tab Word
  ecc : Tab Ecc
  trace : List (List Byte)
  rc : Nat
  savedDiv : Nat
  recTimes : List Nat
  fault : List Word
deriving DecidableEq, Repr

/-- Who made a tidemark request (R247, R248). -/
inductive Req where
  | seq (g : Nat)
  | tile (t : Nat)
  | disp (t : Nat)
  | ferry (f : Nat)
  | host
deriving DecidableEq, Repr

/-- A request on its way to the tidemark unit: an increment (`some n`) or a wait (`none`). -/
structure TmReq where
  req : Req
  idx : Nat
  stream : Nat
  inc : Option Nat
deriving DecidableEq, Repr

/-- A wait held by a tidemark; `phase` is the phase it waits for in barrier and event mode. -/
structure Waiter where
  req : Req
  stream : Nat
  phase : Nat
deriving DecidableEq, Repr

/-- A tidemark (R240): the current value, the layout value and its waits. -/
structure Tm where
  count : Nat
  target : Nat
  owner : Nat
  mode : Nat
  phase : Nat
  ovf : Bool
  lay : Nat × Nat × Nat × Nat
  waits : List Waiter
deriving DecidableEq, Repr

/-- A use of a system tidemark (R255): a changeover group or a stop or drain, its streams, and the regions that have added. -/
structure Use where
  slot : Nat
  change : Bool
  streams : List Nat
  done : List Nat
deriving DecidableEq, Repr

/-- An image of the layout image store (R303, LAYOUT_INFO); bit g of `active` says that it is the active plane of region g. -/
structure Image where
  id : Nat
  native : Bool
  staged : Bool
  active : Nat
  regions : Nat
  lfab : Nat
  body : Sections
deriving DecidableEq, Repr

/-- A kick in a ferry's queue (R281, R282): list offset, key of an FKICK, and the speculation it runs under. -/
structure Kick where
  list : Nat
  key : Option Word
  spec : Option (Nat × Nat)
deriving DecidableEq, Repr

/-- A ferry beyond its page's registers. -/
structure Ferry where
  kicks : List Kick
  cur : Option Kick
  at_ : Nat
  block : Option (List DWord)
  started : Bool
  rd : Nat
  wr : Nat
  inflight : Nat
  staged : List (Byte × Bool)
  tag : Bool
deriving DecidableEq, Repr

/-- A write that waits for a page's zero-fill (R278). -/
structure Fill where
  page : Nat
  writes : List (Nat × List Byte × Bool)
deriving DecidableEq, Repr

/-- Memory state beyond the registers. -/
structure Mem where
  basin : Ram
  dram : Ram
  touched : List Nat
  fills : List Fill
  retrain : Bool
  forced : Bool
  ferryRr : Nat
  scrub : Tab Nat
  dscrub : Nat
  untouch : Option (Nat × Nat)
deriving DecidableEq, Repr

/-- An edge port (R267, R268): entries at the port, the ring slots that hold records in order, the next slot written,
the credits an in-port has spent. -/
structure EdgePort where
  inq : List Entry
  recs : List Nat
  wr : Nat
  used : Nat
deriving DecidableEq, Repr

/-- A causeway link (R40 to R45): the next SEQ to send and to receive, flits not yet acknowledged and those to send again,
the SEQ last nakked by the partner and how often in succession, naks sent since the last good data flit, good data flits since
the last ack sent; per channel the credits spent and to return, closing payloads to send, received entries (true: the last of
its flit), and the sideband of the last entry sent of each frame not yet closed (R415). -/
structure Cwy where
  txSeq : Nat
  rxSeq : Nat
  replay : List (BitVec 352)
  resend : List (BitVec 352)
  nakSeq : Nat
  naks : Nat
  sentNaks : Nat
  good : Nat
  spent : Tab Nat
  owed : Tab Nat
  txq : Tab (List Entry)
  rxq : Tab (List (Entry × Bool))
  open_ : Tab (List Word)
deriving DecidableEq, Repr

/-- A management packet (R110, R452): where it is, where it goes, its class, turns lost, and what it carries: a patch
write (u register, value, number of the PATCH) or a tidemark request. -/
structure MPkt where
  at_ : Nat
  dst : Nat
  cls : Nat
  lost : Nat
  body : Option (Nat × Word × Nat)
  req : Option TmReq
deriving DecidableEq, Repr

/-- The fabric between tiles: entries on links, hold registers, boundary lanes, credits on their way back, packets; for each
west-edge port the channel in the midst of a row (plus 1) and the last channel that sent one (R52). -/
structure Fabric where
  wires : Tab (List (Nat × Entry))
  holds : Tab (List Entry)
  lanes : Tab (List Entry)
  laneUsed : Tab Nat
  westUsed : Tab Nat
  back : List (Nat × Nat)
  west : Tab Nat
  westLast : Tab Nat
  pkts : List MPkt
deriving DecidableEq, Repr

/-- An undertow group (R118 to R123): its spilled queues and their rings, a spill in progress and the entries it moved
per queue. -/
structure Under where
  rings : List (Nat × Nat × List Entry)
  seq : Tab Nat
  spilling : Bool
  moved : List (Nat × Nat × Nat)
deriving DecidableEq, Repr

/-- A host access that waits for the wake from DOZE (R372): a register of window A (width, and the data of a write), or an
access of window B or C. -/
inductive Waiting where
  | reg (fn : Fn) (off width : Nat) (data : Option DWord)
  | winB (a : HostAccess)
  | winC (a : HostAccess)
deriving DecidableEq, Repr

/-- Power, clocks, boot (16): the boot step in progress (0 none), the rail group whose RAIL_PG it waits for; the state before
a switch-over, whether the ebb hold runs, whether the steps of R366 do, RAIL_EN[3:0], the keel time of the switch-over; a
thermal trip and, once every reading lies below WARN, the hk since when; an accepted DOZE or KEEL request, a wake from DOZE
with the accesses that wait for it; SMB_ADDR as sampled, the firmware images A and B (version, verifies) and the version
that runs; EBB_N, a loss of REFCLK, RST_N held low. -/
structure Power where
  boot : Nat
  rail : Nat
  before : Nat
  hold : Bool
  shutdown : Bool
  railEn : Nat
  backupAt : Nat
  trip : Bool
  coolAt : Option Nat
  target : Option Nat
  waking : Bool
  deferred : List Waiting
  smb : Nat
  fwA : Word × Bool
  fwB : Word × Bool
  fw : Word
  ebbPin : Bool
  refLost : Bool
  rstHeld : Bool
deriving DecidableEq, Repr

/-- The journal (R360): the MRAM bytes, the next entry of each part, the sequence number. -/
structure Journal where
  mram : List Host.Cell
  nextA : Nat
  nextB : Nat
  seq : Nat
deriving DecidableEq, Repr

/-- The key store: keys of slots 4 to 15, and the flash keys boot loads. -/
structure Keys where
  slots : Tab (BitVec 512)
deriving DecidableEq, Repr

/-- Test access: the TAP instruction and its latch (boundary cells of the press bank), whether the latch drives the pads, a
self-test in progress, the regions it found failing, nonces drawn (R397), telemetry samples taken and bytes written. -/
structure Test where
  tap : Nat
  latch : BitVec 44
  drive : Bool
  bist : Option Nat
  failing : Nat
  noncePos : Nat
  sampleNo : Nat
  telemAt : Nat
deriving DecidableEq, Repr

/-- The tray (19): BMC registers, images written and not yet activated, the last reading of every keel, whether the 12 V input
is present, whether TRAY_FAULT_N is driven low, whether the tray holds its packages in KEEL (R419). -/
structure Tray where
  regs : Tab Word
  pend : Tab FwImage
  last : List PackageStatus
  in12 : Bool
  faultPin : Bool
  holds : Bool
deriving DecidableEq, Repr

/-- What the device sends to the outside, in order. -/
inductive Output where
  /-- An MSI-X message of a function (0 the PF) on a vector (R38). -/
  | msix (fn vector : Nat)
  /-- A trigger packet on a master uplink (R28). -/
  | uplink (link : Nat)
  /-- A host path slot sent on a port (R33). -/
  | sent (port : Nat) (data : List Byte)
  /-- A causeway flit (R42). -/
  | flit (link : Nat) (f : BitVec 352)
  /-- Data returned to a host or SMBus read. -/
  | data (fn : Nat) (bytes : List Byte)
  /-- A read completed with the poisoned attribute of PCIe (R263, R272). -/
  | poisoned (fn : Nat) (bytes : List Byte)
  /-- A ferry's request to host memory (R36): address and, for a write, data. -/
  | host (addr : Nat) (data : Option (List Byte))
  /-- A warm reset asked of package d by the BMC (R420). -/
  | trayReset (d : Nat)
  /-- TDO of the TAP. -/
  | tdo (bits : BitVec 44)
deriving DecidableEq, Repr

/-- Time the idle tick keeps (R377, R386, R105): hk count, fractions, KTIME. -/
structure Time where
  ktime : DWord
  frac : Nat
  hk : Nat
  fcFrac : Nat
  aoFrac : Nat
deriving DecidableEq, Repr

/-- The machine. -/
structure State where
  /-- Commands waiting, first in first out. -/
  pending : List Instr
  regs : Tab Word
  active : Tab Word
  latches : Tab Word
  /-- GLOBAL_INT_SUM.SRC (R427). -/
  src : Nat
  counters : Tab DWord
  msixTab : Tab Word
  streams : Tab Stream
  chans : Tab Chan
  press : Press
  gate : Gate
  tiles : Tab Tile
  seqs : Tab Seq
  tms : Tab Tm
  tmq : List TmReq
  granted : List (Req × Nat)
  replies : List (Req × Nat × Nat)
  uses : List Use
  images : Tab Image
  layOp : Option (Nat × Nat)
  staging : List Nat
  loads : List Nat
  ferries : Tab Ferry
  mem : Mem
  edges : Tab EdgePort
  cwy : Tab Cwy
  fabric : Fabric
  under : Tab Under
  power : Power
  journal : Journal
  keys : Keys
  test : Test
  tray : Tray
  time : Time
  hostMem : List Host.Cell
  outbox : List Output
  /-- Messages that wait for the PCIe link (R37, R345). -/
  waiting : List Output
  /-- The model's own: how many free values have been drawn. -/
  free : Nat
deriving DecidableEq, Repr

/-- Why the machine stops with a fault. -/
inductive Fault where
  /-- A host access beyond the size of its window (R422). Raised by REGISTER_WRITE, COUNTER_LOW_READ, ACCESS_TIMEOUT, HOST_WINDOW_B_ACCESS and HOST_WINDOW_C_ACCESS: no such address exists. Safe. -/
  | noSuchAddress (window : String) (off : Nat)
deriving DecidableEq, Repr

/-- Why the machine refuses a command. -/
inductive Refusal where
  /-- The command has no meaning yet. Raised by arms of `exec` only. Safe. -/
  | notModelled (mnemonic : String)
  /-- The operands are ill-formed (`Instr.wellFormed` is false): no event of the hardware has them. Raised by the commands that take sized data. Safe. -/
  | illFormed (what : String)
deriving DecidableEq, Repr

/-- A memory with nothing listed: every byte zero, every word clean. -/
def Ram.init : Ram := ⟨[], []⟩

/-- A job context with every word zero. -/
def JobCtx.init : JobCtx := ⟨0, [], []⟩

/-- A FREE frame slot. -/
def Slot.init : Slot :=
  ⟨.free, 0, false, JobCtx.init, 0, none, 0, 0, 0, 0, false, false, false, 0, 0, false⟩

/-- A stream after reset; the first pass of its completion ring has PHASE 1. -/
def Stream.init : Stream :=
  { job := none, pend := none, fence := none, nextTag := 0, admitted := [], lastAdmitted := none, slots := [],
    inspect := 0, held := [], waitq := [], ovf := 0, ovfAt := 0, cqSeq := 0, phase := true, unsig := 0, drainReq := none,
    drainKind := none, loading := false }

/-- A stopped ingest channel. -/
def Chan.init : Chan := ⟨none, [], [], [], none, none, none⟩

/-- A free distance timer. -/
def Timer.init : Timer :=
  { st := 0, fire := 0, deadline := 0, act := 0, pulse := 0, trig := 0, enc := 0, tbase := false, stream := 0,
    tag := none, edgePos := 0, reached := false, slip := false, coal := [], hot := false, accepted := false, done := false }

/-- A free bank. -/
def Bank.init : Bank := ⟨false, false, false, none, none⟩

/-- A dispatch unit that holds nothing. -/
def Disp.init : Disp := ⟨[], [], [], [], [], [], 0, false⟩

/-- A tile after reset. -/
def Tile.init : Tile :=
  { plane := false, shadowValid := false, gsr := false, halted := false, dhalt := false, step := false,
    imem := [], imemSh := [], imemBad := [], u := [], uSh := [], uBase := [], x := [], c := [], v := [], act := [],
    acc := [], banks := [], standby := [], standbyPsn := false, cq := [], iq := [], oq := [], used := [],
    replay := none, pendStart := none, dead := false, synWait := none, open_ := [], eofSeen := [], awaits := [],
    record := none, patches := [], wins := [], shown := [], halos := [], disp := Disp.init, gt := [],
    staged := [], trace := [], scrub := [], store := Ram.init, replayNo := 0 }

/-- A sequencer after reset: window 0 resident, everything else zero (SEQ_STATUS.RESIDENT resets to 1). -/
def Seq.init : Seq :=
  { pc := 0, g := [], win := [], ra := [], cwp := 0, resident := 1, depth := 0, loops := [], key := 0, tmask := 0,
    tag := 0, spill := 0, sids := [], notices := [], keys := [], seen := 0, wait := 0, waitIdx := none, granted := false,
    record := none, patchNo := 0, started := 0, doneReplays := 0, patch := [], patching := false, halted := false,
    trapped := false, dhalt := false, step := false, mem := [], ecc := [], trace := [], rc := 0, savedDiv := 0,
    recTimes := [], fault := [] }

/-- A tidemark at zero (R259). -/
def Tm.init : Tm := ⟨0, 0, 0, 0, 0, false, (0, 0, 0, 0), []⟩

/-- An empty image slot reads zero. -/
def Sections.none : Sections := ⟨[], [], [], [], [], [], [], [], Option.none⟩

/-- An idle ferry. -/
def Ferry.init : Ferry := ⟨[], none, 0, none, false, 0, 0, 0, [], false⟩

/-- An edge port with an empty ring. -/
def EdgePort.init : EdgePort := ⟨[], [], 0, 0⟩

/-- A causeway link that has not trained. -/
def Cwy.init : Cwy := ⟨0, 0, [], [], 0, 0, 0, 0, [], [], [], [], []⟩

/-- An undertow group with no spilled queue. -/
def Under.init : Under := ⟨[], [], false, []⟩

/-- Reset (the Reset columns of the register tables of spec/, every table empty). What the spec gives no value for is
zero or empty here: DESIGN CHOICE, notes/assumptions/1.md. The keel is on VAON_MAIN, RST_N is high. -/
def State.reset : State :=
  { pending := [], regs := [], active := [], latches := [], src := 0, counters := [], msixTab := [], streams := [], chans := [],
    press := ⟨[], [], [], [], [], [], []⟩, gate := ⟨[], 4096, [], [], []⟩, tiles := [], seqs := [], tms := [], tmq := [],
    granted := [], replies := [], uses := [], images := [], layOp := none, staging := [], loads := [], ferries := [],
    mem := ⟨Ram.init, Ram.init, [], [], false, false, 0, [], 0, none⟩, edges := [], cwy := [],
    fabric := ⟨[], [], [], [], [], [], [], [], []⟩, under := [],
    power := { boot := 0, rail := 0, before := 0, hold := false, shutdown := false, railEn := 15, backupAt := 0, trip := false,
               coolAt := none, target := none, waking := false, deferred := [], smb := 0, fwA := (0, true), fwB := (0, true),
               fw := 0, ebbPin := true, refLost := false, rstHeld := false },
    journal := ⟨[], 0, 0, 0⟩, keys := ⟨[]⟩, test := ⟨0, 0, false, none, 0, 0, 0, 0⟩,
    tray := ⟨[], [], [], true, false, false⟩, time := ⟨0, 0, 0, 0, 0⟩, hostMem := [], outbox := [], waiting := [], free := 0 }

end Sys2Proof.Machine
end

