-- ==== Sys2Proof/Machine/Bits.lean ====
section
/-! DEFINITION. Plain helpers of the meanings: tables in canonical form, byte order, lanes, signed readings. -/
namespace Sys2Proof.Machine

/-- The entry of key `k`, or what an unlisted key reads as. -/
def tget {α : Type} (d : α) : Tab α → Nat → α
  | [], _ => d
  | (a, x) :: t, k => if k = a then x else tget d t k

/-- Whether key `k` is listed. -/
def thas {α : Type} (t : Tab α) (k : Nat) : Bool := t.any (fun p => p.1 == k)

/-- List `v` at `k`, before the first larger key. -/
def tins {α : Type} (k : Nat) (v : α) : Tab α → Tab α
  | [] => [(k, v)]
  | (a, x) :: t => if k < a then (k, v) :: (a, x) :: t else (a, x) :: tins k v t

/-- The table without key `k`. -/
def tdel {α : Type} (k : Nat) : Tab α → Tab α
  | [] => []
  | (a, x) :: t => if k = a then tdel k t else (a, x) :: tdel k t

/-- Put `v` at `k`, keeping the keys rising; nothing is listed that equals `d`. -/
def tset {α : Type} [DecidableEq α] (d : α) (t : Tab α) (k : Nat) (v : α) : Tab α :=
  if v = d then tdel k t else tins k v (tdel k t)

/-- Change the entry of `k` by `f`. -/
def tmod {α : Type} [DecidableEq α] (d : α) (t : Tab α) (k : Nat) (f : α → α) : Tab α :=
  tset d t k (f (tget d t k))

/-- The canonical form: keys strictly rising from `lo`, no entry equal to `d`. -/
def twfFrom {α : Type} [DecidableEq α] (d : α) : Nat → Tab α → Bool
  | _, [] => true
  | lo, (a, x) :: t => decide (lo ≤ a) && decide (x ≠ d) && twfFrom d (a + 1) t

/-- The canonical form of a table. -/
def twf {α : Type} [DecidableEq α] (d : α) (t : Tab α) : Bool := twfFrom d 0 t

/-- `n` as `w` bits, read as signed. -/
def sgn (w n : Nat) : Int := if nbit n (w - 1) then (n % 2 ^ w : Int) - 2 ^ w else (n % 2 ^ w : Int)

/-- An integer as its `w`-bit pattern. -/
def pat (w : Nat) (i : Int) : Nat := (i % 2 ^ w).toNat

/-- Clamp to [lo, hi]; `hi` prevails when they cross. -/
def clamp (lo hi i : Int) : Int := min (max i lo) hi

/-- Saturate to `w`-bit signed. -/
def satS (w : Nat) (i : Int) : Int := clamp (-(2 ^ (w - 1))) (2 ^ (w - 1) - 1) i

/-- Saturate to `w`-bit unsigned. -/
def satU (w : Nat) (i : Int) : Int := clamp 0 (2 ^ w - 1) i

/-- The number whose little-endian bytes are `bs`. -/
def ofBytes : List Byte → Nat
  | [] => 0
  | b :: bs => b.toNat + 256 * ofBytes bs

/-- `k` little-endian bytes of `n`. -/
def toBytes : Nat → Nat → List Byte
  | 0, _ => []
  | k + 1, n => BitVec.ofNat 8 (n % 256) :: toBytes k (n / 256)

/-- `k` pieces of `w` bits of `n`, the lowest first (R146: lane i of width w). -/
def lanes (w : Nat) : Nat → Nat → List Nat
  | 0, _ => []
  | k + 1, n => n % 2 ^ w :: lanes w k (n / 2 ^ w)

/-- The number whose lanes of width `w` are `ls`, the lowest first. -/
def ofLanes (w : Nat) : List Nat → Nat
  | [] => 0
  | l :: ls => l % 2 ^ w + 2 ^ w * ofLanes w ls

/-- A payload from bytes, zero-filled or cut to 32. -/
def payOfBytes (bs : List Byte) : Pay := BitVec.ofNat 256 (ofBytes (bs.take 32))

/-- The bytes of a payload. -/
def payBytes (p : Pay) : List Byte := toBytes 32 p.toNat

/-- Element `i`, or `d`. -/
def nth {α : Type} (l : List α) (i : Nat) (d : α) : α := (l[i]?).getD d

/-- `l` with element `i` replaced. -/
def setNth {α : Type} (l : List α) (i : Nat) (x : α) : List α := l.set i x

/-- Cut a list in pieces of `k` (k > 0), with fuel. -/
def pieces {α : Type} (k : Nat) : Nat → List α → List (List α)
  | 0, _ => []
  | f + 1, l => if l.isEmpty then [] else l.take k :: pieces k f (l.drop k)

/-- Sum of integers. -/
def isum (l : List Int) : Int := l.foldl (· + ·) 0

/-- Fold `f` over `l`, acting on a state. -/
def each {α σ : Type} (l : List α) (s : σ) (f : σ → α → σ) : σ := l.foldl f s

/-- The smallest Nat below `n` that satisfies `p`. -/
def findNat (n : Nat) (p : Nat → Bool) : Option Nat := (List.range n).find? p

end Sys2Proof.Machine
end

