-- ==== Sys2Proof/Machine/RegMap.lean ====
section
/-! DEFINITION. The register tables of spec/: where each register lies in window A, its fields, access codes, reset
values and the values its enumerated fields admit (any other is a reserved encoding, R10). -/
namespace Sys2Proof.Machine

/-- The access codes of R7. `stop` and `lock` are RWL with the lock STATE = 0 or STREAM_LOCK.LOCK; `pf` is RW from the PF only. -/
inductive Acc where
  | rw
  | ro
  | wo
  | w1c
  | w1s
  | rws
  | stop
  | lock
  | pf
deriving DecidableEq, Repr

/-- A field: bits [hi:lo], access, reset value, the ranges of values it admits (none listed: all). -/
structure Field where
  hi : Nat
  lo : Nat
  acc : Acc
  reset : Nat
  legal : List (Nat × Nat)
deriving DecidableEq, Repr

/-- A register, or an array of them: offset, dimensions (count, stride), fields. -/
structure RegSpec where
  off : Nat
  dims : List (Nat × Nat)
  fields : List Field
deriving DecidableEq, Repr

/-- Ingest channel c (02, Ingest registers). -/
def chanPage (c : Nat) : Nat := 0x28000 + c * 0x80
/-- Stream n's page. -/
def streamPage (n : Nat) : Nat := 0x100000 + n * 0x1000
/-- Region g's sequencer control page. -/
def seqPage (g : Nat) : Nat := 0x200000 + g * 0x10000
/-- FERRY[f]. -/
def ferryPage (f : Nat) : Nat := 0x50000 + f * 0x100
/-- Region of a tile: 5·⌊y/4⌋ + ⌊x/4⌋. -/
def regionOf (t : Nat) : Nat := 5 * (t / 20 / 4) + t % 20 / 4
/-- Local number of a tile: 4·(y mod 4) + (x mod 4). -/
def localOf (t : Nat) : Nat := 4 * (t / 20 % 4) + t % 20 % 4
/-- Tile k of region g. -/
def tileOf (g k : Nat) : Nat := 20 * (g / 5 * 4 + k / 4) + (g % 5 * 4 + k % 4)
/-- The page of a tile (04, Tile page registers). -/
def tilePage (t : Nat) : Nat := seqPage (regionOf t) + 0x4000 + localOf t * 0xC00

/-- CXP_LINK_CTL -/
def aCxpLinkCtl (i : Nat) : Nat := 0x20000 + i * 0x100
/-- CXP_LINK_STATUS -/
def aCxpLinkStatus (i : Nat) : Nat := 0x20004 + i * 0x100
/-- HOSTPATH_CTL -/
def aHostpathCtl (i : Nat) : Nat := 0x22100 + i * 0x10
/-- HOSTPATH_RX -/
def aHostpathRx (i : Nat) : Nat := 0x22104 + i * 0x10
/-- HOSTPATH_TX -/
def aHostpathTx (i : Nat) : Nat := 0x22108 + i * 0x10
/-- ETH_PORT_CTL -/
def aEthPortCtl (i : Nat) : Nat := 0x21000 + i * 0x400
/-- ETH_PORT_STATUS -/
def aEthPortStatus (i : Nat) : Nat := 0x21004 + i * 0x400
/-- ETH_PORT_MAC_LO -/
def aEthPortMacLo (i : Nat) : Nat := 0x21008 + i * 0x400
/-- ETH_PORT_MAC_HI -/
def aEthPortMacHi (i : Nat) : Nat := 0x2100c + i * 0x400
/-- ETH_PORT_IP -/
def aEthPortIp (i : Nat) : Nat := 0x21010 + i * 0x400
/-- PCIE_LINK_STATUS -/
def aPcieLinkStatus : Nat := 0x22000
/-- CWY_LINK_CTL -/
def aCwyLinkCtl (i : Nat) : Nat := 0x23000 + i * 0x100
/-- CWY_LINK_STATUS -/
def aCwyLinkStatus (i : Nat) : Nat := 0x23004 + i * 0x100
/-- INGEST_CH_CTL -/
def aIngestChCtl (c : Nat) : Nat := chanPage c + 0x0
/-- INGEST_CH_FMT -/
def aIngestChFmt (c : Nat) : Nat := chanPage c + 0x4
/-- INGEST_CH_GEOM -/
def aIngestChGeom (c : Nat) : Nat := chanPage c + 0x8
/-- INGEST_CH_SEG -/
def aIngestChSeg (c : Nat) : Nat := chanPage c + 0xc
/-- INGEST_CH_POOL -/
def aIngestChPool (c : Nat) : Nat := chanPage c + 0x10
/-- INGEST_CH_STATUS -/
def aIngestChStatus (c : Nat) : Nat := chanPage c + 0x14
/-- INGEST_CH_SRC -/
def aIngestChSrc (c : Nat) : Nat := chanPage c + 0x18
/-- INGEST_CH_MCAST -/
def aIngestChMcast (c : Nat) : Nat := chanPage c + 0x1c
/-- STREAM_CTL -/
def aStreamCtl (n : Nat) : Nat := streamPage n + 0x0
/-- STREAM_STATUS -/
def aStreamStatus (n : Nat) : Nat := streamPage n + 0x4
/-- STREAM_JOB -/
def aStreamJob (n : Nat) : Nat := streamPage n + 0x8
/-- STREAM_INT_CAUSE -/
def aStreamIntCause (n : Nat) : Nat := streamPage n + 0xc
/-- STREAM_INT_MASK -/
def aStreamIntMask (n : Nat) : Nat := streamPage n + 0x10
/-- STREAM_INT_COAL -/
def aStreamIntCoal (n : Nat) : Nat := streamPage n + 0x14
/-- SQ_BASE_LO -/
def aSqBaseLo (n : Nat) : Nat := streamPage n + 0x20
/-- SQ_BASE_HI -/
def aSqBaseHi (n : Nat) : Nat := streamPage n + 0x24
/-- SQ_CFG -/
def aSqCfg (n : Nat) : Nat := streamPage n + 0x28
/-- SQ_TAIL -/
def aSqTail (n : Nat) : Nat := streamPage n + 0x2c
/-- SQ_HEAD -/
def aSqHead (n : Nat) : Nat := streamPage n + 0x30
/-- CQ_BASE_LO -/
def aCqBaseLo (n : Nat) : Nat := streamPage n + 0x40
/-- CQ_BASE_HI -/
def aCqBaseHi (n : Nat) : Nat := streamPage n + 0x44
/-- CQ_CFG -/
def aCqCfg (n : Nat) : Nat := streamPage n + 0x48
/-- CQ_HEAD -/
def aCqHead (n : Nat) : Nat := streamPage n + 0x4c
/-- CQ_TAIL -/
def aCqTail (n : Nat) : Nat := streamPage n + 0x50
/-- CQ_OVF -/
def aCqOvf (n : Nat) : Nat := streamPage n + 0x58
/-- STREAM_LOCK -/
def aStreamLock (n : Nat) : Nat := streamPage n + 0x80
/-- STREAM_JOB_RANGE -/
def aStreamJobRange (n : Nat) : Nat := streamPage n + 0x84
/-- STREAM_PRESS -/
def aStreamPress (n : Nat) : Nat := streamPage n + 0x88
/-- STREAM_FERRY -/
def aStreamFerry (n : Nat) : Nat := streamPage n + 0x8c
/-- STREAM_TM -/
def aStreamTm (n : Nat) : Nat := streamPage n + 0x90
/-- FAULT_TAIL -/
def aFaultTail (n : Nat) : Nat := streamPage n + 0x1f0
/-- FAULT_HEAD -/
def aFaultHead (n : Nat) : Nat := streamPage n + 0x1f4
/-- TILE_ID -/
def aTileId (t : Nat) : Nat := tilePage t + 0x0
/-- TILE_STATUS -/
def aTileStatus (t : Nat) : Nat := tilePage t + 0x4
/-- TILE_CTL -/
def aTileCtl (t : Nat) : Nat := tilePage t + 0x8
/-- TILE_ECC_THRESH -/
def aTileEccThresh (t : Nat) : Nat := tilePage t + 0xc
/-- TILE_ECC_LAST -/
def aTileEccLast (t : Nat) : Nat := tilePage t + 0x30
/-- TILE_CQ_OCC_A -/
def aTileCqOccA (t : Nat) : Nat := tilePage t + 0xc0
/-- TILE_CQ_OCC_B -/
def aTileCqOccB (t : Nat) : Nat := tilePage t + 0xc4
/-- TILE_WIN_GEOM -/
def aTileWinGeom (t : Nat) : Nat := tilePage t + 0x300
/-- TILE_WIN_CH -/
def aTileWinCh (t : Nat) : Nat := tilePage t + 0x304
/-- TILE_WIN_PAD -/
def aTileWinPad (t : Nat) : Nat := tilePage t + 0x308
/-- TILE_WIN_LB -/
def aTileWinLb (t : Nat) : Nat := tilePage t + 0x30c
/-- TILE_WIN_PITCH -/
def aTileWinPitch (t : Nat) : Nat := tilePage t + 0x310
/-- TILE_WIN_ROW -/
def aTileWinRow (t : Nat) : Nat := tilePage t + 0x314
/-- TILE_DSP_CFG -/
def aTileDspCfg (t : Nat) : Nat := tilePage t + 0x340
/-- TILE_DSP_Q -/
def aTileDspQ (t : Nat) : Nat := tilePage t + 0x344
/-- TILE_DSP_THR -/
def aTileDspThr (t : Nat) : Nat := tilePage t + 0x348
/-- TILE_DSP_TM -/
def aTileDspTm (t : Nat) : Nat := tilePage t + 0x34c
/-- TILE_DSP_GB -/
def aTileDspGb (t : Nat) : Nat := tilePage t + 0x350
/-- TILE_GT_CFG -/
def aTileGtCfg (t : Nat) : Nat := tilePage t + 0x354
/-- TILE_DSP_STATUS -/
def aTileDspStatus (t : Nat) : Nat := tilePage t + 0x358
/-- TILE_DBG_CTL -/
def aTileDbgCtl (t : Nat) : Nat := tilePage t + 0x800
/-- TILE_DBG_LOOP -/
def aTileDbgLoop (t : Nat) : Nat := tilePage t + 0x804
/-- TILE_DBG_STATUS -/
def aTileDbgStatus (t : Nat) : Nat := tilePage t + 0x808
/-- TILE_ECC_BANK -/
def aTileEccBank (t i : Nat) : Nat := tilePage t + 0x10 + i * 0x4
/-- TILE_QSTAT -/
def aTileQstat (t i : Nat) : Nat := tilePage t + 0x40 + i * 0x8
/-- TILE_QHEAD -/
def aTileQhead (t i : Nat) : Nat := tilePage t + 0x44 + i * 0x8
/-- TILE_SW_OUT -/
def aTileSwOut (t i j : Nat) : Nat := tilePage t + 0x100 + i * 0x40 + j * 0x4
/-- TILE_QBIND -/
def aTileQbind (t i : Nat) : Nat := tilePage t + 0x200 + i * 0x4
/-- TILE_WIN_HALO -/
def aTileWinHalo (t i : Nat) : Nat := tilePage t + 0x318 + i * 0x4
/-- TILE_WIN_CTX -/
def aTileWinCtx (t i : Nat) : Nat := tilePage t + 0x320 + i * 0x4
/-- TILE_WIN_KEY -/
def aTileWinKey (t i : Nat) : Nat := tilePage t + 0x328 + i * 0x4
/-- UNDERTOW_CTL -/
def aUndertowCtl : Nat := 0x4e000
/-- UNDERTOW_GRP_CFG -/
def aUndertowGrpCfg (i : Nat) : Nat := 0x4e010 + i * 0x10
/-- UNDERTOW_GRP_STATUS -/
def aUndertowGrpStatus (i : Nat) : Nat := 0x4e014 + i * 0x10
/-- SEQ_CTL -/
def aSeqCtl (g : Nat) : Nat := seqPage g + 0x0
/-- SEQ_STATUS -/
def aSeqStatus (g : Nat) : Nat := seqPage g + 0x4
/-- SEQ_PC -/
def aSeqPc (g : Nat) : Nat := seqPage g + 0x8
/-- SEQ_RESTART -/
def aSeqRestart (g : Nat) : Nat := seqPage g + 0xc
/-- SEQ_SPILL_BASE -/
def aSeqSpillBase (g : Nat) : Nat := seqPage g + 0x10
/-- SEQ_SPILL_LIMIT -/
def aSeqSpillLimit (g : Nat) : Nat := seqPage g + 0x14
/-- SEQ_WATCH -/
def aSeqWatch (g : Nat) : Nat := seqPage g + 0x18
/-- SEQ_KEY -/
def aSeqKey (g : Nat) : Nat := seqPage g + 0x1c
/-- SEQ_TAG -/
def aSeqTag (g : Nat) : Nat := seqPage g + 0x20
/-- SEQ_MEM_ADDR -/
def aSeqMemAddr (g : Nat) : Nat := seqPage g + 0x30
/-- SEQ_MEM_DATA -/
def aSeqMemData (g : Nat) : Nat := seqPage g + 0x34
/-- SEQ_ECC -/
def aSeqEcc (g : Nat) : Nat := seqPage g + 0x38
/-- REGION_CLK -/
def aRegionClk (g : Nat) : Nat := seqPage g + 0x40
/-- REGION_PWR -/
def aRegionPwr (g : Nat) : Nat := seqPage g + 0x44
/-- REGION_FCTL -/
def aRegionFctl (g : Nat) : Nat := seqPage g + 0x50
/-- REGION_FSTATUS -/
def aRegionFstatus (g : Nat) : Nat := seqPage g + 0x54
/-- SEQ_DBG_CTL -/
def aSeqDbgCtl (g : Nat) : Nat := seqPage g + 0x800
/-- TIDEMARK_CNT -/
def aTidemarkCnt (i : Nat) : Nat := 0x80000 + i * 0x8
/-- TIDEMARK_CFG -/
def aTidemarkCfg (i : Nat) : Nat := 0x80004 + i * 0x8
/-- TM_STATUS -/
def aTmStatus : Nat := 0x90000
/-- MEM_DRAM_CFG -/
def aMemDramCfg : Nat := 0x40000
/-- MEM_DRAM_STATUS -/
def aMemDramStatus : Nat := 0x40004
/-- MEM_RETRAIN -/
def aMemRetrain : Nat := 0x40008
/-- MEM_ECC -/
def aMemEcc : Nat := 0x40010
/-- MEM_ECC_LAST -/
def aMemEccLast : Nat := 0x40014
/-- MEM_SCRUB -/
def aMemScrub : Nat := 0x40018
/-- MEM_APER -/
def aMemAper : Nat := 0x4001c
/-- MEM_EARLY -/
def aMemEarly : Nat := 0x40020
/-- MEM_TOUCHED -/
def aMemTouched : Nat := 0x41000
/-- MEM_UNTOUCH_PAGE -/
def aMemUntouchPage : Nat := 0x41004
/-- MEM_UNTOUCH -/
def aMemUntouch : Nat := 0x41008
/-- BASIN_ECC -/
def aBasinEcc : Nat := 0x43040
/-- LAYOUT_PKG -/
def aLayoutPkg : Nat := 0x48000
/-- LAYOUT_CTL -/
def aLayoutCtl : Nat := 0x48004
/-- LAYOUT_STATUS -/
def aLayoutStatus : Nat := 0x48008
/-- EXIT_PORTS -/
def aExitPorts : Nat := 0x4c000
/-- EXIT_STATUS -/
def aExitStatus : Nat := 0x4c004
/-- BASIN_PART -/
def aBasinPart (i : Nat) : Nat := 0x43000 + i * 0x4
/-- BASIN_ECC_BANK -/
def aBasinEccBank (i : Nat) : Nat := 0x43080 + i * 0x4
/-- EDGE_CFG -/
def aEdgeCfg (i : Nat) : Nat := 0x44000 + i * 0x10
/-- EDGE_RING -/
def aEdgeRing (i : Nat) : Nat := 0x44004 + i * 0x10
/-- EDGE_STATUS -/
def aEdgeStatus (i : Nat) : Nat := 0x44008 + i * 0x10
/-- FERRY_CTL -/
def aFerryCtl (f : Nat) : Nat := ferryPage f + 0x0
/-- FERRY_KICK -/
def aFerryKick (f : Nat) : Nat := ferryPage f + 0x4
/-- FERRY_STATUS -/
def aFerryStatus (f : Nat) : Nat := ferryPage f + 0x8
/-- FERRY_BWIN -/
def aFerryBwin (f : Nat) : Nat := ferryPage f + 0x10
/-- FERRY_DWIN -/
def aFerryDwin (f : Nat) : Nat := ferryPage f + 0x14
/-- FERRY_HWIN_LO -/
def aFerryHwinLo (f : Nat) : Nat := ferryPage f + 0x18
/-- FERRY_HWIN_HI -/
def aFerryHwinHi (f : Nat) : Nat := ferryPage f + 0x1c
/-- FERRY_HWIN_SIZE -/
def aFerryHwinSize (f : Nat) : Nat := ferryPage f + 0x20
/-- LAYOUT_INFO0 -/
def aLayoutInfo0 (i : Nat) : Nat := 0x48040 + i * 0x10
/-- LAYOUT_INFO1 -/
def aLayoutInfo1 (i : Nat) : Nat := 0x48044 + i * 0x10
/-- LAYOUT_INFO2 -/
def aLayoutInfo2 (i : Nat) : Nat := 0x48048 + i * 0x10
/-- LAYOUT_INFO3 -/
def aLayoutInfo3 (i : Nat) : Nat := 0x4804c + i * 0x10
/-- PRESS_CTL -/
def aPressCtl : Nat := 0x18000
/-- PRESS_BANK -/
def aPressBank : Nat := 0x18004
/-- DT_ARMED_LO -/
def aDtArmedLo : Nat := 0x18600
/-- DT_ARMED_HI -/
def aDtArmedHi : Nat := 0x18604
/-- IT_STATUS -/
def aItStatus : Nat := 0x19200
/-- ENC_CTL -/
def aEncCtl (i : Nat) : Nat := 0x18100 + i * 0x10
/-- ENC_POS -/
def aEncPos (i : Nat) : Nat := 0x18104 + i * 0x10
/-- ENC_ZPOS -/
def aEncZpos (i : Nat) : Nat := 0x18108 + i * 0x10
/-- ENC_STATUS -/
def aEncStatus (i : Nat) : Nat := 0x1810c + i * 0x10
/-- TRIG_CFG -/
def aTrigCfg (i : Nat) : Nat := 0x18200 + i * 0x10
/-- TRIG_STATUS -/
def aTrigStatus (i : Nat) : Nat := 0x18204 + i * 0x10
/-- TRIG_COUNT -/
def aTrigCount (i : Nat) : Nat := 0x18208 + i * 0x10
/-- ACT_CFG -/
def aActCfg (i : Nat) : Nat := 0x18300 + i * 0x8
/-- ACT_STATUS -/
def aActStatus (i : Nat) : Nat := 0x18304 + i * 0x8
/-- PAD_CFG -/
def aPadCfg (i : Nat) : Nat := 0x18400 + i * 0x4
/-- DT_INFO -/
def aDtInfo (i : Nat) : Nat := 0x18800 + i * 0x8
/-- DT_FIRE -/
def aDtFire (i : Nat) : Nat := 0x18804 + i * 0x8
/-- IT_CFG -/
def aItCfg (i : Nat) : Nat := 0x19000 + i * 0x10
/-- IT_PERIOD -/
def aItPeriod (i : Nat) : Nat := 0x19004 + i * 0x10
/-- IT_WIDTH -/
def aItWidth (i : Nat) : Nat := 0x19008 + i * 0x10
/-- FLOG_TAIL -/
def aFlogTail : Nat := 0x12420
/-- FLOG_HEAD -/
def aFlogHead : Nat := 0x12424
/-- FLOG_CTL -/
def aFlogCtl : Nat := 0x12428
/-- JOURNAL_A_NEXT -/
def aJournalANext : Nat := 0x13000
/-- JOURNAL_B_NEXT -/
def aJournalBNext : Nat := 0x13004
/-- JOURNAL_ADDR -/
def aJournalAddr : Nat := 0x13010
/-- JOURNAL_DATA -/
def aJournalData : Nat := 0x13014
/-- JOURNAL_CTL -/
def aJournalCtl : Nat := 0x13018
/-- FAULT_C_COUNT -/
def aFaultCCount (i : Nat) : Nat := 0x12500 + i * 0x4
/-- PWR_CTL -/
def aPwrCtl : Nat := 0x10000
/-- PWR_STATUS -/
def aPwrStatus : Nat := 0x10004
/-- PWR_EBB -/
def aPwrEbb : Nat := 0x10008
/-- PWR_WAKE -/
def aPwrWake : Nat := 0x1000c
/-- PWR_ARMED -/
def aPwrArmed : Nat := 0x10010
/-- CLK_FC_PLL -/
def aClkFcPll : Nat := 0x10200
/-- CLK_STATUS -/
def aClkStatus : Nat := 0x10204
/-- THERM_CFG -/
def aThermCfg : Nat := 0x10300
/-- THERM_STATUS -/
def aThermStatus : Nat := 0x10304
/-- KTIME_LO -/
def aKtimeLo : Nat := 0x10400
/-- KTIME_HI -/
def aKtimeHi : Nat := 0x10404
/-- KTIME_STEP -/
def aKtimeStep : Nat := 0x10408
/-- KTIME_RATE -/
def aKtimeRate : Nat := 0x1040c
/-- RTC_SEC -/
def aRtcSec : Nat := 0x10410
/-- RTC_ALARM -/
def aRtcAlarm : Nat := 0x10414
/-- BOOT_STATUS -/
def aBootStatus : Nat := 0x10500
/-- KEYSTORE_CTL -/
def aKeystoreCtl : Nat := 0x10600
/-- KEYSTORE_STATUS -/
def aKeystoreStatus : Nat := 0x10604
/-- SUPPLY_MON -/
def aSupplyMon (i : Nat) : Nat := 0x10100 + i * 0x4
/-- THERM_TEMP -/
def aThermTemp (i : Nat) : Nat := 0x10380 + i * 0x4
/-- OBS_CTL -/
def aObsCtl : Nat := 0x400000
/-- DBG_LOCK -/
def aDbgLock : Nat := 0x400010
/-- DBG_CHAL_LO -/
def aDbgChalLo : Nat := 0x400018
/-- DBG_CHAL_HI -/
def aDbgChalHi : Nat := 0x40001c
/-- TRACE_CTL -/
def aTraceCtl : Nat := 0x410000
/-- TRACE_FILT -/
def aTraceFilt : Nat := 0x410004
/-- TRACE_TAG -/
def aTraceTag : Nat := 0x410008
/-- TRACE_RING -/
def aTraceRing : Nat := 0x41000c
/-- TRACE_STATUS -/
def aTraceStatus : Nat := 0x410010
/-- TELEM_CTL -/
def aTelemCtl : Nat := 0x420000
/-- TELEM_FILT -/
def aTelemFilt : Nat := 0x420004
/-- TELEM_RING -/
def aTelemRing : Nat := 0x420008
/-- SCAN_CTL -/
def aScanCtl : Nat := 0x430000
/-- BIST_CTL -/
def aBistCtl : Nat := 0x440000
/-- BIST_STATUS -/
def aBistStatus : Nat := 0x440004
/-- BIST_BASIN -/
def aBistBasin : Nat := 0x440008
/-- DBG_RESP -/
def aDbgResp (i : Nat) : Nat := 0x400040 + i * 0x4
/-- GLOBAL_ID -/
def aGlobalId : Nat := 0x0
/-- GLOBAL_FW -/
def aGlobalFw : Nat := 0x4
/-- GLOBAL_SERIAL_LO -/
def aGlobalSerialLo : Nat := 0x8
/-- GLOBAL_SERIAL_HI -/
def aGlobalSerialHi : Nat := 0xc
/-- GLOBAL_STATUS -/
def aGlobalStatus : Nat := 0x10
/-- GLOBAL_REJECT -/
def aGlobalReject : Nat := 0x14
/-- GLOBAL_RESET -/
def aGlobalReset : Nat := 0x20
/-- GLOBAL_INT_SUM -/
def aGlobalIntSum : Nat := 0x30
/-- GLOBAL_INT_MASK -/
def aGlobalIntMask : Nat := 0x34
/-- GLOBAL_STREAM_PEND -/
def aGlobalStreamPend (i : Nat) : Nat := 0x40 + i * 0x4

/-- Registers outside the paged blocks, part 0. -/
def globRegs0 : List RegSpec := [
  -- CXP_LINK_CTL
  ⟨0x20000, [(8, 0x100)], [⟨11, 11, .rw, 0, []⟩,
    ⟨10, 10, .rw, 0, []⟩,
    ⟨9, 8, .rw, 0, []⟩,
    ⟨6, 4, .rw, 0, [(0, 2)]⟩,
    ⟨3, 0, .rw, 0, [(0, 7)]⟩]⟩,
  -- CXP_LINK_STATUS
  ⟨0x20004, [(8, 0x100)], [⟨3, 3, .w1c, 0, []⟩,
    ⟨2, 2, .w1c, 0, []⟩,
    ⟨1, 1, .ro, 0, []⟩,
    ⟨0, 0, .ro, 0, []⟩]⟩,
  -- HOSTPATH_CTL
  ⟨0x22100, [(10, 0x10)], [⟨31, 31, .rw, 0, []⟩,
    ⟨19, 16, .rw, 0, [(0, 7)]⟩,
    ⟨13, 0, .rw, 0, []⟩]⟩,
  -- HOSTPATH_RX
  ⟨0x22104, [(10, 0x10)], [⟨27, 16, .ro, 0, []⟩,
    ⟨11, 0, .rw, 0, []⟩]⟩,
  -- HOSTPATH_TX
  ⟨0x22108, [(10, 0x10)], [⟨27, 16, .ro, 0, []⟩,
    ⟨11, 0, .rw, 0, []⟩]⟩,
  -- ETH_PORT_CTL
  ⟨0x21000, [(2, 0x400)], [⟨31, 16, .rw, 1000, []⟩,
    ⟨6, 6, .rw, 0, []⟩,
    ⟨5, 3, .rw, 0, [(0, 3)]⟩,
    ⟨2, 2, .rw, 0, []⟩,
    ⟨1, 0, .rw, 0, [(0, 2)]⟩]⟩,
  -- ETH_PORT_STATUS
  ⟨0x21004, [(2, 0x400)], [⟨2, 2, .w1c, 0, []⟩,
    ⟨1, 1, .ro, 0, []⟩,
    ⟨0, 0, .ro, 0, []⟩]⟩,
  -- ETH_PORT_MAC_LO
  ⟨0x21008, [(2, 0x400)], [⟨31, 0, .rw, 0, []⟩]⟩,
  -- ETH_PORT_MAC_HI
  ⟨0x2100c, [(2, 0x400)], [⟨15, 0, .rw, 0, []⟩]⟩,
  -- ETH_PORT_IP
  ⟨0x21010, [(2, 0x400)], [⟨31, 0, .rw, 0, []⟩]⟩,
  -- PCIE_LINK_STATUS
  ⟨0x22000, [], [⟨9, 9, .w1c, 0, []⟩,
    ⟨8, 8, .ro, 0, []⟩,
    ⟨7, 4, .ro, 0, []⟩,
    ⟨2, 0, .ro, 0, []⟩]⟩,
  -- CWY_LINK_CTL
  ⟨0x23000, [(4, 0x100)], [⟨7, 4, .rw, 0, []⟩,
    ⟨3, 1, .rw, 0, [(0, 3)]⟩,
    ⟨0, 0, .rw, 0, []⟩]⟩,
  -- CWY_LINK_STATUS
  ⟨0x23004, [(4, 0x100)], [⟨11, 8, .ro, 0, []⟩,
    ⟨7, 6, .ro, 0, []⟩,
    ⟨5, 4, .ro, 0, []⟩,
    ⟨3, 3, .ro, 0, []⟩,
    ⟨2, 2, .w1c, 0, []⟩,
    ⟨1, 1, .w1c, 0, []⟩,
    ⟨0, 0, .ro, 0, []⟩]⟩,
  -- UNDERTOW_CTL
  ⟨0x4e000, [], [⟨31, 0, .rw, 0, []⟩]⟩,
  -- UNDERTOW_GRP_CFG
  ⟨0x4e010, [(16, 0x10)], [⟨31, 31, .rw, 0, []⟩,
    ⟨29, 16, .rw, 0, []⟩,
    ⟨13, 0, .rw, 0, []⟩]⟩,
  -- UNDERTOW_GRP_STATUS
  ⟨0x4e014, [(16, 0x10)], [⟨31, 16, .ro, 0, []⟩,
    ⟨2, 2, .w1c, 0, []⟩,
    ⟨1, 1, .ro, 0, []⟩,
    ⟨0, 0, .ro, 0, []⟩]⟩,
  -- TIDEMARK_CNT
  ⟨0x80000, [(8192, 0x8)], [⟨31, 24, .rw, 0, []⟩,
    ⟨23, 0, .rw, 0, []⟩]⟩,
  -- TIDEMARK_CFG
  ⟨0x80004, [(8192, 0x8)], [⟨31, 30, .rw, 0, [(0, 2)]⟩,
    ⟨29, 29, .w1c, 0, []⟩,
    ⟨28, 24, .ro, 0, []⟩,
    ⟨23, 0, .rw, 0, []⟩]⟩,
  -- TM_STATUS
  ⟨0x90000, [], [⟨31, 31, .w1c, 0, []⟩,
    ⟨30, 29, .ro, 0, []⟩,
    ⟨28, 16, .ro, 0, []⟩,
    ⟨15, 8, .ro, 0, []⟩,
    ⟨7, 0, .ro, 0, []⟩]⟩,
  -- MEM_DRAM_CFG
  ⟨0x40000, [], [⟨6, 4, .ro, 0, []⟩,
    ⟨2, 1, .ro, 0, []⟩,
    ⟨0, 0, .ro, 0, []⟩]⟩,
  -- MEM_DRAM_STATUS
  ⟨0x40004, [], [⟨2, 2, .w1c, 0, []⟩,
    ⟨1, 1, .ro, 0, []⟩,
    ⟨0, 0, .ro, 0, []⟩]⟩,
  -- MEM_RETRAIN
  ⟨0x40008, [], [⟨6, 0, .rw, 50, [(0, 100)]⟩]⟩,
  -- MEM_ECC
  ⟨0x40010, [], [⟨31, 16, .ro, 0, []⟩,
    ⟨15, 0, .ro, 0, []⟩]⟩,
  -- MEM_ECC_LAST
  ⟨0x40014, [], [⟨31, 31, .w1c, 0, []⟩,
    ⟨30, 30, .ro, 0, []⟩,
    ⟨28, 0, .ro, 0, []⟩]⟩,
  -- MEM_SCRUB
  ⟨0x40018, [], [⟨0, 0, .rw, 1, []⟩]⟩]

/-- Registers outside the paged blocks, part 1. -/
def globRegs1 : List RegSpec := [
  -- MEM_APER
  ⟨0x4001c, [], [⟨31, 31, .w1c, 0, []⟩,
    ⟨4, 0, .rw, 0, []⟩]⟩,
  -- MEM_EARLY
  ⟨0x40020, [], [⟨31, 16, .rw, 2000, []⟩,
    ⟨9, 0, .rw, 128, [(0, 512)]⟩]⟩,
  -- MEM_TOUCHED
  ⟨0x41000, [], [⟨23, 0, .ro, 0, []⟩]⟩,
  -- MEM_UNTOUCH_PAGE
  ⟨0x41004, [], [⟨22, 0, .rw, 0, []⟩]⟩,
  -- MEM_UNTOUCH
  ⟨0x41008, [], [⟨31, 31, .w1s, 0, []⟩,
    ⟨22, 0, .rw, 0, []⟩]⟩,
  -- BASIN_ECC
  ⟨0x43040, [], [⟨15, 0, .rw, 256, []⟩]⟩,
  -- LAYOUT_PKG
  ⟨0x48000, [], [⟨29, 16, .rw, 0, []⟩,
    ⟨13, 0, .rw, 0, []⟩]⟩,
  -- LAYOUT_CTL
  ⟨0x48004, [], [⟨31, 31, .w1s, 0, []⟩,
    ⟨10, 8, .rw, 0, []⟩,
    ⟨3, 0, .rw, 0, [(0, 3)]⟩]⟩,
  -- LAYOUT_STATUS
  ⟨0x48008, [], [⟨31, 31, .ro, 0, []⟩,
    ⟨30, 30, .w1c, 0, []⟩,
    ⟨29, 29, .w1c, 0, []⟩,
    ⟨23, 16, .ro, 0, []⟩,
    ⟨10, 8, .ro, 0, []⟩]⟩,
  -- EXIT_PORTS
  ⟨0x4c000, [], [⟨19, 0, .rws, 0, []⟩]⟩,
  -- EXIT_STATUS
  ⟨0x4c004, [], [⟨16, 16, .w1c, 0, []⟩,
    ⟨12, 0, .ro, 4096, []⟩]⟩,
  -- BASIN_PART
  ⟨0x43000, [(8, 0x4)], [⟨29, 16, .rw, 0, []⟩,
    ⟨13, 0, .rw, 0, []⟩]⟩,
  -- BASIN_ECC_BANK
  ⟨0x43080, [(16, 0x4)], [⟨31, 16, .ro, 0, []⟩,
    ⟨15, 0, .ro, 0, []⟩]⟩,
  -- EDGE_CFG
  ⟨0x44000, [(40, 0x10)], [⟨31, 30, .rws, 0, []⟩,
    ⟨29, 24, .rws, 0, [(0, 39), (63, 63)]⟩,
    ⟨21, 20, .rws, 0, []⟩,
    ⟨19, 16, .rws, 0, []⟩,
    ⟨13, 12, .rws, 0, [(0, 2)]⟩,
    ⟨11, 11, .rws, 0, []⟩]⟩,
  -- EDGE_RING
  ⟨0x44004, [(40, 0x10)], [⟨29, 16, .rws, 0, []⟩,
    ⟨13, 0, .rws, 0, []⟩]⟩,
  -- EDGE_STATUS
  ⟨0x44008, [(40, 0x10)], [⟨31, 31, .ro, 0, []⟩,
    ⟨19, 0, .ro, 0, []⟩]⟩,
  -- LAYOUT_INFO0
  ⟨0x48040, [(8, 0x10)], [⟨31, 0, .ro, 0, []⟩]⟩,
  -- LAYOUT_INFO1
  ⟨0x48044, [(8, 0x10)], [⟨3, 3, .ro, 0, []⟩,
    ⟨2, 2, .ro, 0, []⟩,
    ⟨1, 1, .ro, 0, []⟩,
    ⟨0, 0, .ro, 0, []⟩]⟩,
  -- LAYOUT_INFO2
  ⟨0x48048, [(8, 0x10)], [⟨24, 0, .ro, 0, []⟩]⟩,
  -- LAYOUT_INFO3
  ⟨0x4804c, [(8, 0x10)], [⟨31, 0, .ro, 0, []⟩]⟩,
  -- PRESS_CTL
  ⟨0x18000, [], [⟨2, 2, .rw, 0, []⟩,
    ⟨0, 0, .rw, 0, []⟩]⟩,
  -- PRESS_BANK
  ⟨0x18004, [], [⟨1, 0, .rw, 2, [(0, 2)]⟩]⟩,
  -- DT_ARMED_LO
  ⟨0x18600, [], [⟨31, 0, .ro, 0, []⟩]⟩,
  -- DT_ARMED_HI
  ⟨0x18604, [], [⟨31, 0, .ro, 0, []⟩]⟩,
  -- IT_STATUS
  ⟨0x19200, [], [⟨31, 0, .w1c, 0, []⟩]⟩]

/-- Registers outside the paged blocks, part 2. -/
def globRegs2 : List RegSpec := [
  -- ENC_CTL
  ⟨0x18100, [(4, 0x10)], [⟨31, 31, .rw, 0, []⟩,
    ⟨30, 30, .rw, 0, []⟩,
    ⟨29, 28, .rw, 0, [(0, 1)]⟩,
    ⟨7, 0, .rw, 0, []⟩]⟩,
  -- ENC_POS
  ⟨0x18104, [(4, 0x10)], [⟨31, 0, .ro, 0, []⟩]⟩,
  -- ENC_ZPOS
  ⟨0x18108, [(4, 0x10)], [⟨31, 0, .ro, 0, []⟩]⟩,
  -- ENC_STATUS
  ⟨0x1810c, [(4, 0x10)], [⟨2, 2, .w1c, 0, []⟩,
    ⟨1, 1, .ro, 0, []⟩,
    ⟨0, 0, .w1c, 0, []⟩]⟩,
  -- TRIG_CFG
  ⟨0x18200, [(16, 0x10)], [⟨31, 30, .rws, 0, []⟩,
    ⟨29, 29, .rws, 0, []⟩,
    ⟨15, 8, .rws, 0, []⟩]⟩,
  -- TRIG_STATUS
  ⟨0x18204, [(16, 0x10)], [⟨31, 24, .ro, 0, []⟩,
    ⟨23, 23, .ro, 0, []⟩,
    ⟨22, 22, .w1c, 0, []⟩,
    ⟨21, 21, .w1c, 0, []⟩,
    ⟨20, 20, .ro, 0, []⟩,
    ⟨6, 0, .ro, 0, []⟩]⟩,
  -- TRIG_COUNT
  ⟨0x18208, [(16, 0x10)], [⟨31, 0, .ro, 0, []⟩]⟩,
  -- ACT_CFG
  ⟨0x18300, [(16, 0x8)], [⟨2, 1, .rw, 0, [(0, 2)]⟩,
    ⟨0, 0, .rw, 0, []⟩]⟩,
  -- ACT_STATUS
  ⟨0x18304, [(16, 0x8)], [⟨15, 8, .ro, 0, []⟩,
    ⟨0, 0, .ro, 0, []⟩]⟩,
  -- PAD_CFG
  ⟨0x18400, [(44, 0x4)], [⟨7, 6, .rw, 2, []⟩,
    ⟨5, 5, .rw, 0, []⟩,
    ⟨4, 3, .rw, 0, []⟩,
    ⟨2, 2, .rw, 1, []⟩]⟩,
  -- DT_INFO
  ⟨0x18800, [(64, 0x8)], [⟨31, 20, .ro, 0, []⟩,
    ⟨19, 12, .ro, 0, []⟩,
    ⟨11, 8, .ro, 0, []⟩,
    ⟨7, 4, .ro, 0, []⟩,
    ⟨3, 1, .ro, 0, []⟩]⟩,
  -- DT_FIRE
  ⟨0x18804, [(64, 0x8)], [⟨31, 0, .ro, 0, []⟩]⟩,
  -- IT_CFG
  ⟨0x19000, [(32, 0x10)], [⟨31, 31, .rw, 0, []⟩,
    ⟨30, 30, .rw, 0, []⟩,
    ⟨29, 28, .rw, 0, [(0, 2)]⟩,
    ⟨27, 24, .rw, 0, []⟩,
    ⟨1, 0, .rw, 0, []⟩]⟩,
  -- IT_PERIOD
  ⟨0x19004, [(32, 0x10)], [⟨31, 0, .rw, 0, []⟩]⟩,
  -- IT_WIDTH
  ⟨0x19008, [(32, 0x10)], [⟨31, 0, .rw, 0, []⟩]⟩,
  -- FLOG_TAIL
  ⟨0x12420, [], [⟨31, 24, .ro, 0, []⟩,
    ⟨5, 0, .ro, 0, []⟩]⟩,
  -- FLOG_HEAD
  ⟨0x12424, [], [⟨5, 0, .rw, 0, []⟩]⟩,
  -- FLOG_CTL
  ⟨0x12428, [], [⟨1, 1, .w1s, 0, []⟩,
    ⟨0, 0, .w1s, 0, []⟩]⟩,
  -- JOURNAL_A_NEXT
  ⟨0x13000, [], [⟨14, 0, .ro, 0, []⟩]⟩,
  -- JOURNAL_B_NEXT
  ⟨0x13004, [], [⟨17, 0, .ro, 0, []⟩]⟩,
  -- JOURNAL_ADDR
  ⟨0x13010, [], [⟨22, 2, .rw, 0, []⟩]⟩,
  -- JOURNAL_DATA
  ⟨0x13014, [], [⟨31, 0, .ro, 0, []⟩]⟩,
  -- JOURNAL_CTL
  ⟨0x13018, [], [⟨0, 0, .rw, 1, []⟩]⟩,
  -- FAULT_C_COUNT
  ⟨0x12500, [(256, 0x4)], [⟨31, 0, .ro, 0, []⟩]⟩,
  -- PWR_CTL
  ⟨0x10000, [], [⟨8, 8, .rw, 1, []⟩,
    ⟨3, 0, .rw, 0, [(0, 2)]⟩]⟩]

/-- Registers outside the paged blocks, part 3. -/
def globRegs3 : List RegSpec := [
  -- PWR_STATUS
  ⟨0x10004, [], [⟨31, 28, .ro, 0, []⟩,
    ⟨25, 25, .ro, 1, []⟩,
    ⟨24, 24, .ro, 0, []⟩,
    ⟨23, 23, .ro, 0, []⟩,
    ⟨22, 22, .w1c, 0, []⟩,
    ⟨21, 21, .w1c, 0, []⟩,
    ⟨20, 20, .w1c, 0, []⟩]⟩,
  -- PWR_EBB
  ⟨0x10008, [], [⟨16, 16, .rw, 0, []⟩,
    ⟨7, 0, .rw, 200, []⟩]⟩,
  -- PWR_WAKE
  ⟨0x1000c, [], [⟨31, 16, .rw, 0, []⟩,
    ⟨2, 2, .rw, 0, []⟩,
    ⟨1, 1, .rw, 1, []⟩,
    ⟨0, 0, .rw, 1, []⟩]⟩,
  -- PWR_ARMED
  ⟨0x10010, [], [⟨24, 0, .ro, 0, []⟩]⟩,
  -- CLK_FC_PLL
  ⟨0x10200, [], [⟨21, 16, .ro, 0, []⟩,
    ⟨5, 0, .rw, 0, []⟩]⟩,
  -- CLK_STATUS
  ⟨0x10204, [], [⟨8, 8, .w1c, 0, []⟩,
    ⟨5, 5, .ro, 0, []⟩,
    ⟨4, 4, .ro, 0, []⟩,
    ⟨3, 3, .ro, 0, []⟩,
    ⟨1, 1, .ro, 0, []⟩,
    ⟨0, 0, .ro, 0, []⟩]⟩,
  -- THERM_CFG
  ⟨0x10300, [], [⟨31, 31, .rw, 0, []⟩,
    ⟨17, 16, .rw, 0, [(0, 2)]⟩,
    ⟨15, 8, .rw, 105, [(60, 110)]⟩,
    ⟨7, 0, .rw, 95, [(60, 105)]⟩]⟩,
  -- THERM_STATUS
  ⟨0x10304, [], [⟨31, 24, .ro, 0, []⟩,
    ⟨20, 16, .ro, 0, []⟩,
    ⟨10, 10, .ro, 0, []⟩,
    ⟨9, 9, .ro, 0, []⟩,
    ⟨8, 8, .w1c, 0, []⟩]⟩,
  -- KTIME_LO
  ⟨0x10400, [], [⟨31, 0, .ro, 0, []⟩]⟩,
  -- KTIME_HI
  ⟨0x10404, [], [⟨31, 0, .ro, 0, []⟩]⟩,
  -- KTIME_STEP
  ⟨0x10408, [], [⟨31, 0, .wo, 0, []⟩]⟩,
  -- KTIME_RATE
  ⟨0x1040c, [], [⟨31, 0, .rw, 0, []⟩]⟩,
  -- RTC_SEC
  ⟨0x10410, [], [⟨31, 0, .rw, 0, []⟩]⟩,
  -- RTC_ALARM
  ⟨0x10414, [], [⟨31, 0, .rw, 0, []⟩]⟩,
  -- BOOT_STATUS
  ⟨0x10500, [], [⟨31, 28, .ro, 0, []⟩,
    ⟨23, 16, .ro, 0, []⟩,
    ⟨8, 8, .ro, 0, []⟩,
    ⟨7, 0, .ro, 0, []⟩]⟩,
  -- KEYSTORE_CTL
  ⟨0x10600, [], [⟨31, 31, .w1s, 0, []⟩,
    ⟨30, 30, .w1s, 0, []⟩,
    ⟨29, 29, .w1s, 0, []⟩,
    ⟨19, 16, .rw, 4, [(4, 15)]⟩,
    ⟨13, 0, .rw, 0, []⟩]⟩,
  -- KEYSTORE_STATUS
  ⟨0x10604, [], [⟨17, 17, .w1c, 0, []⟩,
    ⟨16, 16, .ro, 0, []⟩,
    ⟨15, 0, .ro, 15, []⟩]⟩,
  -- SUPPLY_MON
  ⟨0x10100, [(9, 0x4)], [⟨31, 31, .ro, 0, []⟩,
    ⟨15, 0, .ro, 0, []⟩]⟩,
  -- THERM_TEMP
  ⟨0x10380, [(27, 0x4)], [⟨9, 0, .ro, 0, []⟩]⟩,
  -- OBS_CTL
  ⟨0x400000, [], [⟨1, 1, .w1s, 0, []⟩,
    ⟨0, 0, .rw, 0, []⟩]⟩,
  -- DBG_LOCK
  ⟨0x400010, [], [⟨31, 31, .w1s, 0, []⟩,
    ⟨30, 30, .w1s, 0, []⟩,
    ⟨19, 16, .rw, 3, []⟩,
    ⟨11, 8, .ro, 0, []⟩,
    ⟨0, 0, .ro, 1, []⟩]⟩,
  -- DBG_CHAL_LO
  ⟨0x400018, [], [⟨31, 0, .ro, 0, []⟩]⟩,
  -- DBG_CHAL_HI
  ⟨0x40001c, [], [⟨31, 0, .ro, 0, []⟩]⟩,
  -- TRACE_CTL
  ⟨0x410000, [], [⟨31, 31, .rw, 0, []⟩,
    ⟨30, 30, .rw, 0, []⟩,
    ⟨29, 29, .rw, 0, []⟩,
    ⟨28, 28, .rw, 0, []⟩,
    ⟨23, 16, .rw, 0, []⟩,
    ⟨10, 0, .rw, 0, []⟩]⟩,
  -- TRACE_FILT
  ⟨0x410004, [], [⟨24, 0, .rw, 0, []⟩]⟩]

/-- Registers outside the paged blocks, part 4. -/
def globRegs4 : List RegSpec := [
  -- TRACE_TAG
  ⟨0x410008, [], [⟨31, 16, .rw, 0, []⟩,
    ⟨15, 0, .rw, 0, []⟩]⟩,
  -- TRACE_RING
  ⟨0x41000c, [], [⟨29, 16, .rw, 0, []⟩,
    ⟨13, 0, .rw, 0, []⟩]⟩,
  -- TRACE_STATUS
  ⟨0x410010, [], [⟨31, 31, .w1c, 0, []⟩,
    ⟨23, 0, .ro, 0, []⟩]⟩,
  -- TELEM_CTL
  ⟨0x420000, [], [⟨31, 31, .rw, 0, []⟩,
    ⟨25, 24, .rw, 0, []⟩,
    ⟨15, 0, .rw, 0, []⟩]⟩,
  -- TELEM_FILT
  ⟨0x420004, [], [⟨24, 0, .rw, 0, []⟩]⟩,
  -- TELEM_RING
  ⟨0x420008, [], [⟨29, 16, .rw, 0, []⟩,
    ⟨13, 0, .rw, 0, []⟩]⟩,
  -- SCAN_CTL
  ⟨0x430000, [], [⟨31, 31, .w1s, 0, []⟩,
    ⟨4, 0, .rw, 0, [(0, 24)]⟩]⟩,
  -- BIST_CTL
  ⟨0x440000, [], [⟨31, 31, .w1s, 0, []⟩,
    ⟨2, 0, .rw, 0, []⟩]⟩,
  -- BIST_STATUS
  ⟨0x440004, [], [⟨24, 0, .ro, 0, []⟩]⟩,
  -- BIST_BASIN
  ⟨0x440008, [], [⟨15, 0, .ro, 0, []⟩]⟩,
  -- DBG_RESP
  ⟨0x400040, [(16, 0x4)], [⟨31, 0, .wo, 0, []⟩]⟩,
  -- GLOBAL_ID
  ⟨0x0, [], [⟨31, 16, .ro, 16416, []⟩,
    ⟨15, 8, .ro, 161, []⟩,
    ⟨1, 0, .ro, 0, []⟩]⟩,
  -- GLOBAL_FW
  ⟨0x4, [], [⟨31, 0, .ro, 0, []⟩]⟩,
  -- GLOBAL_SERIAL_LO
  ⟨0x8, [], [⟨31, 0, .ro, 0, []⟩]⟩,
  -- GLOBAL_SERIAL_HI
  ⟨0xc, [], [⟨31, 0, .ro, 0, []⟩]⟩,
  -- GLOBAL_STATUS
  ⟨0x10, [], [⟨31, 31, .w1c, 0, []⟩,
    ⟨30, 30, .w1c, 0, []⟩,
    ⟨29, 29, .w1c, 0, []⟩,
    ⟨28, 28, .ro, 0, []⟩,
    ⟨27, 27, .ro, 0, []⟩,
    ⟨25, 0, .ro, 0, []⟩]⟩,
  -- GLOBAL_REJECT
  ⟨0x14, [], [⟨31, 31, .ro, 0, []⟩,
    ⟨7, 0, .ro, 0, []⟩]⟩,
  -- GLOBAL_RESET
  ⟨0x20, [], [⟨31, 31, .w1s, 0, []⟩,
    ⟨30, 30, .w1s, 0, []⟩,
    ⟨15, 0, .wo, 0, [(23100, 23100)]⟩]⟩,
  -- GLOBAL_INT_SUM
  ⟨0x30, [], [⟨9, 0, .ro, 0, []⟩]⟩,
  -- GLOBAL_INT_MASK
  ⟨0x34, [], [⟨9, 0, .rw, 0, []⟩]⟩,
  -- GLOBAL_STREAM_PEND
  ⟨0x40, [(8, 0x4)], [⟨31, 0, .ro, 0, []⟩]⟩]

/-- Registers outside the paged blocks. -/
def globRegs : List RegSpec := globRegs0 ++ globRegs1 ++ globRegs2 ++ globRegs3 ++ globRegs4

/-- Ingest channel registers, part 0. -/
def chanRegs0 : List RegSpec := [
  -- INGEST_CH_CTL
  ⟨0x0, [], [⟨22, 21, .rw, 0, [(0, 1)]⟩,
    ⟨20, 20, .rw, 0, []⟩,
    ⟨19, 16, .rw, 0, []⟩,
    ⟨15, 8, .rw, 0, []⟩,
    ⟨6, 4, .rw, 0, []⟩,
    ⟨3, 1, .rw, 0, [(0, 3)]⟩,
    ⟨0, 0, .rw, 0, []⟩]⟩,
  -- INGEST_CH_FMT
  ⟨0x4, [], [⟨8, 8, .rws, 0, []⟩,
    ⟨7, 6, .rws, 0, [(0, 2)]⟩,
    ⟨5, 4, .rws, 0, [(0, 1)]⟩,
    ⟨3, 0, .rws, 0, [(0, 6)]⟩]⟩,
  -- INGEST_CH_GEOM
  ⟨0x8, [], [⟨29, 25, .rws, 0, []⟩,
    ⟨24, 16, .rws, 0, []⟩,
    ⟨15, 0, .rws, 0, []⟩]⟩,
  -- INGEST_CH_SEG
  ⟨0xc, [], [⟨31, 16, .rws, 0, []⟩,
    ⟨7, 3, .rws, 0, []⟩,
    ⟨2, 0, .rws, 0, [(0, 6)]⟩]⟩,
  -- INGEST_CH_POOL
  ⟨0x10, [], [⟨29, 16, .rws, 0, []⟩,
    ⟨13, 0, .rws, 0, []⟩]⟩,
  -- INGEST_CH_STATUS
  ⟨0x14, [], [⟨31, 20, .ro, 0, []⟩,
    ⟨3, 3, .w1c, 0, []⟩,
    ⟨2, 2, .ro, 0, []⟩,
    ⟨1, 1, .w1c, 0, []⟩,
    ⟨0, 0, .ro, 0, []⟩]⟩,
  -- INGEST_CH_SRC
  ⟨0x18, [], [⟨23, 16, .rw, 0, []⟩,
    ⟨15, 0, .rw, 0, []⟩]⟩,
  -- INGEST_CH_MCAST
  ⟨0x1c, [], [⟨31, 0, .rw, 0, []⟩]⟩]

/-- Ingest channel registers. -/
def chanRegs : List RegSpec := chanRegs0

/-- Stream page registers, part 0. -/
def streamRegs0 : List RegSpec := [
  -- STREAM_CTL
  ⟨0x0, [], [⟨31, 20, .rw, 0, []⟩,
    ⟨10, 10, .rw, 0, []⟩,
    ⟨9, 9, .rw, 0, []⟩,
    ⟨8, 8, .rw, 1, []⟩,
    ⟨4, 4, .w1s, 0, []⟩,
    ⟨3, 3, .w1s, 0, []⟩,
    ⟨2, 2, .w1s, 0, []⟩,
    ⟨1, 1, .w1s, 0, []⟩,
    ⟨0, 0, .w1s, 0, []⟩]⟩,
  -- STREAM_STATUS
  ⟨0x4, [], [⟨31, 20, .ro, 0, []⟩,
    ⟨19, 10, .ro, 0, []⟩,
    ⟨9, 9, .ro, 0, []⟩,
    ⟨8, 8, .ro, 0, []⟩,
    ⟨7, 7, .ro, 0, []⟩,
    ⟨6, 6, .w1c, 0, []⟩,
    ⟨5, 5, .ro, 0, []⟩,
    ⟨2, 0, .ro, 0, []⟩]⟩,
  -- STREAM_JOB
  ⟨0x8, [], [⟨9, 0, .stop, 0, []⟩]⟩,
  -- STREAM_INT_CAUSE
  ⟨0xc, [], [⟨5, 5, .w1c, 0, []⟩,
    ⟨4, 4, .w1c, 0, []⟩,
    ⟨3, 3, .w1c, 0, []⟩,
    ⟨2, 2, .w1c, 0, []⟩,
    ⟨1, 1, .w1c, 0, []⟩,
    ⟨0, 0, .w1c, 0, []⟩]⟩,
  -- STREAM_INT_MASK
  ⟨0x10, [], [⟨5, 5, .rw, 1, []⟩,
    ⟨4, 4, .rw, 1, []⟩,
    ⟨3, 3, .rw, 1, []⟩,
    ⟨2, 2, .rw, 1, []⟩,
    ⟨1, 1, .rw, 1, []⟩,
    ⟨0, 0, .rw, 1, []⟩]⟩,
  -- STREAM_INT_COAL
  ⟨0x14, [], [⟨23, 8, .rw, 0, []⟩,
    ⟨7, 0, .rw, 0, []⟩]⟩,
  -- SQ_BASE_LO
  ⟨0x20, [], [⟨31, 6, .stop, 0, []⟩]⟩,
  -- SQ_BASE_HI
  ⟨0x24, [], [⟨31, 0, .stop, 0, []⟩]⟩,
  -- SQ_CFG
  ⟨0x28, [], [⟨3, 0, .stop, 0, [(0, 8)]⟩]⟩,
  -- SQ_TAIL
  ⟨0x2c, [], [⟨11, 0, .rw, 0, []⟩]⟩,
  -- SQ_HEAD
  ⟨0x30, [], [⟨11, 0, .ro, 0, []⟩]⟩,
  -- CQ_BASE_LO
  ⟨0x40, [], [⟨31, 6, .stop, 0, []⟩]⟩,
  -- CQ_BASE_HI
  ⟨0x44, [], [⟨31, 0, .stop, 0, []⟩]⟩,
  -- CQ_CFG
  ⟨0x48, [], [⟨3, 0, .stop, 0, [(0, 8)]⟩]⟩,
  -- CQ_HEAD
  ⟨0x4c, [], [⟨11, 0, .rw, 0, []⟩]⟩,
  -- CQ_TAIL
  ⟨0x50, [], [⟨11, 0, .ro, 0, []⟩]⟩,
  -- CQ_OVF
  ⟨0x58, [], [⟨31, 16, .lock, 0, []⟩,
    ⟨15, 0, .lock, 0, []⟩]⟩,
  -- STREAM_LOCK
  ⟨0x80, [], [⟨0, 0, .pf, 0, []⟩]⟩,
  -- STREAM_JOB_RANGE
  ⟨0x84, [], [⟨25, 16, .lock, 1023, []⟩,
    ⟨9, 0, .lock, 0, []⟩]⟩,
  -- STREAM_PRESS
  ⟨0x88, [], [⟨19, 16, .lock, 0, []⟩,
    ⟨15, 0, .lock, 0, []⟩]⟩,
  -- STREAM_FERRY
  ⟨0x8c, [], [⟨24, 16, .lock, 0, []⟩,
    ⟨7, 0, .lock, 0, []⟩]⟩,
  -- STREAM_TM
  ⟨0x90, [], [⟨29, 16, .lock, 0, []⟩,
    ⟨12, 0, .lock, 0, []⟩]⟩,
  -- FAULT_TAIL
  ⟨0x1f0, [], [⟨31, 24, .ro, 0, []⟩,
    ⟨3, 0, .ro, 0, []⟩]⟩,
  -- FAULT_HEAD
  ⟨0x1f4, [], [⟨3, 0, .rw, 0, [(0, 14)]⟩]⟩]

/-- Stream page registers. -/
def streamRegs : List RegSpec := streamRegs0

/-- Sequencer control page registers, part 0. -/
def seqRegs0 : List RegSpec := [
  -- SEQ_CTL
  ⟨0x0, [], [⟨0, 0, .rw, 0, []⟩]⟩,
  -- SEQ_STATUS
  ⟨0x4, [], [⟨31, 31, .ro, 0, []⟩,
    ⟨30, 30, .ro, 0, []⟩,
    ⟨29, 26, .ro, 0, []⟩,
    ⟨25, 23, .ro, 0, []⟩,
    ⟨22, 20, .ro, 0, []⟩,
    ⟨19, 17, .ro, 1, []⟩,
    ⟨16, 14, .ro, 0, []⟩]⟩,
  -- SEQ_PC
  ⟨0x8, [], [⟨16, 2, .ro, 0, []⟩]⟩,
  -- SEQ_RESTART
  ⟨0xc, [], [⟨16, 2, .rws, 0, []⟩]⟩,
  -- SEQ_SPILL_BASE
  ⟨0x10, [], [⟨16, 6, .rws, 0, []⟩]⟩,
  -- SEQ_SPILL_LIMIT
  ⟨0x14, [], [⟨16, 6, .rws, 0, []⟩]⟩,
  -- SEQ_WATCH
  ⟨0x18, [], [⟨31, 31, .rws, 0, []⟩,
    ⟨6, 3, .rws, 0, []⟩,
    ⟨2, 0, .rws, 0, []⟩]⟩,
  -- SEQ_KEY
  ⟨0x1c, [], [⟨31, 4, .ro, 0, []⟩,
    ⟨0, 0, .ro, 0, []⟩]⟩,
  -- SEQ_TAG
  ⟨0x20, [], [⟨15, 0, .ro, 0, []⟩]⟩,
  -- SEQ_MEM_ADDR
  ⟨0x30, [], [⟨16, 2, .rw, 0, []⟩]⟩,
  -- SEQ_MEM_DATA
  ⟨0x34, [], [⟨31, 0, .rw, 0, []⟩]⟩,
  -- SEQ_ECC
  ⟨0x38, [], [⟨31, 16, .ro, 0, []⟩,
    ⟨15, 0, .ro, 0, []⟩]⟩,
  -- REGION_CLK
  ⟨0x40, [], [⟨19, 16, .ro, 0, []⟩,
    ⟨3, 0, .rws, 0, [(0, 9)]⟩]⟩,
  -- REGION_PWR
  ⟨0x44, [], [⟨31, 31, .w1s, 0, []⟩,
    ⟨26, 26, .w1c, 0, []⟩,
    ⟨25, 24, .ro, 2, []⟩,
    ⟨23, 0, .rw, 4096, []⟩]⟩,
  -- REGION_FCTL
  ⟨0x50, [], [⟨31, 31, .w1s, 0, []⟩,
    ⟨30, 30, .rw, 0, []⟩,
    ⟨29, 29, .rw, 1, []⟩,
    ⟨3, 0, .rw, 0, []⟩]⟩,
  -- REGION_FSTATUS
  ⟨0x54, [], [⟨31, 28, .ro, 0, []⟩,
    ⟨24, 24, .w1c, 0, []⟩,
    ⟨23, 16, .ro, 0, []⟩,
    ⟨15, 8, .ro, 0, []⟩]⟩,
  -- SEQ_DBG_CTL
  ⟨0x800, [], [⟨31, 31, .rw, 0, []⟩,
    ⟨30, 30, .w1s, 0, []⟩,
    ⟨29, 29, .rw, 0, []⟩,
    ⟨16, 2, .rw, 0, []⟩]⟩]

/-- Sequencer control page registers. -/
def seqRegs : List RegSpec := seqRegs0

/-- Tile page registers, part 0. -/
def tileRegs0 : List RegSpec := [
  -- TILE_ID
  ⟨0x0, [], [⟨27, 23, .ro, 0, []⟩,
    ⟨22, 19, .ro, 0, []⟩,
    ⟨18, 14, .ro, 0, []⟩,
    ⟨13, 9, .ro, 0, []⟩,
    ⟨8, 0, .ro, 0, []⟩]⟩,
  -- TILE_STATUS
  ⟨0x4, [], [⟨12, 12, .ro, 0, []⟩,
    ⟨11, 11, .ro, 0, []⟩,
    ⟨10, 10, .ro, 0, []⟩,
    ⟨9, 9, .ro, 0, []⟩,
    ⟨8, 8, .ro, 0, []⟩,
    ⟨5, 0, .ro, 0, []⟩]⟩,
  -- TILE_CTL
  ⟨0x8, [], [⟨7, 6, .rw, 0, [(0, 2)]⟩,
    ⟨5, 3, .rw, 0, []⟩,
    ⟨2, 2, .w1s, 0, []⟩,
    ⟨0, 0, .rw, 1, []⟩]⟩,
  -- TILE_ECC_THRESH
  ⟨0xc, [], [⟨15, 0, .rw, 256, []⟩]⟩,
  -- TILE_ECC_LAST
  ⟨0x30, [], [⟨31, 31, .w1c, 0, []⟩,
    ⟨30, 30, .ro, 0, []⟩,
    ⟨15, 13, .ro, 0, []⟩,
    ⟨12, 3, .ro, 0, []⟩,
    ⟨2, 1, .ro, 0, []⟩]⟩,
  -- TILE_CQ_OCC_A
  ⟨0xc0, [], [⟨24, 16, .ro, 0, []⟩,
    ⟨8, 0, .ro, 0, []⟩]⟩,
  -- TILE_CQ_OCC_B
  ⟨0xc4, [], [⟨24, 16, .ro, 0, []⟩,
    ⟨8, 0, .ro, 0, []⟩]⟩,
  -- TILE_WIN_GEOM
  ⟨0x300, [], [⟨31, 31, .rws, 0, []⟩,
    ⟨27, 25, .rws, 0, [(0, 4)]⟩,
    ⟨24, 24, .rws, 0, []⟩,
    ⟨23, 22, .rws, 0, [(0, 2)]⟩,
    ⟨21, 20, .rws, 0, []⟩,
    ⟨19, 18, .rws, 0, []⟩,
    ⟨17, 16, .rws, 0, []⟩,
    ⟨15, 14, .rws, 0, []⟩,
    ⟨13, 12, .rws, 0, []⟩,
    ⟨11, 10, .rws, 0, []⟩,
    ⟨9, 8, .rws, 0, []⟩,
    ⟨7, 6, .rws, 0, []⟩,
    ⟨5, 3, .rws, 0, [(1, 7)]⟩,
    ⟨2, 0, .rws, 0, [(1, 7)]⟩]⟩,
  -- TILE_WIN_CH
  ⟨0x304, [], [⟨28, 16, .rws, 1, [(1, 4096)]⟩,
    ⟨12, 0, .rws, 1, [(1, 4096)]⟩]⟩,
  -- TILE_WIN_PAD
  ⟨0x308, [], [⟨23, 16, .rws, 0, []⟩,
    ⟨15, 12, .rws, 0, []⟩,
    ⟨11, 8, .rws, 0, []⟩,
    ⟨7, 4, .rws, 0, []⟩,
    ⟨3, 0, .rws, 0, []⟩]⟩,
  -- TILE_WIN_LB
  ⟨0x30c, [], [⟨18, 13, .rws, 1, [(1, 32)]⟩,
    ⟨12, 0, .rws, 0, []⟩]⟩,
  -- TILE_WIN_PITCH
  ⟨0x310, [], [⟨30, 16, .rws, 1, [(1, 16384)]⟩,
    ⟨13, 0, .rws, 1, [(1, 8192)]⟩]⟩,
  -- TILE_WIN_ROW
  ⟨0x314, [], [⟨31, 16, .rws, 1, [(1, 65535)]⟩,
    ⟨2, 0, .rws, 1, [(1, 4)]⟩]⟩,
  -- TILE_DSP_CFG
  ⟨0x340, [], [⟨31, 31, .rws, 0, []⟩,
    ⟨30, 29, .rws, 0, [(0, 2)]⟩,
    ⟨28, 28, .rws, 0, []⟩,
    ⟨27, 27, .rws, 0, []⟩,
    ⟨26, 26, .rws, 0, []⟩,
    ⟨25, 23, .rws, 0, []⟩,
    ⟨22, 20, .rws, 0, []⟩,
    ⟨19, 16, .rws, 0, []⟩,
    ⟨15, 10, .rws, 0, []⟩,
    ⟨9, 3, .rws, 0, [(0, 64)]⟩]⟩,
  -- TILE_DSP_Q
  ⟨0x344, [], [⟨30, 28, .rws, 0, []⟩,
    ⟨26, 24, .rws, 0, []⟩,
    ⟨22, 20, .rws, 0, []⟩,
    ⟨18, 16, .rws, 0, []⟩,
    ⟨14, 12, .rws, 0, []⟩]⟩,
  -- TILE_DSP_THR
  ⟨0x348, [], [⟨27, 24, .rws, 1, [(1, 15)]⟩,
    ⟨21, 16, .rws, 0, []⟩,
    ⟨15, 0, .rws, 0, []⟩]⟩,
  -- TILE_DSP_TM
  ⟨0x34c, [], [⟨31, 31, .rws, 0, []⟩,
    ⟨12, 0, .rws, 0, []⟩]⟩,
  -- TILE_DSP_GB
  ⟨0x350, [], [⟨12, 0, .rws, 0, []⟩]⟩,
  -- TILE_GT_CFG
  ⟨0x354, [], [⟨31, 31, .rws, 0, []⟩,
    ⟨30, 28, .rws, 0, []⟩,
    ⟨27, 24, .rws, 0, []⟩,
    ⟨23, 21, .rws, 0, []⟩]⟩,
  -- TILE_DSP_STATUS
  ⟨0x358, [], [⟨31, 25, .ro, 0, []⟩,
    ⟨24, 20, .ro, 0, []⟩,
    ⟨19, 19, .ro, 0, []⟩,
    ⟨18, 18, .ro, 0, []⟩]⟩,
  -- TILE_DBG_CTL
  ⟨0x800, [], [⟨31, 31, .rw, 0, []⟩,
    ⟨30, 30, .w1s, 0, []⟩,
    ⟨29, 29, .rw, 0, []⟩,
    ⟨8, 0, .rw, 0, [(0, 495)]⟩]⟩,
  -- TILE_DBG_LOOP
  ⟨0x804, [], [⟨31, 31, .rw, 0, []⟩,
    ⟨3, 2, .rw, 0, []⟩,
    ⟨1, 0, .rw, 0, [(1, 3)]⟩]⟩,
  -- TILE_DBG_STATUS
  ⟨0x808, [], [⟨1, 1, .w1c, 0, []⟩,
    ⟨0, 0, .ro, 0, []⟩]⟩,
  -- TILE_ECC_BANK
  ⟨0x10, [(8, 0x4)], [⟨31, 16, .ro, 0, []⟩,
    ⟨15, 0, .ro, 0, []⟩]⟩,
  -- TILE_QSTAT
  ⟨0x40, [(16, 0x8)], [⟨22, 16, .ro, 0, []⟩,
    ⟨9, 9, .ro, 0, []⟩,
    ⟨8, 8, .ro, 0, []⟩,
    ⟨6, 0, .ro, 0, []⟩]⟩]

/-- Tile page registers, part 1. -/
def tileRegs1 : List RegSpec := [
  -- TILE_QHEAD
  ⟨0x44, [(16, 0x8)], [⟨31, 0, .ro, 0, []⟩]⟩,
  -- TILE_SW_OUT
  ⟨0x100, [(4, 0x40), (15, 0x4)], [⟨7, 7, .rws, 0, []⟩,
    ⟨6, 4, .rws, 0, [(0, 4)]⟩,
    ⟨3, 0, .rws, 0, []⟩]⟩,
  -- TILE_QBIND
  ⟨0x200, [(16, 0x4)], [⟨31, 31, .rws, 0, []⟩,
    ⟨30, 30, .rws, 0, []⟩,
    ⟨29, 26, .rws, 0, []⟩,
    ⟨25, 23, .rws, 0, []⟩,
    ⟨22, 8, .rws, 0, []⟩,
    ⟨1, 0, .rws, 0, []⟩]⟩,
  -- TILE_WIN_HALO
  ⟨0x318, [(2, 0x4)], [⟨31, 31, .rws, 0, []⟩,
    ⟨30, 28, .rws, 0, []⟩,
    ⟨27, 25, .rws, 0, []⟩,
    ⟨24, 12, .rws, 0, []⟩,
    ⟨11, 6, .rws, 0, []⟩]⟩,
  -- TILE_WIN_CTX
  ⟨0x320, [(2, 0x4)], [⟨31, 31, .ro, 0, []⟩,
    ⟨30, 30, .ro, 0, []⟩,
    ⟨29, 24, .ro, 0, []⟩,
    ⟨23, 12, .ro, 0, []⟩,
    ⟨11, 0, .ro, 0, []⟩]⟩,
  -- TILE_WIN_KEY
  ⟨0x328, [(2, 0x4)], [⟨31, 20, .ro, 0, []⟩,
    ⟨11, 4, .ro, 0, []⟩,
    ⟨0, 0, .ro, 0, []⟩]⟩]

/-- Tile page registers. -/
def tileRegs : List RegSpec := tileRegs0 ++ tileRegs1

/-- Ferry page registers, part 0. -/
def ferryRegs0 : List RegSpec := [
  -- FERRY_CTL
  ⟨0x0, [], [⟨31, 31, .rw, 0, []⟩,
    ⟨23, 8, .lock, 0, []⟩,
    ⟨6, 0, .lock, 127, [(0, 64), (127, 127)]⟩]⟩,
  -- FERRY_KICK
  ⟨0x4, [], [⟨20, 0, .wo, 0, []⟩]⟩,
  -- FERRY_STATUS
  ⟨0x8, [], [⟨13, 13, .w1c, 0, []⟩,
    ⟨12, 8, .ro, 0, []⟩,
    ⟨7, 4, .ro, 0, []⟩,
    ⟨2, 0, .ro, 0, []⟩]⟩,
  -- FERRY_BWIN
  ⟨0x10, [], [⟨29, 16, .lock, 0, []⟩,
    ⟨13, 0, .lock, 0, []⟩]⟩,
  -- FERRY_DWIN
  ⟨0x14, [], [⟨31, 16, .lock, 0, []⟩,
    ⟨15, 0, .lock, 0, []⟩]⟩,
  -- FERRY_HWIN_LO
  ⟨0x18, [], [⟨31, 12, .lock, 0, []⟩]⟩,
  -- FERRY_HWIN_HI
  ⟨0x1c, [], [⟨31, 0, .lock, 0, []⟩]⟩,
  -- FERRY_HWIN_SIZE
  ⟨0x20, [], [⟨31, 0, .lock, 0, []⟩]⟩]

/-- Ferry page registers. -/
def ferryRegs : List RegSpec := ferryRegs0

/-- BMC registers, by command code, part 0. -/
def trayRegs0 : List RegSpec := [
  -- TRAY_ID
  ⟨0x0, [], [⟨31, 16, .ro, 0, []⟩,
    ⟨1, 0, .ro, 0, []⟩]⟩,
  -- TRAY_STATUS
  ⟨0x1, [], [⟨31, 28, .ro, 1, []⟩,
    ⟨25, 25, .ro, 1, []⟩,
    ⟨24, 24, .ro, 0, []⟩,
    ⟨19, 16, .ro, 0, []⟩,
    ⟨15, 12, .w1c, 0, []⟩,
    ⟨11, 8, .ro, 0, []⟩,
    ⟨5, 0, .ro, 0, []⟩]⟩,
  -- TRAY_CTL
  ⟨0x2, [], [⟨7, 4, .w1s, 0, []⟩,
    ⟨3, 0, .rw, 0, []⟩]⟩,
  -- TRAY_PRESS
  ⟨0x3, [], [⟨15, 0, .rw, 0, []⟩]⟩,
  -- TRAY_BAK
  ⟨0x4, [], [⟨31, 16, .ro, 0, []⟩,
    ⟨15, 0, .ro, 0, []⟩]⟩]

/-- BMC registers, by command code. -/
def trayRegs : List RegSpec := trayRegs0

/-- Whether a relative offset falls on an element of the register array. -/
def RegSpec.holds (r : RegSpec) (rel : Nat) : Bool :=
  if rel < r.off then false else
  match r.dims with
  | [] => rel == r.off
  | [(n, st)] => (rel - r.off) % st == 0 && (rel - r.off) / st < n
  | (n, st) :: (m, st2) :: _ =>
    (rel - r.off) / st < n && (rel - r.off) % st % st2 == 0 && (rel - r.off) % st / st2 < m

/-- The element of an array that a relative offset falls on (first dimension). -/
def RegSpec.index (r : RegSpec) (rel : Nat) : Nat :=
  match r.dims with
  | [] => 0
  | (_, st) :: _ => (rel - r.off) / st

/-- The blocks of window A that repeat. -/
inductive Block where
  | glob
  | chan (c : Nat)
  | stream (n : Nat)
  | seq (g : Nat)
  | tile (t : Nat)
  | ferry (f : Nat)
deriving DecidableEq, Repr

/-- The block a window A offset falls in, and the offset within it (20, Window A). -/
def locate (off : Nat) : Block × Nat :=
  if 0x28000 ≤ off && off < 0x29000 then (.chan ((off - 0x28000) / 0x80), (off - 0x28000) % 0x80)
  else if 0x50000 ≤ off && off < 0x60000 then (.ferry ((off - 0x50000) / 0x100), off % 0x100)
  else if 0x100000 ≤ off && off < 0x200000 then (.stream ((off - 0x100000) / 0x1000), off % 0x1000)
  else if 0x200000 ≤ off && off < 0x390000 then
    let g := (off - 0x200000) / 0x10000
    let r := off % 0x10000
    if r < 0x4000 then (.seq g, r)
    else if r < 0x10000 then (.tile (tileOf g ((r - 0x4000) / 0xC00)), (r - 0x4000) % 0xC00)
    else (.glob, off)
  else (.glob, off)

/-- The register table of a block. -/
def regsOf : Block → List RegSpec
  | .glob => globRegs
  | .chan _ => chanRegs
  | .stream _ => streamRegs
  | .seq _ => seqRegs
  | .tile _ => tileRegs
  | .ferry _ => ferryRegs

/-- The register at a window A offset; none at an offset no table lists (R423). -/
def regAt (off : Nat) : Option RegSpec :=
  let (b, rel) := locate off
  (regsOf b).find? (fun r => r.holds rel)

/-- The reset value of a register: its fields' reset values. CLK_FC_PLL.N resets to 50 (A) or 40 (B). -/
def regReset (off : Nat) : Word :=
  match regAt off with
  | none => 0
  | some r =>
    let w := r.fields.foldl (fun a f => a + f.reset * 2 ^ f.lo) 0
    if off = 0x10200 then BitVec.ofNat 32 (if Config.gradeA then 50 * 0x10001 else 40 * 0x10001)
    else BitVec.ofNat 32 w

end Sys2Proof.Machine
end

