-- ==== Sys2Proof/Machine/Ops.lean ====
section
/-! DEFINITION. The named operations over registers, counters, memories and the device's shared services: access to a
field, the free value, interrupts (R67, R427), fault records and what each class does (R341 to R345, R351, R355), the
journal (R360). -/
namespace Sys2Proof.Machine

/-! ### Registers -/

/-- The word a register holds: what a read returns of its stored fields. -/
def State.rd (s : State) (off : Nat) : Word := tget (regReset off) s.regs off

/-- Store a whole register word. -/
def State.wr (s : State) (off : Nat) (w : Word) : State := { s with regs := tset (regReset off) s.regs off w }

/-- The word in effect of an RWS register (R8). -/
def State.act (s : State) (off : Nat) : Word := tget (regReset off) s.active off

/-- Set the word in effect. -/
def State.wrAct (s : State) (off : Nat) (w : Word) : State := { s with active := tset (regReset off) s.active off w }

/-- The field of `len` bits from bit `lo`. -/
def State.f (s : State) (off lo len : Nat) : Nat := nbits (s.rd off).toNat lo len

/-- The field of the word in effect. -/
def State.fa (s : State) (off lo len : Nat) : Nat := nbits (s.act off).toNat lo len

/-- A one-bit field. -/
def State.bit (s : State) (off i : Nat) : Bool := nbit (s.rd off).toNat i

/-- A one-bit field of the word in effect. -/
def State.bitA (s : State) (off i : Nat) : Bool := nbit (s.act off).toNat i

/-- Set a field. -/
def State.setF (s : State) (off lo len v : Nat) : State :=
  s.wr off (BitVec.ofNat 32 (nput (s.rd off).toNat lo len v))

/-- Set a one-bit field. -/
def State.setB (s : State) (off i : Nat) (b : Bool) : State := s.setF off i 1 (b2n b)

/-- Add to a field that saturates at its largest value. -/
def State.addSat (s : State) (off lo len k : Nat) : State :=
  s.setF off lo len (min (s.f off lo len + k) (2 ^ len - 1))

/-! ### Structures -/

def State.tile (s : State) (t : Nat) : Tile := tget Tile.init s.tiles t
def State.setTile (s : State) (t : Nat) (x : Tile) : State := { s with tiles := tset Tile.init s.tiles t x }
def State.modTile (s : State) (t : Nat) (f : Tile → Tile) : State := s.setTile t (f (s.tile t))
def State.seq (s : State) (g : Nat) : Seq := tget Seq.init s.seqs g
def State.setSeq (s : State) (g : Nat) (x : Seq) : State := { s with seqs := tset Seq.init s.seqs g x }
def State.modSeq (s : State) (g : Nat) (f : Seq → Seq) : State := s.setSeq g (f (s.seq g))
def State.stream (s : State) (n : Nat) : Stream := tget Stream.init s.streams n
def State.setStream (s : State) (n : Nat) (x : Stream) : State := { s with streams := tset Stream.init s.streams n x }
def State.modStream (s : State) (n : Nat) (f : Stream → Stream) : State := s.setStream n (f (s.stream n))
def State.chan (s : State) (c : Nat) : Chan := tget Chan.init s.chans c
def State.setChan (s : State) (c : Nat) (x : Chan) : State := { s with chans := tset Chan.init s.chans c x }
def State.tm (s : State) (i : Nat) : Tm := tget Tm.init s.tms i
def State.setTm (s : State) (i : Nat) (x : Tm) : State := { s with tms := tset Tm.init s.tms i x }
def State.ferry (s : State) (f : Nat) : Ferry := tget Ferry.init s.ferries f
def State.setFerry (s : State) (f : Nat) (x : Ferry) : State := { s with ferries := tset Ferry.init s.ferries f x }
def State.edge (s : State) (e : Nat) : EdgePort := tget EdgePort.init s.edges e
def State.setEdge (s : State) (e : Nat) (x : EdgePort) : State := { s with edges := tset EdgePort.init s.edges e x }
def State.link (s : State) (l : Nat) : Cwy := tget Cwy.init s.cwy l
def State.setLink (s : State) (l : Nat) (x : Cwy) : State := { s with cwy := tset Cwy.init s.cwy l x }
def State.grp (s : State) (k : Nat) : Under := tget Under.init s.under k
def State.setGrp (s : State) (k : Nat) (x : Under) : State := { s with under := tset Under.init s.under k x }
/-- The image in a slot of the layout image store. -/
def State.image (s : State) (i : Nat) : Option Image := (s.images.find? (fun p => p.1 == i)).map (·.2)
def State.setImage (s : State) (i : Nat) (x : Option Image) : State :=
  match x with
  | none => { s with images := s.images.filter (fun p => p.1 != i) }
  | some im => { s with images := (s.images.filter (fun p => p.1 < i)) ++ [(i, im)] ++ s.images.filter (fun p => i < p.1) }
def State.timer (s : State) (k : Nat) : Timer := tget Timer.init s.press.timers k
def State.setTimer (s : State) (k : Nat) (x : Timer) : State :=
  { s with press := { s.press with timers := tset Timer.init s.press.timers k x } }
def Stream.slot (x : Stream) (tag : Nat) : Slot := tget Slot.init x.slots tag
def Stream.setSlot (x : Stream) (tag : Nat) (y : Slot) : Stream := { x with slots := tset Slot.init x.slots tag y }

/-! ### Counters (R386 to R388) -/

/-- A 64-bit counter. -/
def State.cnt (s : State) (off : Nat) : DWord := tget 0 s.counters off

/-- Add to a counter; nothing advances while OBS_CTL.FREEZE = 1 (R388). -/
def State.count (s : State) (off k : Nat) : State :=
  if s.bit aObsCtl 0 then s
  else { s with counters := tset 0 s.counters off (s.cnt off + BitVec.ofNat 64 k) }

def cTile (t i : Nat) : Nat := tilePage t + 0x400 + i * 8
def cSeq (g i : Nat) : Nat := seqPage g + 0x400 + i * 8
def cStream (n i : Nat) : Nat := streamPage n + 0x800 + i * 8
def cChan (c i : Nat) : Nat := chanPage c + 0x40 + i * 8
def cFerry (f i : Nat) : Nat := ferryPage f + 0x90 + i * 8
def cCxp (l i : Nat) : Nat := 0x20040 + l * 0x100 + i * 8
def cEth (p i : Nat) : Nat := 0x21040 + p * 0x400 + i * 8
def cCwy (l i : Nat) : Nat := 0x23040 + l * 0x100 + i * 8
def cPcie (i : Nat) : Nat := 0x22040 + i * 8
def cGate (i : Nat) : Nat := 0x4C100 + i * 8
def cUnder (k i : Nat) : Nat := 0x4E200 + k * 0x10 + i * 8
def cMem (i : Nat) : Nat := 0x4F000 + i * 8
def cBasin (b i : Nat) : Nat := 0x4F100 + b * 16 + i * 8
def cPress (i : Nat) : Nat := 0x19400 + i * 8

/-! ### The free value, the outside, time -/

/-- Draw a fresh free value: nothing constrains it (notes/assumptions/3.md). -/
def State.draw (s : State) : DWord × State := (Config.freeWord s.free, { s with free := s.free + 1 })

/-- Send something to the outside. -/
def State.emit (s : State) (o : Output) : State := { s with outbox := s.outbox ++ [o] }

/-- PCIE_LINK_STATUS.LINK_UP. -/
def State.linkUp (s : State) : Bool := s.bit aPcieLinkStatus 8

/-- Send an MSI-X message; while the PCIe link is down it waits (R345). -/
def State.msix (s : State) (fn vector : Nat) : State :=
  if s.linkUp then s.emit (.msix fn vector)
  else { s with waiting := s.waiting ++ [.msix fn vector] }

/-- Keel time in ns. -/
def State.now (s : State) : Nat := s.time.ktime.toNat

/-- Set bit `k` of STREAM_INT_CAUSE and signal vector `k` once if it is not masked (03, STREAM_INT_CAUSE). -/
def State.cause (s : State) (n k : Nat) : State :=
  let s := s.setB (aStreamIntCause n) k true
  if s.bit (aStreamIntMask n) k then s else s.msix n k

/-! ### The interrupt summary (R426, R427) -/

/-- GLOBAL_INT_SUM.SRC: the OR of each source's conditions. -/
def intSum (s : State) : Nat :=
  b2n (s.f aFlogHead 0 6 ≠ s.f aFlogTail 0 6)
  + 2 * b2n (s.bit aLayoutStatus 30 || s.bit aLayoutStatus 29)
  + 4 * b2n (s.bit aThermStatus 8)
  + 8 * b2n (s.f aPwrStatus 20 3 ≠ 0 || s.bit aPwrStatus 24)
  + 16 * b2n (s.rd aItStatus ≠ 0)
  + 32 * b2n (s.f aGlobalStatus 29 3 ≠ 0)
  + 64 * b2n ((List.range 25).any (fun g => s.f (aRegionFstatus g) 28 4 ≠ 0))
  + 128 * b2n ((List.range 10).any (fun p => s.f (aHostpathRx p) 16 12 ≠ s.f (aHostpathRx p) 0 12)
      || s.bit (aEthPortStatus 0) 2 || s.bit (aEthPortStatus 1) 2)
  + 256 * b2n (s.bit aPcieLinkStatus 9 || (List.range 4).any (fun l => s.bit (aCwyLinkStatus l) 1)
      || (List.range 8).any (fun l => s.bit (aCxpLinkStatus l) 3))
  + 512 * b2n (s.bit aGlobalStatus 28)

/-- What every command leaves behind it: GLOBAL_INT_SUM shows the conditions of `t`; messages for its unmasked bits that
rise from `s` to `t`, one on PF vector 6 (bits 7 and 8), one on PF vector 7 (the others) (R427); the queue as it was. -/
def signal (s t : State) : State :=
  let now := intSum t
  let rise := (now &&& (1023 - t.f aGlobalIntMask 0 10)) &&& (1023 - (s.src &&& (1023 - s.f aGlobalIntMask 0 10)))
  let t := { t with src := now, pending := s.pending }
  let t := if rise &&& 0x180 ≠ 0 then t.msix 0 6 else t
  if rise &&& 0x27F ≠ 0 then t.msix 0 7 else t

/-- A command's next state: `t`, with the summary messages of what it changed. -/
def done (s t : State) : Host.Outcome State Fault Refusal := .next (signal s t)

/-- What a command answers whose enabling condition the spec does not find met: nothing happens (notes/assumptions/4.md). -/
def idle (s : State) : Host.Outcome State Fault Refusal := .next s

/-- `t` if the condition of the event holds, nothing otherwise. -/
def when_ (c : Bool) (s t : State) : Host.Outcome State Fault Refusal := if c then done s t else idle s

/-! ### Memories with check bits (R83 to R86, R263) -/

def Ram.byte (r : Ram) (a : Nat) : Byte := tget 0 r.cells a
def Ram.state (r : Ram) (w : Nat) : Ecc := tget .clean r.ecc w

/-- The 64-bit word `w`, as its bytes stand. -/
def Ram.raw (r : Ram) (w : Nat) : Nat := ofBytes ((List.range 8).map (fun i => r.byte (8 * w + i)))

/-- A byte as a read returns it: zero in a poisoned word (R86), unstated in an uncorrectable one. -/
def Ram.get (r : Ram) (a : Nat) : Byte :=
  match r.state (a / 8) with
  | .clean | .single => r.byte a
  | .poison => 0
  | .double => BitVec.ofNat 8 (nbits (Config.badWord (a / 8) (BitVec.ofNat 64 (r.raw (a / 8)))).toNat (8 * (a % 8)) 8)

/-- `n` bytes from `a`. -/
def Ram.read (r : Ram) (a n : Nat) : List Byte := (List.range n).map (fun i => r.get (a + i))

/-- A little-endian number of `n` bytes from `a`. -/
def Ram.num (r : Ram) (a n : Nat) : Nat := ofBytes (r.read a n)

/-- The words of [a, a + n) whose check bits say `e`. -/
def Ram.marked (r : Ram) (e : Ecc) (a n : Nat) : List Nat :=
  if n = 0 then [] else (List.range ((a + n - 1) / 8 + 1 - a / 8)).map (· + a / 8) |>.filter (fun w => r.state w == e)

/-- Write bytes as they stand. -/
def Ram.put (r : Ram) (a : Nat) : List Byte → Ram
  | [] => r
  | b :: bs => Ram.put { r with cells := tset 0 r.cells a b } (a + 1) bs

/-- Set the check state of a word. -/
def Ram.mark (r : Ram) (w : Nat) (e : Ecc) : Ram := { r with ecc := tset .clean r.ecc w e }

/-- Write `bs` at `a`: a whole word takes clean check bits, or the poison pattern with `psn`; a partly written word that
was uncorrectable or poisoned takes the poison pattern, any other clean check bits (R83, R86, R263). -/
def Ram.write (r : Ram) (a : Nat) (bs : List Byte) (psn : Bool) : Ram :=
  let n := bs.length
  let ws := if n = 0 then [] else (List.range ((a + n - 1) / 8 + 1 - a / 8)).map (· + a / 8)
  let q := r.put a bs
  each ws q (fun q w =>
    let whole := a ≤ 8 * w && 8 * w + 8 ≤ a + n
    let bad := r.state w == .double || r.state w == .poison
    q.mark w (if psn || (!whole && bad) then .poison else .clean))

/-- The words a write of `n` bytes at `a` covers only in part. -/
def partWords (a n : Nat) : List Nat :=
  if n = 0 then [] else
  ((List.range ((a + n - 1) / 8 + 1 - a / 8)).map (· + a / 8)).filter (fun w => !(a ≤ 8 * w && 8 * w + 8 ≤ a + n))

/-! ### CRC-32C (02, flit CRC; 15, journal CHECK) -/

/-- One bit of the CRC, high bit first. -/
def crcBit (c : BitVec 32) (b : Bool) : BitVec 32 :=
  let c' := c <<< 1
  if c.msb != b then c' ^^^ 0x1EDC6F41#32 else c'

/-- CRC-32C of a bit list, high bit first, initial value all ones, final XOR all ones. -/
def crc32c (bits : List Bool) : BitVec 32 := (bits.foldl crcBit 0xFFFFFFFF#32) ^^^ 0xFFFFFFFF#32

/-- The bits of bytes in address order, high bit first. -/
def bitsOf (bs : List Byte) : List Bool := bs.flatMap (fun b => (List.range 8).map (fun i => b.getLsbD (7 - i)))

/-! ### The journal (R360, 15 The journal) -/

/-- Next entry of part A (JOURNAL_A_NEXT); its value at reset is unknown (notes/assumptions/2.md). -/
def State.jA (s : State) : Nat := (Config.journalA + s.journal.nextA) % 32768
/-- Next entry of part B. -/
def State.jB (s : State) : Nat := (Config.journalB + s.journal.nextB) % 229376

/-- A 32-byte journal entry. -/
def journalEntry (time type seq : Nat) (body : List Word) : List Byte :=
  let head := toBytes 8 time ++ toBytes 4 (type * 2 ^ 24 + seq % 2 ^ 24)
  let tail := (body.take 4 ++ List.replicate (4 - body.length) 0).flatMap (fun (w : Word) => toBytes 4 w.toNat)
  head ++ toBytes 4 (crc32c (bitsOf (head ++ tail))).toNat ++ tail

/-- Write bytes of the MRAM. -/
def mramPut (m : List Host.Cell) (a : Nat) : List Byte → List Host.Cell
  | [] => m
  | b :: bs => mramPut ((m.filter (fun c => c.1 < a)) ++ [(a, b)] ++ m.filter (fun c => a < c.1)) (a + 1) bs

/-- Write an entry of TYPE `type`: firings (0x05) to part B, every other type to part A. -/
def State.journalPut (s : State) (type : Nat) (body : List Word) : State :=
  let j := s.journal
  let e := journalEntry s.now type (Config.journalSeq + j.seq) body
  if type = 5 then
    { s with journal := { j with mram := mramPut j.mram (0x100000 + s.jB * 32) e, nextB := j.nextB + 1, seq := j.seq + 1 } }
  else
    { s with journal := { j with mram := mramPut j.mram (s.jA * 32) e, nextA := j.nextA + 1, seq := j.seq + 1 } }

/-! ### Faults (15) -/

/-- What a fault record says beyond its stamp (15, The fault record). Classes: 0 C, 1 S, 2 G, 3 F. -/
structure FaultAt where
  cls : Nat
  code : Nat
  stream : Option Nat := none
  frame : Option Nat := none
  tag : Option Nat := none
  detail : Nat := 0
  die : Nat := 0
  region : Nat := 31
  tile : Nat := 0x1FF
  unit : Nat := 15
  index : Nat := 0

/-- The four words of the record. -/
def FaultAt.words (x : FaultAt) (stamp : Nat) : List Word :=
  [ BitVec.ofNat 32 (x.cls * 2 ^ 30 + b2n x.tag.isSome * 2 ^ 29 + b2n x.frame.isSome * 2 ^ 28
      + b2n x.stream.isSome * 2 ^ 27 + x.code % 256 * 2 ^ 16 + x.stream.getD 0 % 256 * 2 ^ 8 + x.detail % 256),
    BitVec.ofNat 32 (x.die % 4 * 2 ^ 30 + x.region % 32 * 2 ^ 25 + x.tile % 512 * 2 ^ 16 + x.unit % 16 * 2 ^ 12
      + x.frame.getD 0 % 4096),
    BitVec.ofNat 32 (x.tag.getD 0 % 65536 * 65536 + x.index % 65536),
    BitVec.ofNat 32 (stamp / 64) ]

/-- Store a list of words at successive registers. -/
def State.wrs (s : State) (off : Nat) : List Word → State
  | [] => s
  | w :: ws => State.wrs (s.wr off w) (off + 4) ws

/-- R344: a record enters a stream's fault ring, or LOST counts; FAULT is set and vector 2 signalled (R345). -/
def ringPut (n : Nat) (ws : List Word) (s : State) : State :=
  let tail := s.f (aFaultTail n) 0 4
  let s :=
    if (tail + 1) % 15 = s.f (aFaultHead n) 0 4 then s.addSat (aFaultTail n) 24 8 1
    else (s.wrs (streamPage n + 0x100 + tail * 0x10) ws).setF (aFaultTail n) 0 4 ((tail + 1) % 15)
  s.cause n 2

/-- R344: a record enters the device log, or LOST counts. -/
def logPut (ws : List Word) (s : State) : State :=
  let tail := s.f aFlogTail 0 6
  if (tail + 1) % 64 = s.f aFlogHead 0 6 then s.addSat aFlogTail 24 8 1
  else (s.wrs (0x12000 + tail * 0x10) ws).setF aFlogTail 0 6 ((tail + 1) % 64)

/-- STREAM_STATUS.STATE: 0 STOPPED, 1 RUNNING, 2 STOPPING, 3 DRAINING. -/
def State.st (s : State) (n : Nat) : Nat := s.f (aStreamStatus n) 0 3

/-- The layout slot of a job context. -/
def JobCtx.layout (j : JobCtx) : Nat := nbits (nth j.words 0 0).toNat 16 3

/-- The regions a stream's bound layout occupies (R296). -/
def State.regionsOf (s : State) (n : Nat) : Nat :=
  match (s.stream n).job with
  | none => 0
  | some j => ((s.image j.layout).map (·.regions)).getD 0

/-- The streams that are not STOPPED and whose bound layout occupies region g. -/
def State.streamsIn (s : State) (g : Nat) : List Nat :=
  (s.streams.map (·.1)).filter (fun n => s.st n ≠ 0 && nbit (s.regionsOf n) g)

/-- Ask for the drain point of a running or stopping stream (R347); a stream already draining goes on (R358). A fault that
meets a DRAIN whose drain point is still to come makes it a drain with the ABORT fill. -/
def reqDrain (k : DrainKind) (s : State) (n : Nat) : State :=
  if s.st n = 1 || s.st n = 2 then
    match (s.stream n).drainReq with
    | none | some .drain => s.modStream n (fun x => { x with drainReq := some k })
    | some _ => s
  else s

/-- REGION_FSTATUS.PHASE. -/
def State.phase (s : State) (g : Nat) : Nat := s.f (aRegionFstatus g) 28 4

/-- A scan shift is in progress in region g: its recovery scans out (R352); a host's scan-out is one event. -/
def State.scanShift (s : State) (g : Nat) : Bool := s.phase g == 2

/-- The tiles of a region. -/
def tilesOf (g : Nat) : List Nat := (List.range 16).map (tileOf g)

/-- R351: the region halts: TILE_STATUS.HALTED in every tile, the sequencer stops, PHASE 1. -/
def haltRegion (code : Nat) (ws : List Word) (s : State) (g : Nat) : State :=
  let s := each (tilesOf g) s (fun s t => s.modTile t (fun x => { x with halted := true }))
  let s := s.modSeq g (fun q => { q with halted := true, fault := ws, savedDiv := nbits (s.rd (aRegionClk g)).toNat 16 4 })
  (s.setF (aRegionFstatus g) 28 4 1).setF (aRegionFstatus g) 8 8 code

/-- A class F fault (R341, R355): records, journal, FATAL, every region halts, every stream is asked to drain. -/
def raiseF (x : FaultAt) (s : State) : State :=
  let ws := x.words s.now
  let live := (s.streams.map (·.1)).filter (fun n => s.st n ≠ 0)
  let s := each live s (fun s n => ringPut n ws s)
  let s := logPut ws s
  let s := if s.rd 0x12410 = 0 then s.wrs 0x12410 ws else s
  let s := s.journalPut 1 ws
  let s := s.setB aGlobalStatus 28 true
  let s := each (List.range 25) s (fun s g => haltRegion x.code ws s g)
  each live s (reqDrain .fault)

/-- Room of the scan area for region g (R353). -/
def scanRoom (s : State) (g : Nat) : Bool := decide (g * 0x22000 + 0x22000 ≤ s.f (aBasinPart 4) 16 14 * 4096)

/-- R352: start the recovery of a halted region, or R358: RECOVERY_FAILED when RETRY_MAX recoveries completed within
the last 1 s. -/
def startRecovery (g : Nat) (s : State) : State :=
  let times := (s.seq g).recTimes.filter (fun t => s.now - t < 1000000000)
  let lim := if s.f (aRegionFctl g) 0 4 = 0 then 3 else s.f (aRegionFctl g) 0 4
  if lim ≤ times.length then
    (raiseF { cls := 3, code := 0x15, region := g, unit := 9 } s).setF (aRegionFstatus g) 28 4 5
  else
    let s := s.setF (aRegionClk g) 16 4 1
    if scanRoom s g then s.setF (aRegionFstatus g) 28 4 2
    else (s.setB (aRegionFstatus g) 24 true).setF (aRegionFstatus g) 28 4 3

/-- A class G fault in region g (R341, R351, R358): records, journal, halt, drains, and recovery if AUTO = 1. -/
def raiseG (x : FaultAt) (g : Nat) (s : State) : State :=
  let ws := x.words s.now
  let ns := s.streamsIn g
  let again := s.phase g ≠ 0
  let s := each ns s (fun s n => (ringPut n ws s).count (cStream n 7) 1)
  let s := (logPut ws s).journalPut 1 ws
  let s := each ns s (reqDrain .fault)
  if again && s.phase g ≠ 4 then
    if s.phase g = 1 then s
    else (raiseF { x with cls := 3, code := 0x15 } s).setF (aRegionFstatus g) 28 4 5
  else
    let s := haltRegion x.code ws s g
    if s.bit (aRegionFctl g) 29 then startRecovery g s else s

/-- A class S fault (R341): the named stream's ring, the device log, the drain. -/
def raiseS (x : FaultAt) (n : Nat) (s : State) : State :=
  let x := { x with stream := some n }
  let ws := x.words s.now
  let s := (ringPut n ws s).count (cStream n 7) 1
  reqDrain .fault (logPut ws s) n

/-- A class C event (R341): FAULT_C_COUNT and FLOG_LAST_C. -/
def raiseC (x : FaultAt) (s : State) : State :=
  (s.addSat (aFaultCCount x.code) 0 32 1).wrs 0x12400 (x.words s.now)

/-- Raise a fault of the class it names: S needs a stream, G a region. -/
def raise (x : FaultAt) (s : State) : State :=
  match x.cls with
  | 0 => raiseC x s
  | 1 => raiseS x (x.stream.getD 0) s
  | 2 => raiseG x x.region s
  | _ => raiseF x s

/-- R10, R11: a write is dropped whole. `off` is its window A offset, `vf` the stream of a VF. -/
def reject (vf : Option Nat) (off : Nat) (s : State) : State :=
  let s := if s.bit aGlobalStatus 31 then s else
    (((s.setB aGlobalStatus 31 true).setF aGlobalStatus 0 26 off).wr aGlobalReject
      (match vf with | none => 0 | some n => BitVec.ofNat 32 (2 ^ 31 + n)))
  raiseC { cls := 0, code := 0x13, stream := vf, die := 2 } s

/-- The stream of a function (R35), none for the PF. -/
def fnStream : Fn → Option Nat
  | .pf => none
  | .vf n => some n.val

/-! ### Host writes that have a row of their own -/

/-- The block of a window A offset reads zero and ignores writes: a fabric reset runs (R428), or the pipeline and shoreline
dies are without power (R373; notes/assumptions/42.md). -/
def State.deaf (s : State) (off : Nat) : Bool :=
  (s.bit aGlobalStatus 27 && ((decide (0x40000 ≤ off) && decide (off < 0x60000)) || (decide (0x80000 ≤ off) && decide (off < 0xA0000))
      || (decide (0x100000 ≤ off) && decide (off < 0x390000))))
  || (decide (0x20000 ≤ off) && !s.bit aPwrStatus 25)

/-- An access to this offset wakes the device from DOZE: the block lies on the pipeline die (R372). -/
def State.dozing (s : State) (off : Nat) : Bool := s.f aPwrStatus 28 4 == 2 && decide (0x40000 ≤ off)

/-- The wake from DOZE begins and the access waits for its end (R372). -/
def deferAccess (a : Waiting) (s : State) : State :=
  { s with power := { s.power with waking := true, deferred := s.power.deferred ++ [a] } }

/-- A host write of `v` to `off` whose effect is `t`: in DOZE it waits for the wake; a deaf block ignores it. -/
def hostRow (fn : Fn) (off v : Nat) (s t : State) : Host.Outcome State Fault Refusal :=
  if s.dozing off then done s (deferAccess (.reg fn off 32 (some (BitVec.ofNat 64 v))) s)
  else if s.deaf off then idle s else done s t

end Sys2Proof.Machine
end

