-- ==== Sys2Proof/Machine/Mem.lean ====
section
/-! DEFINITION. The basin, the external DRAM and host memory (12): reads and writes with check bits, the touched map,
scrubs, refresh and retraining, and the commands of that family. -/
namespace Sys2Proof.Machine

/-! ### The basin (R261 to R264) -/

/-- 64 MiB. -/
def basinSize : Nat := 0x4000000

/-- The bank of a basin address (R261). -/
def bankOf (a : Nat) : Nat := a / 256 % 16

/-- What a read gives: bytes, whether a poisoned or uncorrectable word fed it, whether one was uncorrectable. -/
structure Got where
  bytes : List Byte
  psn : Bool
  bad : Bool
deriving DecidableEq, Repr

/-- Saturating add to the counts of a bank: CE low, UE high (BASIN_ECC_BANK). -/
def State.basinErr (s : State) (w : Nat) (ue : Bool) : State :=
  s.addSat (aBasinEccBank (bankOf (8 * w))) (if ue then 16 else 0) 16 1

/-- Count the errors of the words a basin read meets (R263). -/
def State.basinSee (s : State) (a n : Nat) : State :=
  let s := each (s.mem.basin.marked .single a n) s (fun s w => s.basinErr w false)
  each (s.mem.basin.marked .double a n) s (fun s w => s.basinErr w true)

/-- Read within the basin, without wrapping. -/
def State.basinRead1 (s : State) (a n : Nat) : Got × State :=
  let r := s.mem.basin
  let ue := !(r.marked .double a n).isEmpty
  (⟨r.read a n, ue || !(r.marked .poison a n).isEmpty, ue⟩, s.basinSee a n)

/-- Read `n` bytes at `a`; offsets wrap at 64 MiB (notes/assumptions/6.md). -/
def State.basinRead (s : State) (a n : Nat) : Got × State :=
  let a := a % basinSize
  let k := min n (basinSize - a)
  let (g, s) := s.basinRead1 a k
  if n ≤ k then (g, s) else
  let (h, s) := s.basinRead1 0 (n - k)
  (⟨g.bytes ++ h.bytes, g.psn || h.psn, g.bad || h.bad⟩, s)

/-- Write within the basin; answers whether a partial write met an uncorrectable word. -/
def State.basinWrite1 (s : State) (a : Nat) (bs : List Byte) (psn : Bool) : Bool × State :=
  let r := s.mem.basin
  let part := partWords a bs.length
  let bad := part.any (fun w => r.state w == .double)
  let s := each part s (fun s w =>
    match r.state w with
    | .single => s.basinErr w false
    | .double => s.basinErr w true
    | _ => s)
  (bad, { s with mem := { s.mem with basin := r.write a bs psn } })

/-- Write `bs` at `a` (R263). -/
def State.basinWrite (s : State) (a : Nat) (bs : List Byte) (psn : Bool) : Bool × State :=
  let a := a % basinSize
  let k := basinSize - a
  let (b, s) := s.basinWrite1 a (bs.take k) psn
  if bs.length ≤ k then (b, s) else
  let (c, s) := s.basinWrite1 0 (bs.drop k) psn
  (b || c, s)

/-- Write whatever the words held; the requester is none that R263 lists, so a bad word counts as class C. -/
def State.basinPut (s : State) (a : Nat) (bs : List Byte) : State :=
  let (bad, s) := s.basinWrite a bs false
  if bad then raiseC { cls := 0, code := 0x04, unit := 11, index := bankOf a } s else s

/-- A 32-bit little-endian word of the basin. -/
def State.basinWord (s : State) (a : Nat) : Word := BitVec.ofNat 32 (s.mem.basin.num (a % basinSize) 4)

/-- Base of partition p in bytes. -/
def State.partBase (s : State) (p : Nat) : Nat := s.f (aBasinPart p) 0 14 * 4096

/-- Size of partition p in bytes. -/
def State.partSize (s : State) (p : Nat) : Nat := s.f (aBasinPart p) 16 14 * 4096

/-- Row `r` of bank `b`: its address (32 bytes). -/
def basinRow (b r : Nat) : Nat := r / 8 * 4096 + b * 256 + r % 8 * 32

/-- One scrub cycle of bank `b` (R264): the next row; corrected words are rewritten and counted. -/
def basinScrub (b : Nat) (s : State) : State :=
  let p := tget 0 s.mem.scrub b
  let a := basinRow b p
  let s := s.basinSee a 32
  let ws := s.mem.basin.marked .single a 32
  { s with mem := { s.mem with scrub := tset 0 s.mem.scrub b ((p + 1) % 131072),
                               basin := each ws s.mem.basin (fun r w => r.mark w .clean) } }

/-- BASIN_PATROL_SCRUB. -/
def execBasinPatrolScrub (bank : Fin 16) (s : State) : Host.Outcome State Fault Refusal := done s (basinScrub bank.val s)

/-- BASIN_FORCED_SCRUB: only while the bank's corrected count exceeds THRESH, and THRESH is not 0 (R264). -/
def execBasinForcedScrub (bank : Fin 16) (s : State) : Host.Outcome State Fault Refusal :=
  let th := s.f aBasinEcc 0 16
  when_ (decide (th ≠ 0 ∧ th < s.f (aBasinEccBank bank.val) 0 16)) s (basinScrub bank.val s)

/-! ### Host memory -/

/-- A posted write to host memory (completion entries, a ferry's writes). -/
def State.hostWrite (s : State) (a : Nat) (bs : List Byte) : State :=
  { s with hostMem := (Ram.put ⟨s.hostMem, []⟩ a bs).cells }

/-! ### DRAM (R270 to R279) -/

/-- Usable DRAM bytes (R270): 7, 14 or 28 GiB by MEM_DRAM_CFG.CAP, whose value 3 is not produced. -/
def dramUsable : Nat := 7 * 2 ^ 30 * 2 ^ min (nbits Config.dramCfg.toNat 1 2) 2

/-- MEM_ECC_LAST and MEM_ECC: one event. -/
def State.dramErr (s : State) (w : Nat) (ue : Bool) : State :=
  let s := s.addSat aMemEcc (if ue then 16 else 0) 16 1
  s.wr aMemEccLast (BitVec.ofNat 32 (2 ^ 31 + b2n ue * 2 ^ 30 + w % 2 ^ 29))

/-- Insert in a rising list. -/
def insertNat (x : Nat) : List Nat → List Nat
  | [] => [x]
  | y :: ys => if x = y then y :: ys else if x < y then x :: y :: ys else y :: insertNat x ys

/-- Perform the zero-fill of a page and then the writes that met during it (R278). -/
def fillDone (f : Fill) (s : State) : State :=
  let lo := f.page * 4096
  let d := s.mem.dram
  let d : Ram := ⟨d.cells.filter (fun c => c.1 < lo || lo + 4096 ≤ c.1),
                  d.ecc.filter (fun c => c.1 * 8 < lo || lo + 4096 ≤ c.1 * 8)⟩
  let d := each f.writes d (fun d w => d.write w.1 w.2.1 w.2.2)
  { s with mem := { s.mem with dram := d, touched := insertNat f.page s.mem.touched,
                               fills := s.mem.fills.filter (fun x => x.page != f.page) } }

/-- Whether page `p` is under zero-fill. -/
def State.filling (s : State) (p : Nat) : Bool := s.mem.fills.any (fun f => f.page == p)

/-- A write of bytes within one page (R278). -/
def dramWritePage (a : Nat) (bs : List Byte) (psn : Bool) (s : State) : State :=
  let p := a / 4096
  let s := s.count (cMem 1) bs.length
  if s.filling p then
    { s with mem := { s.mem with fills := s.mem.fills.map (fun f =>
        if f.page = p then { f with writes := f.writes ++ [(a, bs, psn)] } else f) } }
  else if s.mem.touched.contains p then
    { s with mem := { s.mem with dram := s.mem.dram.write a bs psn } }
  else
    { (s.count (cMem 4) 1) with mem := { s.mem with fills := s.mem.fills ++ [⟨p, [(a, bs, psn)]⟩] } }

/-- Split an access into its pages: (address, length) pairs. -/
def pageParts : Nat → Nat → Nat → List (Nat × Nat)
  | 0, _, _ => []
  | f + 1, a, n =>
    if n = 0 then [] else
    let k := min n (4096 - a % 4096)
    (a, k) :: pageParts f (a + k) (n - k)

/-- Write bytes at a DRAM address. -/
def State.dramWrite (s : State) (a : Nat) (bs : List Byte) (psn : Bool) : State :=
  each (pageParts (bs.length + 1) a bs.length) s (fun s p =>
    dramWritePage p.1 ((bs.drop (p.1 - a)).take p.2) psn s)

/-- A read within one page: an untouched page reads zero without an access (R277); errors as R272. -/
def dramReadPage (a n : Nat) (s : State) : Got × State :=
  if s.mem.touched.contains (a / 4096) then
    let d := s.mem.dram
    let one := d.marked .single a n
    let two := d.marked .double a n
    let s := s.count (cMem 0) n
    let s := each one s (fun s w => s.dramErr w false)
    let s := each two s (fun s w => s.dramErr w true)
    (⟨d.read a n, !two.isEmpty || !(d.marked .poison a n).isEmpty, !two.isEmpty⟩,
     { s with mem := { s.mem with dram := each one s.mem.dram (fun d w => d.mark w .clean) } })
  else (⟨List.replicate n 0, false, false⟩, s.count (cMem 5) 1)

/-- Read at a DRAM address. The caller has seen that no page of the access is under zero-fill. -/
def State.dramRead (s : State) (a n : Nat) : Got × State :=
  each (pageParts (n + 1) a n) ((⟨[], false, false⟩ : Got), s) (fun gs p =>
    let (h, s) := dramReadPage p.1 p.2 gs.2
    (⟨gs.1.bytes ++ h.bytes, gs.1.psn || h.psn, gs.1.bad || h.bad⟩, s))

/-- Whether an access meets a page under zero-fill. -/
def State.dramWaits (s : State) (a n : Nat) : Bool := (pageParts (n + 1) a n).any (fun p => s.filling (p.1 / 4096))

/-- DRAM answers accesses: trained, and not in a retraining. -/
def State.dramUp (s : State) : Bool := s.bit aMemDramStatus 0 && !s.mem.retrain

/-- DRAM_REFRESH: a refresh takes mc whose number the spec does not state (a free value); nothing else changes (R273). -/
def execDramRefresh (s : State) : Host.Outcome State Fault Refusal :=
  let (n, t) := s.draw
  when_ (s.bit aMemDramStatus 0) s (t.count (cMem 2) n.toNat)

/-- RETRAINING_DUE: MEM_DRAM_STATUS.DUE (R274). -/
def execRetrainingDue (s : State) : Host.Outcome State Fault Refusal :=
  when_ (s.bit aMemDramStatus 0) s (s.setB aMemDramStatus 1 true)

/-- A lull (R274): no running stream has a frame between admission and its verdict slot. -/
def State.lull (s : State) : Bool :=
  s.streams.all (fun p => decide (s.st p.1 = 0) || !(p.2.slots.any (fun q => q.2.st == .opened)))

/-- DRAM_RETRAIN: a due retraining starts at a lull (R274). -/
def execDramRetrain (s : State) : Host.Outcome State Fault Refusal :=
  when_ (s.bit aMemDramStatus 1 && s.lull && !s.mem.retrain) s { s with mem := { s.mem with retrain := true } }

/-- FORCED_RETRAINING: 100 ms after falling due it starts without a lull (R274). -/
def execForcedRetraining (s : State) : Host.Outcome State Fault Refusal :=
  when_ (s.bit aMemDramStatus 1 && !s.mem.retrain) s
    { ((s.setB aMemDramStatus 2 true).count (cMem 7) 1) with mem := { s.mem with retrain := true, forced := true } }

/-- DRAM_RETRAIN_COMPLETE: DUE clears and stalled accesses resume; RETRAIN_MC grows by mc the spec does not state (a free value). -/
def execDramRetrainComplete (s : State) : Host.Outcome State Fault Refusal :=
  let (n, t) := s.draw
  let t := (t.setB aMemDramStatus 1 false).count (cMem 3) n.toNat
  when_ s.mem.retrain s { t with mem := { t.mem with retrain := false, forced := false } }

/-- The 64-byte unit the DRAM scrub visits next: the first one at or after the pointer that lies in a touched page. -/
def State.scrubUnit (s : State) : Option Nat :=
  match s.mem.touched.find? (fun p => s.mem.dscrub < p * 64 + 64) with
  | some p => some (max s.mem.dscrub (p * 64))
  | none => s.mem.touched.head?.map (· * 64)

/-- DRAM_PATROL_SCRUB (R275, R272): the next unit of a touched page; a corrected word is rewritten and counted, an
uncorrectable one counted, recorded and class C. -/
def execDramPatrolScrub (s : State) : Host.Outcome State Fault Refusal :=
  if !(s.bit aMemScrub 0 && s.dramUp) then idle s else
  match s.scrubUnit with
  | none => idle s
  | some u =>
    let one := s.mem.dram.marked .single (u * 64) 64
    let two := s.mem.dram.marked .double (u * 64) 64
    let t := each one s (fun s w => s.dramErr w false)
    let t := each two t (fun s w =>
      raiseC { cls := 0, code := 0x0A, unit := 11 } (s.dramErr w true))
    done s { t with mem := { t.mem with dram := each one t.mem.dram (fun d w => d.mark w .clean), dscrub := u + 1 } }

/-- ZERO_FILL_COMPLETE of the k-th fill in progress (R278). -/
def execZeroFillComplete (k : Nat) (s : State) : Host.Outcome State Fault Refusal :=
  match s.mem.fills[k]? with
  | none => idle s
  | some f => when_ s.dramUp s (fillDone f s)

/-- MEM_UNTOUCH: a write to the register with value v; GO starts the operation on COUNT pages from PAGE (R279), a COUNT
of 0 does nothing (R15). -/
def memUntouchWrite (v : Word) (s : State) : State :=
  let n := nbits v.toNat 0 23
  let s := s.setF aMemUntouch 0 23 n
  if nbit v.toNat 31 && !s.bit aMemUntouch 31 && n ≠ 0 then
    { (s.setB aMemUntouch 31 true) with mem := { s.mem with untouch := some (s.f aMemUntouchPage 0 23, n) } }
  else s

/-- MEM_UNTOUCH. -/
def execMemUntouch (v : Word) (s : State) : Host.Outcome State Fault Refusal :=
  hostRow .pf aMemUntouch v.toNat s (memUntouchWrite v s)

/-- MEM_UNTOUCH_DONE: accesses accepted to the pages complete first, then the pages are untouched and GO reads 0. -/
def execMemUntouchDone (s : State) : Host.Outcome State Fault Refusal :=
  match s.mem.untouch with
  | none => idle s
  | some (p, n) =>
    let hit := fun q => decide (p ≤ q && q < p + n)
    let t := each (s.mem.fills.filter (fun f => hit f.page)) s (fun s f => fillDone f s)
    let t := t.setB aMemUntouch 31 false
    done s { t with mem := { t.mem with touched := t.mem.touched.filter (fun q => !hit q), untouch := none } }

end Sys2Proof.Machine
end

