-- ==== Sys2Proof/Machine/Trace.lean ====
section
/-! DEFINITION. Trace records: their filters, the FIFO of each unit, the ring (17, Trace; R390 to R392). -/
namespace Sys2Proof.Machine

/-- TRACE_LOST. -/
def cTraceLost : Nat := 0x410018
/-- TELEM_SKIPPED. -/
def cTelemSkipped : Nat := 0x420010

/-- What a trace record says: TYPE, UNIT, REGION, TILE (0x1FF the sequencer), tag, key, detail. -/
structure TraceRec where
  type : Nat
  unit : Nat
  region : Nat
  tile : Nat
  tag : Nat
  key : Word
  detail : Nat

/-- The 32 bytes of a record. -/
def TraceRec.bytes (x : TraceRec) (stamp : Nat) : List Byte :=
  toBytes 8 stamp ++ toBytes 1 x.type ++ toBytes 1 x.unit ++ toBytes 1 x.region ++ toBytes 1 0 ++ toBytes 2 x.tile
    ++ toBytes 2 x.tag ++ toBytes 4 (x.key.toNat / 16 * 16) ++ toBytes 4 x.detail ++ toBytes 8 0

/-- STREAM of a sideband or key word. -/
def strOf (w : Word) : Nat := nbits w.toNat 4 8
/-- FRAME of a sideband or key word. -/
def frameOf (w : Word) : Nat := nbits w.toNat 20 12
/-- ITER of a sideband or key word. -/
def iterOf (w : Word) : Nat := nbits w.toNat 12 8

/-- R390: the filters. A record of TYPE 4 to 8 meets the tag filter only when TAG_EN = 0. -/
def State.traceWants (s : State) (x : TraceRec) : Bool :=
  let untagged := decide (4 ≤ x.type ∧ x.type ≤ 8)
  s.bit aTraceCtl 31 && !s.bit aTraceStatus 31 && s.bit aTraceFilt x.region && nbit (s.f aTraceCtl 0 11) x.type
  && (!s.bit aTraceCtl 28 || decide (strOf x.key = s.f aTraceCtl 16 8))
  && ((untagged && s.bit aTraceCtl 29) || decide (s.f aTraceTag 0 16 ≤ x.tag ∧ x.tag ≤ s.f aTraceTag 16 16))

/-- R391: a record enters its unit's FIFO of 8, or TRACE_LOST counts. -/
def State.trace (s : State) (x : TraceRec) : State :=
  if !s.traceWants x then s else
  let b := x.bytes s.now
  if x.tile = 0x1FF then
    if (s.seq x.region).trace.length < 8 then s.modSeq x.region (fun q => { q with trace := q.trace ++ [b] })
    else s.count cTraceLost 1
  else
    if (s.tile x.tile).trace.length < 8 then s.modTile x.tile (fun q => { q with trace := q.trace ++ [b] })
    else s.count cTraceLost 1

/-- A record of a sequencer. -/
def seqTrace (g type : Nat) (key : Word) (detail : Nat) (tag : Nat) (s : State) : State :=
  s.trace { type := type, unit := 9, region := g, tile := 0x1FF, tag := tag, key := key, detail := detail }

/-- A record of a tile. -/
def tileTrace (t type unit tag : Nat) (key : Word) (detail : Nat) (s : State) : State :=
  s.trace { type := type, unit := unit, region := regionOf t, tile := t, tag := tag, key := key, detail := detail }

/-- A record's bytes enter the trace ring (class 4 of R262): MODE 0 wraps, MODE 1 stops when the ring is full (R392). -/
def traceStore (b : List Byte) (s : State) : State :=
  let cap := s.f aTraceRing 16 14 * 128
  if cap = 0 || s.bit aTraceStatus 31 then s else
  let n := s.f aTraceStatus 0 24
  let s := s.basinPut (s.f aTraceRing 0 14 * 4096 + n % cap * 32) b
  let n' := n + 1
  if s.bit aTraceCtl 30 then
    let s := s.setF aTraceStatus 0 24 n'
    if cap ≤ n' then s.setB aTraceStatus 31 true else s
  else s.setF aTraceStatus 0 24 (n' % cap)

/-- TRACE_RECORD_WRITE: the oldest record of unit u's FIFO (a tile index, or 400 + g for SEQ[g]) goes to the ring. -/
def execTraceRecordWrite (u : Nat) (s : State) : Host.Outcome State Fault Refusal :=
  if u < 400 then
    match (s.tile u).trace with
    | [] => idle s
    | b :: bs => done s (traceStore b (s.modTile u (fun q => { q with trace := bs })))
  else if u < 425 then
    match (s.seq (u - 400)).trace with
    | [] => idle s
    | b :: bs => done s (traceStore b (s.modSeq (u - 400) (fun q => { q with trace := bs })))
  else .refused (.illFormed "trace unit")

end Sys2Proof.Machine
end

