-- ==== Sys2Proof/Machine/Tidemark.lean ====
section
/-! DEFINITION. The tidemark unit (11): increments, waits, phases, the layout values, and its commands. -/
namespace Sys2Proof.Machine

/-- The stream range of STREAM_TM holds index i (R248). -/
def State.tmRange (s : State) (n i : Nat) : Bool :=
  decide (s.f (aStreamTm n) 0 13 ≤ i ∧ i < s.f (aStreamTm n) 0 13 + s.f (aStreamTm n) 16 14)

/-- R248: a request made for stream n to TIDEMARK[i] is valid. -/
def State.tmValid (s : State) (n i : Nat) : Bool :=
  decide (i < 8184) && s.tmRange n i && decide ((s.tm i).owner = n)

/-- R242: completed phases of a count; the phases that complete and the count that stays. -/
def Tm.phases (x : Tm) : Nat × Nat :=
  if x.mode = 0 ∨ x.target = 0 then (0, x.count) else (x.count / x.target, x.count % x.target)

/-- R242: advance PHASE while COUNT ≥ TARGET. -/
def Tm.settle (x : Tm) : Tm :=
  let (k, c) := x.phases
  { x with count := c, phase := (x.phase + k) % 32 }

/-- R241, R243, R245: whether a wait is satisfied now. -/
def Tm.sat (x : Tm) (w : Waiter) : Bool :=
  if x.mode = 0 then decide (x.target ≤ x.count)
  else decide (x.target = 0) || decide (1 ≤ (x.phase + 32 - w.phase) % 32 ∧ (x.phase + 32 - w.phase) % 32 ≤ 15)

/-- Serve the waits of a counter in arrival order: the head holds back every later one (R241). -/
def serveCounter : List Waiter → Tm → List Waiter × Tm
  | [], x => ([], { x with waits := [] })
  | w :: ws, x =>
    if x.target ≤ x.count then
      let (gs, y) := serveCounter ws { x with count := x.count - x.target }
      (w :: gs, y)
    else ([], { x with waits := w :: ws })

/-- Serve the waits of a tidemark: the waits satisfied, and the tidemark after. -/
def Tm.serve (x : Tm) : List Waiter × Tm :=
  if x.mode = 0 then serveCounter x.waits x
  else (x.waits.filter x.sat, { x with waits := x.waits.filter (fun w => !x.sat w) })

/-- Store a tidemark after its count, phase or registers changed: phases complete, OWNER is told of events, waits are served. -/
def tmUpdate (i : Nat) (x : Tm) (s : State) : State :=
  let k := x.phases.1
  let (gs, y) := x.settle.serve
  let s := s.setTm i y
  let s := { s with granted := s.granted ++ gs.map (fun w => (w.req, i)) }
  if x.mode = 2 && decide (0 < k) then s.cause x.owner 5 else s

/-- R246: add to COUNT modulo 2^24; a wrap in counter mode sets OVF. -/
def Tm.add (x : Tm) (n : Nat) : Tm :=
  { x with count := (x.count + n) % 2 ^ 24, ovf := x.ovf || (decide (x.mode = 0) && decide (2 ^ 24 ≤ x.count + n)) }

/-- R249: record the first rejection, count the rest. KIND 0 increment, 1 wait, 2 ferry increment. -/
def tmReject (kind i n : Nat) (s : State) : State :=
  if s.bit aTmStatus 31 then s.addSat aTmStatus 0 8 1
  else s.wr aTmStatus (BitVec.ofNat 32 (2 ^ 31 + kind % 4 * 2 ^ 29 + i % 8192 * 2 ^ 16 + n % 256 * 256 + 1))

/-- Whether the requester takes a phase reply (R243): sequencers and tiles. -/
def Req.replies : Req → Bool
  | .seq _ => true
  | .tile _ => true
  | _ => false

/-- An increment reaches the unit (R241 to R249); an increment made for a draining stream is discarded (R258). -/
def tmApply (r : TmReq) (n : Nat) (s : State) : State :=
  if s.st r.stream = 3 then s else
  if !s.tmValid r.stream r.idx then
    tmReject (match r.req with | .ferry _ => 2 | _ => 0) r.idx r.stream s
  else
    let x := s.tm r.idx
    let s := if x.mode = 1 && r.req.replies then { s with replies := s.replies ++ [(r.req, r.idx, x.phase)] } else s
    tmUpdate r.idx (x.add n) s

/-- The phase record of a requester (R243). -/
def State.record (s : State) : Req → Option (Nat × Nat)
  | .seq g => (s.seq g).record
  | .tile t => (s.tile t).record
  | _ => none

/-- Set it. -/
def State.setRecord (s : State) (v : Option (Nat × Nat)) : Req → State
  | .seq g => s.modSeq g (fun q => { q with record := v })
  | .tile t => s.modTile t (fun q => { q with record := v })
  | _ => s

/-- A wait reaches the unit: it joins the waits of its tidemark, which are served (R241, R243); a wait on the recorded
barrier index waits for the recorded phase and, once satisfied, clears the record. -/
def tmWait (r : TmReq) (s : State) : State :=
  if s.st r.stream = 3 then s else
  if !s.tmValid r.stream r.idx then tmReject 1 r.idx r.stream s
  else
    let x := s.tm r.idx
    let ph := if x.mode = 1 then
        match s.record r.req with
        | some (j, p) => if j = r.idx then p else x.phase
        | none => x.phase
      else x.phase
    tmUpdate r.idx { x with waits := x.waits ++ [⟨r.req, r.stream, ph⟩] } s

/-- The k-th request on its way, if no earlier one of its requester is for the same tidemark (R256.6). -/
def State.nextReq (s : State) (k : Nat) : Option TmReq :=
  match s.tmq[k]? with
  | none => none
  | some r => if (s.tmq.take k).any (fun x => x.req == r.req && x.idx == r.idx) then none else some r

/-- Take a request off the way. -/
def State.dropReq (s : State) (k : Nat) : State := { s with tmq := s.tmq.eraseIdx k }

/-- TIDEMARK_INCREMENT: the k-th request on its way, an increment, reaches the unit. -/
def execTidemarkIncrement (k : Nat) (s : State) : Host.Outcome State Fault Refusal :=
  match s.nextReq k with
  | some r =>
    match r.inc with
    | some n => done s (tmApply r n (s.dropReq k))
    | none => idle s
  | none => idle s

/-- TIDEMARK_WAIT: the k-th request on its way, a wait, reaches the unit; its requester holds it while a phase reply for
the same tidemark is still on its way (R243). -/
def execTidemarkWait (k : Nat) (s : State) : Host.Outcome State Fault Refusal :=
  match s.nextReq k with
  | some r =>
    match r.inc with
    | none =>
      if s.replies.any (fun p => p.1 == r.req && p.2.1 == r.idx) then idle s
      else done s (tmWait r (s.dropReq k))
    | some _ => idle s
  | none => idle s

/-- Release a waiter: its sequencer or tile goes on, and a satisfied wait on the recorded index clears the record. -/
def tmRelease (r : Req) (i : Nat) (s : State) : State :=
  let s := match s.record r with
    | some (j, _) => if j = i then s.setRecord none r else s
    | none => s
  match r with
  | .seq g => if (s.seq g).waitIdx = some i then s.modSeq g (fun q => { q with granted := true }) else s
  | .tile t => if (s.tile t).synWait = some i then s.modTile t (fun q => { q with synWait := none }) else s
  | _ => s

/-- TIDEMARK_WAITER_RELEASE of the k-th satisfied waiter (R250). -/
def execTidemarkWaiterRelease (k : Nat) (s : State) : Host.Outcome State Fault Refusal :=
  match s.granted[k]? with
  | none => idle s
  | some (r, i) => done s (tmRelease r i { s with granted := s.granted.eraseIdx k })

/-- BARRIER_PHASE_REPLY: the k-th reply reaches its requester, whose record it becomes (R243). -/
def execBarrierPhaseReply (k : Nat) (s : State) : Host.Outcome State Fault Refusal :=
  match s.replies[k]? with
  | none => idle s
  | some (r, i, p) => done s ({ s with replies := s.replies.eraseIdx k }.setRecord (some (i, p)) r)

/-- R260, R254: a host write to TIDEMARK_CNT or _CFG (`cfg`) sets the register, OVF by W1C, and the layout value; system
tidemarks ignore it; a reserved MODE drops the write (R10). -/
def tmHostWrite (i : Nat) (cfg : Bool) (v : Word) (s : State) : State :=
  let v := v.toNat
  if 8184 ≤ i then s else
  if cfg && decide (nbits v 30 2 = 3) then reject none (0x80004 + i * 8) s else
  let x := s.tm i
  let x := if cfg then { x with mode := nbits v 30 2, target := nbits v 0 24, ovf := x.ovf && !nbit v 29 }
           else { x with owner := nbits v 24 8, count := nbits v 0 24 }
  tmUpdate i { x with lay := (x.count, x.target, x.owner, x.mode) } s

/-- TIDEMARK_HOST_WRITE. -/
def execTidemarkHostWrite (i : Fin 8192) (cfg : Bool) (v : Word) (s : State) : Host.Outcome State Fault Refusal :=
  hostRow .pf (0x80000 + i.val * 8 + b2n cfg * 4) v.toNat s (tmHostWrite i.val cfg v s)

/-- Return a tidemark to its layout value (R240): PHASE = 0, OVF = 0, no wait of its stream. -/
def Tm.restore (x : Tm) : Tm :=
  { x with count := x.lay.1, target := x.lay.2.1, owner := x.lay.2.2.1, mode := x.lay.2.2.2, phase := 0, ovf := false }

/-- R258: at the end of a drain every tidemark of stream n returns to its layout value and the records for it clear; what
was made for the stream is discarded. -/
def tmDrain (n : Nat) (s : State) : State :=
  let mine := (s.tms.filter (fun p => p.2.owner == n && decide (p.1 < 8184))).map (·.1)
  let s := { s with tmq := s.tmq.filter (fun r => r.stream != n) }
  let s := each (s.tms.map (·.1)) s (fun s i =>
    let x := s.tm i
    s.setTm i { x with waits := x.waits.filter (fun w => w.stream != n) })
  let s := each mine s (fun s i => s.setTm i (s.tm i).restore)
  let clear := fun (r : Option (Nat × Nat)) => match r with
    | some (i, p) => if mine.contains i then none else some (i, p)
    | none => none
  let s := { s with replies := s.replies.filter (fun p => !mine.contains p.2.1) }
  let s := each (s.seqs.map (·.1)) s (fun s g => s.modSeq g (fun q => { q with record := clear q.record }))
  each (s.tiles.map (·.1)) s (fun s t => s.modTile t (fun q => { q with record := clear q.record }))

/-- Add to a system tidemark (R254), with no owner check. -/
def tmSystem (slot n : Nat) (s : State) : State := tmUpdate (8184 + slot) ((s.tm (8184 + slot)).add n) s

/-- Discard the waits and records of region g's requesters (R259). -/
def tmRegionReset (g : Nat) (s : State) : State :=
  let mine : Req → Bool
    | .seq h => h == g
    | .tile t => regionOf t == g
    | _ => false
  let s := { s with tmq := s.tmq.filter (fun r => !mine r.req), granted := s.granted.filter (fun p => !mine p.1),
                    replies := s.replies.filter (fun p => !mine p.1) }
  let s := each (s.tms.map (·.1)) s (fun s i =>
    let x := s.tm i
    s.setTm i { x with waits := x.waits.filter (fun w => !mine w.req) })
  let s := each (tilesOf g) s (fun s t => s.modTile t (fun q => { q with record := none, synWait := none }))
  s.modSeq g (fun q => { q with record := none })

end Sys2Proof.Machine
end

