-- ==== Sys2Proof/Machine/Fabric.lean ====
section
/-! DEFINITION. Links, slot wheels and credit loops (05): the switch, boundary lanes, credits, the management slot, and the
queues of a tile as the fabric sees them. -/
namespace Sys2Proof.Machine

/-! ### Geometry -/

/-- The reverse direction. -/
def opp (d : Nat) : Nat := (d + 2) % 4

/-- The tile next to t in direction d (0 north, 1 east, 2 south, 3 west), none at the fabric's edge. -/
def neighbour (t d : Nat) : Option Nat :=
  let x := t % 20
  let y := t / 20
  match d with
  | 0 => if y = 0 then none else some (t - 20)
  | 1 => if x = 19 then none else some (t + 1)
  | 2 => if y = 19 then none else some (t + 20)
  | _ => if x = 0 then none else some (t - 1)

/-- The inbound link of t from direction a is a region boundary: it comes from another region or from an edge port. -/
def boundary (t a : Nat) : Bool :=
  match neighbour t a with
  | none => true
  | some n => decide (regionOf n ≠ regionOf t)

/-- The edge port on tile t's link d, if it is a north or south edge. -/
def edgeAt (t d : Nat) : Option Nat :=
  if d = 0 ∧ t / 20 = 0 then some (t % 20) else if d = 2 ∧ t / 20 = 19 then some (20 + t % 20) else none

/-- The edge tile of EDGE[e], and its direction toward the port. -/
def edgeTile (e : Nat) : Nat := if e < 20 then e else 380 + (e - 20)
def edgeDir (e : Nat) : Nat := if e < 20 then 0 else 2

/-- The region's clock runs and no class G fault has stopped it (R103, R351). -/
def State.live (s : State) (g : Nat) : Bool := decide (s.f (aRegionClk g) 16 4 ≠ 0) && !(s.seq g).halted

/-- The region is under set-reset. -/
def State.gsr (s : State) (g : Nat) : Bool := (s.tile (tileOf g 0)).gsr

/-- What is left of stream n is being purged (R348): it drains, and a STREAM_CTL.DRAIN has no frame still OPEN
(notes/assumptions/9.md). -/
def State.purging (s : State) (n : Nat) : Bool :=
  decide (s.st n = 3)
  && (decide ((s.stream n).drainKind ≠ some .drain) || !((s.stream n).slots.any (fun p => p.2.st == .opened)))

/-! ### Schedules and bindings in effect -/

/-- TILE_SW_OUT[d][k] in effect: VALID, SRC, SRC_SLOT. -/
def State.sw (s : State) (t d k : Nat) : Bool × Nat × Nat :=
  let w := (s.act (aTileSwOut t d k)).toNat
  (nbit w 7, nbits w 4 3, nbits w 0 4)

/-- TILE_QBIND[q] in effect. -/
structure Bind where
  bound : Bool
  dyn : Bool
  group : Nat
  dir : Nat
  mask : Nat
  credits : Nat
deriving DecidableEq, Repr

/-- TILE_QBIND[q] in effect; a word not listed is 0, its reset value. -/
def State.qbind (s : State) (t q : Nat) : Bind :=
  let w := (tget 0 s.active (aTileQbind t q)).toNat
  ⟨nbit w 31, nbit w 30, nbits w 26 4, nbits w 23 3, nbits w 8 15, nbits w 0 2⟩

/-- The IQ that inbound (a, k) is delivered to (R108). -/
def State.iqFor (s : State) (t a k : Nat) : Option Nat :=
  findNat 8 (fun q => let b := s.qbind t q; b.bound && b.dir == a && nbit b.mask k)

/-- The lowest outbound (d, k') that names inbound (a, k) (R108). -/
def State.outFor (s : State) (t a k : Nat) : Option (Nat × Nat) :=
  (findNat 60 (fun i => let (v, src, sl) := s.sw t (i / 15) (i % 15); v && src == a && sl == k)).map
    (fun i => (i / 15, i % 15))

/-! ### Senders: who holds the credits of a segment -/

def sOq (t q : Nat) : Nat := t * 8 + q
def sLane (t a l : Nat) : Nat := 10000 + (t * 4 + a) * 16 + l
def sWest (y : Nat) : Nat := 50000 + y
def sEdge (e : Nat) : Nat := 60000 + e

/-- The sender whose circuit owns slot k of tile t's outbound link d, traced back hop by hop (R111). -/
def State.origin (s : State) : Nat → Nat → Nat → Nat → Option Nat
  | 0, _, _, _ => none
  | f + 1, t, d, k =>
    let (v, src, sl) := s.sw t d k
    if !v then none
    else if src = 4 then some (sOq t sl)
    else if boundary t src then some (sLane t src sl)
    else match neighbour t src with
      | none => none
      | some n => s.origin f n (opp src) sl

/-- Hops a trace may take: every outbound slot of a region once. -/
def traceFuel : Nat := 960

/-- The sender of what reaches port or gate over tile t's link d: the circuit of its lowest owned slot. -/
def State.linkSender (s : State) (t d : Nat) : Option Nat :=
  ((List.range 15).filterMap (fun k => s.origin traceFuel t d k)).head?

/-- The sender into the lane l of tile t's inbound direction a. -/
def State.laneSender (s : State) (t a l : Nat) : Option Nat :=
  match neighbour t a with
  | some n => s.origin traceFuel n (opp a) l
  | none => if a = 3 then some (sWest (t / 20)) else (edgeAt t a).map sEdge

/-- The sender into IQ q of tile t: its lane, or the circuit of the lowest bound slot. -/
def State.iqSender (s : State) (t q : Nat) : Option Nat :=
  let b := s.qbind t q
  match findNat 15 (fun k => nbit b.mask k) with
  | none => none
  | some k =>
    if boundary t b.dir then some (sLane t b.dir k)
    else match neighbour t b.dir with
      | none => none
      | some n => s.origin traceFuel n (opp b.dir) k

/-- R111: the lane of slot k on a crossing link: the lowest slot with the same start. -/
def State.laneOf (s : State) (t d k : Nat) : Nat :=
  match s.origin traceFuel t d k with
  | none => k
  | some o => (findNat 15 (fun j => s.origin traceFuel t d j == some o)).getD k

/-- Depth of the queue that slot k of tile t's outbound link d ends in: 16 for a lane, 64 otherwise. -/
def State.endDepth (s : State) : Nat → Nat → Nat → Nat → Nat
  | 0, _, _, _ => 64
  | f + 1, t, d, k =>
    match neighbour t d with
    | none => 64
    | some n =>
      if regionOf n ≠ regionOf t then 16
      else if (s.iqFor n (opp d) k).isSome then 64
      else match s.outFor n (opp d) k with
        | none => 64
        | some (d', k') => s.endDepth f n d' k'

/-- Depth of a lane: 16 (R111); 64 where an in-port or causeway feeds it with 64 credits (R268, notes/assumptions/7.md). -/
def laneDepth (t a : Nat) : Nat := if (edgeAt t a).isSome then 64 else 16

/-- The outbound link a lane feeds: that of the lowest (d, k) that names it, if no IQ is bound to it (R108). -/
def State.laneLink (s : State) (t a l : Nat) : Option Nat :=
  if (s.iqFor t a l).isSome then none else (s.outFor t a l).map (·.1)

/-- Credits of a lane as a sender. -/
def State.laneCredits (s : State) (t a l : Nat) : Nat :=
  if (s.iqFor t a l).isSome then 64
  else match s.outFor t a l with
    | none => 0
    | some (d, k) => s.endDepth traceFuel t d k

/-! ### State of links -/

def State.wire (s : State) (t d : Nat) : List (Nat × Entry) := tget [] s.fabric.wires (t * 4 + d)
def State.setWire (s : State) (t d : Nat) (x : List (Nat × Entry)) : State :=
  { s with fabric := { s.fabric with wires := tset [] s.fabric.wires (t * 4 + d) x } }
def State.hold (s : State) (t d k : Nat) : List Entry := tget [] s.fabric.holds ((t * 4 + d) * 16 + k)
def State.setHold (s : State) (t d k : Nat) (x : List Entry) : State :=
  { s with fabric := { s.fabric with holds := tset [] s.fabric.holds ((t * 4 + d) * 16 + k) x } }
def State.lane (s : State) (t a l : Nat) : List Entry := tget [] s.fabric.lanes ((t * 4 + a) * 16 + l)
def State.setLane (s : State) (t a l : Nat) (x : List Entry) : State :=
  { s with fabric := { s.fabric with lanes := tset [] s.fabric.lanes ((t * 4 + a) * 16 + l) x } }
def State.laneUsed (s : State) (t a l : Nat) : Nat := tget 0 s.fabric.laneUsed ((t * 4 + a) * 16 + l)
def State.setLaneUsed (s : State) (t a l n : Nat) : State :=
  { s with fabric := { s.fabric with laneUsed := tset 0 s.fabric.laneUsed ((t * 4 + a) * 16 + l) n } }
def State.iq (s : State) (t q : Nat) : List Entry := tget [] (s.tile t).iq q
def State.setIq (s : State) (t q : Nat) (x : List Entry) : State :=
  s.modTile t (fun y => { y with iq := tset [] y.iq q x })
def State.oq (s : State) (t q : Nat) : List Entry := tget [] (s.tile t).oq q
def State.setOq (s : State) (t q : Nat) (x : List Entry) : State :=
  s.modTile t (fun y => { y with oq := tset [] y.oq q x })
def State.oqUsed (s : State) (t q : Nat) : Nat := tget 0 (s.tile t).used q
def State.setOqUsed (s : State) (t q n : Nat) : State :=
  s.modTile t (fun y => { y with used := tset 0 y.used q n })

/-- Initial credits of an OQ (TILE_QBIND.CREDITS). -/
def State.oqCredits (s : State) (t q : Nat) : Nat := if (s.qbind t (8 + q)).credits = 1 then 16 else 64

/-! ### Credit returns (R114) -/

/-- A credit starts its way back to a sender. -/
def credit (o : Option Nat) (n : Nat) (s : State) : State :=
  match o with
  | none => s
  | some c => if n = 0 then s else { s with fabric := { s.fabric with back := s.fabric.back ++ [(c, n)] } }

/-- `n` credits reach their sender. -/
def creditApply (c n : Nat) (s : State) : State :=
  if c < 10000 then s.setOqUsed (c / 8) (c % 8) (s.oqUsed (c / 8) (c % 8) - n)
  else if c < 50000 then
    let i := c - 10000
    let (t, a, l) := (i / 64, i / 16 % 4, i % 16)
    s.setLaneUsed t a l (s.laneUsed t a l - n)
  else if c < 60000 then
    { s with fabric := { s.fabric with westUsed := tset 0 s.fabric.westUsed (c - 50000) (tget 0 s.fabric.westUsed (c - 50000) - n) } }
  else
    let e := s.edge (c - 60000)
    s.setEdge (c - 60000) { e with used := e.used - n }

/-- CREDIT_RETURN: the k-th credit on its way reaches its sender. -/
def execCreditReturn (k : Nat) (s : State) : Host.Outcome State Fault Refusal :=
  match s.fabric.back[k]? with
  | none => idle s
  | some (c, n) => done s (creditApply c n { s with fabric := { s.fabric with back := s.fabric.back.eraseIdx k } })

/-! ### Arrival -/

/-- QUEUE_PROTOCOL of class G for a switch, lane or queue of tile t (R93, R107, R108, R111). -/
def switchFault (t q : Nat) (e : Entry) (s : State) : State :=
  raiseG { cls := 2, code := 0x02, stream := some (strOf e.side), frame := some (frameOf e.side), region := regionOf t,
           tile := t, unit := 8, detail := q } (regionOf t) s

/-- The spill ring of a queue (index in its group), if it has one. -/
def State.ringOf (s : State) (t q : Nat) : Option (Nat × Nat × List Entry) :=
  let b := s.qbind t q
  if !(b.bound && b.dyn) then none
  else
    let rs := (s.grp b.group).rings
    (findNat rs.length (fun i => match rs[i]? with | some r => r.1 == t && r.2.1 == q | none => false)).bind
      (fun i => rs[i]?.map (fun r => (b.group, i, r.2.2)))

/-- Records a ring of group n holds: a sixteenth of the spill area (R119). -/
def State.ringCap (s : State) (n : Nat) : Nat := s.f (aUndertowGrpCfg n) 16 14 * 4

/-- A spill record (05, Spill record format). -/
def spillRecord (t q seq : Nat) (e : Entry) : List Byte :=
  payBytes e.pay ++ toBytes 4 e.side.toNat ++ toBytes 2 (t * 128 + q) ++ toBytes 2 seq ++ toBytes 24 0

/-- Append entries to ring i of group n, writing their records to the spill area. -/
def ringAppend (n i t q : Nat) (es : List Entry) (s : State) : State :=
  let cap := s.ringCap n
  let base := s.f (aUndertowGrpCfg n) 0 14 * 4096 + i * cap * 64
  let s := each es s (fun s e =>
    let k := tget 0 (s.grp n).seq i
    let s := s.basinPut (base + k % (max cap 1) * 64) (spillRecord t q k e)
    s.setGrp n { s.grp n with seq := tset 0 (s.grp n).seq i (k + 1) })
  let u := s.grp n
  let s := s.setGrp n { u with rings := setNth u.rings i (t, q, (nth u.rings i (t, q, [])).2.2 ++ es) }
  (s.setB (aUndertowGrpStatus n) 1 true).count (cUnder n 0) es.length

/-- The queues of group n in effect: (tile, queue as in TILE_QSTAT). -/
def State.groupQueues (s : State) (n : Nat) : List (Nat × Nat) :=
  (List.range 400).flatMap (fun t => (List.range 16).filterMap (fun q =>
    let b := s.qbind t q
    if b.bound && b.dyn && b.group == n then some (t, q) else none))

/-- The regions that hold a queue of group n. -/
def State.groupRegions (s : State) (n : Nat) : List Nat :=
  (List.range 25).filter (fun g => (s.groupQueues n).any (fun p => regionOf p.1 == g))

/-- R122: UNDERTOW_FAILED of class G for every region of the group. -/
def underFail (n : Nat) (s : State) : State :=
  let s := s.setB (aUndertowGrpStatus n) 2 true
  each (s.groupRegions n) s (fun s g =>
    raiseG { cls := 2, code := 0x0B, region := g, unit := 8, index := n } g s)

/-! ### The watched IQ (R216) -/

/-- STREAM and FRAME of a sideband, as a key with ITER zero. -/
def sfWord (w : Word) : Word := BitVec.ofNat 32 (frameOf w * 2 ^ 20 + strOf w * 16)

/-- The region whose SEQ_WATCH in effect watches IQ q of tile t. -/
def State.watcher (s : State) (t q : Nat) : Option Nat :=
  let g := regionOf t
  let w := (s.act (aSeqWatch g)).toNat
  if nbit w 31 && decide (tileOf g (nbits w 3 4) = t ∧ nbits w 0 3 = q) then some g else none

/-- An entry of key k that needs no notice (or has posted one): its key is open, and closes with EOFR. -/
def Seq.pass (x : Seq) (e : Entry) : Seq :=
  { x with seen := x.seen + 1,
           keys := if nbit e.side.toNat 2 then x.keys.filter (fun k => k != sfWord e.side) else x.keys }

/-- Pass the entries whose key is open, up to the first that needs a notice. -/
def watchEntries : List Entry → Seq → Seq
  | [], x => x
  | e :: es, x => if x.keys.contains (sfWord e.side) then watchEntries es (x.pass e) else x

/-- The entries of an IQ and of its spill ring behind it. -/
def State.iqAll (s : State) (t q : Nat) : List Entry :=
  s.iq t q ++ (match s.ringOf t q with | some (_, _, es) => es | none => [])

/-- Look at the entries of a watched IQ, its spill ring included, that have not been passed yet. -/
def watchScan (t q : Nat) (s : State) : State :=
  match s.watcher t q with
  | none => s
  | some g => s.modSeq g (fun x => watchEntries ((s.iqAll t q).drop x.seen) x)

/-- The head of IQ q that may be popped: on a watched IQ, one that has been passed. -/
def State.headOf (s : State) (t q : Nat) : Option Entry :=
  match s.watcher t q with
  | some g => if (s.seq g).seen = 0 then none else (s.iq t q).head?
  | none => (s.iq t q).head?

/-- Append to an IQ. -/
def iqPut (t q : Nat) (e : Entry) (s : State) : State := watchScan t q (s.setIq t q (s.iq t q ++ [e]))

/-- An entry reaches IQ q of tile t: appended to its spill ring while that holds entries (R120), discarded if its stream
is being purged (R348), a fault if the IQ is full (R93). -/
def iqArrive (t q : Nat) (e : Entry) (s : State) : State :=
  if s.purging (strOf e.side) then credit (s.iqSender t q) 1 s
  else
    let full := decide (64 ≤ (s.iq t q).length)
    match s.ringOf t q with
    | some (n, i, es) =>
      if !es.isEmpty || full then
        if es.length < s.ringCap n then watchScan t q (ringAppend n i t q [e] s) else underFail n s
      else iqPut t q e s
    | none => if full then switchFault t q e s else iqPut t q e s

/-- An entry reaches lane l of tile t's inbound direction a (R111, R113). -/
def laneArrive (t a l : Nat) (e : Entry) (s : State) : State :=
  let gsrThere := match neighbour t a with | some n => s.gsr (regionOf n) | none => false
  if s.gsr (regionOf t) || gsrThere then s
  else if s.purging (strOf e.side) then credit (s.laneSender t a l) 1 s
  else if laneDepth t a ≤ (s.lane t a l).length then switchFault t 0 e s
  else s.setLane t a l (s.lane t a l ++ [e])

/-- QUEUE_PROTOCOL of class G at gate port y (R316). -/
def gateFault (t y : Nat) (e : Entry) (s : State) : State :=
  raiseG { cls := 2, code := 0x02, stream := some (strOf e.side), frame := some (frameOf e.side),
           region := regionOf t, tile := t, unit := 12, index := y } (regionOf t) s

/-- An entry reaches the exit gate on port y (R316). -/
def gateArrive (y : Nat) (e : Entry) (s : State) : State :=
  let t := 20 * y + 19
  let back := s.linkSender t 1
  if s.purging (strOf e.side) then credit back 1 s
  else if !s.bitA aExitPorts y then credit back 1 (gateFault t y e s)
  else if 64 ≤ (tget [] s.gate.ports y).length then gateFault t y e s
  else { s with gate := { s.gate with ports := tset [] s.gate.ports y (tget [] s.gate.ports y ++ [e]) } }

/-- EDGE_CFG.MODE in effect: 0 off, 1 out, 2 in, 3 causeway. -/
def State.edgeMode (s : State) (e : Nat) : Nat := s.fa (aEdgeCfg e) 30 2

/-- An entry reaches an edge port from its tile: an out-port or a causeway port takes it; a port of another mode takes
nothing, and the entry is discarded with its credit returned (notes/assumptions/7.md). -/
def edgeArrive (e : Nat) (x : Entry) (s : State) : State :=
  let back := s.linkSender (edgeTile e) (edgeDir e)
  if s.purging (strOf x.side) then credit back 1 s
  else if s.edgeMode e = 1 ∨ s.edgeMode e = 3 then
    if 64 ≤ (s.edge e).inq.length then switchFault (edgeTile e) 0 x s
    else s.setEdge e { s.edge e with inq := (s.edge e).inq ++ [x] }
  else credit back 1 s

/-- An entry sent by tile t on link d in slot k reaches the far end (R104, R107, R108, R111, R451). -/
def linkArrive (t d k : Nat) (e : Entry) (s : State) : State :=
  match neighbour t d with
  | none =>
    if d = 1 then gateArrive (t / 20) e s
    else if d = 3 then switchFault t 0 e s
    else match edgeAt t d with
      | some p => edgeArrive p e s
      | none => s
  | some n =>
    let a := opp d
    if regionOf n ≠ regionOf t then laneArrive n a (s.laneOf t d k) e s
    else match s.iqFor n a k with
      | some q => iqArrive n q e s
      | none =>
        match s.outFor n a k with
        | none => switchFault n 0 e s
        | some (d', k') =>
          if (s.hold n d' k').isEmpty then s.setHold n d' k' [e] else switchFault n 0 e s

/-- LINK_ENTRY_ARRIVE: the oldest entry sent by tile t on its link d reaches the far end 3 rc later (R104). -/
def execLinkEntryArrive (t : TileIx) (d : Fin 4) (s : State) : Host.Outcome State Fault Refusal :=
  match s.wire t.val d.val with
  | [] => idle s
  | (k, e) :: rest =>
    when_ (s.live (regionOf t.val)) s (linkArrive t.val d.val k e (s.setWire t.val d.val rest))

/-! ### Sending -/

/-- R113: while either region is under GSR nothing is sent on a crossing link. -/
def State.maySend (s : State) (t d : Nat) : Bool :=
  s.live (regionOf t) &&
  match neighbour t d with
  | none => true
  | some n => regionOf n == regionOf t || (!s.gsr (regionOf t) && !s.gsr (regionOf n))

/-- Put an entry on a link. -/
def putWire (t d k : Nat) (e : Entry) (s : State) : State :=
  (s.setWire t d (s.wire t d ++ [(k, e)])).count (cTile t (88 + 4 * d)) 1

/-- LINK_SEND: the owner of slot k of tile t's link d sends if its source is ready and, for an OQ or a lane, holds a
credit (R106, R107, R114). -/
def linkSend (t d k : Nat) (s : State) : State :=
  let (v, src, sl) := s.sw t d k
  if !(v && s.maySend t d) then s
  else if src = 4 then
    match s.oq t (sl % 8) with
    | [] => s
    | e :: rest =>
      if s.oqUsed t (sl % 8) < s.oqCredits t (sl % 8) then
        putWire t d k e ((s.setOq t (sl % 8) rest).setOqUsed t (sl % 8) (s.oqUsed t (sl % 8) + 1))
      else s.count (cTile t (90 + 4 * d)) 1
  else if boundary t src then
    if s.laneLink t src sl ≠ some d then s
    else match s.lane t src sl with
      | [] => s
      | e :: rest =>
        if s.laneUsed t src sl < s.laneCredits t src sl then
          putWire t d k e (credit (s.laneSender t src sl) 1
            ((s.setLane t src sl rest).setLaneUsed t src sl (s.laneUsed t src sl + 1)))
        else s.count (cTile t (90 + 4 * d)) 1
  else match s.hold t d k with
    | [] => s
    | e :: rest => putWire t d k e (s.setHold t d k rest)

/-- LINK_SEND. -/
def execLinkSend (t : TileIx) (d : Fin 4) (k : Fin 15) (s : State) : Host.Outcome State Fault Refusal :=
  done s (linkSend t.val d.val k.val s)

/-- BOUNDARY_LANE_MOVE: a lane bound to an IQ moves its head into it while it holds a credit (R112); any other lane waits
for its outbound slot. -/
def execBoundaryLaneMove (t : TileIx) (d : Fin 4) (lane : Fin 15) (s : State) : Host.Outcome State Fault Refusal :=
  if !s.live (regionOf t.val) then idle s else
  match s.iqFor t.val d.val lane.val, s.lane t.val d.val lane.val with
  | some q, e :: rest =>
    when_ (boundary t.val d.val && decide (s.laneUsed t.val d.val lane.val < 64)) s
      (iqArrive t.val q e (credit (s.laneSender t.val d.val lane.val) 1
        ((s.setLane t.val d.val lane.val rest).setLaneUsed t.val d.val lane.val (s.laneUsed t.val d.val lane.val + 1))))
  | _, _ => idle s

/-! ### Pops -/

/-- A pop at an IQ: the head, its credit on its way back (R114). -/
def popIq (t q : Nat) (s : State) : Option Entry × State :=
  match s.iq t q with
  | [] => (none, s)
  | e :: rest =>
    let s := match s.watcher t q with
      | some g => s.modSeq g (fun x => { x with seen := x.seen - 1 })
      | none => s
    (some e, credit (s.iqSender t q) 1 (s.setIq t q rest))

/-! ### The management slot (R110, R452) -/

/-- The management endpoint of region g. -/
def endpoint (g : Nat) : Nat := tileOf g 0

/-- The next hop of a packet: the X direction first, then Y. -/
def nextHop (a b : Nat) : Option Nat :=
  if a % 20 < b % 20 then some 1 else if b % 20 < a % 20 then some 3
  else if a / 20 < b / 20 then some 2 else if b / 20 < a / 20 then some 0 else none

/-- A packet is delivered: a patch write joins the tile's pending patch writes, a tidemark request goes on its way. -/
def mgmtDeliver (p : MPkt) (s : State) : State :=
  let s := match p.body with
    | some w => s.modTile p.dst (fun x => { x with patches := x.patches ++ [w] })
    | none => s
  match p.req with
  | some r => { s with tmq := s.tmq ++ [r] }
  | none => s

/-- A packet enters the management network; one whose destination is its entry tile takes no hop (R452). -/
def mgmtSend (p : MPkt) (s : State) : State :=
  if p.at_ = p.dst then mgmtDeliver p s else { s with fabric := { s.fabric with pkts := s.fabric.pkts ++ [p] } }

/-- Rank of a packet in the contest for slot 15: a packet that has lost 64 turns goes ahead of classes 4 to 6 (R110). -/
def MPkt.rank (p : MPkt) : Nat := if p.cls ≤ 3 then 2 * p.cls else if 64 ≤ p.lost then 7 else 2 * p.cls

/-- The packets that want link d of tile t. -/
def wants (t d : Nat) (p : MPkt) : Bool := p.at_ == t && nextHop t p.dst == some d

/-- Index of the packet the switch grants: the least rank, the oldest among equals. -/
def grant (t d : Nat) (ps : List MPkt) : Option Nat :=
  let c := (List.range ps.length).filter (fun i => match ps[i]? with | some p => wants t d p | none => false)
  let rk : Nat → Nat := fun i => match ps[i]? with | some p => p.rank | none => 99
  c.find? (fun i => c.all (fun j => decide (rk i ≤ rk j)))

/-- MANAGEMENT_PACKET_HOP: one packet takes slot 15 of tile t's link d (R110). -/
def execManagementPacketHop (t : TileIx) (d : Fin 4) (s : State) : Host.Outcome State Fault Refusal :=
  if !s.live (regionOf t.val) then idle s else
  match grant t.val d.val s.fabric.pkts with
  | none => idle s
  | some i =>
    match s.fabric.pkts[i]?, neighbour t.val d.val with
    | some p, some n =>
      let lose := fun (x : MPkt) => if wants t.val d.val x then { x with lost := x.lost + 1 } else x
      let rest := (s.fabric.pkts.eraseIdx i).map lose
      let s1 := s.count (cTile t.val (91 + 4 * d.val)) 1
      let p := { p with at_ := n, lost := 0 }
      if n = p.dst then done s (mgmtDeliver p { s1 with fabric := { s1.fabric with pkts := rest } })
      else done s { s1 with fabric := { s1.fabric with pkts := rest ++ [p] } }
    | _, _ => idle s

/-! ### Undertow (R118 to R123) -/

/-- The IQs of group n that are full. -/
def State.fullIqs (s : State) (n : Nat) : List (Nat × Nat) :=
  (s.groupQueues n).filter (fun p => decide (p.2 < 8) && decide (64 ≤ (s.iq p.1 p.2).length))

/-- Every queue of the group is non-empty, and no region that holds one is halted, under GSR or without clock (R118). -/
def State.stuck (s : State) (n : Nat) : Bool :=
  let qs := s.groupQueues n
  !qs.isEmpty
  && qs.all (fun p => if p.2 < 8 then !(s.iq p.1 p.2).isEmpty else !(s.oq p.1 (p.2 - 8)).isEmpty)
  && (s.groupRegions n).all (fun g => s.live g && !s.gsr g)

/-- The rings after every full IQ has one, in order of tile and queue (R119). -/
def assignRings (rs : List (Nat × Nat × List Entry)) (qs : List (Nat × Nat)) : List (Nat × Nat × List Entry) :=
  rs ++ (qs.filter (fun p => !rs.any (fun r => r.1 == p.1 && r.2.1 == p.2))).map (fun p => (p.1, p.2, []))

/-- Spill one full IQ: all but its oldest 8 entries go to its ring. -/
def spillOne (n : Nat) (s : State) (p : Nat × Nat) : State :=
  let es := s.iq p.1 p.2
  match s.ringOf p.1 p.2 with
  | none => s
  | some (_, i, _) =>
    let s := ringAppend n i p.1 p.2 (es.drop 8) (s.setIq p.1 p.2 (es.take 8))
    s.setGrp n { s.grp n with moved := (s.grp n).moved ++ [(p.1, p.2, es.length - 8)] }

/-- UNDERTOW_STUCK: after WINDOW fc without progress the group is found stuck and its full IQs spill, or R122 applies. -/
def execUndertowStuck (grp : Fin 16) (s : State) : Host.Outcome State Fault Refusal :=
  let n := grp.val
  if !(s.bit (aUndertowGrpCfg n) 31 && s.stuck n && !(s.grp n).spilling) then idle s else
  let t := s.setB (aUndertowGrpStatus n) 0 true
  let full := t.fullIqs n
  let rs := assignRings (t.grp n).rings full
  let room := full.all (fun p =>
    match rs.find? (fun r => r.1 == p.1 && r.2.1 == p.2) with
    | some r => decide (r.2.2.length + ((t.iq p.1 p.2).length - 8) ≤ t.ringCap n)
    | none => false)
  if full.isEmpty || decide (16 < full.length) || decide (16 < rs.length) || !room then done s (underFail n t)
  else
    let t := t.setGrp n { t.grp n with rings := rs, spilling := true, moved := [] }
    done s (each full t (spillOne n))

/-- UNDERTOW_SPILL_COMPLETE: the freed credits return and SPILLS counts (R119, R121). -/
def execUndertowSpillComplete (grp : Fin 16) (s : State) : Host.Outcome State Fault Refusal :=
  let n := grp.val
  let t := each (s.grp n).moved s (fun s m => credit (s.iqSender m.1 m.2.1) m.2.2 s)
  let t := t.setGrp n { t.grp n with spilling := false, moved := [] }
  when_ (s.grp n).spilling s ((t.setB (aUndertowGrpStatus n) 0 false).addSat (aUndertowGrpStatus n) 16 16 1)

/-- UNDERTOW_REFILL: an IQ with space takes the oldest entry of its ring (R120). -/
def execUndertowRefill (t : TileIx) (q : Fin 8) (s : State) : Host.Outcome State Fault Refusal :=
  match s.ringOf t.val q.val with
  | some (n, i, e :: es) =>
    if (s.iq t.val q.val).length < 64 then
      let u := s.setIq t.val q.val (s.iq t.val q.val ++ [e])
      let u := u.setGrp n { u.grp n with rings := setNth (u.grp n).rings i (t.val, q.val, es) }
      let u := u.setB (aUndertowGrpStatus n) 1 ((u.grp n).rings.any (fun r => !r.2.2.isEmpty))
      done s (u.count (cUnder n 1) 1)
    else idle s
  | _ => idle s

end Sys2Proof.Machine
end

