-- ==== Sys2Proof/Machine/Words.lean ====
section
/-! DEFINITION. The tile word (06): its parts, their fields, which encodings are reserved (R128, R133, R137, R140, R449),
the tensor descriptor and its walk (R135). -/
namespace Sys2Proof.Machine

/-! ### Parts of a word -/

def wHeader (w : Nat) : Nat := nbits w 240 16
def wSyn (w : Nat) : Nat := nbits w 216 24
def wIdx (w : Nat) : Nat := nbits w 184 32
/-- The slot of engine e (0 MAT, 1 VEC, 2 LD, 3 ST). -/
def wSlot (e w : Nat) : Nat :=
  match e with
  | 0 => nbits w 0 56
  | 1 => nbits w 56 48
  | 2 => nbits w 144 40
  | _ => nbits w 104 40

/-- The opcode of an engine slot. -/
def slotOp (e v : Nat) : Nat :=
  match e with
  | 0 => nbits v 52 4
  | 1 => nbits v 43 5
  | _ => nbits v 36 4

/-- The match set of a slot: bit i is IQ[i]; LD has none. -/
def slotMset (e v : Nat) : Nat :=
  match e with
  | 0 => nbits v 34 8
  | 1 => nbits v 18 8
  | 2 => 0
  | _ => nbits v 22 8

/-- The firing mode bit. -/
def slotFm (e v : Nat) : Bool :=
  match e with
  | 0 => nbit v 33
  | 1 => nbit v 17
  | 2 => false
  | _ => nbit v 21

/-- PUSH: enable and OQ. -/
def slotPush (e v : Nat) : Bool × Nat :=
  match e with
  | 0 => (nbit v 32, nbits v 29 3)
  | 1 => (nbit v 16, nbits v 13 3)
  | 2 => (nbit v 29, nbits v 26 3)
  | _ => (false, 0)

/-- END. -/
def slotEnd (e v : Nat) : Nat :=
  match e with
  | 0 => nbits v 27 2
  | 1 => nbits v 11 2
  | 2 => nbits v 24 2
  | _ => 0

/-- ITSRC: enable and x index. -/
def slotIts (e v : Nat) : Bool × Nat :=
  match e with
  | 0 => (nbit v 26, nbits v 22 4)
  | 1 => (nbit v 10, nbits v 6 4)
  | 2 => (nbit v 23, nbits v 19 4)
  | _ => (false, 0)

/-- The descriptor handle a slot names: DH of LD and ST, WDH of WLOAD (R449). -/
def slotDh (e v : Nat) : Option Nat :=
  match e with
  | 0 => if nbits v 52 4 = 1 then some (nbits v 43 4) else none
  | 1 => none
  | _ => if nbits v 36 4 = 0 then none else some (nbits v 32 4)

/-- The walker of an LD or ST slot. -/
def slotWk (v : Nat) : Nat := nbits v 30 2

/-- The u register added to the walk's base: enable and number. -/
def slotUoff (e v : Nat) : Bool × Nat :=
  match e with
  | 0 => (nbit v 13, nbits v 14 6)
  | 2 => (nbit v 12, nbits v 13 6)
  | 3 => (nbit v 14, nbits v 15 6)
  | _ => (false, 0)

/-- Members of an 8-bit set, ascending. -/
def setBits (m : Nat) : List Nat := (List.range 8).filter (fun i => nbit m i)

/-! ### Tensor descriptors -/

/-- COUNT[i]. -/
def descCount (d i : Nat) : Nat := nbits d (228 - 28 * i) 12
/-- STRIDE[i], signed. -/
def descStride (d i : Nat) : Int := sgn 16 (nbits d (212 - 28 * i) 16)
def descLevels (d : Nat) : Nat := nbits d 69 3
def descBase (d : Nat) : Nat := nbits d 243 13

/-- R449: a named descriptor is a reserved encoding. -/
def descBad (d : Nat) : Bool :=
  decide (descLevels d = 0) || decide (descLevels d = 7) || decide (nbits d 240 3 ≠ 0) || decide (nbits d 0 69 ≠ 0)
  || (List.range 6).any (fun i => decide (descLevels d ≤ i) && decide (nbits d (212 - 28 * i) 28 ≠ 0))

/-- Number of units the walk visits. -/
def walkLen (d : Nat) : Nat := ((List.range (min (descLevels d) 6)).map (descCount d)).foldl (· * ·) 1

/-- Σ i_k · STRIDE[k] for the n-th unit, level 0 innermost. -/
def walkSum (d : Nat) : Nat → Nat → Nat → Int
  | 0, _, _ => 0
  | f + 1, k, n =>
    let c := descCount d k
    if c = 0 then 0 else (n % c : Nat) * descStride d k + walkSum d f (k + 1) (n / c)

/-- The walk value of R135 before the modulo: BASE + offset + Σ i_k · STRIDE[k]. -/
def walkVal (d off n : Nat) : Int := descBase d + off + walkSum d (min (descLevels d) 6) 0 n

/-- The unit the walk visits, modulo 8,192 (R135). -/
def walkUnit (d off n : Nat) : Nat := (walkVal d off n % 8192).toNat

/-! ### Reserved encodings -/

/-- A header holds a reserved encoding at word address `a` (R128, R130). -/
def headerBad (a h : Nat) : Bool :=
  let nx := nbits h 13 3
  decide (5 ≤ nx) || nbit h 0
  || (if nx = 0 ∨ nx = 4 then decide (nbits h 1 12 ≠ 0) else decide (496 ≤ nbits h 1 9))
  || (decide (nx = 3) && decide (nbits h 10 3 ≠ 0)) || (decide (nx = 0) && decide (a = 495))

/-- The engine an ERP names, if exactly one of ST, VEC or MAT. -/
def erpEngine (eng : Nat) : Option Nat :=
  if eng = 8 then some 0 else if eng = 4 then some 1 else if eng = 1 then some 3 else none

/-- A SYN slot holds a reserved encoding; `w` is the whole word (R128, R133). -/
def synBad (w : Nat) : Bool :=
  let v := wSyn w
  let u := nbits v 14 6
  let eng := nbits v 10 4
  let q := nbits v 7 3
  let imm := nbits v 0 7
  match nbits v 20 4 with
  | 0 => decide (v ≠ 0)
  | 1 => decide (q ≠ 0)
  | 2 => decide (eng ≠ 0 ∨ q ≠ 0 ∨ imm ≠ 0)
  | 3 => decide (u ≠ 0 ∨ q ≠ 0 ∨ imm ≠ 0)
  | 4 => decide (u ≠ 0 ∨ imm ≠ 0) ||
    match erpEngine eng with
    | none => true
    | some e => decide (wSlot e w = 0) || !nbit (slotMset e (wSlot e w)) q
  | _ => true

/-- An IDX slot holds a reserved encoding. -/
def idxBad (v : Nat) : Bool :=
  let d := nbits v 24 4
  let a := nbits v 20 4
  let b := nbits v 16 4
  let imm := nbits v 0 16
  match nbits v 28 4 with
  | 0 => decide (v ≠ 0)
  | 1 | 4 | 13 => decide (b ≠ 0)
  | 2 | 3 => decide (imm ≠ 0)
  | 5 => decide (a ≠ 0 ∨ b ≠ 0 ∨ 64 ≤ imm)
  | 6 => decide (a ≠ 0 ∨ b ≠ 0)
  | 7 | 8 => decide (8 ≤ d ∨ imm ≠ 0)
  | 9 => decide (8 ≤ d ∨ b ≠ 0)
  | 10 => decide (8 ≤ d ∨ 8 ≤ a ∨ 8 ≤ b ∨ imm ≠ 0)
  | 11 => decide (8 ≤ d ∨ 8 ≤ a ∨ b ≠ 0 ∨ imm ≠ 0)
  | 12 => decide (b ≠ 0 ∨ 16 ≤ imm)
  | _ => true

/-- PUSH, END and ITSRC of an operation that has PUSH: all zero without a push; END = 1 needs a match set (R140). -/
def pushBad (e v : Nat) : Bool :=
  let raw := match e with
    | 0 => nbits v 22 11
    | 1 => nbits v 6 11
    | _ => nbits v 19 11
  if (slotPush e v).1 then decide (slotEnd e v = 1) && decide (slotMset e v = 0) else decide (raw ≠ 0)

/-- An LD slot holds a reserved encoding. -/
def ldBad (v : Nat) : Bool :=
  match nbits v 36 4 with
  | 0 => decide (v ≠ 0)
  | 1 => decide (nbits v 0 12 ≠ 0) || !nbit v 29 || pushBad 2 v
  | 2 | 3 => decide (nbits v 0 12 ≠ 0) || decide (nbits v 19 11 ≠ 0)
  | _ => true

/-- An ST slot holds a reserved encoding: its MSET holds exactly one IQ (R137). -/
def stBad (v : Nat) : Bool :=
  match nbits v 36 4 with
  | 0 => decide (v ≠ 0)
  | 1 | 2 => decide (nbits v 0 14 ≠ 0) || decide ((setBits (slotMset 3 v)).length ≠ 1)
  | _ => true

/-- Lane count of a VEC type: 32, 16, 8, 16. -/
def laneCount (ty : Nat) : Nat := match ty with | 0 => 32 | 1 => 16 | 2 => 8 | _ => 16

/-- A CVT holds a reserved p or AUX (R156). -/
def cvtBad (ty aux : Nat) : Bool :=
  let ns := laneCount ty
  let nd := laneCount (nbits aux 0 2)
  decide (nbits aux 4 2 ≠ 0) || decide (max (ns / nd) (nd / ns) ≤ nbits aux 2 2)

/-- The operand sources a VEC operation uses: A, B. -/
def vecUses (op : Nat) : Bool × Bool :=
  (decide (op ≠ 0x0A),
   match op with
   | 1 | 2 | 3 | 4 | 5 | 6 | 7 | 0x0F | 0x10 | 0x11 => true
   | _ => false)

/-- A VEC slot holds a reserved encoding. -/
def vecBad (v : Nat) : Bool :=
  let op := slotOp 1 v
  let ty := nbits v 41 2
  let aux := nbits v 0 6
  let (ua, ub) := vecUses op
  let asrc := nbit v 28
  let bsrc := nbit v 27
  if op = 0 then decide (v ≠ 0)
  else if 0x13 ≤ op then true
  else
    (match op with
     | 0x09 => decide (ty = 3)
     | 0x0A => decide (2 ≤ ty)
     | 0x0B => decide (ty = 2) || decide (aux ≠ 0)
     | 0x0E => cvtBad ty aux
     | _ => decide (aux ≠ 0))
    || (!ua && (asrc || decide (nbits v 33 4 ≠ 0) || decide (slotMset 1 v ≠ 0)))
    || (asrc && decide (nbits v 33 4 ≠ 0))
    || (!ub && (bsrc || decide (nbits v 29 4 ≠ 0)))
    || (bsrc && decide (nbits v 29 4 ≠ 0))
    || (!nbit v 26 && decide (op ≠ 0x07) && decide (nbits v 37 4 ≠ 0))
    || decide ((setBits (slotMset 1 v)).length < b2n asrc + b2n bsrc)
    || (decide (slotMset 1 v = 0) && slotFm 1 v)
    || pushBad 1 v

/-- A MAT slot holds a reserved encoding. -/
def matBad (v : Nat) : Bool :=
  let fmt := nbits v 49 3
  let bank := nbits v 47 2
  let mid := nbits v 22 11
  decide (nbits v 0 12 ≠ 0) ||
  match slotOp 0 v with
  | 0 => decide (v ≠ 0)
  | 1 => decide (4 ≤ fmt) || decide (bank ≠ 0) || decide (nbits v 20 23 ≠ 0) || nbit v 12
  | 2 | 3 => decide (4 ≤ fmt) || decide (nbits v 43 4 ≠ 0) || decide (mid ≠ 0) || decide (nbits v 13 7 ≠ 0)
      || (!nbit v 42 && decide (slotMset 0 v = 0)) || (decide (slotMset 0 v = 0) && slotFm 0 v)
  | 4 => decide (fmt ≠ 0) || decide (nbits v 33 14 ≠ 0) || decide (nbits v 12 10 ≠ 0) || pushBad 0 v
  | 5 => decide (fmt ≠ 0) || decide (nbits v 13 34 ≠ 0)
  | _ => true

/-- A slot names a bad descriptor; `desc h` is word 496 + h of the plane (R449). -/
def namesBad (desc : Nat → Nat) (e v : Nat) : Bool :=
  match slotDh e v with
  | some h => descBad (desc h)
  | none => false

/-- The first offending part of the word at address `a`: 0 header, 1 SYN, 2 IDX, 3 LD, 4 ST, 5 VEC, 6 MAT (R129). -/
def wordBad (desc : Nat → Nat) (a w : Nat) : Option Nat :=
  if headerBad a (wHeader w) then some 0
  else if synBad w then some 1
  else if idxBad (wIdx w) then some 2
  else if ldBad (wSlot 2 w) || namesBad desc 2 (wSlot 2 w) then some 3
  else if stBad (wSlot 3 w) || namesBad desc 3 (wSlot 3 w) then some 4
  else if vecBad (wSlot 1 w) then some 5
  else if matBad (wSlot 0 w) || namesBad desc 0 (wSlot 0 w) then some 6
  else none

end Sys2Proof.Machine
end

