-- ==== Sys2Proof/Machine/Flags.lean ====
section
/-! DEFINITION. The flags arithmetic and tokens carry: the sideband's EOR, EOFR, GOV and PSN, guard saturation of
accumulators and the range saturation of readout (04, 07). -/
namespace Sys2Proof.Machine

/-- A sideband: key bits, then EOR, EOFR, GOV, PSN (04, Token sideband). -/
def sideOf (stream frame iter : Nat) (eor eofr gov psn : Bool) : Word :=
  BitVec.ofNat 32 (frame % 4096 * 2 ^ 20 + iter % 256 * 2 ^ 12 + stream % 256 * 16 + b2n eor * 8 + b2n eofr * 4 + b2n gov * 2
    + b2n psn)

def eorOf (w : Word) : Bool := nbit w.toNat 3
def eofrOf (w : Word) : Bool := nbit w.toNat 2
def govOf (w : Word) : Bool := nbit w.toNat 1
def psnOf (w : Word) : Bool := nbit w.toNat 0

/-- The key of a sideband: its flags zero. -/
def keyOf (w : Word) : Word := BitVec.ofNat 32 (w.toNat / 16 * 16)

/-- STREAM and FRAME of a key, as one number. -/
def sfOf (w : Word) : Nat := frameOf w * 256 + strOf w

/-- The stream, the frame and the key word of a value of `sfOf`. -/
def sfStr (m : Nat) : Nat := m % 256
def sfFrame (m : Nat) : Nat := m / 256 % 4096
def sfKey (m : Nat) : Word := BitVec.ofNat 32 (sfFrame m * 2 ^ 20 + sfStr m * 16)

/-- The ranges of a 40-bit accumulator. -/
def accMin : Int := -(2 ^ 39)
def accMax : Int := 2 ^ 39 - 1

/-- sat40 and whether it clamped (R147, R148). -/
def sat40 (i : Int) : Int × Bool :=
  (clamp accMin accMax i, decide (i < accMin) || decide (accMax < i))

/-- An int32 readout lane, and whether it saturated (R149). -/
def sat32 (i : Int) : Int × Bool :=
  (satS 32 i, decide (i < -(2 ^ 31)) || decide (2 ^ 31 - 1 < i))

end Sys2Proof.Machine
end

