-- ==== Sys2Proof/Machine/Operands.lean ====
section
/-! DEFINITION. Operand formats and the arithmetic on them (07): integer lanes, binary16, binary32, weights, multiply
accumulate, requantisation, the vector operations, the activation table. -/
namespace Sys2Proof.Machine

/-! ### Floating point, exactly -/

/-- A floating-point datum: its sign and magnitude in units of 2^−24 (binary16) or 2^−149 (binary32). -/
inductive Fl where
  | nan
  | inf (neg : Bool)
  | fin (neg : Bool) (mag : Nat)
deriving DecidableEq, Repr

/-- binary16: magnitude in units of 2^−24. -/
def fl16 (n : Nat) : Fl :=
  let neg := nbit n 15
  let e := nbits n 10 5
  let f := nbits n 0 10
  if e = 31 then (if f = 0 then .inf neg else .nan)
  else if e = 0 then .fin neg f
  else .fin neg ((1024 + f) * 2 ^ (e - 1))

/-- binary32: magnitude in units of 2^−149. -/
def fl32 (n : Nat) : Fl :=
  let neg := nbit n 31
  let e := nbits n 23 8
  let f := nbits n 0 23
  if e = 255 then (if f = 0 then .inf neg else .nan)
  else if e = 0 then .fin neg f
  else .fin neg ((2 ^ 23 + f) * 2 ^ (e - 1))

/-- n / 2^k rounded to nearest, ties to even. -/
def rne (n k : Nat) : Nat :=
  let q := n / 2 ^ k
  let r := n % 2 ^ k
  if k = 0 then n
  else if 2 ^ (k - 1) < r ∨ (r = 2 ^ (k - 1) ∧ q % 2 = 1) then q + 1 else q

/-- Round mag · 2^−e to a format with p fraction bits and least quantum 2^−q: the magnitude's encoding, ties to even. -/
def roundMag (p q mag e : Nat) : Nat :=
  -- quantum 2^(j−q) with j the exponent step; j = max 0 (log2 mag − e − p + q)
  let j := (Nat.log2 mag + q) - (e + p)
  let m := if e ≤ q then (if q - e ≤ j then rne mag (j - (q - e)) else mag * 2 ^ (q - e - j)) else rne mag (j + (e - q))
  j * 2 ^ p + m

/-- Encode a rounded binary16: mag · 2^−e with sign. -/
def enc16 (neg : Bool) (mag e : Nat) : Nat :=
  let m := if mag = 0 then 0 else roundMag 10 24 mag e
  b2n neg * 0x8000 + (if 0x7C00 ≤ m then 0x7C00 else m)

/-- Encode a rounded binary32; a subnormal result is flushed to zero with its sign (R150). -/
def enc32 (neg : Bool) (mag e : Nat) : Nat :=
  let m := if mag = 0 then 0 else roundMag 23 149 mag e
  let m := if m < 0x800000 then 0 else m
  b2n neg * 0x80000000 + (if 0x7F800000 ≤ m then 0x7F800000 else m)

def nan16 : Nat := 0x7E00
def nan32 : Nat := 0x7FC00000
def inf16 (neg : Bool) : Nat := b2n neg * 0x8000 + 0x7C00
def inf32 (neg : Bool) : Nat := b2n neg * 0x80000000 + 0x7F800000

/-- The signed integer of a finite datum. -/
def flInt (neg : Bool) (mag : Nat) : Int := if neg then -(mag : Int) else mag

/-- An exact sum of terms: NaN, infinity, or an integer with the sign a zero takes (−0 only if every term is −0). -/
def flSum (ts : List Fl) : Fl :=
  if ts.any (fun t => t == .nan) then .nan
  else
    let pos := ts.any (fun t => t == .inf false)
    let neg := ts.any (fun t => t == .inf true)
    if pos && neg then .nan
    else if pos then .inf false
    else if neg then .inf true
    else
      let s := isum (ts.map (fun t => match t with | .fin n m => flInt n m | _ => 0))
      let minus := !ts.isEmpty && ts.all (fun t => match t with | .fin n m => n && m == 0 | _ => false)
      if s = 0 then .fin minus 0 else .fin (decide (s < 0)) s.natAbs

/-- An exact product; the units multiply. -/
def flMul : Fl → Fl → Fl
  | .nan, _ => .nan
  | _, .nan => .nan
  | .inf a, .inf b => .inf (a != b)
  | .inf a, .fin b m => if m = 0 then .nan else .inf (a != b)
  | .fin a m, .inf b => if m = 0 then .nan else .inf (a != b)
  | .fin a m, .fin b n => .fin (a != b) (m * n)

/-- Scale a finite datum by a power of two. -/
def flScale (k : Nat) : Fl → Fl
  | .fin n m => .fin n (m * 2 ^ k)
  | x => x

def flNeg : Fl → Fl
  | .fin n m => .fin (!n) m
  | .inf n => .inf (!n)
  | .nan => .nan

/-- binary16 of a datum in units of 2^−e. -/
def toB16 (e : Nat) : Fl → Nat
  | .nan => nan16
  | .inf n => inf16 n
  | .fin n m => enc16 n m e

/-- binary32 of a datum in units of 2^−e. -/
def toB32 (e : Nat) : Fl → Nat
  | .nan => nan32
  | .inf n => inf32 n
  | .fin n m => enc32 n m e

/-- A binary32 pattern as binary16 (R153, R156). -/
def b32to16 (n : Nat) : Nat := toB16 149 (fl32 n)

/-- An integer as binary16 (R156). -/
def intTo16 (i : Int) : Nat := enc16 (decide (i < 0)) i.natAbs 0

/-- binary16 to an integer of w bits: ties to even, saturated; NaN gives 0. -/
def b16toInt (w n : Nat) : Int :=
  match fl16 n with
  | .nan => 0
  | .inf neg => if neg then -(2 ^ (w - 1)) else 2 ^ (w - 1) - 1
  | .fin neg m => satS w (flInt neg (rne m 24))

/-! ### Multiply-accumulate (R147, R150) -/

/-- Element width of a format: 16 elements, 32 for int4. -/
def fmtLen (fmt : Nat) : Nat := if fmt = 2 then 32 else 16

/-- Units of a weight image. -/
def fmtUnits (fmt : Nat) : Nat := if fmt = 3 then 16 else 8

/-- An activation element of a vector whose bytes are the number `v`. -/
def actElem (fmt v k : Nat) : Int :=
  match fmt with
  | 0 => sgn 8 (nbits v (8 * k) 8)
  | 1 => nbits v (8 * k) 8
  | _ => sgn 4 (nbits v (4 * k) 4)

/-- The weight W[k][c] of an image given as a number (R146, Multiply-accumulate table). -/
def weight (fmt img k c : Nat) : Int :=
  match fmt with
  | 2 => sgn 4 (nbits img (64 * k + 4 * c) 4)
  | _ => sgn 8 (nbits img (128 * k + 8 * c) 8)

/-- The binary16 weight W[k][c]. -/
def weight16 (img k c : Nat) : Fl := fl16 (nbits img (256 * k + 16 * c) 16)

/-- One column of an integer step: acc + Σ a[k]·W[k][c], clamped, and whether it clamped. -/
def macInt (acc : Int) (as ws : List Int) : Int × Bool := sat40 (acc + isum (List.zipWith (· * ·) as ws))

/-- One column of a binary16 step (R150): the binary32 pattern. -/
def macFp (acc : Nat) (as ws : List Fl) : Nat :=
  toB32 149 (flSum (fl32 acc :: (List.zipWith flMul as ws).map (flScale 101)))

/-! ### Requantisation (R152) -/

/-- p / 2^s rounded: 0 half up, 1 half to even. -/
def rqRound (p : Int) (s : Nat) (rnd : Bool) : Int :=
  if s = 0 then p
  else if !rnd then (p + 2 ^ (s - 1)) / 2 ^ s
  else
    let q := p / 2 ^ s
    let r := p % 2 ^ s
    if r > 2 ^ (s - 1) ∨ (r = 2 ^ (s - 1) ∧ q % 2 = 1) then q + 1 else q

/-- One result of RQ: accumulator `a`, multiplier `m`, and the parameters u[4b+1] to u[4b+3]; TY 0 or 1. -/
def rqOne (ty : Nat) (a m : Int) (p1 p2 p3 : Nat) : Nat :=
  let r := rqRound (a * m) (nbits p1 0 6) (nbit p1 8)
  let y := clamp (sgn 16 (nbits p3 0 16)) (sgn 16 (nbits p3 16 16)) (r + sgn 16 (nbits p2 0 16))
  if ty = 1 then pat 16 (satS 16 y) else if nbit p1 10 then pat 8 (satU 8 y) else pat 8 (satS 8 y)

/-! ### The vector engine (R154 to R157) -/

/-- Lane width of a type. -/
def laneW (ty : Nat) : Nat := match ty with | 0 => 8 | 1 => 16 | 2 => 32 | _ => 16

/-- The lanes of a payload of type ty. -/
def vlanes (ty : Nat) (p : Pay) : List Nat := lanes (laneW ty) (laneCount ty) p.toNat

/-- A payload of lanes. -/
def vpay (ty : Nat) (ls : List Nat) : Pay := BitVec.ofNat 256 (ofLanes (laneW ty) ls)

/-- The order of binary16 for MAX, MIN and RMAX: −0 below +0. Infinities rank outermost. -/
def rank16 (n : Nat) : Int := if nbit n 15 then -(nbits n 0 15 : Int) - 1 else nbits n 0 15

def isNan16 (n : Nat) : Bool := decide (0x7C00 < nbits n 0 15)

/-- max or min of binary16 patterns. -/
def maxB16 (a b : Nat) : Nat := if isNan16 a || isNan16 b then nan16 else if rank16 a < rank16 b then b else a
def minB16 (a b : Nat) : Nat := if isNan16 a || isNan16 b then nan16 else if rank16 b < rank16 a then b else a

/-- A > B in binary16: the zeros are equal, NaN compares false. -/
def gt16 (a b : Nat) : Bool :=
  !isNan16 a && !isNan16 b &&
  (let v := fun (n : Nat) => if nbit n 15 then -(nbits n 0 15 : Int) else (nbits n 0 15 : Int)
   decide (v b < v a))

/-- One lane of a two-operand arithmetic operation (ADD, SUB, MUL, MAX, MIN, CMPGT). -/
def vec2 (op ty a b : Nat) : Nat :=
  let w := laneW ty
  if ty = 3 then
    match op with
    | 1 => toB16 24 (flSum [fl16 a, fl16 b])
    | 2 => toB16 24 (flSum [fl16 a, flNeg (fl16 b)])
    | 3 => toB16 48 (flMul (fl16 a) (fl16 b))
    | 4 => maxB16 a b
    | 5 => minB16 a b
    | _ => if gt16 a b then 0xFFFF else 0
  else
    let x := sgn w a
    let y := sgn w b
    match op with
    | 1 => pat w (satS w (x + y))
    | 2 => pat w (satS w (x - y))
    | 3 => pat w (satS w (x * y))
    | 4 => pat w (max x y)
    | 5 => pat w (min x y)
    | _ => if y < x then 2 ^ w - 1 else 0

/-- ABS of a lane. -/
def vecAbs1 (ty a : Nat) : Nat :=
  if ty = 3 then (if isNan16 a then nan16 else nbits a 0 15)
  else pat (laneW ty) (satS (laneW ty) (sgn (laneW ty) a).natAbs)

/-- SHR of an integer lane by n. -/
def vecShr1 (ty n a : Nat) : Nat := pat (laneW ty) (sgn (laneW ty) a / 2 ^ n)

/-- RSUM: the sum in lane 0, other lanes zero. -/
def vecRsum1 (ty : Nat) (ls : List Nat) : List Nat :=
  let s := if ty = 3 then toB16 24 (flSum (ls.map fl16))
    else pat (laneW ty) (satS (laneW ty) (isum (ls.map (sgn (laneW ty)))))
  s :: List.replicate (laneCount ty - 1) 0

/-- RMAX: the maximum in lane 0, other lanes zero. -/
def vecRmax1 (ty : Nat) (ls : List Nat) : List Nat :=
  let m := match ls with
    | [] => 0
    | l :: rest => rest.foldl (fun a b => vec2 4 ty a b) (if ty = 3 then maxB16 l l else l)
  m :: List.replicate (laneCount ty - 1) 0

/-- One lane from type `ts` to type `td` (R156). -/
def cvt1 (ts td a : Nat) : Nat :=
  if ts = 3 then (if td = 3 then toB16 24 (fl16 a) else pat (laneW td) (b16toInt (laneW td) a))
  else if td = 3 then intTo16 (sgn (laneW ts) a)
  else pat (laneW td) (satS (laneW td) (sgn (laneW ts) a))

/-- CVT of a payload's lanes with AUX. -/
def vecCvt1 (ty aux : Nat) (ls : List Nat) : List Nat :=
  let td := nbits aux 0 2
  let p := nbits aux 2 2
  let ns := laneCount ty
  let nd := laneCount td
  if nd < ns then (ls.drop (p * nd)).take nd |>.map (cvt1 ty td)
  else List.replicate (p * ns) 0 ++ ls.map (cvt1 ty td) ++ List.replicate (nd - (p + 1) * ns) 0

/-- ACT of one lane; `tab i` is T[i], with T[256] = T[255] (R157). -/
def act1 (tab : Nat → Nat) (ty a : Nat) : Nat :=
  if ty = 0 then pat 8 (satS 8 (sgn 16 (tab (sgn 8 a + 128).toNat)))
  else if ty = 1 then
    let i := (sgn 16 a / 256 + 128).toNat
    let f := nbits a 0 8
    let t := sgn 16 (tab i)
    pat 16 (satS 16 (t + ((sgn 16 (tab (i + 1)) - t) * f + 128) / 256))
  else match fl16 a with
    | .nan => nan16
    | x =>
      let lo : Int := -(8 * 2 ^ 24)
      let hi : Int := 8 * 2 ^ 24 - 2 ^ 20
      let k := match x with
        | .inf neg => if neg then lo else hi
        | .fin neg m => clamp lo hi (flInt neg m)
        | .nan => 0
      let n := (k + 8 * 2 ^ 24).toNat
      let i := n / 2 ^ 20
      let t := fl16 (tab i)
      let d := flSum [fl16 (tab (i + 1)), flNeg t]
      toB16 44 (flSum [flScale 20 t, flMul (.fin false (n % 2 ^ 20)) d])

/-! ### The fixed-rate codec (R291, R292) -/

/-- Encode 16 integers: m, shift and codes as one 64-bit word. -/
def codecWord (e : List Int) : Nat :=
  let m := e.foldl min (e.headD 0)
  let r := (e.foldl max (e.headD 0) - m).toNat
  let s := (findNat 6 (fun s => decide (r / 2 ^ s ≤ 7))).getD 5
  let codes := e.map (fun x => (x - m).toNat / 2 ^ s)
  pat 8 m * 2 ^ 56 + s * 2 ^ 52 + ofLanes 3 codes * 2 ^ 4

/-- The elements of bytes: uint8, or int8 with `sg`. -/
def elems (sg : Bool) (bs : List Byte) : List Int := bs.map (fun b => if sg then sgn 8 b.toNat else (b.toNat : Int))

/-- Average neighbouring pairs (4:1). -/
def pairs : List Int → List Int
  | a :: b :: t => (a + b + 1) / 2 :: pairs t
  | _ => []

/-- Encode one block: 16 elements (mode 1) or 32 elements (mode 2). -/
def encodeBlock (mode : Nat) (sg : Bool) (bs : List Byte) : List Byte :=
  let x := elems sg bs
  toBytes 8 (codecWord (if mode = 2 then pairs x else x))

/-- The shift of a coded word; 6 and above are reserved. -/
def codecShift (w : Nat) : Nat := nbits w 52 4

/-- Decode one word to 16 elements (mode 1) or 32 (mode 2). -/
def decodeBlock (mode : Nat) (sg : Bool) (w : Nat) : List Byte :=
  let m : Int := if sg then sgn 8 (nbits w 56 8) else nbits w 56 8
  let s := codecShift w
  let half : Int := if s = 0 then 0 else 2 ^ (s - 1)
  let d := (List.range 16).map (fun i =>
    let v := m + nbits w (4 + 3 * i) 3 * 2 ^ s + half
    BitVec.ofNat 8 (pat 8 (if sg then satS 8 v else satU 8 v)))
  if mode = 2 then d.flatMap (fun b => [b, b]) else d

/-- Encode whole blocks of a row. -/
def encodeRow (mode : Nat) (sg : Bool) (bs : List Byte) : List Byte :=
  (pieces (if mode = 2 then 32 else 16) bs.length bs).flatMap (encodeBlock mode sg)

/-- Decode whole words of a row. -/
def decodeRow (mode : Nat) (sg : Bool) (bs : List Byte) : List Byte :=
  (pieces 8 bs.length bs).flatMap (fun p => decodeBlock mode sg (ofBytes p))

end Sys2Proof.Machine
end

