-- ==== Sys2Proof/Machine/Tile.lean ====
section
/-! DEFINITION. The tile (04, 06): its store, queues, command queues, replays, and the issue of tile words; the staging of
SPEC commands (R232) and the life of a command around its steps. -/
namespace Sys2Proof.Machine

/-! ### Faults of a tile -/

/-- A class S fault of tile t against the stream of `key`, with its trace record. -/
def tileS (t code unit : Nat) (key : Word) (tag : Option Nat) (detail index : Nat) (s : State) : State :=
  let s := raiseS { cls := 1, code := code, stream := some (strOf key), frame := some (frameOf key), tag := tag,
                    detail := detail, region := regionOf t, tile := t, unit := unit, index := index } (strOf key) s
  tileTrace t 9 unit (tag.getD 0) key code s

/-- The tile issues and fires: its region's clock runs, no GSR, not halted. -/
def State.runs (s : State) (t : Nat) : Bool := s.live (regionOf t) && !(s.tile t).gsr && !(s.tile t).halted

/-! ### The tile store (R82 to R87) -/

/-- Count the words in error of one access to unit u, and record the lowest one, an uncorrectable one first (R84). -/
def storeSee (t u : Nat) (s : State) : State :=
  let r := (s.tile t).store
  let one := r.marked .single (32 * u) 32
  let two := r.marked .double (32 * u) 32
  let b := aTileEccBank t (u % 8)
  let s := (s.addSat b 0 16 one.length).addSat b 16 16 two.length
  let last := fun (ue : Nat) (w : Nat) => s.wr (aTileEccLast t)
    (BitVec.ofNat 32 (2 ^ 31 + ue * 2 ^ 30 + u % 8 * 2 ^ 13 + u / 8 % 1024 * 8 + w % 4 * 2))
  match two.head?, one.head? with
  | some w, _ => last 1 w
  | none, some w => last 0 w
  | none, none => s

/-- Read unit u (R84 to R86). -/
def storeRead (t u : Nat) (s : State) : Got × State :=
  let r := (s.tile t).store
  let ue := !(r.marked .double (32 * u) 32).isEmpty
  (⟨r.read (32 * u) 32, ue || !(r.marked .poison (32 * u) 32).isEmpty, ue⟩, storeSee t u s)

/-- A command's read of unit u: STORE_UNCORRECTABLE once against its stream (R85). -/
def cmdRead (t unit u : Nat) (key : Word) (tag : Nat) (s : State) : Pay × Bool × State :=
  let (g, s) := storeRead t u s
  let s := if g.bad then tileS t 0x04 unit key (some tag) 0 (u % 8) s else s
  (payOfBytes g.bytes, g.psn, s)

/-- Write a whole unit; with PSN every word takes the poison pattern (R86). TILE_CTL.ECC_INJ plants its error in the
lowest word of the next write to INJ_BANK and returns to 0. -/
def storeWrite (t u : Nat) (p : Pay) (psn : Bool) (s : State) : State :=
  let s := s.modTile t (fun x => { x with store := x.store.write (32 * u) (payBytes p) psn })
  let inj := s.f (aTileCtl t) 6 2
  if inj ≠ 0 ∧ s.f (aTileCtl t) 3 3 = u % 8 then
    (s.modTile t (fun x => { x with store := x.store.mark (4 * u) (if inj = 1 then .single else .double) })).setF (aTileCtl t) 6 2 0
  else s

/-- One scrub cycle of bank b (R87): the next row; corrected words are rewritten, poisoned and uncorrectable ones stay. -/
def tileScrub (t b : Nat) (s : State) : State :=
  let p := tget 0 (s.tile t).scrub b
  let u := p * 8 + b
  let one := (s.tile t).store.marked .single (32 * u) 32
  (storeSee t u s).modTile t (fun x =>
    { x with scrub := tset 0 x.scrub b ((p + 1) % 1024), store := each one x.store (fun r w => r.mark w .clean) })

/-- TILE_PATROL_SCRUB: an idle cycle of the bank while SCRUB_EN = 1. -/
def execTilePatrolScrub (t : TileIx) (bank : Fin 8) (s : State) : Host.Outcome State Fault Refusal :=
  when_ (s.bit (aTileCtl t.val) 0 && decide (s.f (aRegionClk (regionOf t.val)) 16 4 ≠ 0)) s (tileScrub t.val bank.val s)

/-- TILE_FORCED_SCRUB: only while the bank's corrected count exceeds THRESH, and THRESH is not 0. -/
def execTileForcedScrub (t : TileIx) (bank : Fin 8) (s : State) : Host.Outcome State Fault Refusal :=
  let th := s.f (aTileEccThresh t.val) 0 16
  when_ (decide (th ≠ 0 ∧ th < s.f (aTileEccBank t.val bank.val) 0 16 ∧ s.f (aRegionClk (regionOf t.val)) 16 4 ≠ 0)) s
    (tileScrub t.val bank.val s)

/-! ### Commands (10, Commands) -/

def QCmd.tag (c : QCmd) : Nat := nbits c.cmd.toNat 112 16
def QCmd.spec (c : QCmd) : Bool := nbit c.cmd.toNat 103
def QCmd.fence (c : QCmd) : Bool := nbit c.cmd.toNat 102
def QCmd.last (c : QCmd) : Bool := nbit c.cmd.toNat 101
def QCmd.sid (c : QCmd) : Nat := nbits c.cmd.toNat 98 2
/-- The command's KEY, in sideband layout. -/
def QCmd.key (c : QCmd) : Word := BitVec.ofNat 32 (nbits c.cmd.toNat 68 28 * 16)
def QCmd.steps (c : QCmd) : Nat := nbits c.cmd.toNat 52 16
def QCmd.offset (c : QCmd) : Nat := nbits c.cmd.toNat 39 13
def QCmd.gtab (c : QCmd) : Bool := nbit c.cmd.toNat 38
/-- The slot bits of a bound command, 0 if it is not bound. -/
def QCmd.slot (c : QCmd) : Nat := (c.bound.map (·.slot)).getD 0
def QCmd.isRun (c : QCmd) : Bool := c.run.isSome

/-- The command queue of engine e, oldest first. -/
def Tile.queue (x : Tile) (e : Nat) : List QCmd := tget [] x.cq e
def Tile.setQueue (x : Tile) (e : Nat) (l : List QCmd) : Tile := { x with cq := tset [] x.cq e l }
/-- Replace command i of engine e. -/
def Tile.setCmd (x : Tile) (e i : Nat) (c : QCmd) : Tile := x.setQueue e (setNth (x.queue e) i c)

/-- Mark command i of engine e dead: it performs nothing more until the drain discards it. -/
def markDead (t e i : Nat) (s : State) : State :=
  s.modTile t (fun x => x.setQueue e ((x.queue e).modify i (fun c => { c with dead := true })))

/-! ### Queues an engine may name (R93, R179) -/

/-- The IQs and OQs of the dispatch unit in effect, as bit sets. -/
def State.dspQueues (s : State) (t : Nat) : Nat × Nat :=
  let c := (s.act (aTileDspCfg t)).toNat
  let w := (s.act (aTileDspQ t)).toNat
  if !nbit c 31 then (0, 0) else
  let grp := nbit c 28
  let ex := 2 ^ (nbits c 23 3 + 1) - 1
  let qa := 2 ^ nbits w 28 3
  let qb := 2 ^ nbits w 24 3
  let oa := 2 ^ nbits w 20 3
  let ob := 2 ^ nbits w 16 3
  let oc := 2 ^ nbits w 12 3
  match nbits c 29 2 with
  | 0 => (qa ||| qb, if grp then oa ||| ob ||| oc else ex ||| oc)
  | 1 => (if grp then qa ||| qb else qa ||| ex, oa)
  | _ => (qa ||| qb, oa ||| ob)

/-- The queue (numbered as in TILE_QSTAT) an engine slot names that is unbound or the dispatch unit's, if any. -/
def State.unboundQ (s : State) (t e v : Nat) : Option Nat :=
  let (di, do_) := s.dspQueues t
  match (setBits (slotMset e v)).find? (fun q => !(s.qbind t q).bound || nbit di q) with
  | some q => some q
  | none =>
    let (p, q) := slotPush e v
    if p && (!(s.qbind t (8 + q)).bound || nbit do_ q) then some (8 + q) else none

/-! ### Staging (R232) -/

/-- Write a bank row. -/
def Tile.setRow (x : Tile) (b r : Nat) (ls : List (BitVec 40)) : Tile :=
  { x with acc := (List.range 16).foldl (fun a c => tset 0 a ((b * 64 + r) * 16 + c) (nth ls c 0)) x.acc }

/-- Read a bank row. -/
def Tile.row (x : Tile) (b r : Nat) : List (BitVec 40) := (List.range 16).map (fun c => tget 0 x.acc ((b * 64 + r) * 16 + c))

/-- Engine e has consumed the next group table entry it had not consumed; an entry every engine of GT_ENG has consumed
is freed (R191). `engs` is the mask of GT_ENG in engine order. -/
def gtTake (engs : Nat) (e : Nat) : List (Entry × List Nat) → List (Entry × List Nat)
  | [] => []
  | (x, us) :: rest =>
    if us.contains e then (x, us) :: gtTake engs e rest
    else
      let us := us ++ [e]
      if (List.range 4).all (fun i => !nbit engs i || us.contains i) then rest else (x, us) :: rest

/-- GT_ENG as a mask in engine order (0 MAT, 1 VEC, 2 LD, 3 ST). -/
def State.gtEngs (s : State) (t : Nat) : Nat :=
  let w := (s.act (aTileGtCfg t)).toNat
  b2n (nbit w 27) + 2 * b2n (nbit w 26) + 4 * b2n (nbit w 25) + 8 * b2n (nbit w 24)

/-- The effect of a staged entry on what the tile's own commands read; pushes, completions and faults are not read. -/
def Tile.see (engs : Nat) (x : Tile) : Staged → Tile
  | .vreg i v => { x with v := tset 0 x.v i v }
  | .row b r ls => x.setRow b r ls
  | .bank b st => { x with banks := tset Bank.init x.banks b st }
  | .standby ps psn => { x with standby := ps, standbyPsn := psn }
  | .gtTake e => { x with gt := gtTake engs e x.gt }
  | .push _ _ => x
  | .fin _ _ => x
  | .fault _ _ _ _ _ => x

/-- The tile as its SPEC commands see it: every staged value applied. -/
def State.view (s : State) (t : Nat) : Tile :=
  let x := s.tile t
  x.staged.foldl (fun y e => y.see (s.gtEngs t) e.2.2.2) x

/-- A command of engine e with tag `tag` is complete: TMINCs that await it go on, and those with nothing left send (R131). -/
def finish (t e tag : Nat) (s : State) : State :=
  let drop := fun (a : Await) => { a with cmds := a.cmds.filter (fun c => !(c.1 == e && c.2 == tag)) }
  let as := ((s.tile t).awaits).map drop
  let out := as.filter (fun a => a.cmds.isEmpty)
  let s := s.modTile t (fun x => { x with awaits := as.filter (fun a => !a.cmds.isEmpty) })
  each out s (fun s a => mgmtSend ⟨t, endpoint (regionOf t), 1, 0, none, some ⟨.tile t, a.idx, a.stream, some a.inc⟩⟩ s)

/-- Perform one effect of a committed or non-SPEC command. -/
def perform (t : Nat) (x : Staged) (s : State) : State :=
  match x with
  | .push q e => s.setOq t q (s.oq t q ++ [e])
  | .fin e tag => finish t e tag s
  | .fault code unit w stream tag =>
    tileS t code unit (BitVec.ofNat 32 (w / 4096 % 4096 * 2 ^ 20 + stream * 16)) (some tag) (w % 256) 0 s
  | y => s.modTile t (fun z => z.see (s.gtEngs t) y)

/-- Retire committed staging in firing order (R232) as far as full OQs let it. -/
def retire (t : Nat) : Nat → State → State
  | 0, s => s
  | f + 1, s =>
    match (s.tile t).staged with
    | (4, _, _, y) :: rest =>
      let full := match y with | .push q _ => decide (64 ≤ (s.oq t q).length) | _ => false
      if full then s else retire t f (perform t y (s.modTile t (fun x => { x with staged := rest })))
    | _ => s

/-- Entries engine e has staged: pushes, v register writes and bank rows (R232). -/
def Tile.stagedCount (x : Tile) (e : Nat) : Nat :=
  (x.staged.filter (fun p => p.2.1 == e && (match p.2.2.2 with | .push _ _ | .vreg _ _ | .row _ _ _ => true | _ => false))).length

/-- Effects of a step: staged under SPEC, performed otherwise. -/
def effects (t e : Nat) (c : QCmd) (ys : List Staged) (s : State) : State :=
  if c.spec then s.modTile t (fun x => { x with staged := x.staged ++ ys.map (fun y => (c.sid, e, c.tag, y)) })
  else each ys s (fun s y => perform t y s)

/-! ### Replays (R124, R127) -/

/-- Replay `no` is done: its END word has issued, no command bound in it remains, no end-of-replay test of it failed. -/
def Tile.replayDone (x : Tile) (no : Nat) : Bool :=
  (x.open_.any (fun r => r.1 == no && r.2.2))
  && (List.range 4).all (fun e => (x.queue e).all (fun c => match c.bound with | some b => b.replay != no | none => true))
  && !x.eofSeen.contains (no, 99)

/-- Report the replays of a tile that are done (R127). -/
def reportDone (t : Nat) (s : State) : State :=
  let x := s.tile t
  let ds := x.open_.filter (fun r => x.replayDone r.1)
  if ds.isEmpty then s else
  let s := s.modTile t (fun x => { x with open_ := x.open_.filter (fun r => !ds.any (fun d => d.1 == r.1)),
                                          eofSeen := x.eofSeen.filter (fun p => !ds.any (fun d => d.1 == p.1)) })
  let s := s.modSeq (regionOf t) (fun q => { q with doneReplays := q.doneReplays + ds.length })
  each ds s (fun s d => tileTrace t 5 6 0 (sfKey d.2.1) 0 s)

/-- REPLAY_START: the pending start begins once the previous replay's END word has issued and the patches sent before it
are applied (R124, R223). -/
def execReplayStart (t : TileIx) (s : State) : Host.Outcome State Fault Refusal :=
  let x := s.tile t.val
  match x.pendStart, x.replay with
  | some (n, pc, 0), none =>
    when_ (s.runs t.val && !x.dead) s
      (tileTrace t.val 4 6 0 (sfKey n) 0
        (s.setTile t.val { x with pendStart := none, replay := some (n, pc, x.replayNo), replayNo := x.replayNo + 1,
                                  open_ := x.open_ ++ [(x.replayNo, n, false)] }))
  | _, _ => idle s

/-- TILE_PATCH_APPLY: the oldest pending patch write, while no replay is open (R90, R223); one that follows a pending start
waits for it. -/
def execTilePatchApply (t : TileIx) (s : State) : Host.Outcome State Fault Refusal :=
  let x := s.tile t.val
  let after := match x.pendStart with | some (_, _, 0) => true | _ => false
  match x.patches with
  | [] => idle s
  | (u, v, _) :: rest =>
    if x.replay.isSome || after || !s.runs t.val then idle s else
    done s (s.setTile t.val { x with u := tset 0 x.u u v, patches := rest,
                                     pendStart := x.pendStart.map (fun p => (p.1, p.2.1, p.2.2 - 1)) })

/-! ### Word issue (R125 to R134) -/

/-- Word a of the active plane. -/
def Tile.word (x : Tile) (a : Nat) : Nat := (tget 0 x.imem a).toNat

/-- Descriptor h. -/
def Tile.desc (x : Tile) (h : Nat) : Nat := x.word (496 + h)

/-- The unit of a fault record that a part of a word stands for. -/
def partUnit (p : Nat) : Nat := match p with | 1 => 5 | 2 => 4 | 3 => 2 | 4 => 3 | 5 => 1 | 6 => 0 | _ => 6

/-- The next word after an issue: none at END, an address of 496 or more after word 495. -/
def nextPc (x : Tile) (a h : Nat) : Option Nat :=
  let c := tget false x.c (nbits h 10 3)
  let tgt := nbits h 1 9
  match nbits h 13 3 with
  | 0 => some (a + 1)
  | 1 => some (if c then tgt else a + 1)
  | 2 => some (if c then a + 1 else tgt)
  | 3 => some tgt
  | _ => none

/-- The IDX slot's effect on x and c (R134). -/
def idxExec (v : Nat) (x : Tile) : Tile :=
  let d := nbits v 24 4
  let a := tget 0 x.x (nbits v 20 4)
  let b := tget 0 x.x (nbits v 16 4)
  let i := BitVec.ofNat 16 (nbits v 0 16)
  let ca := tget false x.c (nbits v 20 3)
  let cb := tget false x.c (nbits v 16 3)
  let wx := fun (r : BitVec 16) => { x with x := tset 0 x.x d r }
  let wc := fun (r : Bool) => { x with c := tset false x.c (d % 8) r }
  match nbits v 28 4 with
  | 1 => wx (a + i)
  | 2 => wx (a + b)
  | 3 => wx (a - b)
  | 4 => wx (a * i)
  | 5 => wx ((tget 0 x.u (nbits v 0 6)).setWidth 16)
  | 6 => wx i
  | 7 => wc (decide (a.toNat < b.toNat))
  | 8 => wc (decide (a = b))
  | 9 => wc (decide (a.toNat < i.toNat))
  | 10 => wc (ca && cb)
  | 11 => wc (!ca)
  | 12 => wx (a >>> nbits v 0 4)
  | 13 => wx (a &&& i)
  | _ => x

/-- u registers a slot takes its values from, beyond its address offset: SHR's, RQ's. -/
def uNames (e v : Nat) : List Nat :=
  if e = 1 ∧ slotOp 1 v = 0x09 then [nbits v 0 6]
  else if e = 1 ∧ slotOp 1 v = 0x0A then
    (List.range 4).map (· + 4 * nbits v 2 4) ++ (List.range 16).map (· + 32)
  else []

/-- What a command takes from its word at issue (R126). -/
def bindTo (x : Tile) (e a no stream : Nat) (erp : Option Nat) (c : QCmd) : QCmd :=
  let v := wSlot e (x.word a)
  let (ue, un) := slotUoff e v
  let (ie, ix) := slotIts e v
  let b : Bound :=
    { word := a, slot := v, stream := stream, replay := no,
      uoff := if ue then nbits (tget 0 x.u un).toNat 0 13 else 0,
      xit := if ie then some (nbits (tget 0 x.x ix).toNat 0 8) else none,
      us := (uNames e v).map (tget 0 x.u),
      desc := match slotDh e v with | some h => BitVec.ofNat 256 (x.desc h) | none => 0,
      erp := if c.last then erp else none }
  { c with bound := some b }

/-- The first unbound command of a queue, bound. -/
def bindFirst (f : QCmd → QCmd) : List QCmd → List QCmd
  | [] => []
  | c :: cs => if c.bound.isNone then f c :: cs else c :: bindFirst f cs

/-- Commands a mask of engines (bit 3 MAT to bit 0 ST) still has bound or staged, by engine and tag. -/
def Tile.outstanding (x : Tile) (mask : Nat) : List (Nat × Nat) :=
  (List.range 4).flatMap (fun e =>
    if !nbit mask (3 - e) then [] else
    ((x.queue e).filter (fun c => c.bound.isSome)).map (fun c => (e, c.tag))
      ++ (x.staged.filter (fun p => p.2.1 == e && (match p.2.2.2 with | .fin _ _ => true | _ => false))).map (fun p => (e, p.2.2.1)))

/-- QFENCE holds the word while commands of its engines remain bound, or staged and not retired (R132). -/
def fenceHolds (x : Tile) (mask : Nat) : Bool :=
  !(x.outstanding mask).isEmpty || x.staged.any (fun p => nbit mask (3 - p.2.1))

/-- The SYN slot's requests, after the word's commands are bound (R131, R132). -/
def synExec (t stream v : Nat) (s : State) : State :=
  let x := s.tile t
  let idx := nbits (tget 0 x.u (nbits v 14 6)).toNat 0 13
  let send := fun (inc : Option Nat) => mgmtSend ⟨t, endpoint (regionOf t), 1, 0, none, some ⟨.tile t, idx, stream, inc⟩⟩
  match nbits v 20 4 with
  | 1 =>
    let imm := nbits v 0 7
    let cs := x.outstanding (nbits v 10 4)
    if imm = 0 then s
    else if cs.isEmpty then send (some imm) s
    else s.setTile t { x with awaits := x.awaits ++ [⟨idx, imm, stream, cs⟩] }
  | 2 => send none (s.setTile t { x with synWait := some idx })
  | _ => s

/-- Issue the word at `a` of replay `no` for the stream of `m`; the caller has seen that it may issue. -/
def issueWord (t m a no : Nat) (s : State) : State :=
  let x := s.tile t
  let w := x.word a
  let syn := wSyn w
  let erpOf := fun e => if nbits syn 20 4 = 4 ∧ erpEngine (nbits syn 10 4) = some e then some (nbits syn 7 3) else none
  let y := (List.range 4).foldl (fun y e =>
    if slotOp e (wSlot e w) = 0 then y else y.setQueue e (bindFirst (bindTo x e a no (sfStr m) (erpOf e)) (y.queue e))) x
  let y := idxExec (wIdx w) y
  let nx := nextPc x a (wHeader w)
  let y := { y with
    step := false
    replay := nx.map (fun pc => (m, pc, no))
    open_ := if nx.isNone then y.open_.map (fun r => if r.1 = no then (r.1, r.2.1, true) else r) else y.open_ }
  let s := synExec t (sfStr m) syn (s.setTile t y)
  reportDone t (s.count (cTile t 20) 1)

/-- ILLEGAL_WORD of class S against the replay's stream (R129). The record names the frame of the KEY that started the replay
(DEDUCED from the worked example of 15; notes/assumptions/44.md). -/
def illegalWord (t m a part : Nat) (s : State) : State :=
  let s := raiseS { cls := 1, code := 0x01, stream := some (sfStr m), frame := some (sfFrame m), detail := part, region := regionOf t, tile := t,
                    unit := partUnit part, index := a } (sfStr m) s
  let s := tileTrace t 9 (partUnit part) 0 (sfKey m) 1 s
  s.modTile t (fun x => { x with dead := true })

/-- Whether the word or a descriptor it names is uncorrectable (R91). -/
def Tile.wordLost (x : Tile) (a : Nat) : Bool :=
  let w := x.word a
  x.imemBad.contains a
  || [0, 2, 3].any (fun e => match slotDh e (wSlot e w) with | some h => x.imemBad.contains (496 + h) | none => false)

/-- TILE_WORD_ISSUE (R125 to R134, R395). -/
def execTileWordIssue (t : TileIx) (s : State) : Host.Outcome State Fault Refusal :=
  let t := t.val
  let x := s.tile t
  match x.replay with
  | none => idle s
  | some (m, a, no) =>
    if !s.runs t || x.dead || x.synWait.isSome then idle s
    else if x.dhalt && !x.step then idle s
    else if !x.dhalt && s.bit (aTileDbgCtl t) 29 && decide (s.f (aTileDbgCtl t) 0 9 = a) && !s.bit (aTileDbgStatus t) 1 then
      done s ((s.setB (aTileDbgStatus t) 1 true).modTile t (fun x => { x with dhalt := true }))
    else if x.wordLost a then
      done s (raiseG { cls := 2, code := 0x04, stream := some (sfStr m), frame := some (sfFrame m), region := regionOf t, tile := t, unit := 6,
                             index := a }
        (regionOf t) s)
    else
      let w := x.word a
      let h := wHeader w
      let fall := decide (nextPc x a h = some 496)
      match (if fall then some 0 else wordBad x.desc a w) with
      | some p => done s (illegalWord t m a p s)
      | none =>
        let ready := (List.range 4).all (fun e =>
          decide (slotOp e (wSlot e w) = 0) || (x.queue e).any (fun c => c.bound.isNone))
        let held := decide (nbits (wSyn w) 20 4 = 3) && fenceHolds x (nbits (wSyn w) 10 4)
        when_ (ready && !held) s (issueWord t m a no s)

/-! ### Pops and keys of a command -/

/-- Pop one entry from each IQ of the list, in order (R137); the popped sidebands feed the run (R86a), an EOFR the
end-of-replay tests (R133). -/
def popAll (t no : Nat) : List Nat → Run → State → List Entry × Run × State
  | [], r, s => ([], r, s)
  | q :: qs, r, s =>
    match popIq t q s with
    | (none, s) => ([], r, s)
    | (some e, s) =>
      let r := { r with gov := r.gov || govOf e.side, psn := r.psn || psnOf e.side, last := tset 0 r.last q e.side }
      let s := if eofrOf e.side then s.modTile t (fun x => { x with eofSeen := x.eofSeen ++ [(no, q)] }) else s
      let (es, r, s) := popAll t no qs r s
      (e :: es, r, s)

/-- Whether every IQ of the list has a head that may be popped. -/
def State.present (s : State) (t : Nat) (qs : List Nat) : Bool := qs.all (fun q => (s.headOf t q).isSome)

/-- What a match set's heads say: missing, agreeing on a key, or differing, with the streams named (R97, R98, R139). -/
inductive Match where
  | missing
  | key (w : Word)
  | differ (ws : List Word)
deriving DecidableEq, Repr

/-- Compare the heads of a match set; `fm` leaves ITER out. -/
def State.matchHeads (s : State) (t : Nat) (fm : Bool) (qs : List Nat) : Match :=
  if !s.present t qs then .missing else
  let ks := qs.filterMap (fun q => (s.headOf t q).map (fun e => keyOf e.side))
  match ks with
  | [] => .missing
  | k :: rest =>
    if rest.all (fun k' => if fm then decide (sfOf k' = sfOf k) else decide (k' = k)) then .key k else .differ ks

/-- QUEUE_PROTOCOL of class S once against each stream of the keys (R98). -/
def mismatch (t unit : Nat) (ws : List Word) (tag q : Nat) (s : State) : State :=
  let firsts := ws.foldl (fun (a : List Word) w => if a.any (fun b => strOf b == strOf w) then a else a ++ [w]) []
  each firsts s (fun s w => tileS t 0x02 unit w (some tag) q 0 s)

/-- The sideband of a push (R86a, R139, R140): `e` the entry the step popped from the lowest IQ, `last` the command's last push. -/
def stamp (c : QCmd) (e : Nat) (r : Run) (gov psn : Bool) (popped : Option Entry) (last : Bool) : Word :=
  let v := c.slot
  let it := ((c.bound.bind (·.xit))).getD (iterOf r.key)
  let (eor, eofr) := match slotEnd e v with
    | 1 => match popped with | some p => (eorOf p.side, eofrOf p.side) | none => (false, false)
    | 2 => (last, false)
    | 3 => (last, last && c.last)
    | _ => (false, false)
  sideOf (strOf r.key) (frameOf r.key) it eor eofr (r.gov || gov) (r.psn || psn)

end Sys2Proof.Machine
end

