-- ==== Sys2Proof/Machine/Window.lean ====
section
/-! DEFINITION. The window unit (08): geometry, the line-buffer ring, frame contexts, presentation, halo forwarding. -/
namespace Sys2Proof.Machine

/-- The window configuration in effect (08, Registers). -/
structure Win where
  en : Bool
  grp : Nat
  block : Bool
  efmt : Nat
  subw : Nat
  subh : Nat
  zw : Nat
  zh : Nat
  dw : Nat
  dh : Nat
  sw : Nat
  sh : Nat
  kw : Nat
  kh : Nat
  ow : Nat
  c : Nat
  padv : Nat
  padl : Nat
  padb : Nat
  padt : Nat
  rows : Nat
  base : Nat
  iw : Nat
  pitch : Nat
  rowLdw : Nat
  rowStl : Nat
deriving DecidableEq, Repr

/-- The registers of tile t, decoded; KH and KW of 0 (reset) act as 1. -/
def State.win (s : State) (t : Nat) : Win :=
  let g := (s.act (aTileWinGeom t)).toNat
  let ch := (s.act (aTileWinCh t)).toNat
  let p := (s.act (aTileWinPad t)).toNat
  let lb := (s.act (aTileWinLb t)).toNat
  let pi := (s.act (aTileWinPitch t)).toNat
  let r := (s.act (aTileWinRow t)).toNat
  { en := nbit g 31, grp := 2 ^ nbits g 25 3, block := nbit g 24, efmt := nbits g 22 2,
    subw := nbits g 20 2 + 1, subh := nbits g 18 2 + 1, zw := nbits g 16 2 + 1, zh := nbits g 14 2 + 1,
    dw := nbits g 12 2 + 1, dh := nbits g 10 2 + 1, sw := nbits g 8 2 + 1, sh := nbits g 6 2 + 1,
    kw := max (nbits g 3 3) 1, kh := max (nbits g 0 3) 1, ow := nbits ch 16 13, c := nbits ch 0 13,
    padv := nbits p 16 8, padl := nbits p 8 4, padb := nbits p 4 4, padt := nbits p 0 4,
    rows := nbits lb 13 6, base := nbits lb 0 13, iw := nbits pi 16 15, pitch := nbits pi 0 14,
    rowLdw := nbits r 16 16, rowStl := nbits r 0 3 }

/-- L: elements of a vector. -/
def Win.len (w : Win) : Nat := if w.efmt = 1 then 32 else 16

/-- Bpp: bytes of a pixel. -/
def Win.bpp (w : Win) : Nat := match w.efmt with | 1 => (w.c + 1) / 2 | 2 => 2 * w.c | _ => w.c

/-- Span_h. -/
def Win.spanH (w : Win) : Nat := w.dh * (w.subh * w.kh - 1) + 1

/-- N_h: stored rows from the first to the last that one output row reads. -/
def Win.need (w : Win) : Nat := (w.spanH - 1) / w.zh + 1

/-- OH for a frame of `ih` rows (R161). -/
def Win.outRows (w : Win) (ih : Nat) : Nat :=
  let h := (ih - 1) * w.zh + 1 + w.padt + w.padb
  if w.spanH ≤ h then (h - w.spanH) / w.sh + 1 else 0

/-- Blocks per channel block. -/
def Win.nb (w : Win) : Nat := (w.kh * w.kw * w.grp + w.len - 1) / w.len

/-- VPS: vectors or blocks per sub-window (R166, R167). -/
def Win.vps (w : Win) : Nat :=
  if w.block then (w.c + 15) / 16 * w.nb else (w.kh * w.kw * w.c + w.len - 1) / w.len

/-- The stored rows that output row r reads, whatever the frame's height (R165). -/
def Win.reads (w : Win) (r : Nat) : List Nat :=
  (List.range (w.subh * w.kh)).filterMap (fun p =>
    let z : Int := (r * w.sh + p * w.dh : Nat) - (w.padt : Int)
    if 0 ≤ z ∧ z.toNat % w.zh = 0 then some (z.toNat / w.zh) else none)

/-- The current output row of a context is ready (R169). -/
def WinCtx.ready (w : Win) (c : WinCtx) : Bool :=
  (w.reads c.outRow).all (fun ρ => decide (ρ < c.inRows) || c.ih.isSome)
  && (match c.ih with | some ih => decide (c.outRow < w.outRows ih) | none => true)

/-- Slots a context holds. -/
def WinCtx.slots (c : WinCtx) : List Nat :=
  c.rows.map (fun p => p.2.1) ++ (match c.open_ with | some (k, _) => [k] | none => [])

/-! ### Rows into the ring (R162 to R164) -/

/-- The lowest slot of the ring no context holds. -/
def freeSlot (w : Win) (cs : List WinCtx) : Option Nat :=
  findNat w.rows (fun k => !cs.any (fun c => c.slots.contains k))

/-- The contexts and slot of an STL of key `k`: it joins the open row of its context, or opens a row in the lowest free
slot; the younger context never holds more than ROWS − N_h slots; none while it must wait (R162, R163). -/
def stlSlot (w : Win) (cs : List WinCtx) (k : Word) : Option (List WinCtx × Nat) :=
  match (List.range cs.length).find? (fun i => match cs[i]? with
      | some c => decide (sfOf c.key = sfOf k) && c.ih.isNone
      | none => false) with
  | some i =>
    match cs[i]? with
    | none => none
    | some c =>
      match c.open_ with
      | some (sl, _) => some (cs, sl)
      | none =>
        if 0 < i ∧ w.rows - w.need < c.slots.length + 1 then none
        else (freeSlot w cs).map (fun sl => (setNth cs i { c with open_ := some (sl, 0, false, false) }, sl))
  | none =>
    if 2 ≤ cs.length ∨ (cs.length = 1 ∧ w.rows - w.need < 1) then none
    else (freeSlot w cs).map (fun sl =>
      (cs ++ [{ key := sfWord k, born := if cs.any (fun c => c.born == 0) then 1 else 0,
                open_ := some (sl, 0, false, false), rows := [], inRows := 0, ih := none, outRow := 0, ldwDone := 0 }], sl))

/-- A later output row of the frame still reads stored row ρ. -/
def WinCtx.wanted (w : Win) (c : WinCtx) (ρ : Nat) : Bool :=
  let last := (ρ * w.zh + w.padt) / w.sh + 1
  let last := match c.ih with | some ih => min last (w.outRows ih) | none => last
  (List.range (last - c.outRow)).any (fun i => (w.reads (c.outRow + i)).contains ρ)

/-- Free the rows no later output row reads and no halo push needs, and a context whose last output row has advanced
(R170, R161 with OH = 0). -/
def winFree (w : Win) (x : Tile) : Tile :=
  let pending := fun (c : WinCtx) ρ => x.halos.any (fun h => h.ctxKey == c.key && h.row == ρ)
  let cs := x.wins.map (fun c => { c with rows := c.rows.filter (fun p => c.wanted w p.1 || pending c p.1) })
  { x with wins := cs.filter (fun c => match c.ih with
      | some ih => decide (c.outRow < w.outRows ih) || x.halos.any (fun h => h.ctxKey == c.key)
      | none => true) }

/-- The halo pushes an STL from IQ q starts when it completes on row `row` in `slot` (R174). -/
def haloStart (s : State) (t q : Nat) (c : WinCtx) (slot : Nat) (r : Run) : List Halo :=
  (List.range 2).filterMap (fun h =>
    let w := (s.act (aTileWinHalo t h)).toNat
    if nbit w 31 && decide (nbits w 25 3 = q) && decide (0 < nbits w 6 6) then
      some { h := h, slot := slot, ctxKey := c.key, row := c.inRows, next := 0, last := tget 0 r.last q, gov := r.gov, psn := r.psn }
    else none)

/-- An STL that popped IQ q completes (R164, R174). -/
def stlDone (t q : Nat) (r : Run) (s : State) : State :=
  let w := s.win t
  let x := s.tile t
  if !w.en then s else
  match (List.range x.wins.length).find? (fun i => match x.wins[i]? with
      | some c => decide (sfOf c.key = sfOf r.key) && (match c.open_ with | some (sl, _) => sl == r.ringSlot | none => false)
      | none => false) with
  | none => s
  | some i =>
    match x.wins[i]? with
    | none => s
    | some c =>
      match c.open_ with
      | none => s
      | some (sl, n, gov, _) =>
        let gov := gov || r.gov
        let eofr := eofrOf (tget 0 r.last q)
        let hs := haloStart s t q c sl r
        let c := if n + 1 < w.rowStl then { c with open_ := some (sl, n + 1, gov, eofr) }
          else { c with open_ := none, rows := tset (0, false) c.rows c.inRows (sl, gov), inRows := c.inRows + 1,
                        ih := if eofr then some (c.inRows + 1) else c.ih }
        s.setTile t (winFree w { x with wins := setNth x.wins i c, halos := x.halos ++ hs })

/-- An LDW of `key` completes: after ROW_LDW of them the output row advances (R170). -/
def ldwDone (t : Nat) (key : Word) (s : State) : State :=
  let w := s.win t
  let x := s.tile t
  if !w.en then s else
  match (List.range x.wins.length).find? (fun i => match x.wins[i]? with
      | some c => decide (sfOf c.key = sfOf key)
      | none => false) with
  | none => s
  | some i =>
    match x.wins[i]? with
    | none => s
    | some c =>
      let c := if c.ldwDone + 1 < w.rowLdw then { c with ldwDone := c.ldwDone + 1 }
        else { c with ldwDone := 0, outRow := c.outRow + 1 }
      s.setTile t (winFree w { x with wins := setNth x.wins i c })

/-! ### Windows out of the ring (R165 to R171) -/

/-- Where an element comes from: a constant, or `n` bytes at a store address (a nibble for int4) of a row with GOV. -/
inductive Elem where
  | const (v : Nat)
  | at (addr : Nat) (nib : Nat) (gov : Bool)
deriving DecidableEq, Repr

/-- Output element (r, x) at filter position (P, Q), channel ch (R165). -/
def Win.elem (w : Win) (c : WinCtx) (x P Q ch : Nat) : Elem :=
  let z : Int := (c.outRow * w.sh + P * w.dh : Nat) - (w.padt : Int)
  let q : Int := (x * w.sw + Q * w.dw : Nat) - (w.padl : Int)
  let pad := match w.efmt with | 1 => w.padv % 16 | 2 => 0 | _ => w.padv
  let row := z.toNat / w.zh
  let inside := decide (0 ≤ z) && decide (z.toNat % w.zh = 0) && decide (row < c.inRows)
    && decide (0 ≤ q) && decide (q.toNat < (w.iw - 1) * w.zw + 1) && decide (q.toNat % w.zw = 0)
  if !inside then .const pad else
  match c.rows.find? (fun p => p.1 == row) with
  | none => .const 0
  | some (_, sl, gov) =>
    let col := q.toNat / w.zw
    let byte := col * w.bpp + (match w.efmt with | 1 => ch / 2 | 2 => 2 * ch | _ => ch)
    .at (((w.base + sl * w.pitch) * 32 + byte) % 0x40000) (ch % 2) gov

/-- The elements of vector or block v for output column x: rows of elements (R166 to R168). -/
def Win.elems (w : Win) (c : WinCtx) (v : Int) (x : Nat) : List (List Elem) :=
  let out := decide (v < 0) || decide ((w.subh * w.subw * w.vps : Nat) ≤ v)
  let s := v.toNat / max w.vps 1
  let n := v.toNat % max w.vps 1
  let pa := s / w.subw * w.kh
  let pb := s % w.subw * w.kw
  if !w.block then
    [(List.range w.len).map (fun i =>
      let e := w.len * n + i
      if out || decide (w.kh * w.kw * w.c ≤ e) then .const 0
      else w.elem c x (pa + e / (w.kw * w.c)) (pb + e / w.c % w.kw) (e % w.c))]
  else
    let cb := n / max w.nb 1
    let b := n % max w.nb 1
    (List.range w.len).map (fun k => (List.range 16).map (fun j =>
      let m := b * w.len + k
      let tap := m / w.grp
      let i := w.grp * ((16 * cb + j) / w.grp) + m % w.grp
      if out || decide (w.kh * w.kw ≤ tap) || decide (w.c ≤ i) then .const 0
      else w.elem c x (pa + tap / w.kw) (pb + tap % w.kw) i))

/-- The element's pattern. -/
def Win.value (w : Win) (r : Ram) : Elem → Nat
  | .const v => v
  | .at a nib _ =>
    match w.efmt with
    | 1 => nbits (r.get a).toNat (4 * nib) 4
    | 2 => (r.get a).toNat + 256 * (r.get (a + 1)).toNat
    | _ => (r.get a).toNat

/-- Present vector v of context c for output column x: what is shown, and the state after the reads of its words. -/
def present (t : Nat) (c : WinCtx) (v : Int) (x : Nat) (key : Word) (tag : Nat) (s : State) : Shown × State :=
  let w := s.win t
  let es := w.elems c v x
  let ats := es.flatten.filterMap (fun e => match e with | .at a _ g => some (a, g) | .const _ => none)
  let units := ats.foldl (fun us p => insertNat (p.1 / 32) us) ([] : List Nat)
  let words := ats.foldl (fun us p => insertNat (p.1 / 8) us) ([] : List Nat)
  let r := (s.tile t).store
  let psn := words.any (fun k => r.state k == .poison || r.state k == .double)
  let s := each units s (fun s u => (cmdRead t 2 u key tag s).2.2)
  (⟨strOf key, es.map (fun row => row.map (w.value r)), ats.any (fun p => p.2), psn⟩, s)

/-! ### Halo forwarding (R174) -/

/-- The next push of the oldest halo forward, if its OQ takes it; an unbound OQ raises QUEUE_PROTOCOL against the row's stream. -/
def haloPush (t : Nat) (s : State) : Option State :=
  let x := s.tile t
  match x.halos with
  | [] => none
  | h :: rest =>
    let cfg := (s.act (aTileWinHalo t h.h)).toNat
    let q := nbits cfg 28 3
    let n := nbits cfg 6 6
    let w := s.win t
    let drop := fun (s : State) => s.modTile t (fun x => winFree w { x with halos := rest })
    if !(s.qbind t (8 + q)).bound then some (drop (tileS t 0x02 2 h.ctxKey none (8 + q) 0 s))
    else if 64 ≤ (s.oq t q).length then none
    else if n ≤ h.next then some (drop s)
    else
      let (p, psn, s) := cmdRead t 2 ((w.base + h.slot * w.pitch + nbits cfg 12 13 + h.next) % 8192) h.ctxKey 0 s
      let psn := h.psn || psn
      let lastPush := decide (h.next + 1 = n)
      let side := sideOf (strOf h.ctxKey) (frameOf h.ctxKey) (iterOf h.last) lastPush (lastPush && eofrOf h.last) h.gov psn
      let s := s.setOq t q (s.oq t q ++ [⟨p, side⟩])
      if lastPush then some (drop s)
      else some (s.modTile t (fun x => { x with halos := { h with next := h.next + 1, psn := psn } :: rest }))

/-- Discard the window row state of stream n (R178). -/
def winPurge (n : Nat) (x : Tile) : Tile :=
  { x with wins := x.wins.filter (fun c => strOf c.key != n), shown := x.shown.filter (fun v => v.stream != n),
           halos := x.halos.filter (fun h => strOf h.ctxKey != n) }

/-- TILE_WIN_CTX[k]. -/
def winCtxWord (w : Win) (x : Tile) (k : Nat) : Nat :=
  match x.wins.find? (fun c => c.born == k) with
  | none => 0
  | some c => 2 ^ 31 + b2n (c.ready w) * 2 ^ 30 + c.slots.length % 64 * 2 ^ 24 + c.outRow % 4096 * 4096 + c.inRows % 4096

/-- TILE_WIN_KEY[k]. -/
def winKeyWord (x : Tile) (k : Nat) : Nat :=
  match x.wins.find? (fun c => c.born == k) with
  | none => 0
  | some c => (sfWord c.key).toNat + b2n c.ih.isSome

end Sys2Proof.Machine
end

