-- ==== Sys2Proof/Machine/Engines.lean ====
section
/-! DEFINITION. The engines LD, ST, VEC and MAT (04, 06, 07, 08): which command fires (R96 to R98, R136, R141, R142, R163,
R169, R191), what a step does, what completion does, and the commands of those rows. -/
namespace Sys2Proof.Machine

/-! ### What a slot reads and writes (R141, R232) -/

/-- Declared destinations: v register i as i, bank b as 100 + b, the window register 200, the standby buffer 300, the
activation table 400, LD walker w as 500 + w, ST walker w as 600 + w, the line buffers 700. -/
def dests (e v : Nat) : List Nat :=
  match e with
  | 0 =>
    if slotOp 0 v = 1 then [300]
    else (100 + nbits v 47 2) :: (if (slotOp 0 v = 2 ∨ slotOp 0 v = 3) ∧ nbit v 42 then [200] else [])
  | 1 =>
    let op := slotOp 1 v
    let (ua, ub) := vecUses op
    (if ua && !nbit v 28 then [nbits v 33 4] else []) ++ (if ub && !nbit v 27 then [nbits v 29 4] else [])
      ++ (if nbit v 26 || op == 7 then [nbits v 37 4] else [])
      ++ (if op = 0x0A then [100 + nbits v 0 2] else []) ++ (if op = 0x0B then [400] else [])
  | 2 => (500 + slotWk v) :: (match slotOp 2 v with | 2 => [200] | 3 => [400] | _ => [])
  | _ => (600 + slotWk v) :: (if slotOp 3 v = 2 then [700] else [])

/-- The accumulator bank a slot works on. -/
def bankOfSlot (e v : Nat) : Option Nat :=
  if e = 0 ∧ slotOp 0 v ≠ 1 then some (nbits v 47 2)
  else if e = 1 ∧ slotOp 1 v = 0x0A then some (nbits v 0 2) else none

/-- What a slot reads of the state that SPEC commands stage: codes as in `dests`. -/
def readsOf (e v : Nat) : List Nat :=
  dests e v ++ (if e = 0 ∧ (slotOp 0 v = 2 ∨ slotOp 0 v = 3) then [300] else [])

/-- What a staged effect writes. -/
def Staged.code : Staged → Option Nat
  | .vreg i _ => some i
  | .row b _ _ => some (100 + b)
  | .bank b _ => some (100 + b)
  | .standby _ _ => some 300
  | _ => none

/-- The state is staged that a non-SPEC command would read (R232). -/
def Tile.stagedRead (x : Tile) (e v : Nat) (gtab : Bool) : Bool :=
  x.staged.any (fun p =>
    (match p.2.2.2.code with | some k => (readsOf e v).contains k | none => false)
    || (match p.2.2.2 with | .gtTake e' => gtab && e' == e | _ => false))

/-- The tile a command reads: staged values included for a SPEC command. -/
def State.seenBy (s : State) (t : Nat) (c : QCmd) : Tile := if c.spec then s.view t else s.tile t

/-! ### Steps of a command -/

/-- The group table entry engine e reads next (R191). -/
def Tile.gtNext (x : Tile) (e : Nat) : Option Entry :=
  (x.gt.find? (fun p => !p.2.contains e)).map (·.1)

/-- COUNT and WOFF of a group table entry. -/
def gtCount (p : Entry) : Nat := nbits p.pay.toNat 0 16
def gtWoff (p : Entry) : Nat := nbits p.pay.toNat 16 13

/-- Steps a command runs: its payload count (times COUNT), cut by its walk (R135, R168, R447, R448). -/
def totalSteps (w : Win) (e : Nat) (c : QCmd) (count : Nat) : Nat :=
  let n := c.steps * count
  let d := match c.bound with | some b => walkLen b.desc.toNat | none => 0
  match e, slotOp e c.slot with
  | 2, 2 => if w.en then min n (d * w.ow) else 0
  | 2, 3 => min (min n d) 16
  | 2, _ => min n d
  | 3, _ => min n d
  | 0, 1 => min (min n d) (fmtUnits (nbits c.slot 49 3))
  | 0, 5 => min n 1
  | _, _ => n

/-- The unit (before the modulo) of step n of a walk (R135), with WOFF for a WLOAD (R191). -/
def stepVal (c : QCmd) (r : Run) (n : Nat) : Int :=
  match c.bound with
  | some b => walkVal b.desc.toNat (c.offset + b.uoff + r.woff) n
  | none => 0

def stepUnit (c : QCmd) (r : Run) (n : Nat) : Nat := (stepVal c r n % 8192).toNat

/-- T[i] of the activation table; T[256] = T[255] (R157). -/
def Tile.table (x : Tile) (i : Nat) : Nat := (tget 0 x.act (min i 255)).toNat

/-- An accumulator as an integer. -/
def accInt (a : BitVec 40) : Int := sgn 40 a.toNat

/-- The result of a VEC operation other than RQ. -/
def vecResult (x : Tile) (v : Nat) (us : List Word) (A B : Pay) : Pay :=
  let op := slotOp 1 v
  let ty := nbits v 41 2
  let a := vlanes ty A
  let b := vlanes ty B
  match op with
  | 0x07 =>
    let m := vlanes ty (tget 0 x.v (nbits v 37 4))
    vpay ty ((List.range (laneCount ty)).map (fun i => if nth m i 0 ≠ 0 then nth a i 0 else nth b i 0))
  | 0x08 => vpay ty (a.map (vecAbs1 ty))
  | 0x09 => vpay ty (a.map (vecShr1 ty (nbits (nth us 0 0).toNat 0 5)))
  | 0x0B => vpay ty (a.map (act1 x.table ty))
  | 0x0C => vpay ty (vecRsum1 ty a)
  | 0x0D => vpay ty (vecRmax1 ty a)
  | 0x0E => vpay (nbits v 0 2) (vecCvt1 ty (nbits v 0 6) a)
  | 0x0F => A &&& B
  | 0x10 => A ||| B
  | 0x11 => A ^^^ B
  | 0x12 => A
  | _ => vpay ty (List.zipWith (vec2 op ty) a b)

/-- RQ's entry of step n (R152, R153): two rows for int8, one for int16 and for a binary16 bank. -/
def rqEntry (x : Tile) (v n : Nat) (us : List Word) : Pay :=
  let b := nbits v 0 2
  let ty := nbits v 41 2
  if (tget Bank.init x.banks b).fp = some true then
    vpay 3 ((x.row b (n % 64)).map (fun a => b32to16 (nbits a.toNat 0 32)))
  else
    let p1 := (nth us 1 0).toNat
    let one := fun r => (List.range 16).map (fun c =>
      let m := if nbit p1 9 then (nth us (4 + c) 0).toInt else (nth us 0 0).toInt
      rqOne ty (accInt (nth (x.row b (r % 64)) c 0)) m p1 (nth us 2 0).toNat (nth us 3 0).toNat)
    if ty = 1 then vpay 1 (one n) else vpay 0 (one (2 * n) ++ one (2 * n + 1))

/-- READ's entry of step n, and the lanes that saturated (R149, R150). -/
def readEntry (x : Tile) (b n : Nat) : Pay × Nat :=
  let row := ((x.row b (n / 2 % 64)).drop (n % 2 * 8)).take 8
  if (tget Bank.init x.banks b).fp = some true then (vpay 2 (row.map (fun a => nbits a.toNat 0 32)), 0)
  else
    let rs := row.map (fun a => sat32 (accInt a))
    (vpay 2 (rs.map (fun r => pat 32 r.1)), (rs.filter (·.2)).length)

/-- An element's value in an integer format. -/
def elemInt (fmt n : Nat) : Int :=
  match fmt with
  | 0 => sgn 8 n
  | 1 => (n % 256 : Nat)
  | _ => sgn 4 n

/-- One column of MMA or DMMA (R147, R150, R173): `xs` are the elements used, at weight rows `ks`. -/
def macColumn (fmt img c : Nat) (acc : BitVec 40) (ks xs : List Nat) : BitVec 40 × Bool :=
  if fmt = 3 then
    (BitVec.ofNat 40 (macFp (nbits acc.toNat 0 32) (xs.map fl16) (ks.map (fun k => weight16 img k c))), false)
  else
    let (r, g) := macInt (accInt acc) (xs.map (elemInt fmt)) (ks.map (fun k => weight fmt img k c))
    (BitVec.ofNat 40 (pat 40 r), g)

/-- A row after one presentation: `x` one row of elements (a vector) or rows X[k] (a block), and whether sat40 clamped. -/
def macRow (fmt : Nat) (diag : Bool) (img : Nat) (x : List (List Nat)) (row : List (BitVec 40)) : List (BitVec 40) × Bool :=
  let vector := decide (x.length = 1)
  let cols := (List.range 16).map (fun c =>
    let (ks, xs) :=
      if vector then
        if diag then ([0], [nth (nth x 0 []) c 0])
        else (List.range (fmtLen fmt), (List.range (fmtLen fmt)).map (fun k => nth (nth x 0 []) k 0))
      else (List.range (fmtLen fmt), (List.range (fmtLen fmt)).map (fun k => nth (nth x k []) (if diag then c else 0) 0))
    macColumn fmt img c (nth row c 0) ks xs)
  (cols.map (·.1), cols.any (·.2))

/-- The vectors a popped entry supplies (R147). -/
def entryVectors (fmt : Nat) (p : Pay) : List (List (List Nat)) :=
  match fmt with
  | 2 => [[lanes 4 32 p.toNat], [lanes 4 32 (p.toNat / 2 ^ 128)]]
  | 3 => [[lanes 16 16 p.toNat]]
  | _ => [[lanes 8 16 p.toNat], [lanes 8 16 (p.toNat / 2 ^ 128)]]

/-- Presentations of one MMA or DMMA step onto successive rows: the effects, the guard events, whether GPOL stopped it. -/
def macSteps (x : Tile) (v : Nat) (img : Nat) : Nat → List (List (List Nat)) → List Staged × Nat × Bool
  | _, [] => ([], 0, false)
  | n, a :: as =>
    let b := nbits v 47 2
    let r := n % 64
    let old := if !nbit v 21 && decide (n < 64) then List.replicate 16 0 else x.row b r
    let (row, g) := macRow (nbits v 49 3) (decide (slotOp 0 v = 3)) img a old
    if g && nbit v 20 then ([.row b r row], 1, true)
    else
      let (ys, k, stop) := macSteps x v img (n + 1) as
      (.row b r row :: ys, b2n g + k, stop)

/-- One step of MMA or DMMA; `es` the popped entries. -/
def mmaStep (t : Nat) (c : QCmd) (es : List Entry) (r : Run) (s : State) : List Staged × Run × State :=
  let v := c.slot
  let fmt := nbits v 49 3
  let b := nbits v 47 2
  let x := s.seenBy t c
  let win := nbit v 42
  let sh := x.shown.head?
  let (as, s, gov, psn) :=
    if win then
      match sh with
      | some h => ([h.x], s.modTile t (fun y => { y with shown := y.shown.drop 1 }), h.gov, h.psn)
      | none => ([], s, false, false)
    else (match es with | e :: _ => entryVectors fmt e.pay | [] => [], s, false, false)
  let n := if !win && fmt ≠ 3 then 2 * r.made else r.made
  let img := ofLanes 256 (r.image.map (·.toNat))
  let (ys, k, stop) := macSteps x v img n as
  let r := { r with gov := r.gov || gov, psn := r.psn || psn, guardHit := r.guardHit || stop }
  let bk := tget Bank.init x.banks b
  let bk := { bk with gov := bk.gov || r.gov || decide (0 < k), psn := bk.psn || r.psn,
                      fp := some (bk.fp.getD (decide (fmt = 3))), owner := some (strOf r.key) }
  (ys ++ [.bank b bk], r, s.count (cTile t 27) k)

/-- The effects of a step whose entries `es` are popped (R138, and the operation's own rules). -/
def opStep (t e : Nat) (c : QCmd) (es : List Entry) (r : Run) (s : State) : List Staged × Run × State :=
  let v := c.slot
  let lastStep := decide (r.made + 1 = r.total)
  let x := s.seenBy t c
  let (pe, pq) := slotPush e v
  let out := fun (p : Pay) (r : Run) (gov psn : Bool) =>
    if pe then [Staged.push pq ⟨p, stamp c e r gov psn es.head? lastStep⟩] else []
  match e, slotOp e v with
  | 2, 1 =>
    let (p, psn, s) := cmdRead t 2 (stepUnit c r r.made) r.key c.tag s
    let r := { r with psn := r.psn || psn }
    (out p r false false, r, s)
  | 2, 2 =>
    match (s.tile t).wins.find? (fun k => sfOf k.key == sfOf r.key) with
    | some k =>
      let ow := max (s.win t).ow 1
      let (sh, s) := present t k (stepVal c r (r.made / ow)) (r.made % ow) r.key c.tag s
      ([], r, s.modTile t (fun y => { y with shown := y.shown ++ [sh] }))
    | none => ([], r, s)
  | 2, _ =>
    let (p, _, s) := cmdRead t 2 (stepUnit c r r.made) r.key c.tag s
    ([], r, s.modTile t (fun y => { y with act := (List.range 16).foldl (fun a i =>
      tset 0 a (16 * r.made + i) (BitVec.ofNat 16 (nbits p.toNat (16 * i) 16))) y.act }))
  | 3, 1 =>
    match es with
    | en :: _ => ([], r, storeWrite t (stepUnit c r r.made) en.pay (psnOf en.side) s)
    | [] => ([], r, s)
  | 3, _ =>
    let w := s.win t
    match es with
    | en :: _ =>
      if w.en then
        let u := ((w.base + r.ringSlot * w.pitch : Nat) + stepVal c r r.made) % 8192
        ([], r, storeWrite t u.toNat en.pay (psnOf en.side) s)
      else ([], r, s)
    | [] => ([], r, s)
  | 1, op =>
    let us := match c.bound with | some b => b.us | none => []
    if op = 0x0A then
      let bk := tget Bank.init x.banks (nbits v 0 2)
      let p := rqEntry x v r.made us
      ((if nbit v 26 then [.vreg (nbits v 37 4) p] else []) ++ out p r bk.gov bk.psn, r, s)
    else
      let pa := nbit v 28
      let A := if pa then (es.head?.map (·.pay)).getD 0 else tget 0 x.v (nbits v 33 4)
      let B := if nbit v 27 then ((es.drop (b2n pa)).head?.map (·.pay)).getD 0 else tget 0 x.v (nbits v 29 4)
      let p := vecResult x v us A B
      ((if nbit v 26 then [.vreg (nbits v 37 4) p] else []) ++ out p r false false, r, s)
  | _, 1 =>
    let (p, psn, s) := cmdRead t 0 (stepUnit c r r.made) r.key c.tag s
    ([], { r with image := r.image ++ [p], psn := r.psn || psn }, s)
  | _, 4 =>
    let b := nbits v 47 2
    let bk := tget Bank.init x.banks b
    let (p, k) := readEntry x b r.made
    (out p r bk.gov bk.psn, r, s.count (cTile t 26) k)
  | _, 5 =>
    let b := nbits v 47 2
    ((List.range 64).map (fun i => .row b i (List.replicate 16 0))
      ++ [.bank b { (tget Bank.init x.banks b) with owner := some (strOf r.key) }], r, s)
  | _, _ => mmaStep t c es r s

/-- The queues a step of this command pops. -/
def QCmd.mset (c : QCmd) (e : Nat) : List Nat := setBits (slotMset e c.slot)

/-- A step finds room: its OQ has space, or staging does; behind staged pushes of its engine a non-SPEC push waits; LDW
holds at most 4 presentations; an MMA from the window needs one (R93, R143, R169, R232). -/
def stepRoom (t e : Nat) (c : QCmd) (s : State) : Bool :=
  let x := s.tile t
  let v := c.slot
  let (pe, pq) := slotPush e v
  let mat := decide (e = 0 ∧ (slotOp 0 v = 2 ∨ slotOp 0 v = 3))
  let k := if e = 0 ∧ slotOp 0 v = 5 then 64 else if mat then (if nbit v 42 ∨ nbits v 49 3 = 3 then 1 else 2)
    else b2n pe + b2n (decide (e = 1) && nbit v 26)
  (if c.spec then decide (x.stagedCount e + k ≤ 64)
   else !x.staged.any (fun p => p.2.1 == e && p.1 == 4)
     && (!pe || (decide ((s.oq t pq).length < 64) && !x.staged.any (fun p => p.2.1 == e))))
  && !(e == 2 && slotOp 2 v == 2 && decide (4 ≤ x.shown.length))
  && !(mat && nbit v 42 && x.shown.isEmpty)

/-- Perform the next step of command i of engine e, whose run is `r`: pop, act, store the run. -/
def doStep (t e i : Nat) (c : QCmd) (r : Run) (s : State) : State :=
  let no := (c.bound.map (·.replay)).getD 0
  let (es, r, s) := popAll t no (c.mset e) r s
  let (ys, r, s) := opStep t e c es r s
  let s := s.modTile t (fun x => x.setCmd e i { c with run := some { r with made := r.made + 1 } })
  effects t e c ys s

/-- The next step of a running command, if it can be made (R97, R98, R138). -/
def tryStep (t e i : Nat) (c : QCmd) (r : Run) (s : State) : Option State :=
  if c.dead || r.guardHit || decide (r.total ≤ r.made) || !stepRoom t e c s then none
  else if !s.present t (c.mset e) then none
  else
    match (c.mset e).find? (fun q => match s.headOf t q with
        | some en => decide (sfOf (keyOf en.side) ≠ sfOf r.key)
        | none => false) with
    | some q =>
      let other := ((s.headOf t q).map (fun en => keyOf en.side)).getD 0
      some (markDead t e i (mismatch t e [r.key, other] c.tag q s))
    | none => some (doStep t e i c r s)

/-! ### Firing -/

/-- Indices of the firing window: the oldest 8 unfired commands (R96). -/
def Tile.window (x : Tile) (e : Nat) : List Nat :=
  ((List.range (x.queue e).length).filter (fun i => match (x.queue e)[i]? with | some c => c.run.isNone | none => false)).take 8

/-- R96: command c may pass the older unfired commands `older`. -/
def mayPass (e : Nat) (c : QCmd) (older : List QCmd) : Bool :=
  older.all (fun o => o.bound.isSome && !o.fence && !c.fence
    && (c.mset e).all (fun q => !(o.mset e).contains q)
    && (dests e c.slot).all (fun d => !(dests e o.slot).contains d))

/-- The engine, or the command's walker, is free (R136). -/
def Tile.engineFree (x : Tile) (e : Nat) (c : QCmd) : Bool :=
  (x.queue e).all (fun o => o.run.isNone || (decide (2 ≤ e) && decide (slotWk o.slot ≠ slotWk c.slot)))

/-- The command's bank is in the state it needs (R142). -/
def bankReady (x : Tile) (e v : Nat) : Bool :=
  match bankOfSlot e v with
  | none => true
  | some b =>
    let full := (tget Bank.init x.banks b).full
    if e = 1 ∨ slotOp 0 v = 4 then full else !full

/-- EXPERT_TABLE applies to the entry a command would read (R193). -/
def gtBad (s : State) (t e : Nat) (key : Word) (p : Entry) : Bool :=
  let w := (s.act (aTileGtCfg t)).toNat
  let n := p.pay.toNat
  decide (nbits n 33 31 ≠ 0) || decide (64 < gtCount p) || decide (nbits w 21 3 < nbits n 29 3)
    || !nbit (s.gtEngs t) e || decide (keyOf p.side ≠ key)

/-- The LDW's row is ready: the current output row of the context of its KEY (R169). -/
def ldwReady (t : Nat) (key : Word) (s : State) : Bool :=
  let w := s.win t
  !w.en || (match (s.tile t).wins.find? (fun k => sfOf k.key == sfOf key) with
    | some k => k.ready w
    | none => false)

/-- Start command i with its first step, if it has any. -/
def start1 (t e i : Nat) (c : QCmd) (key : Word) (total woff : Nat) (s : State) : Option State :=
  let x := s.seenBy t c
  let mma := decide (e = 0 ∧ (slotOp 0 c.slot = 2 ∨ slotOp 0 c.slot = 3))
  let r : Run := { key := key, total := total, made := 0, pushed := 0, gov := false, psn := mma && x.standbyPsn, last := [],
                   stopped := false, woff := woff, guardHit := false, image := if mma then x.standby else [],
                   bank := 0, ringSlot := 0 }
  let fired := fun (s : State) => tileTrace t 1 e c.tag key 0 s
  let take := fun (s : State) => if c.gtab then effects t e c [.gtTake e] s else s
  if total = 0 then
    some (take (fired (s.modTile t (fun x => x.setCmd e i { c with run := some r }))))
  else if !stepRoom t e c s then none
  else if e = 3 ∧ slotOp 3 c.slot = 2 ∧ (s.win t).en then
    (stlSlot (s.win t) (s.tile t).wins key).map (fun p =>
      let s := s.modTile t (fun x => { x with wins := p.1 })
      take (doStep t e i c { r with ringSlot := p.2 } (fired s)))
  else if e = 2 ∧ slotOp 2 c.slot = 2 ∧ !ldwReady t key s then none
  else some (take (doStep t e i c r (fired s)))

/-- What engine e does with command i of its firing window now: the state after it fires or raises, none while it waits. -/
def tryFire (t e i : Nat) (older : List QCmd) (s : State) : Option State :=
  match ((s.tile t).queue e)[i]? with
  | none => none
  | some c =>
    match c.bound with
    | none => none
    | some _ =>
      let x := s.seenBy t c
      let v := c.slot
      if c.dead || !mayPass e c older || !(s.tile t).engineFree e c then none
      else
        match s.unboundQ t e v with
        | some q => some (markDead t e i (tileS t 0x02 e c.key (some c.tag) q 0 s))
        | none =>
          if !c.spec && (s.tile t).stagedRead e v c.gtab then none else
          let m := c.mset e
          let entry := if c.gtab then x.gtNext e else none
          let count := match entry with | some p => gtCount p | none => 1
          if c.gtab && (entry.isNone || !nbit (s.act (aTileGtCfg t)).toNat 31) then none else
          let total := totalSteps (s.win t) e c count
          let mk := if m.isEmpty ∨ total = 0 then Match.key c.key else s.matchHeads t (slotFm e v) m
          match mk with
          | .missing => none
          | .differ ws => some (markDead t e i (mismatch t e ws c.tag (m.headD 0) s))
          | .key k =>
            match entry with
            | some p =>
              if gtBad s t e (if total = 0 ∧ !m.isEmpty then keyOf p.side else k) p then
                some (markDead t e i (tileS t 0x0C 7 (keyOf p.side) (some c.tag) 0 0 s))
              else if !bankReady x e v then none
              else start1 t e i c k total (if e = 0 ∧ slotOp 0 v = 1 then gtWoff p else 0) s
            | none => if !bankReady x e v then none else start1 t e i c k total 0 s

/-- The first command of the window that does something now, and the state after. -/
def firstFire (t e : Nat) (s : State) : List Nat → List QCmd → Option (QCmd × State)
  | [], _ => none
  | i :: is, older =>
    match ((s.tile t).queue e)[i]? with
    | none => none
    | some c =>
      match tryFire t e i older s with
      | some s' => some (c, s')
      | none => firstFire t e s is (older ++ [c])

/-- A command whose operation is `op` fires in engine e of tile t, if it is the oldest of the window that can. -/
def fireOp (t e op : Nat) (s : State) : Host.Outcome State Fault Refusal :=
  if !s.runs t then idle s else
  match firstFire t e s ((s.tile t).window e) [] with
  | some (c, s') => if slotOp e c.slot = op then done s s' else idle s
  | none => idle s

/-! ### Completion (R127, R131, R133, R142) -/

/-- The effects of completing command c of engine e (besides the window unit's). -/
def completeEffects (x : Tile) (e : Nat) (c : QCmd) (r : Run) : List Staged :=
  let v := c.slot
  let fault := if r.guardHit then [Staged.fault 0x05 0 (frameOf r.key * 4096) (strOf r.key) c.tag] else []
  let body :=
    if e = 0 then
      let b := nbits v 47 2
      let bk := tget Bank.init x.banks b
      match slotOp 0 v with
      | 1 => if r.image.isEmpty then [] else
          [Staged.standby (r.image ++ List.replicate (fmtUnits (nbits v 49 3) - r.image.length) 0) r.psn]
      | 4 => [.bank b Bank.init]
      | _ => if nbit v 12 then [.bank b { bk with full := true, owner := some (strOf r.key) }] else []
    else if e = 1 ∧ slotOp 1 v = 0x0A then [.bank (nbits v 0 2) Bank.init]
    else []
  body ++ fault ++ [.fin e c.tag]

/-- The end-of-replay test of a completing command passes (R133). -/
def erpPasses (x : Tile) (no q : Nat) (r : Run) : Bool :=
  eofrOf (tget 0 r.last q) && decide ((x.eofSeen.filter (fun p => p == (no, q))).length = 1)

/-- Complete command i of engine e. -/
def completeCmd (t e i : Nat) (c : QCmd) (r : Run) (s : State) : State :=
  let s0 := s
  let s := s.modTile t (fun x => x.setQueue e ((x.queue e).eraseIdx i))
  let s := tileTrace t 2 e c.tag r.key 0 s
  let s :=
    if e = 3 ∧ slotOp 3 c.slot = 2 ∧ 0 < r.total then stlDone t ((c.mset e).headD 0) r s
    else if e = 2 ∧ slotOp 2 c.slot = 2 then ldwDone t r.key s
    else s
  let s := effects t e c (completeEffects (s0.seenBy t c) e c r) s
  let no := (c.bound.map (·.replay)).getD 0
  let s := match c.bound.bind (·.erp) with
    | none => s
    | some q =>
      if erpPasses (s0.tile t) no q r then s
      else if c.spec then effects t e c [.fault 0x02 5 (frameOf r.key * 4096 + q) (strOf r.key) c.tag] s
      else
        let s := s.modTile t (fun x => { x with eofSeen := x.eofSeen ++ [(no, 99)] })
        tileS t 0x02 5 r.key (some c.tag) q 0 s
  reportDone t s

/-- The running command of engine e (walker wk for LD and ST): its index, itself, its run. -/
def Tile.running (x : Tile) (e wk : Nat) : Option (Nat × QCmd × Run) :=
  ((List.range (x.queue e).length).filterMap (fun i =>
    match (x.queue e)[i]? with
    | some c =>
      match c.run with
      | some r => if e < 2 ∨ slotWk c.slot = wk then some (i, c, r) else none
      | none => none
    | none => none)).head?

/-- Number of an engine (CMD ENG). -/
def engNum : Eng → Nat
  | .mat => 0
  | .vec => 1
  | .ld => 2
  | .st => 3

/-- COMMAND_STEP: committed staging retires first, then (LD) a pending halo push, then the running command's next step. -/
def execCommandStep (t : TileIx) (e : Eng) (wk : Fin 4) (s : State) : Host.Outcome State Fault Refusal :=
  let t := t.val
  if !s.runs t then idle s else
  let n := (s.tile t).staged.length
  let s1 := retire t n s
  if (s1.tile t).staged.length < n then done s s1
  else
    match (if (engNum e) = 2 then haloPush t s else none) with
    | some s' => done s s'
    | none =>
      match (s.tile t).running (engNum e) wk.val with
      | none => idle s
      | some (i, c, r) =>
        match tryStep t (engNum e) i c r s with
        | some s' => done s s'
        | none => idle s

/-- ENGINE_COMMAND_COMPLETE: the running command has made its steps (or GPOL stopped it) and its pushes are made or staged. -/
def execEngineCommandComplete (t : TileIx) (e : Eng) (wk : Fin 4) (s : State) : Host.Outcome State Fault Refusal :=
  let t := t.val
  match (s.tile t).running (engNum e) wk.val with
  | none => idle s
  | some (i, c, r) =>
    let waits := !c.spec && (s.tile t).staged.any (fun p => p.2.1 == (engNum e) && p.1 == 4)
    when_ (s.runs t && !c.dead && (decide (r.total ≤ r.made) || r.guardHit) && !waits) s (completeCmd t (engNum e) i c r s)

/-! ### The rows -/

/-- LD_LDQ (R135). -/
def execLdLdq (t : TileIx) (s : State) : Host.Outcome State Fault Refusal := fireOp t.val 2 1 s
/-- LD_LDW (R168, R169). -/
def execLdLdw (t : TileIx) (s : State) : Host.Outcome State Fault Refusal := fireOp t.val 2 2 s
/-- LD_LDT (R448). -/
def execLdLdt (t : TileIx) (s : State) : Host.Outcome State Fault Refusal := fireOp t.val 2 3 s
/-- ST_STQ (R135). -/
def execStStq (t : TileIx) (s : State) : Host.Outcome State Fault Refusal := fireOp t.val 3 1 s
/-- ST_STL (R162). -/
def execStStl (t : TileIx) (s : State) : Host.Outcome State Fault Refusal := fireOp t.val 3 2 s
/-- VEC_ADD (R154). -/
def execVecAdd (t : TileIx) (s : State) : Host.Outcome State Fault Refusal := fireOp t.val 1 0x01 s
/-- VEC_SUB (R154). -/
def execVecSub (t : TileIx) (s : State) : Host.Outcome State Fault Refusal := fireOp t.val 1 0x02 s
/-- VEC_MUL (R154). -/
def execVecMul (t : TileIx) (s : State) : Host.Outcome State Fault Refusal := fireOp t.val 1 0x03 s
/-- VEC_MAX (R154). -/
def execVecMax (t : TileIx) (s : State) : Host.Outcome State Fault Refusal := fireOp t.val 1 0x04 s
/-- VEC_MIN (R154). -/
def execVecMin (t : TileIx) (s : State) : Host.Outcome State Fault Refusal := fireOp t.val 1 0x05 s
/-- VEC_CMPGT (R154). -/
def execVecCmpgt (t : TileIx) (s : State) : Host.Outcome State Fault Refusal := fireOp t.val 1 0x06 s
/-- VEC_SEL (R154). -/
def execVecSel (t : TileIx) (s : State) : Host.Outcome State Fault Refusal := fireOp t.val 1 0x07 s
/-- VEC_ABS (R154). -/
def execVecAbs (t : TileIx) (s : State) : Host.Outcome State Fault Refusal := fireOp t.val 1 0x08 s
/-- VEC_SHR (R154). -/
def execVecShr (t : TileIx) (s : State) : Host.Outcome State Fault Refusal := fireOp t.val 1 0x09 s
/-- VEC_RQ (R152, R153, R142). -/
def execVecRq (t : TileIx) (s : State) : Host.Outcome State Fault Refusal := fireOp t.val 1 0x0A s
/-- VEC_ACT (R157). -/
def execVecAct (t : TileIx) (s : State) : Host.Outcome State Fault Refusal := fireOp t.val 1 0x0B s
/-- VEC_RSUM (R154). -/
def execVecRsum (t : TileIx) (s : State) : Host.Outcome State Fault Refusal := fireOp t.val 1 0x0C s
/-- VEC_RMAX (R154). -/
def execVecRmax (t : TileIx) (s : State) : Host.Outcome State Fault Refusal := fireOp t.val 1 0x0D s
/-- VEC_CVT (R156). -/
def execVecCvt (t : TileIx) (s : State) : Host.Outcome State Fault Refusal := fireOp t.val 1 0x0E s
/-- VEC_AND (R154). -/
def execVecAnd (t : TileIx) (s : State) : Host.Outcome State Fault Refusal := fireOp t.val 1 0x0F s
/-- VEC_OR (R154). -/
def execVecOr (t : TileIx) (s : State) : Host.Outcome State Fault Refusal := fireOp t.val 1 0x10 s
/-- VEC_XOR (R154). -/
def execVecXor (t : TileIx) (s : State) : Host.Outcome State Fault Refusal := fireOp t.val 1 0x11 s
/-- VEC_MOV (R154). -/
def execVecMov (t : TileIx) (s : State) : Host.Outcome State Fault Refusal := fireOp t.val 1 0x12 s
/-- MAT_WLOAD (R447). -/
def execMatWload (t : TileIx) (s : State) : Host.Outcome State Fault Refusal := fireOp t.val 0 1 s
/-- MAT_MMA (R147, R150). -/
def execMatMma (t : TileIx) (s : State) : Host.Outcome State Fault Refusal := fireOp t.val 0 2 s
/-- MAT_DMMA (R173). -/
def execMatDmma (t : TileIx) (s : State) : Host.Outcome State Fault Refusal := fireOp t.val 0 3 s
/-- MAT_READ (R149). -/
def execMatRead (t : TileIx) (s : State) : Host.Outcome State Fault Refusal := fireOp t.val 0 4 s
/-- MAT_CLR (R142). -/
def execMatClr (t : TileIx) (s : State) : Host.Outcome State Fault Refusal := fireOp t.val 0 5 s

/-! ### Squash (R234) and discard (R348) -/

/-- Remove the commands of tile t that `gone` picks: their awaits are discarded (R131); `squash` counts and traces them. -/
def discardCmds (t : Nat) (squash : Bool) (gone : QCmd → Nat → Bool) (s : State) : State :=
  let s := each (List.range 4) s (fun s e =>
    let out := ((s.tile t).queue e).filter (fun c => gone c e)
    let s := s.modTile t (fun x =>
      { (x.setQueue e ((x.queue e).filter (fun c => !gone c e))) with
        awaits := x.awaits.filter (fun a => !a.cmds.any (fun p => p.1 == e && out.any (fun c => c.bound.isSome && c.tag == p.2))) })
    if squash then
      each out (s.count (cTile t (22 + e)) out.length) (fun s c => tileTrace t 3 e c.tag c.key 0 s)
    else s)
  reportDone t s

/-- Drop staged effects that `gone` picks, with the awaits of completions among them. -/
def discardStaged (t : Nat) (gone : Nat × Nat × Nat × Staged → Bool) (s : State) : State :=
  s.modTile t (fun x =>
    let fins := (x.staged.filter gone).filterMap (fun p => match p.2.2.2 with | .fin e tag => some (e, tag) | _ => none)
    { x with staged := x.staged.filter (fun p => !gone p),
             awaits := x.awaits.filter (fun a => !a.cmds.any (fun p => fins.contains p)) })

end Sys2Proof.Machine
end

