-- ==== Sys2Proof/Machine/Cond.lean ====
section
/-! DEFINITION. The dispatch unit (09): dispatch, gather and loop gate, the group table, and their commands. -/
namespace Sys2Proof.Machine

/-- The dispatch unit's registers in effect (09, Registers). -/
structure Dsp where
  en : Bool
  func : Nat
  grp : Bool
  pad : Bool
  thresh : Bool
  nexp : Nat
  kmax : Nat
  tu : Nat
  b : Nat
  cap : Nat
  qa : Nat
  qb : Nat
  oa : Nat
  ob : Nat
  oc : Nat
  maxTrip : Nat
  limit : Nat
  thr : Int
deriving DecidableEq, Repr

def State.dsp (s : State) (t : Nat) : Dsp :=
  let c := (s.act (aTileDspCfg t)).toNat
  let q := (s.act (aTileDspQ t)).toNat
  let h := (s.act (aTileDspThr t)).toNat
  { en := nbit c 31, func := nbits c 29 2, grp := nbit c 28, pad := nbit c 27 && nbit c 28, thresh := nbit c 26,
    nexp := nbits c 23 3 + 1, kmax := nbits c 20 3 + 1, tu := nbits c 16 4 + 1, b := nbits c 10 6 + 1, cap := nbits c 3 7,
    qa := nbits q 28 3, qb := nbits q 24 3, oa := nbits q 20 3, ob := nbits q 16 3, oc := nbits q 12 3,
    maxTrip := nbits h 24 4, limit := nbits h 16 6 + 1, thr := sgn 16 (nbits h 0 16) }

def State.disp (s : State) (t : Nat) : Disp := (s.tile t).disp
def State.modDisp (s : State) (t : Nat) (f : Disp → Disp) : State := s.modTile t (fun x => { x with disp := f x.disp })

/-- Whether IQ q holds at least n entries that may be popped. -/
def State.holds (s : State) (t q n : Nat) : Bool :=
  decide (n ≤ (s.iq t q).length) && (match s.watcher t q with | some g => decide (n ≤ (s.seq g).seen) | none => true)

/-- Pop n entries of IQ q. -/
def popN (t q : Nat) : Nat → State → List Entry × State
  | 0, s => ([], s)
  | n + 1, s =>
    match popIq t q s with
    | (some e, s) => let (es, s) := popN t q n s; (e :: es, s)
    | (none, s) => ([], s)

/-- The unit raises a fault of class S against each stream named, and stops until a drain (R181, R190, R193). -/
def dspFault (t code : Nat) (ws : List Word) (q : Nat) (s : State) : State :=
  let s := s.modDisp t (fun d => { d with stuck := true })
  if code = 0x02 then
    let firsts := ws.foldl (fun (a : List Word) w => if a.any (fun b => strOf b == strOf w) then a else a ++ [w]) []
    each firsts s (fun s w => tileS t 0x02 7 w none q 0 s)
  else each (ws.take 1) s (fun s w => tileS t code 7 w none 0 0 s)

/-- Push what waits, in order, while the OQs have space (R180); an unbound OQ raises QUEUE_PROTOCOL (R93). -/
def dspFlush (t : Nat) : Nat → State → State
  | 0, s => s
  | f + 1, s =>
    match (s.disp t).out with
    | [] => s
    | (q, e) :: rest =>
      let drop := s.modDisp t (fun d => { d with out := rest })
      if !(s.qbind t (8 + q)).bound then dspFlush t f (tileS t 0x02 7 (keyOf e.side) none (8 + q) 0 drop)
      else if 64 ≤ (s.oq t q).length then s
      else dspFlush t f (drop.setOq t q (drop.oq t q ++ [e]))

/-- Flush all that can be. -/
def dspPush (t : Nat) (s : State) : State := dspFlush t (s.disp t).out.length s

/-- An event of the unit: it must run in function `func`; what waits for an OQ goes first, and new work only when nothing waits. -/
def dspEvent (t func : Nat) (s : State) (work : Dsp → State → Option State) : Host.Outcome State Fault Refusal :=
  let d := s.dsp t
  if !(s.runs t && d.en && decide (d.func = func) && !(s.disp t).stuck) then idle s
  else if !(s.disp t).out.isEmpty then done s (dspPush t s)
  else
    match work d s with
    | some s' => done s (dspPush t s')
    | none => idle s

/-- A trip report: 1 to TIDEMARK[TMB + 2n + k] for stream n (R195). -/
def tripReport (t n k : Nat) (s : State) : State :=
  let w := (s.act (aTileDspTm t)).toNat
  if !nbit w 31 then s else
  mgmtSend ⟨t, endpoint (regionOf t), 1, 0, none, some ⟨.disp t, (nbits w 0 13 + 2 * n + k) % 8192, n, some 1⟩⟩ s

/-! ### Dispatch (R181 to R188, R194) -/

/-- S[e] of a route entry. -/
def score (r : Entry) (e : Nat) : Int := sgn 16 (nbits r.pay.toNat (16 * e) 16)

/-- Insert a candidate by score descending, then number ascending. -/
def rankIn (x : Int × Nat) : List (Int × Nat) → List (Int × Nat)
  | [] => [x]
  | y :: ys => if y.1 < x.1 ∨ (y.1 = x.1 ∧ x.2 < y.2) then x :: y :: ys else y :: rankIn x ys

def ranked (xs : List (Int × Nat)) : List Nat := (xs.foldl (fun a x => rankIn x a) []).map (·.2)

/-- Threshold routing of one token (R183): the mask, the loads, the refused experts. -/
def routeOne (d : Dsp) (load : Tab Nat) (r : Entry) : Nat × Tab Nat × List Nat :=
  let cand := if psnOf r.side then [] else
    (ranked (((List.range d.nexp).filter (fun e => d.thr ≤ score r e)).map (fun e => (score r e, e)))).take d.kmax
  cand.foldl (fun (m, l, o) e =>
    if tget 0 l e < d.cap then (m ||| 2 ^ e, tset 0 l e (tget 0 l e + 1), o) else (m, l, o ++ [e])) (0, load, [])

/-- Capacity routing of a block (R184): the masks in order, the refusals per expert. -/
def routeBlock (d : Dsp) (rs : List Entry) : List Nat × List Nat :=
  let picks := (List.range d.nexp).map (fun e =>
    ranked (((List.range rs.length).filter (fun i => match rs[i]? with
      | some r => !psnOf r.side && decide (d.thr ≤ score r e)
      | none => false)).map (fun i => (match rs[i]? with | some r => score r e | none => 0, i))))
  ((List.range rs.length).map (fun i =>
     (List.range d.nexp).foldl (fun m e => if ((nth picks e []).take d.cap).contains i then m ||| 2 ^ e else m) 0),
   picks.map (fun p => p.length - d.cap))

/-- A sideband with EOFR cleared, or set. -/
def noEofr (w : Word) : Word := w &&& ~~~(4#32)
def setEofr (w : Word) : Word := w ||| 4#32

/-- A token's entries as copies: EOFR 0. -/
def copies (es : List Entry) : List Entry := es.map (fun e => { e with side := noEofr e.side })

/-- Set EOFR on the last of a list of entries. -/
def markLast (es : List Entry) : List Entry :=
  match es.reverse with
  | [] => []
  | e :: r => (({ e with side := setEofr e.side } : Entry) :: r).reverse

/-- Sideband of a record or table entry (R188). -/
def plainSide (key route : Word) : Word := sideOf (strOf key) (frameOf key) (iterOf key) false false (govOf route) (psnOf route)

/-- A record and its residual copy (R185); the frame's last token ends the frame on the record OQ. -/
def recordOf (tk : Token) (pos : Nat) (bend eof : Bool) : List Entry :=
  let key := keyOf ((tk.es.head?.map (·.side)).getD 0)
  let w := nbits tk.route.pay.toNat 128 64
  let p := tk.mask + (2 * b2n bend + b2n (decide (tk.mask = 0))) * 2 ^ 8 + pos * 2 ^ 16 + w * 2 ^ 64
  let es := (⟨BitVec.ofNat 256 p, plainSide key tk.route.side⟩ : Entry) :: copies tk.es
  if eof then markLast es else es

/-- Add a group of entries to what OQ q holds back (R188). -/
def holdBack (q : Nat) (es : List Entry) (d : Disp) : Disp :=
  if es.isEmpty then d else { d with held := tset [] d.held q (tget [] d.held q ++ [es]) }

/-- The (STREAM, FRAME) of a group. -/
def groupSf (es : List Entry) : Nat := sfOf ((es.head?.map (·.side)).getD 0)

/-- A held group may go: a later group of its frame follows on the OQ, or it ends its frame. -/
def mayGo (es : List Entry) (later : List (List Entry)) : Bool :=
  later.any (fun g => groupSf g == groupSf es) || (match es.getLast? with | some e => eofrOf e.side | none => true)

/-- Release from the front what may go. -/
def releaseGroups : List (List Entry) → List Entry × List (List Entry)
  | [] => ([], [])
  | g :: gs => if mayGo g gs then let (o, r) := releaseGroups gs; (g ++ o, r) else ([], g :: gs)

/-- Move what may go from the held groups of every OQ to the pushes. -/
def releaseHeld (d : Disp) : Disp :=
  (List.range 8).foldl (fun d q =>
    let (o, r) := releaseGroups (tget [] d.held q)
    { d with held := tset [] d.held q r, out := d.out ++ o.map (fun e => (q, e)) }) d

/-- Set EOFR on the last held group of the frame: index of that group. -/
def endGroups (sf : Nat) (gs : List (List Entry)) : List (List Entry) :=
  match (gs.reverse.findIdx? (fun g => groupSf g == sf)) with
  | none => gs
  | some i => (gs.reverse.modify i markLast).reverse

/-- The frame's last token is decided: the last group of the frame held on each OQ carries EOFR. -/
def endFrame (sf : Nat) (d : Disp) : Disp :=
  { d with held := (List.range 8).foldl (fun h q => tset [] h q (endGroups sf (tget [] h q))) d.held }

/-- Send one token in spatial mode: record and residual, then the copies in ascending e (R186). -/
def sendToken (c : Dsp) (tk : Token) (pos : Nat) (bend eof : Bool) (d : Disp) : Disp :=
  let d := { d with out := d.out ++ (recordOf tk pos bend eof).map (fun e => (c.oc, e)) }
  let d := (List.range c.nexp).foldl (fun d e => if nbit tk.mask e then holdBack e (copies tk.es) d else d) d
  let d := if eof then endFrame (groupSf tk.es) d else d
  releaseHeld d

/-- Send a decided block in grouped mode (R187, R194). -/
def sendGrouped (t : Nat) (c : Dsp) (ts : List Token) (eof : Bool) (d : Disp) : Disp :=
  let n := ts.length
  let recs := (List.range n).flatMap (fun i => match ts[i]? with
    | some tk => recordOf tk i (decide (i + 1 = n)) (eof && decide (i + 1 = n))
    | none => [])
  let lastTk := ts.getLast?
  let key := keyOf ((lastTk.bind (fun tk => tk.es.head?.map (·.side))).getD 0)
  let rside := (lastTk.map (fun tk => tk.route.side)).getD 0
  let group := fun e => ts.filter (fun tk => nbit tk.mask e)
  let tab := (List.range c.nexp).map (fun e =>
    let bend := decide (e + 1 = c.nexp)
    let count := if c.pad then c.cap else (group e).length
    let p := count + (Config.expertOffset t e).toNat * 2 ^ 16 + e * 2 ^ 29 + b2n bend * 2 ^ 32
    let side := plainSide key rside
    (⟨BitVec.ofNat 256 p, if eof && bend then setEofr side else side⟩ : Entry))
  let padTok : List Entry := List.replicate c.tu ⟨0, key⟩
  let toks := (List.range c.nexp).flatMap (fun e =>
    (group e).map (fun tk => copies tk.es) ++ (if c.pad then List.replicate (c.cap - (group e).length) padTok else []))
  let d := { d with out := d.out ++ recs.map (fun e => (c.oc, e)) ++ tab.map (fun e => (c.ob, e)) }
  let d := toks.foldl (fun d g => holdBack c.oa g d) d
  let d := if eof then endFrame (groupSf ((lastTk.map (·.es)).getD [])) d else d
  releaseHeld d

/-- Count skips and refusals (R185). -/
def countDsp (t skips : Nat) (refused : List Nat) (s : State) : State :=
  let s := s.count (cTile t 28) skips
  each (List.range 8) s (fun s e => s.count (cTile t (29 + e)) (nth refused e 0))

/-- Decide and send a token, its block ending with it or not. -/
def dispatchToken (t : Nat) (c : Dsp) (es : List Entry) (route : Entry) (s : State) : State :=
  let d := s.disp t
  let key := keyOf ((es.head?.map (·.side)).getD 0)
  let eof := match es.getLast? with | some e => eofrOf e.side | none => false
  let pos := d.block.length
  let bend := eof || decide (pos + 1 = c.b)
  let (mask, load, ref) := if c.thresh then routeOne c d.load route else (0, d.load, [])
  let s := if c.thresh then
      countDsp t (b2n (decide (mask = 0))) ((List.range 8).map (fun e => b2n (ref.contains e))) s
    else s
  let block := d.block ++ [⟨es, route, mask⟩]
  let (block, s) := if bend && !c.thresh then
      let (masks, refused) := routeBlock c (block.map (·.route))
      let block := List.zipWith (fun (tk : Token) m => ({ tk with mask := m } : Token)) block masks
      (block, countDsp t ((block.filter (fun tk => tk.mask == 0)).length) refused s)
    else (block, s)
  let d := { d with load := if bend then [] else load, block := if bend then [] else block }
  let d :=
    if c.grp then (if bend then sendGrouped t c block eof d else d)
    else if c.thresh then
      match block.getLast? with
      | some tk => sendToken c tk pos bend eof d
      | none => d
    else if bend then
      (List.range block.length).foldl (fun d i => match block[i]? with
        | some tk => sendToken c tk i (decide (i + 1 = block.length)) (eof && decide (i + 1 = block.length)) d
        | none => d) d
    else d
  let s := s.modDisp t (fun _ => d)
  let s := if bend then tripReport t (strOf key) 0 s else s
  if eof then tripReport t (strOf key) 1 s else s

/-- DISPATCH_TOKEN. -/
def execDispatchToken (t : TileIx) (s : State) : Host.Outcome State Fault Refusal :=
  dspEvent t.val 0 s (fun c s =>
    let t := t.val
    match s.headOf t c.qa, s.headOf t c.qb with
    | some a, some r =>
      if keyOf a.side ≠ keyOf r.side then some (dspFault t 0x02 [keyOf a.side, keyOf r.side] c.qa s)
      else if !s.holds t c.qa c.tu then none
      else
        let (es, s) := popN t c.qa c.tu s
        let (rs, s) := popN t c.qb 1 s
        some (dispatchToken t c es (rs.headD ⟨0, 0⟩) s)
    | some a, none => if (s.qbind t c.qb).bound then none else some (dspFault t 0x02 [keyOf a.side] c.qb s)
    | none, some r => if (s.qbind t c.qa).bound then none else some (dspFault t 0x02 [keyOf r.side] c.qa s)
    | none, none => none)

/-! ### Gather (R189, R190) -/

/-- 32 lanes of an entry as int8. -/
def lanes8 (p : Pay) : List Int := (lanes 8 32 p.toNat).map (sgn 8)

/-- W[e] of a record. -/
def gateWeight (r : Entry) (e : Nat) : Int := (nbits r.pay.toNat (64 + 8 * e) 8 : Nat)

/-- The combined lane. -/
def combine (sum : Int) : Nat := pat 8 (satS 8 ((sum + 128) / 256))

/-- OR the flags of entries into a sideband. -/
def withFlags (w : Word) (es : List Entry) : Word :=
  BitVec.ofNat 32 (w.toNat / 4 * 4 + 2 * b2n (govOf w || es.any (fun e => govOf e.side)) + b2n (psnOf w || es.any (fun e => psnOf e.side)))

/-- Spatial gather: the head record's token, when its residual and every expert output are present. -/
def gatherSpatial (t : Nat) (c : Dsp) (s : State) : Option State :=
  match s.headOf t c.qa with
  | none => none
  | some r =>
    let mask := nbits r.pay.toNat 0 8
    let exps := setBits mask
    if exps.any (fun e => decide (c.nexp ≤ e)) then some (dspFault t 0x0C [keyOf r.side] 0 s)
    else
      match exps.find? (fun e => !(s.qbind t e).bound) with
      | some e => some (dspFault t 0x02 [keyOf r.side] e s)
      | none =>
        match exps.find? (fun e => match s.headOf t e with
            | some x => decide (keyOf x.side ≠ keyOf r.side)
            | none => false) with
        | some e => some (dspFault t 0x02 [keyOf r.side, ((s.headOf t e).map (fun x => keyOf x.side)).getD 0] e s)
        | none =>
          if !s.holds t c.qa (c.tu + 1) || exps.any (fun e => !s.holds t e c.tu) then none
          else
            let (rs, s) := popN t c.qa (c.tu + 1) s
            let (xs, s) := exps.foldl (fun (a : List (Nat × List Entry) × State) e =>
              let (es, s) := popN t e c.tu a.2
              (a.1 ++ [(e, es)], s)) ([], s)
            let fed := rs ++ xs.flatMap (·.2)
            let outs := (List.range c.tu).map (fun j =>
              let res := nth rs (j + 1) ⟨0, 0⟩
              let sums := (List.range 32).map (fun i =>
                256 * nth (lanes8 res.pay) i 0
                  + isum (xs.map (fun p => gateWeight r p.1 * nth (lanes8 (nth p.2 j ⟨0, 0⟩).pay) i 0)))
              (⟨vpay 0 (sums.map combine), withFlags res.side fed⟩ : Entry))
            some (s.modDisp t (fun d => { d with out := d.out ++ outs.map (fun e => (c.oa, e)) }))

/-- A unit of the gather buffer: part j of entry i of token k (R189). -/
def gbUnit (s : State) (t : Nat) (c : Dsp) (k i j : Nat) : Nat :=
  (nbits (s.act (aTileDspGb t)).toNat 0 13 + (k * c.tu + i) * 4 + j) % 8192

/-- Store 32 sums as int32 lanes in four units. -/
def gbPut (t : Nat) (c : Dsp) (k i : Nat) (sums : List Int) (s : State) : State :=
  each (List.range 4) s (fun s j =>
    storeWrite t (gbUnit s t c k i j) (vpay 2 (((sums.drop (8 * j)).take 8).map (pat 32))) false s)

/-- Read them back; whether a word was poisoned or uncorrectable. -/
def gbGet (t : Nat) (c : Dsp) (k i : Nat) (key : Word) (s : State) : List Int × Bool × State :=
  (List.range 4).foldl (fun (a : List Int × Bool × State) j =>
    let (p, psn, s) := cmdRead t 7 (gbUnit a.2.2 t c k i j) key 0 a.2.2
    (a.1 ++ (vlanes 2 p).map (sgn 32), a.2.1 || psn, s)) ([], false, s)

/-- The outputs a gather block awaits, in the order of R187: expert and token, or none for a padding token (R194). -/
def gatherOrder (c : Dsp) (rs : List (Entry × List Entry)) : List (Nat × Option Nat) :=
  (List.range c.nexp).flatMap (fun e =>
    let mine := (List.range rs.length).filter (fun k => match rs[k]? with
      | some r => nbit (nbits r.1.pay.toNat 0 8) e
      | none => false)
    mine.map (fun k => (e, some k)) ++ (if c.pad then List.replicate (c.cap - mine.length) (e, none) else []))

/-- Push a complete gather block. -/
def gatherPush (t : Nat) (c : Dsp) (s : State) : State :=
  let g := (s.disp t).gather
  let s := (List.range g.length).foldl (fun s k => match g[k]? with
    | none => s
    | some (r, res) => (List.range res.length).foldl (fun s i =>
        let e := nth res i ⟨0, 0⟩
        let (sums, psn, s) := gbGet t c k i (keyOf e.side) s
        let side := withFlags e.side (r :: res)
        let side := if psn then side ||| 1#32 else side
        s.modDisp t (fun d => { d with out := d.out ++ [(c.oa, ⟨vpay 0 (sums.map combine), side⟩)] })) s) s
  s.modDisp t (fun d => { d with gather := [], next := 0 })

/-- Add one expert output of token k to its sums. -/
def gatherAdd (t : Nat) (c : Dsp) (e k : Nat) (es : List Entry) (s : State) : State :=
  match (s.disp t).gather[k]? with
  | none => s
  | some (r, res) =>
    let s := (List.range es.length).foldl (fun s i =>
      let (sums, psn, s) := gbGet t c k i (keyOf r.side) s
      let x := lanes8 (nth es i ⟨0, 0⟩).pay
      let s := if psn then s.modDisp t (fun d => { d with gather := setNth d.gather k ({ r with side := r.side ||| 1#32 }, res) }) else s
      gbPut t c k i (List.zipWith (fun a b => a + gateWeight r e * b) sums x) s) s
    s.modDisp t (fun d => { d with gather := d.gather.modify k (fun p => ({ p.1 with side := withFlags p.1.side es }, p.2)) })

/-- Grouped gather: the next record with its residual, then the block's outputs in order. -/
def gatherGrouped (t : Nat) (c : Dsp) (s : State) : Option State :=
  let g := (s.disp t).gather
  let closed := match g.getLast? with | some (r, _) => nbit r.pay.toNat 9 | none => false
  if !closed then
    match s.headOf t c.qa with
    | none => none
    | some r =>
      if c.nexp < 8 ∧ nbits r.pay.toNat c.nexp (8 - c.nexp) ≠ 0 then some (dspFault t 0x0C [keyOf r.side] 0 s)
      else if !s.holds t c.qa (c.tu + 1) then none
      else
        let (rs, s) := popN t c.qa (c.tu + 1) s
        let k := g.length
        let res := rs.drop 1
        let s := (List.range res.length).foldl (fun s i =>
          gbPut t c k i ((lanes8 (nth res i ⟨0, 0⟩).pay).map (256 * ·)) s) s
        let s := s.modDisp t (fun d => { d with gather := d.gather ++ [(rs.headD ⟨0, 0⟩, res)] })
        let g := (s.disp t).gather
        if nbit r.pay.toNat 9 && (gatherOrder c g).isEmpty then some (gatherPush t c s) else some s
  else
    match (gatherOrder c g)[(s.disp t).next]? with
    | none => some (gatherPush t c s)
    | some (e, k) =>
      if !(s.qbind t c.qb).bound then some (dspFault t 0x02 [keyOf ((g.headD (⟨0, 0⟩, [])).1.side)] c.qb s) else
      match s.headOf t c.qb with
      | none => none
      | some x =>
        let want := match k with
          | some k => keyOf ((nth g k (⟨0, 0⟩, [])).1.side)
          | none => keyOf ((g.getLast?.map (·.1.side)).getD 0)
        let bad := if k.isSome then decide (keyOf x.side ≠ want) else decide (sfOf x.side ≠ sfOf want)
        if bad then some (dspFault t 0x02 [want, keyOf x.side] c.qb s)
        else if !s.holds t c.qb c.tu then none
        else
          let (es, s) := popN t c.qb c.tu s
          let s := match k with | some k => gatherAdd t c e k es s | none => s
          let s := s.modDisp t (fun d => { d with next := d.next + 1 })
          if (gatherOrder c g).length ≤ (s.disp t).next then some (gatherPush t c s) else some s

/-- GATHER_TOKEN. -/
def execGatherToken (t : TileIx) (s : State) : Host.Outcome State Fault Refusal :=
  dspEvent t.val 1 s (fun c s => if c.grp then gatherGrouped t.val c s else gatherSpatial t.val c s)

/-! ### Loop gate (R196, R197) -/

/-- LOOP_GATE_DECISION: a decision entry and its item. -/
def execLoopGateDecision (t : TileIx) (s : State) : Host.Outcome State Fault Refusal :=
  dspEvent t.val 2 s (fun c s =>
    let t := t.val
    if !s.holds t c.qb (c.tu + 1) then none else
    let (es, s) := popN t c.qb (c.tu + 1) s
    let dec := es.headD ⟨0, 0⟩
    let item := es.drop 1
    let key := keyOf ((item.head?.map (·.side)).getD 0)
    let trips := (((s.disp t).items.find? (fun p => p.1 == key)).map (·.2)).getD 0
    let on := decide (nbits dec.pay.toNat 0 16 ≠ 0) && !psnOf dec.side && decide (trips < c.maxTrip)
    let items := if on then (s.disp t).items.map (fun p => if p.1 = key then (p.1, p.2 + 1) else p)
      else (s.disp t).items.eraseP (fun p => p.1 == key)
    let s := s.modDisp t (fun d => { d with items := items, out := d.out ++ item.map (fun e => (if on then c.oa else c.ob, e)) })
    some (tripReport t (strOf key) (if on then 0 else 1) s))

/-- LOOP_GATE_ADMIT: a new item, while fewer than LIMIT are inside and no re-entry is present. -/
def execLoopGateAdmit (t : TileIx) (s : State) : Host.Outcome State Fault Refusal :=
  dspEvent t.val 2 s (fun c s =>
    let t := t.val
    if s.holds t c.qb (c.tu + 1) || !s.holds t c.qa c.tu || decide (c.limit ≤ (s.disp t).items.length) then none else
    let (es, s) := popN t c.qa c.tu s
    let key := keyOf ((es.head?.map (·.side)).getD 0)
    some (s.modDisp t (fun d => { d with items := d.items ++ [(key, 1)], out := d.out ++ es.map (fun e => (c.oa, e)) })))

/-! ### Group table (R191) -/

/-- GROUP_TABLE_POP. -/
def execGroupTablePop (t : TileIx) (s : State) : Host.Outcome State Fault Refusal :=
  let t := t.val
  let w := (s.act (aTileGtCfg t)).toNat
  let q := nbits w 28 3
  if !(s.runs t && nbit w 31 && (s.headOf t q).isSome && decide ((s.tile t).gt.length < 16)) then idle s else
  match popIq t q s with
  | (some e, s1) => done s (if s.gtEngs t = 0 then s1 else s1.modTile t (fun x => { x with gt := x.gt ++ [(e, [])] }))
  | (none, _) => idle s

/-! ### Drain and status -/

/-- Discard what the unit holds of stream n (R199); it starts again if a fault had stopped it. -/
def dspPurge (n : Nat) (d : Disp) : Disp :=
  let other := fun (e : Entry) => strOf e.side != n
  let mine := fun (es : List Entry) => match es with | e :: _ => strOf e.side == n | [] => false
  let g := if d.gather.any (fun p => strOf p.1.side == n) then [] else d.gather
  { d with block := d.block.filter (fun tk => !mine tk.es),
           load := if d.block.any (fun tk => mine tk.es) then [] else d.load,
           held := (List.range 8).foldl (fun h q => tset [] h q ((tget [] h q).filter (fun es => !mine es))) d.held,
           out := d.out.filter (fun p => other p.2), items := d.items.filter (fun p => strOf p.1 != n),
           gather := g, next := if g.isEmpty then 0 else d.next, stuck := false }

/-- R199: the unit holds nothing that a swap waits for. -/
def Disp.empty (d : Disp) : Bool :=
  d.block.isEmpty && d.gather.isEmpty && d.items.isEmpty && d.out.isEmpty && d.held.all (fun p => p.2.isEmpty)

/-- TILE_DSP_STATUS. -/
def dspStatus (x : Tile) : Nat :=
  let d := x.disp
  d.items.length % 128 * 2 ^ 25 + min x.gt.length 16 * 2 ^ 20 + b2n (!d.block.isEmpty || !d.gather.isEmpty) * 2 ^ 19
    + b2n (d.held.any (fun p => !p.2.isEmpty)) * 2 ^ 18

end Sys2Proof.Machine
end

