-- ==== Sys2Proof/Machine/Seq.lean ====
section
/-! DEFINITION. The region sequencer (10): its memory, registers, windows and traps, loop stack, instructions,
speculation, and frame notices. -/
namespace Sys2Proof.Machine

/-! ### Memory (R201, R202) -/

def Seq.ldw (x : Seq) (a : Nat) : Word := tget 0 x.mem (a / 4)
def Seq.stw (x : Seq) (a : Nat) (v : Word) : Seq :=
  { x with mem := tset 0 x.mem (a / 4) v, ecc := tset .clean x.ecc (a / 4) .clean }

/-- A read of the word at byte address a: the data, whether it is uncorrectable, SEQ_ECC counted. -/
def seqRead (g a : Nat) (s : State) : Word × Bool × State :=
  let x := s.seq g
  match tget .clean x.ecc (a / 4) with
  | .single => (x.ldw a, false, s.addSat (aSeqEcc g) 0 16 1)
  | .double => ((Config.badWord a ((x.ldw a).setWidth 64)).setWidth 32, true, s.addSat (aSeqEcc g) 16 16 1)
  | _ => (x.ldw a, false, s)

/-- LW may read: the active code plane, scratch, the trap save frame, word-aligned (R201, R205). -/
def lwOk (a : Nat) : Bool := decide (a % 4 = 0 ∧ (a < 0xC000 ∨ (0x18000 ≤ a ∧ a < 0x20000)))
/-- SW may write: scratch, word-aligned. -/
def swOk (a : Nat) : Bool := decide (a % 4 = 0 ∧ 0x18000 ≤ a ∧ a < 0x1FFC0)

/-! ### Registers and windows (R207) -/

/-- Where register n (8 to 23) of window w stands: p0–p3 are q0–q3 of the window below. -/
def winIx (w n : Nat) : Nat := if n < 12 then (w + 6) % 7 * 16 + n else w * 16 + (n - 12)

/-- Read register n; z and reserved numbers read zero. -/
def Seq.reg (x : Seq) (n : Nat) : Word :=
  if n < 8 then tget 0 x.g n else if n < 24 then tget 0 x.win (winIx x.cwp n) else 0

/-- Write register n; z ignores writes. -/
def Seq.setReg (x : Seq) (n : Nat) (v : Word) : Seq :=
  if n < 8 then { x with g := tset 0 x.g n v }
  else if n < 24 then { x with win := tset 0 x.win (winIx x.cwp n) v } else x

/-- KEY.VALID. -/
def Seq.keyOk (x : Seq) : Bool := nbit x.key.toNat 0
/-- The trap save frame's base. -/
def trapBase : Nat := 0x1FFC0
/-- Bits of SPST: open SIDs, and those resolved as commit that wait on an older one. -/
def Seq.spst (x : Seq) : Nat :=
  x.sids.foldl (fun n d => n ||| 2 ^ d.sid ||| (if d.committed then 2 ^ (4 + d.sid) else 0)) 0
/-- LIDX of level Ln, 0 when inactive. -/
def Seq.lidx (x : Seq) (n : Nat) : Nat := match x.loops.reverse[n]? with | some l => l.2.1 | none => 0

/-- R212: write the trap save frame. -/
def saveFrame (code kind : Nat) (word : Word) (x : Seq) : Seq :=
  let ws : List Word := [BitVec.ofNat 32 x.pc, word, BitVec.ofNat 32 (code * 256 + kind),
    BitVec.ofNat 32 (x.cwp * 2 ^ 16 + x.resident * 2 ^ 12 + x.loops.length * 2 ^ 8 + x.spst % 16),
    x.reg 7, BitVec.ofNat 32 x.spill, x.key, BitVec.ofNat 32 x.tmask]
  (List.range 16).foldl (fun x i => x.stw (trapBase + 4 * i) (nth ws i 0)) x

/-! ### Speculation (R227 to R236) -/

/-- Cancel the kicks that `gone` picks by their speculation (R231). -/
def cancelKicks (gone : Nat × Nat → Bool) (s : State) : State :=
  let hit := fun (k : Kick) => match k.spec with | some p => gone p | none => false
  each (s.ferries.map (·.1)) s (fun s f =>
    let x := s.ferry f
    let x := { x with kicks := x.kicks.filter (fun k => !hit k) }
    match x.cur with
    | some k => (if hit k then s.count (ferryPage f + 0x88) x.staged.length else s).setFerry f (if hit k then
        { x with cur := none, at_ := 0, block := none, started := false, rd := 0, wr := 0, inflight := 0, staged := [], tag := false }
        else x)
    | none => s.setFerry f x)

/-- The SIDs of x from `sid` on, the younger ones included; `sids` is oldest first. -/
def Seq.fromSid (x : Seq) (sid : Nat) : List Nat := (x.sids.dropWhile (fun d => d.sid != sid)).map (·.sid)

/-- Discard the commands, staging and kicks of the SIDs `ds` of region g, and forget those SIDs (R230, R234). -/
def dropSids (g : Nat) (ds : List Nat) (s : State) : State :=
  let s := each (tilesOf g) s (fun s t =>
    discardStaged t (fun p => ds.contains p.1) (discardCmds t true (fun c _ => c.spec && ds.contains c.sid) s))
  let s := cancelKicks (fun p => p.1 == g && ds.contains p.2) s
  let s := each ds s (fun s d => seqTrace g 10 (s.seq g).key d 0 (s.count (cSeq g 14) 1))
  s.modSeq g (fun x => { x with sids := x.sids.filter (fun d => !ds.contains d.sid) })

/-- Squash `sid` and every younger one, restore its checkpoint and continue at its squash target (R230). -/
def squashSid (g sid : Nat) (s : State) : State :=
  match (s.seq g).sids.find? (fun d => d.sid == sid) with
  | none => s
  | some d =>
    let s := dropSids g ((s.seq g).fromSid sid) s
    s.modSeq g (fun x =>
      let x := { x with g := d.g, loops := d.loops, key := d.key, tmask := d.tmask, spill := d.spill, pc := d.onSquash,
                        wait := 0, waitIdx := none, granted := false }
      (List.range 16).foldl (fun x i => x.setReg (8 + i) (nth d.regs i 0)) x)

/-- The commands of SID `sid` lose SPEC, its staging retires, its kicks go on (R229, R232). -/
def commitSid (g sid : Nat) (s : State) : State :=
  let s := each (tilesOf g) s (fun s t =>
    let s := s.modTile t (fun x =>
      let x := { x with staged := x.staged.map (fun p => if p.1 = sid then (4, p.2) else p) }
      (List.range 4).foldl (fun x e => x.setQueue e ((x.queue e).map (fun c =>
        if c.spec && c.sid == sid then { c with cmd := c.cmd &&& ~~~(BitVec.ofNat 128 (2 ^ 103)) } else c))) x)
    retire t (s.tile t).staged.length s)
  let s := each (s.ferries.map (·.1)) s (fun s f =>
    let x := s.ferry f
    let free := fun (k : Kick) => if k.spec = some (g, sid) then { k with spec := none } else k
    s.setFerry f { x with kicks := x.kicks.map free, cur := x.cur.map free })
  let s := seqTrace g 10 (s.seq g).key (256 + sid) 0 (s.count (cSeq g 13) 1)
  s.modSeq g (fun x => { x with sids := x.sids.filter (fun d => d.sid != sid) })

/-- Commits that no older open SID holds back take effect, oldest first (R229). -/
def settleSids (g : Nat) : Nat → State → State
  | 0, s => s
  | f + 1, s =>
    match (s.seq g).sids with
    | d :: _ => if d.committed then settleSids g f (commitSid g d.sid s) else s
    | [] => s

/-- A tidemark reaches a target (R227). -/
def State.reaches (s : State) (i t : Nat) : Bool := decide (((s.tm i).count % 65536 + 65536 - t) % 65536 < 32768)

/-- SID_COMMIT: the sequencer first observes the commit tidemark at its target (R228, R229). -/
def execSidCommit (g : RegionIx) (sid : Fin 4) (s : State) : Host.Outcome State Fault Refusal :=
  let g := g.val
  match (s.seq g).sids.find? (fun d => d.sid == sid.val) with
  | none => idle s
  | some d =>
    if d.committed || !s.reaches d.cIdx d.cTgt || !s.live g then idle s else
    done s (settleSids g 4 (s.modSeq g (fun x =>
      { x with sids := x.sids.map (fun e => if e.sid = sid.val then { e with committed := true } else e) })))

/-- SID_SQUASH: it first observes the squash tidemark at its target; a commit observed too prevails (R228, R230). -/
def execSidSquash (g : RegionIx) (sid : Fin 4) (s : State) : Host.Outcome State Fault Refusal :=
  let g := g.val
  match (s.seq g).sids.find? (fun d => d.sid == sid.val) with
  | none => idle s
  | some d =>
    when_ (!d.committed && !s.reaches d.cIdx d.cTgt && s.reaches d.sIdx d.sTgt && s.live g) s (squashSid g sid.val s)

/-! ### Faults (R204 to R206, R210, R211) -/

/-- Steps 2 to 6 of R206. -/
def seqRestart (g : Nat) (s : State) : State :=
  let s := dropSids g ((s.seq g).sids.map (·.sid)) s
  let base := nbits (s.act (aSeqSpillBase g)).toNat 6 11 * 64
  let pc := nbits (s.act (aSeqRestart g)).toNat 2 15 * 4
  s.modSeq g (fun x => { x with loops := [], key := BitVec.ofNat 32 (x.key.toNat / 2 * 2), depth := 0, spill := base,
                                cwp := 0, resident := 1, pc := pc, wait := 0, waitIdx := none, granted := false })

/-- The record of a sequencer fault. -/
def seqRecord (g cls code detail : Nat) (x : Seq) : FaultAt :=
  { cls := cls, code := code, stream := if x.keyOk then some (strOf x.key) else none,
    frame := if x.keyOk then some (frameOf x.key) else none, detail := detail, region := g, unit := 9, index := x.pc }

/-- A fault of class S against KEY.STREAM, or of class G when KEY is not valid (R206). -/
def seqFault (g code detail : Nat) (word : Word) (s : State) : State :=
  let x := s.seq g
  let s := s.modSeq g (saveFrame code 2 word)
  let s := seqTrace g 9 x.key code 0 s
  if x.keyOk then seqRestart g (raiseS (seqRecord g 1 code detail x) (strOf x.key) s)
  else raiseG (seqRecord g 2 code detail x) g s

/-- A class G fault of the sequencer; `trap` sets SEQ_STATUS.HALTED (R202, R210, R211). -/
def seqFaultG (g code : Nat) (trap : Bool) (word : Word) (s : State) : State :=
  let x := s.seq g
  let s := s.modSeq g (fun x => { saveFrame code 2 word x with trapped := x.trapped || trap })
  raiseG (seqRecord g 2 code 0 x) g (seqTrace g 9 x.key code 0 s)

/-! ### Issue (R203, R214, R215) -/

/-- What an instruction does: falls through, jumps, waits with a WAIT code, or raises. -/
inductive SeqRes where
  | next (s : State)
  | jump (a : Nat) (s : State)
  | hold (code : Nat) (s : State)
  | illegal
  | lost (s : State)
  | ended (s : State)

/-- The address after the instruction at `a` completes without a jump, with the loop stack (R215). -/
def fallThrough (a : Nat) : List (Nat × Nat × Nat × Nat × Nat) → Nat × List (Nat × Nat × Nat × Nat × Nat)
  | [] => (a + 4, [])
  | (n, i, st, first, last) :: rest =>
    if last = a then
      if 0 < n then (first, (n - 1, i + 1, st, first, last) :: rest) else fallThrough a rest
    else (a + 4, (n, i, st, first, last) :: rest)

/-- Show a WAIT code; its begin and end are traced (17, Trace). -/
def seqWait (g code : Nat) (s : State) : State :=
  let x := s.seq g
  if x.wait = code then s
  else
    let s := if x.wait ≠ 0 then seqTrace g 7 x.key 0 0 s else s
    let s := if code ≠ 0 then seqTrace g 6 x.key code 0 s else s
    s.modSeq g (fun x => { x with wait := code })

/-- Count an issue and go on at address a. -/
def seqGo (g a : Nat) (s : State) : State :=
  (seqWait g 0 (s.count (cSeq g 0) 1)).modSeq g (fun x => { x with pc := a % 0x20000, step := false })

/-- The sequencer may issue: clock, no GSR, not halted, not held, not in debug halt (or stepping). -/
def State.seqRuns (s : State) (g : Nat) : Bool :=
  s.live g && !s.gsr g && !s.bit (aSeqCtl g) 0 && (!(s.seq g).dhalt || (s.seq g).step)

/-- The breakpoint is reached (R395). -/
def State.seqBreak (s : State) (g : Nat) : Bool :=
  !(s.seq g).dhalt && s.bit (aSeqDbgCtl g) 29 && decide (s.f (aSeqDbgCtl g) 2 15 * 4 = (s.seq g).pc)

/-- Issue the instruction at PC if its opcode is `op`. `legal` is its encoding (R204), `key` that it needs a valid KEY
(R205), `cp` that it is a commit point (R231). A fault under speculation is held with WAIT 5 (R235). -/
def seqIssue (g op : Nat) (legal : Nat → Bool) (key : Bool) (cp : Nat → Bool) (body : Nat → State → SeqRes) (s : State) :
    Host.Outcome State Fault Refusal :=
  let x := s.seq g
  if !s.seqRuns g then idle s
  else if s.seqBreak g then done s (s.modSeq g (fun x => { x with dhalt := true }))
  else
    let spec := !x.sids.isEmpty
    let raise1 := fun (code detail : Nat) (w : Word) (s : State) =>
      if spec then seqWait g 5 s else seqFault g code detail w s
    if 0xC000 ≤ x.pc then done s (raise1 0x06 0 0 s)
    else
      let (w, bad, s1) := seqRead g x.pc s
      let n := w.toNat
      if bad then done s (if spec then seqWait g 5 s1 else seqFaultG g 0x04 false w s1)
      else if nbits n 26 6 ≠ op then idle s
      else if !legal n then done s (raise1 0x01 7 w s1)
      else if spec && cp n then done s (seqWait g 5 s1)
      else if key && !x.keyOk then done s (raise1 0x06 0 w s1)
      else
        match body n s1 with
        | .next s2 =>
          let (a, ls) := fallThrough x.pc (s2.seq g).loops
          done s (seqGo g a (s2.modSeq g (fun x => { x with loops := ls })))
        | .jump a s2 => done s (seqGo g a s2)
        | .hold c s2 => done s (seqWait g c s2)
        | .illegal => done s (raise1 0x06 0 w s1)
        | .lost s2 => done s (if spec then seqWait g 5 s2 else seqFaultG g 0x04 false w s2)
        | .ended s2 => done s s2

/-! ### Fields and encodings -/

def rdF (n : Nat) : Nat := nbits n 21 5
def raF (n : Nat) : Nat := nbits n 16 5
def rbF (n : Nat) : Nat := nbits n 11 5
def immF (n : Nat) : Nat := nbits n 0 16
/-- IMM sign-extended. -/
def immS (n : Nat) : Word := BitVec.ofInt 32 (sgn 16 (nbits n 0 16))
def regOk (n : Nat) : Bool := decide (n ≤ 24)
def legR (n : Nat) : Bool := regOk (rdF n) && regOk (raF n) && regOk (rbF n) && decide (nbits n 0 11 = 0)
def legI (n : Nat) : Bool := regOk (rdF n) && regOk (raF n)
def legZero (n : Nat) : Bool := decide (nbits n 0 26 = 0)
/-- R format with RA only. -/
def legRa (n : Nat) : Bool := regOk (raF n) && decide (rdF n = 0) && decide (nbits n 0 16 = 0)
/-- R format with RA and RB. -/
def legRaRb (n : Nat) : Bool := regOk (raF n) && regOk (rbF n) && decide (rdF n = 0) && decide (nbits n 0 11 = 0)
/-- The target of a branch with a signed offset of w bits, counted from the next instruction. -/
def seqTarget (pc w off : Nat) : Nat := (((pc + 4 : Nat) + 4 * sgn w off) % 0x20000).toNat

/-- An instruction that writes RD with a value of the registers. -/
def seqValue (g op : Nat) (legal : Nat → Bool) (v : Nat → Seq → Word) (s : State) : Host.Outcome State Fault Refusal :=
  seqIssue g op legal false (fun _ => false) (fun n s => .next (s.modSeq g (fun x => x.setReg (rdF n) (v n x)))) s

/-- RD = RA op RB. -/
def seqAlu (g op : Nat) (f : Word → Word → Word) (s : State) : Host.Outcome State Fault Refusal :=
  seqValue g op legR (fun n x => f (x.reg (raF n)) (x.reg (rbF n))) s

/-- A conditional branch. -/
def seqBranch (g op : Nat) (p : Word → Word → Bool) (s : State) : Host.Outcome State Fault Refusal :=
  seqIssue g op (fun n => legI n) false (fun _ => false) (fun n s =>
    let x := s.seq g
    if p (x.reg (rdF n)) (x.reg (raF n)) then .jump (seqTarget x.pc 16 (immF n)) s else .next s) s

/-- The tiles TMASK selects. -/
def Seq.tiles (x : Seq) (g : Nat) : List Nat := ((List.range 16).filter (fun k => nbit x.tmask k)).map (tileOf g)

/-! ### Instructions -/

/-- SEQ_NOP. -/
def execSeqNop (g : RegionIx) (s : State) : Host.Outcome State Fault Refusal :=
  seqIssue g.val 0x00 legZero false (fun _ => false) (fun _ s => .next s) s

/-- SEQ_ADD: RD = RA + RB. -/
def execSeqAdd (g : RegionIx) (s : State) : Host.Outcome State Fault Refusal := seqAlu g.val 0x01 (fun a b => a + b) s

/-- SEQ_SUB: RD = RA − RB. -/
def execSeqSub (g : RegionIx) (s : State) : Host.Outcome State Fault Refusal := seqAlu g.val 0x02 (fun a b => a - b) s

/-- SEQ_AND: RD = RA and RB. -/
def execSeqAnd (g : RegionIx) (s : State) : Host.Outcome State Fault Refusal := seqAlu g.val 0x03 (fun a b => a &&& b) s

/-- SEQ_OR: RD = RA or RB. -/
def execSeqOr (g : RegionIx) (s : State) : Host.Outcome State Fault Refusal := seqAlu g.val 0x04 (fun a b => a ||| b) s

/-- SEQ_XOR: RD = RA xor RB. -/
def execSeqXor (g : RegionIx) (s : State) : Host.Outcome State Fault Refusal := seqAlu g.val 0x05 (fun a b => a ^^^ b) s

/-- SEQ_SLL: shift left by RB[4:0]. -/
def execSeqSll (g : RegionIx) (s : State) : Host.Outcome State Fault Refusal := seqAlu g.val 0x06 (fun a b => a <<< nbits b.toNat 0 5) s

/-- SEQ_SRL: logical shift right by RB[4:0]. -/
def execSeqSrl (g : RegionIx) (s : State) : Host.Outcome State Fault Refusal := seqAlu g.val 0x07 (fun a b => a >>> nbits b.toNat 0 5) s

/-- SEQ_SRA: arithmetic shift right by RB[4:0]. -/
def execSeqSra (g : RegionIx) (s : State) : Host.Outcome State Fault Refusal := seqAlu g.val 0x08 (fun a b => a.sshiftRight (nbits b.toNat 0 5)) s

/-- SEQ_MUL: low 32 bits of RA × RB. -/
def execSeqMul (g : RegionIx) (s : State) : Host.Outcome State Fault Refusal := seqAlu g.val 0x09 (fun a b => a * b) s

/-- SEQ_SLT: 1 if RA < RB signed. -/
def execSeqSlt (g : RegionIx) (s : State) : Host.Outcome State Fault Refusal := seqAlu g.val 0x0A (fun a b => if a.slt b then 1 else 0) s

/-- SEQ_SLTU: 1 if RA < RB unsigned. -/
def execSeqSltu (g : RegionIx) (s : State) : Host.Outcome State Fault Refusal := seqAlu g.val 0x0B (fun a b => if a.ult b then 1 else 0) s

/-- SEQ_ADDI: RD = RA + IMM, sign-extended. -/
def execSeqAddi (g : RegionIx) (s : State) : Host.Outcome State Fault Refusal :=
  seqValue g.val 0x0C legI (fun n x => x.reg (raF n) + immS n) s

/-- SEQ_ANDI: RD = RA and IMM, zero-extended. -/
def execSeqAndi (g : RegionIx) (s : State) : Host.Outcome State Fault Refusal :=
  seqValue g.val 0x0D legI (fun n x => x.reg (raF n) &&& BitVec.ofNat 32 (immF n)) s

/-- SEQ_ORI: RD = RA or IMM, zero-extended. -/
def execSeqOri (g : RegionIx) (s : State) : Host.Outcome State Fault Refusal :=
  seqValue g.val 0x0E legI (fun n x => x.reg (raF n) ||| BitVec.ofNat 32 (immF n)) s

/-- SEQ_LUI: RD = IMM << 16. -/
def execSeqLui (g : RegionIx) (s : State) : Host.Outcome State Fault Refusal :=
  seqValue g.val 0x0F (fun n => regOk (rdF n) && decide (raF n = 0)) (fun n _ => BitVec.ofNat 32 (immF n * 65536)) s

/-- SEQ_LW (R201, R202, R205). -/
def execSeqLw (g : RegionIx) (s : State) : Host.Outcome State Fault Refusal :=
  let g := g.val
  seqIssue g 0x10 legI false (fun _ => false) (fun n s =>
    let a := ((s.seq g).reg (raF n) + immS n).toNat
    if !lwOk a then .illegal else
    let (v, bad, s) := seqRead g a s
    if bad then .lost s else .next (s.modSeq g (fun x => x.setReg (rdF n) v))) s

/-- SEQ_SW (R201, R205, R231). -/
def execSeqSw (g : RegionIx) (s : State) : Host.Outcome State Fault Refusal :=
  let g := g.val
  seqIssue g 0x11 legI false (fun _ => true) (fun n s =>
    let x := s.seq g
    let a := (x.reg (raF n) + immS n).toNat
    if !swOk a then .illegal else .next (s.modSeq g (fun x => x.stw a (x.reg (rdF n))))) s

/-- SEQ_BEQ: branch if RA = RB. -/
def execSeqBeq (g : RegionIx) (s : State) : Host.Outcome State Fault Refusal := seqBranch g.val 0x12 (fun a b => a == b) s

/-- SEQ_BNE: branch if RA ≠ RB. -/
def execSeqBne (g : RegionIx) (s : State) : Host.Outcome State Fault Refusal := seqBranch g.val 0x13 (fun a b => a != b) s

/-- SEQ_BLT: branch if RA < RB, signed. -/
def execSeqBlt (g : RegionIx) (s : State) : Host.Outcome State Fault Refusal := seqBranch g.val 0x14 (fun a b => a.slt b) s

/-- SEQ_BGE: branch if RA ≥ RB, signed. -/
def execSeqBge (g : RegionIx) (s : State) : Host.Outcome State Fault Refusal := seqBranch g.val 0x15 (fun a b => !a.slt b) s

/-- SEQ_JMP. -/
def execSeqJmp (g : RegionIx) (s : State) : Host.Outcome State Fault Refusal :=
  seqIssue g.val 0x16 (fun _ => true) false (fun _ => false)
    (fun n s => .jump (seqTarget (s.seq g.val).pc 26 (nbits n 0 26)) s) s

/-- The frame of window w: p0–p3, k0–k7, RA_W, zeros (R209). -/
def Seq.frame (x : Seq) (w : Nat) : List Word :=
  (List.range 12).map (fun i => tget 0 x.win (winIx w (8 + i))) ++ [BitVec.ofNat 32 (tget 0 x.ra w)] ++ List.replicate 3 0

/-- A frame at SPILL_PTR `p` lies within scratch and between BASE and LIMIT (R210). -/
def State.frameOk (s : State) (g p : Nat) : Bool :=
  decide (nbits (s.act (aSeqSpillBase g)).toNat 6 11 * 64 ≤ p ∧ p + 64 ≤ nbits (s.act (aSeqSpillLimit g)).toNat 6 11 * 64
    ∧ 0x18000 ≤ p ∧ p + 64 ≤ 0x1FFC0)

/-- Enter the next window (R207). -/
def enterWindow (x : Seq) : Seq :=
  let w := (x.cwp + 1) % 7
  { x with win := (List.range 12).foldl (fun m i => tset 0 m (w * 16 + i) 0) x.win, ra := tset 0 x.ra w (x.pc + 4),
           cwp := w, resident := x.resident + 1, depth := x.depth + 1 }

/-- SEQ_CALL (R205, R207, R209, R210, R231). -/
def execSeqCall (g : RegionIx) (s : State) : Host.Outcome State Fault Refusal :=
  let g := g.val
  seqIssue g 0x17 (fun _ => true) false (fun _ => true) (fun n s =>
    let x := s.seq g
    let word := x.ldw x.pc
    let tgt := seqTarget x.pc 26 (nbits n 0 26)
    if 65535 ≤ x.depth then .illegal
    else if x.resident < 6 then .jump tgt (s.modSeq g enterWindow)
    else
      let s := s.modSeq g (saveFrame 0 0 word)
      if !s.frameOk g x.spill then .ended (seqFaultG g 0x08 true word s)
      else
        let ws := x.frame ((x.cwp + 8 - x.resident) % 7)
        .jump tgt ((s.count (cSeq g 11) 1).modSeq g (fun y => enterWindow
          { (List.range 16).foldl (fun y i => y.stw (x.spill + 4 * i) (nth ws i 0)) y with
            spill := x.spill + 64, resident := x.resident - 1 }))) s

/-- SEQ_JR. -/
def execSeqJr (g : RegionIx) (s : State) : Host.Outcome State Fault Refusal :=
  seqIssue g.val 0x18 legRa false (fun _ => false)
    (fun n s => .jump (nbits ((s.seq g.val).reg (raF n)).toNat 2 15 * 4) s) s

/-- Read a frame of 13 words back. -/
def readFrame (g p : Nat) (s : State) : List Word × Bool × State :=
  (List.range 13).foldl (fun (a : List Word × Bool × State) i =>
    let (v, bad, s) := seqRead g (p + 4 * i) a.2.2
    (a.1 ++ [v], a.2.1 || bad, s)) ([], false, s)

/-- SEQ_RET (R205, R208 to R211, R231). -/
def execSeqRet (g : RegionIx) (s : State) : Host.Outcome State Fault Refusal :=
  let g := g.val
  seqIssue g 0x19 legZero false (fun _ => true) (fun _ s =>
    let x := s.seq g
    let word := x.ldw x.pc
    let back := tget 0 x.ra x.cwp
    let w := (x.cwp + 6) % 7
    if x.depth = 0 then .illegal
    else if 1 < x.resident then
      .jump back (s.modSeq g (fun x => { x with cwp := w, resident := x.resident - 1, depth := x.depth - 1 }))
    else
      let s := s.modSeq g (saveFrame 0 1 word)
      if x.spill < 64 || !s.frameOk g (x.spill - 64) then .ended (seqFaultG g 0x08 true word s)
      else
        let (ws, bad, s) := readFrame g (x.spill - 64) s
        if bad then .ended (seqFaultG g 0x07 true word s)
        else .jump back ((s.count (cSeq g 12) 1).modSeq g (fun y =>
          { y with win := (List.range 12).foldl (fun m i => tset 0 m (winIx w (8 + i)) (nth ws i 0)) y.win,
                   ra := tset 0 y.ra w (nth ws 12 0).toNat, spill := x.spill - 64, cwp := w, depth := x.depth - 1 }))) s

/-- SEQ_LOOP (R204, R205, R214). -/
def execSeqLoop (g : RegionIx) (s : State) : Host.Outcome State Fault Refusal :=
  let g := g.val
  seqIssue g 0x1A (fun n => legI n && decide (immF n ≠ 0)) false (fun _ => false) (fun n s =>
    let x := s.seq g
    let trips := (x.reg (rdF n)).toNat
    if trips = 0 then .jump (x.pc + 4 + 4 * immF n) s
    else if 6 ≤ x.loops.length then .illegal
    else .jump (x.pc + 4) (s.modSeq g (fun x =>
      { x with loops := (trips - 1, 0, (x.reg (raF n)).toNat, x.pc + 4, x.pc + 4 * immF n) :: x.loops }))) s

/-- SEQ_LPOP (R205, R215). -/
def execSeqLpop (g : RegionIx) (s : State) : Host.Outcome State Fault Refusal :=
  seqIssue g.val 0x1B legZero false (fun _ => false) (fun _ s =>
    if (s.seq g.val).loops.isEmpty then .illegal
    else .next (s.modSeq g.val (fun x => { x with loops := x.loops.drop 1 }))) s

/-- SEQ_AFF: RD = RA + Σ LIDX·stride over the active levels. -/
def execSeqAff (g : RegionIx) (s : State) : Host.Outcome State Fault Refusal :=
  seqValue g.val 0x1C (fun n => legR n && decide (rbF n = 0))
    (fun n x => x.loops.foldl (fun a l => a + BitVec.ofNat 32 (l.2.1 * l.2.2.1)) (x.reg (raF n))) s

/-- The 128 bits of a command (10, Commands; R218, R231). -/
def cmdBits (n : Nat) (x : Seq) : BitVec 128 :=
  let last := nbit n 22 && x.loops.all (fun l => l.1 == 0)
  let eng := nbits n 24 2
  let sp := match x.sids.getLast? with | some d => if eng < 2 then some d.sid else none | none => none
  BitVec.ofNat 128 (x.tag * 2 ^ 112 + (eng + 1) * 2 ^ 104 + b2n sp.isSome * 2 ^ 103 + nbits n 23 1 * 2 ^ 102
    + b2n last * 2 ^ 101 + sp.getD 0 * 2 ^ 98 + nbits x.key.toNat 4 28 * 2 ^ 68
    + nbits (x.reg (raF n)).toNat 0 16 * 2 ^ 52 + nbits (x.reg (rbF n)).toNat 0 13 * 2 ^ 39 + nbits n 21 1 * 2 ^ 38)

/-- SEQ_CMD (R218 to R221, R231): the command enters the queue of every tile in TMASK, or of none. -/
def execSeqCmd (g : RegionIx) (s : State) : Host.Outcome State Fault Refusal :=
  let g := g.val
  seqIssue g 0x1D (fun n => regOk (raF n) && regOk (rbF n) && decide (nbits n 0 11 = 0)) true
    (fun n => decide (2 ≤ nbits n 24 2)) (fun n s =>
    let x := s.seq g
    let e := nbits n 24 2
    let ts := x.tiles g
    if ts.any (fun t => decide (256 ≤ ((s.tile t).queue e).length)) then .hold 1 s
    else
      let c : QCmd := ⟨cmdBits n x, none, none, false⟩
      let s := each ts s (fun s t => s.modTile t (fun y => y.setQueue e (y.queue e ++ [c])))
      .next ((s.count (cSeq g 8) 1).modSeq g (fun x => { x with tag := (x.tag + 1) % 65536 }))) s

/-- Patch writes on their way to tile t or pending in it. -/
def State.patchesFor (s : State) (t : Nat) : List Nat :=
  s.fabric.pkts.filterMap (fun p => if p.dst = t then p.body.map (fun b => b.2.2) else none)
    ++ (s.tile t).patches.map (fun b => b.2.2)

/-- PATCH instructions of region g not yet applied everywhere (R223). -/
def State.unapplied (s : State) (g : Nat) : List Nat :=
  ((tilesOf g).flatMap s.patchesFor).foldl (fun a i => insertNat i a) []

/-- SEQ_REPLAY (R124, R205, R222, R224). -/
def execSeqReplay (g : RegionIx) (s : State) : Host.Outcome State Fault Refusal :=
  let g := g.val
  seqIssue g 0x1E legRa true (fun _ => false) (fun n s =>
    let x := s.seq g
    let a := nbits (x.reg (raF n)).toNat 0 9
    let ts := x.tiles g
    if 496 ≤ a then .illegal
    else if x.patching then .hold 6 s
    else if ts.any (fun t => (s.tile t).pendStart.isSome) then .hold 2 s
    else
      let s := each ts s (fun s t =>
        let k := (s.patchesFor t).length
        s.modTile t (fun y => { y with pendStart := some (sfOf x.key, a, k) }))
      .next ((s.count (cSeq g 9) 1).modSeq g (fun x => { x with started := x.started + ts.length }))) s

/-- SEQ_RWAIT (R222): waits until every started replay is reported done; it has no WAIT code of its own. -/
def execSeqRwait (g : RegionIx) (s : State) : Host.Outcome State Fault Refusal :=
  seqIssue g.val 0x1F legZero false (fun _ => false) (fun _ s =>
    if (s.seq g.val).doneReplays < (s.seq g.val).started then .hold 0 s else .next s) s

/-- Send a patch write from region g's endpoint to a tile (R110, class 4). -/
def sendPatch (g t u : Nat) (v : Word) (no : Nat) (s : State) : State :=
  mgmtSend ⟨endpoint g, t, 4, 0, some (u % 64, v, no), none⟩ s

/-- SEQ_PATCH (R223, R224, R231). -/
def execSeqPatch (g : RegionIx) (s : State) : Host.Outcome State Fault Refusal :=
  let g := g.val
  seqIssue g 0x20 legRaRb false (fun _ => true) (fun n s =>
    let x := s.seq g
    if x.patching || decide (16 ≤ (s.unapplied g).length) then .hold 6 s
    else
      let s := each (x.tiles g) s (fun s t => sendPatch g t (x.reg (raF n)).toNat (x.reg (rbF n)) x.patchNo s)
      .next ((s.count (cSeq g 10) 1).modSeq g (fun x => { x with patchNo := x.patchNo + 1 }))) s

/-- SEQ_BCW (R225, R231). -/
def execSeqBcw (g : RegionIx) (s : State) : Host.Outcome State Fault Refusal :=
  let g := g.val
  seqIssue g 0x21 legRaRb false (fun _ => true) (fun n s =>
    let x := s.seq g
    let a := (x.reg (raF n)).toNat
    if !(lwOk a && decide (a % 32 = 0)) then .illegal else
    let (ws, bad, s) := (List.range 8).foldl (fun (r : List Nat × Bool × State) i =>
      let (v, bad, s) := seqRead g (a + 4 * i) r.2.2
      (r.1 ++ [v.toNat], r.2.1 || bad, s)) ([], false, s)
    if bad then .lost s
    else .next (each (x.tiles g) s (fun s t => s.modTile t (fun y =>
      { y with imemSh := tset 0 y.imemSh (nbits (x.reg (rbF n)).toNat 0 9) (BitVec.ofNat 256 (ofLanes 32 ws)) })))) s

/-- SEQ_TMINC (R226, R231). -/
def execSeqTminc (g : RegionIx) (s : State) : Host.Outcome State Fault Refusal :=
  let g := g.val
  seqIssue g 0x22 legRaRb true (fun _ => true) (fun n s =>
    let x := s.seq g
    let k := nbits (x.reg (rbF n)).toNat 0 24
    .next (if k = 0 then s else
      { s with tmq := s.tmq ++ [⟨.seq g, nbits (x.reg (raF n)).toNat 0 13, strOf x.key, some k⟩] })) s

/-- SEQ_TMWAIT (R226): sends its wait once, then waits with WAIT 3 until it is released. -/
def execSeqTmwait (g : RegionIx) (s : State) : Host.Outcome State Fault Refusal :=
  let g := g.val
  seqIssue g 0x23 legRa true (fun _ => false) (fun n s =>
    let x := s.seq g
    let i := nbits (x.reg (raF n)).toNat 0 13
    match x.waitIdx with
    | none => .hold 3 { (s.modSeq g (fun x => { x with waitIdx := some i, granted := false })) with
                        tmq := s.tmq ++ [⟨.seq g, i, strOf x.key, none⟩] }
    | some _ => if x.granted then .next (s.modSeq g (fun x => { x with waitIdx := none, granted := false })) else .hold 3 s) s

/-- SEQ_KEYGET (R217, R231). -/
def execSeqKeyget (g : RegionIx) (s : State) : Host.Outcome State Fault Refusal :=
  let g := g.val
  seqIssue g 0x24 (fun n => regOk (rdF n) && decide (nbits n 0 21 = 0)) false (fun _ => true) (fun n s =>
    match (s.seq g).notices with
    | [] => .hold 4 s
    | k :: ks => .next (s.modSeq g (fun x => { x with notices := ks, key := k ||| 1 }.setReg (rdF n) k))) s

/-- SEQ_KEYI (R205). -/
def execSeqKeyi (g : RegionIx) (s : State) : Host.Outcome State Fault Refusal :=
  let g := g.val
  seqIssue g 0x25 legRa true (fun _ => false) (fun n s => .next (s.modSeq g (fun x =>
    { x with key := BitVec.ofNat 32 (nput x.key.toNat 12 8 (x.reg (raF n)).toNat) }))) s

/-- SEQ_SETKEY. -/
def execSeqSetkey (g : RegionIx) (s : State) : Host.Outcome State Fault Refusal :=
  let g := g.val
  seqIssue g 0x26 legRa false (fun _ => false) (fun n s => .next (s.modSeq g (fun x =>
    { x with key := BitVec.ofNat 32 ((x.reg (raF n)).toNat / 16 * 16 + 1) }))) s

/-- SEQ_SPECBR (R227, R230): opens speculation SID with a checkpoint; an open SID makes it wait. -/
def execSeqSpecbr (g : RegionIx) (s : State) : Host.Outcome State Fault Refusal :=
  let g := g.val
  seqIssue g 0x27 legI false (fun _ => false) (fun n s =>
    let x := s.seq g
    let sid := nbits n 14 2
    let a := (x.reg (rdF n)).toNat
    let b := (x.reg (raF n)).toNat
    if x.sids.any (fun d => d.sid == sid) then .hold 5 s
    else
      let d : Sid := { sid := sid, cIdx := nbits a 0 13, sIdx := nbits a 16 13, cTgt := nbits b 0 16, sTgt := nbits b 16 16,
                       onSquash := seqTarget x.pc 14 (nbits n 0 14), committed := false,
                       regs := (List.range 16).map (fun i => x.reg (8 + i)), g := x.g, loops := x.loops, key := x.key,
                       tmask := x.tmask, spill := x.spill }
      .next (s.modSeq g (fun x => { x with sids := x.sids ++ [d] }))) s

/-- The special registers (10, SP table); none at a reserved number. -/
def Seq.special (x : Seq) (n : Nat) : Option Word :=
  match n with
  | 0 => some (BitVec.ofNat 32 x.tmask)
  | 1 => some x.key
  | 2 => some (BitVec.ofNat 32 x.tag)
  | 3 => some (BitVec.ofNat 32 x.spill)
  | 10 => some (BitVec.ofNat 32 x.spst)
  | 11 => some (BitVec.ofNat 32 x.rc)
  | n => if 4 ≤ n ∧ n ≤ 9 then some (BitVec.ofNat 32 (x.lidx (n - 4))) else none

/-- SEQ_MFS. -/
def execSeqMfs (g : RegionIx) (s : State) : Host.Outcome State Fault Refusal :=
  seqValue g.val 0x29 (fun n => regOk (rdF n) && decide (raF n = 0) && decide (rbF n < 12) && decide (nbits n 0 11 = 0))
    (fun n x => (x.special (rbF n)).getD 0) s

/-- SEQ_MTS (R204: only TMASK and SPILL_PTR are writable; R231). -/
def execSeqMts (g : RegionIx) (s : State) : Host.Outcome State Fault Refusal :=
  let g := g.val
  seqIssue g 0x2A (fun n => regOk (raF n) && decide (rdF n = 0) && decide (rbF n = 0 ∨ rbF n = 3) && decide (nbits n 0 11 = 0))
    false (fun _ => true) (fun n s => .next (s.modSeq g (fun x =>
      let v := (x.reg (raF n)).toNat
      if rbF n = 0 then { x with tmask := nbits v 0 16 } else { x with spill := nbits v 6 11 * 64 }))) s

/-- SEQ_RESERVED_OPCODE (R204): an opcode of 0x2B or more raises ILLEGAL_WORD, or waits with WAIT 5 under speculation. -/
def execSeqReservedOpcode (g : RegionIx) (s : State) : Host.Outcome State Fault Refusal :=
  let n := nbits ((s.seq g.val).ldw (s.seq g.val).pc).toNat 26 6
  if n < 0x2B then idle s else seqIssue g.val n (fun _ => false) false (fun _ => false) (fun _ s => .next s) s

/-! ### Frame notices (R216) -/

/-- FRAME_NOTICE_POST: the first entry of the watched IQ that needs a notice posts it, while fewer than 4 keys are open
and the FIFO holds fewer than 16. -/
def execFrameNoticePost (g : RegionIx) (s : State) : Host.Outcome State Fault Refusal :=
  let g := g.val
  let w := (s.act (aSeqWatch g)).toNat
  let t := tileOf g (nbits w 3 4)
  let q := nbits w 0 3
  let x := s.seq g
  match (s.iqAll t q)[x.seen]? with
  | none => idle s
  | some e =>
    if !(nbit w 31 && s.live g && decide (x.keys.length < 4) && decide (x.notices.length < 16)) then idle s else
    let y := { x with notices := x.notices ++ [keyOf e.side], keys := x.keys ++ [sfWord e.side] }.pass e
    done s (watchScan t q (s.setSeq g y))

/-! ### SEQ_MEM_DATA (R239) -/

/-- An access through SEQ_MEM_DATA: a write outside the active code plane and the trap save frame lands; ADDR advances. -/
def seqMemAccess (g : Nat) (wr : Option Word) (s : State) : Word × State :=
  let a := s.f (aSeqMemAddr g) 2 15 * 4
  let s1 := s.setF (aSeqMemAddr g) 2 15 (a / 4 + 1)
  match wr with
  | some v => (v, if a < 0xC000 ∨ trapBase ≤ a then s1 else s1.modSeq g (fun x => x.stw a v))
  | none => let (v, _, s2) := seqRead g a s1; (v, s2)

/-- SEQ_MEM_DATA_ACCESS. -/
def execSeqMemDataAccess (g : RegionIx) (wr : Option Word) (s : State) : Host.Outcome State Fault Refusal :=
  let off := aSeqMemData g.val
  if s.dozing off then done s (deferAccess (.reg .pf off 32 (wr.map (·.setWidth 64))) s) else
  let (v, t) := if s.deaf off then (0#32, s) else seqMemAccess g.val wr s
  match wr with
  | some _ => done s t
  | none => done s (t.emit (.data 0 (toBytes 4 v.toNat)))

end Sys2Proof.Machine
end

