-- ==== Sys2Proof/Machine/Ferry.lean ====
section
/-! DEFINITION. Edge ports with rings (R267 to R269) and the ferries (R280 to R295). -/
namespace Sys2Proof.Machine

/-! ### Edge port rings -/

/-- Base of the ring of EDGE[e], and the records it holds at most. -/
def State.ringBase (s : State) (e : Nat) : Nat := s.fa (aEdgeRing e) 0 14 * 4096
def State.ringSize (s : State) (e : Nat) : Nat := s.fa (aEdgeRing e) 16 14 * 64

/-- The first free record slot of the ring at or after the write pointer. -/
def State.ringSlot (s : State) (e : Nat) : Option Nat :=
  let n := s.ringSize e
  let x := s.edge e
  (findNat n (fun i => !x.recs.contains ((x.wr + i) % n))).map (fun i => (x.wr + i) % n)

/-- Write an entry as the next record of the ring: payload words (the poison pattern under PSN), sideband, zeros. -/
def ringWrite (e : Nat) (en : Entry) (s : State) : Option State :=
  (s.ringSlot e).map (fun k =>
    let a := s.ringBase e + k * 64
    let (_, s) := s.basinWrite a (payBytes en.pay) (psnOf en.side)
    let (_, s) := s.basinWrite (a + 32) (toBytes 4 en.side.toNat ++ List.replicate 28 0) false
    let x := s.edge e
    s.setEdge e { x with recs := x.recs ++ [k], wr := (k + 1) % max (s.ringSize e) 1 })

/-- Take the oldest record of the ring: the entry, and whether a word of it was uncorrectable. -/
def ringTake (e : Nat) (s : State) : Option (Entry × Bool × State) :=
  match (s.edge e).recs with
  | [] => none
  | k :: rest =>
    let a := s.ringBase e + k * 64
    let (g, s) := s.basinRead a 32
    let (h, s) := s.basinRead (a + 32) 4
    let side := BitVec.ofNat 32 (ofBytes h.bytes)
    let side := if g.psn || h.psn then side ||| 1#32 else side
    some (⟨payOfBytes g.bytes, side⟩, g.bad || h.bad, s.setEdge e { s.edge e with recs := rest })

/-- OUT_PORT_RECORD_WRITE: the oldest entry at an out-port becomes a record, and its credit returns (R267). -/
def execOutPortRecordWrite (e : Fin 40) (s : State) : Host.Outcome State Fault Refusal :=
  let e := e.val
  match (s.edge e).inq with
  | [] => idle s
  | en :: rest =>
    if s.edgeMode e ≠ 1 then idle s else
    match ringWrite e en (s.setEdge e { s.edge e with inq := rest }) with
    | none => idle s
    | some t => done s (credit (s.linkSender (edgeTile e) (edgeDir e)) 1 t)

/-- The ring an in-port reads: its own, or the out-port's that PAIR names (R268). -/
def State.inRing (s : State) (e : Nat) : Nat := let p := s.fa (aEdgeCfg e) 24 6; if p = 63 then e else p

/-- IN_PORT_RECORD_SEND: the next record enters lane 0 of the edge tile while the port holds a credit (R268); an
uncorrectable word raises STORE_UNCORRECTABLE of class G for the edge tile's region (R263). -/
def execInPortRecordSend (e : Fin 40) (s : State) : Host.Outcome State Fault Refusal :=
  let e := e.val
  let t := edgeTile e
  if !(decide (s.edgeMode e = 2) && !s.gsr (regionOf t) && decide ((s.edge e).used < 64)) then idle s else
  match ringTake (s.inRing e) s with
  | none => idle s
  | some (en, bad, s1) =>
    if bad then
      done s (raiseG { cls := 2, code := 0x04, region := regionOf t, tile := t, unit := 11, index := e } (regionOf t) s1)
    else done s (laneArrive t (edgeDir e) 0 en (s1.setEdge e { s1.edge e with used := (s1.edge e).used + 1 }))

/-- Discard the records of stream n from the ring of EDGE[e] (R269). -/
def ringPurge (e n : Nat) (s : State) : State :=
  let x := s.edge e
  let side := fun k => s.mem.basin.num ((s.ringBase e + k * 64 + 32) % basinSize) 4
  s.setEdge e { x with recs := x.recs.filter (fun k => nbits (side k) 4 8 != n) }

/-! ### Ferries: windows, blocks -/

/-- The stream a ferry belongs to: the lowest-numbered one whose STREAM_FERRY range covers it (R280). -/
def State.ferryOwner (s : State) (f : Nat) : Option Nat :=
  findNat 256 (fun n => decide (s.f (aStreamFerry n) 0 8 ≤ f ∧ f < s.f (aStreamFerry n) 0 8 + s.f (aStreamFerry n) 16 9))

/-- The fields of a block (12, Blocks). -/
structure Blk where
  ss : Nat
  ds : Nat
  codec : Nat
  last : Bool
  eorrow : Bool
  eofr : Bool
  csign : Bool
  saddr : Nat
  tmi : Nat
  tmen : Bool
  iter : Nat
  daddr : Nat
  len : Nat
  count : Nat
  sstr : Int
  dstr : Int
  reserved : Bool
deriving DecidableEq, Repr

/-- Decode the four words of a block. -/
def blkOf (ws : List DWord) : Blk :=
  let w0 := (nth ws 0 0).toNat
  let w1 := (nth ws 1 0).toNat
  let w2 := (nth ws 2 0).toNat
  let w3 := (nth ws 3 0).toNat
  { ss := nbits w0 60 4, ds := nbits w0 56 4, codec := nbits w0 53 3, last := nbit w0 52, eorrow := nbit w0 51,
    eofr := nbit w0 50, csign := nbit w0 49, saddr := nbits w0 0 40, tmi := nbits w1 51 13, tmen := nbit w1 50,
    iter := nbits w1 42 8, daddr := nbits w1 0 40, len := nbits w2 32 32, count := nbits w2 0 32,
    sstr := sgn 32 (nbits w3 32 32), dstr := sgn 32 (nbits w3 0 32),
    reserved := decide (nbits w0 40 9 ≠ 0 ∨ nbits w1 40 2 ≠ 0) }

/-- Destination bytes of n source bytes. -/
def Blk.out (b : Blk) (n : Nat) : Nat := match b.codec with | 1 => n / 2 | 2 => n / 4 | 3 => n * 2 | 4 => n * 4 | _ => n

/-- Source bytes of the whole block. -/
def Blk.total (b : Blk) : Nat := b.len * b.count

/-- R283: the block is malformed; `key` is the kick's. -/
def blkBad (s : State) (b : Blk) (key : Option Word) : Bool :=
  b.reserved || decide (3 < b.ss) || decide (3 < b.ds) || decide (4 < b.codec)
  || decide ((b.ss ≠ 3 ∧ b.saddr % 4 ≠ 0) ∨ (b.ds ≠ 3 ∧ b.daddr % 4 ≠ 0) ∨ b.sstr % 4 ≠ 0 ∨ b.dstr % 4 ≠ 0)
  || (match b.codec with | 1 => decide (b.len % 16 ≠ 0) | 2 => decide (b.len % 32 ≠ 0) | 3 | 4 => decide (b.len % 8 ≠ 0) | _ => false)
  || (decide (b.ss = 3 ∨ b.ds = 3) && decide (b.len % 32 ≠ 0))
  || decide ((b.ss = 3 ∧ b.sstr ≠ 0) ∨ (b.ds = 3 ∧ b.dstr ≠ 0))
  || (decide (b.ds ≠ 3) && (b.eorrow || b.eofr || decide (b.iter ≠ 0)))
  || (decide (b.ds = 3) && key.isNone)
  || (decide (b.ss = 3) && !(decide (b.saddr < 40) && decide (s.edgeMode b.saddr = 1)
        && !(List.range 40).any (fun e => s.edgeMode e == 2 && s.fa (aEdgeCfg e) 24 6 == b.saddr)))
  || (decide (b.ds = 3) && !(decide (b.daddr < 40) && decide (s.edgeMode b.daddr = 2) && decide (s.fa (aEdgeCfg b.daddr) 24 6 = 63)))

/-- The window of a space, as base and size in bytes (R280); host offsets start at 0. -/
def State.ferryWin (s : State) (f sp : Nat) : Nat × Nat :=
  match sp with
  | 0 => (s.f (aFerryBwin f) 0 14 * 4096, s.f (aFerryBwin f) 16 14 * 4096)
  | 1 => (s.f (aFerryDwin f) 0 16 * 2 ^ 20, s.f (aFerryDwin f) 16 16 * 2 ^ 20)
  | _ => (0, s.f (aFerryHwinSize f) 0 32 * 4096)

/-- Bytes [a, a + n) lie in the window. -/
def inWin (w : Nat × Nat) (a : Int) (n : Nat) : Bool := decide ((w.1 : Int) ≤ a ∧ a + n ≤ (w.1 + w.2 : Nat))

/-- One side of a block lies inside its window: the first and the last row bound the others (R284). -/
def sideIn (s : State) (f sp a n count : Nat) (str : Int) : Bool :=
  if sp = 3 then
    decide (0 < s.ringSize a) && inWin (s.ferryWin f 0) (s.ringBase a) (s.ringSize a * 64)
  else
    decide (n = 0 ∨ count = 0)
    || (inWin (s.ferryWin f sp) a n && inWin (s.ferryWin f sp) (a + (count - 1 : Nat) * str) n)

/-- A ferry stops: its kicks, block and staging are discarded (R295). -/
def ferryStop (f : Nat) (s : State) : State :=
  s.setFerry f { s.ferry f with kicks := [], cur := none, at_ := 0, block := none, started := false, rd := 0, wr := 0,
                                inflight := 0, staged := [], tag := false }

/-- A ferry fault of class S against the owner: FERRY_STATUS.CAUSE, and the ferry stops (R294, R295). -/
def ferryFault (f cause : Nat) (s : State) : State :=
  let code := match cause with | 4 => 0x0A | 5 => 0x04 | 6 => 0x02 | _ => 0x09
  let key := (s.ferry f).cur.bind (·.key)
  let s := (ferryStop f s).setF (aFerryStatus f) 8 5 cause
  match s.ferryOwner f with
  | none => s
  | some n =>
    raiseS { cls := 1, code := code, frame := key.map frameOf, detail := if code = 0x09 then cause else 0, unit := 10, index := f } n s

/-- A kick reaches a ferry that belongs to a stream and accepts kicks; a ninth raises QUEUE_PROTOCOL (R281). -/
def ferryKickOp (f list : Nat) (key : Option Word) (spec : Option (Nat × Nat)) (s : State) : State :=
  if !s.bit (aFerryCtl f) 31 || (s.ferryOwner f).isNone then s
  else if 8 ≤ (s.ferry f).kicks.length then ferryFault f 6 s
  else s.setFerry f { s.ferry f with kicks := (s.ferry f).kicks ++ [⟨list, key, spec⟩] }

/-- SEQ_FKICK (R281): never held; a ferry of another stream raises FERRY_WINDOW against KEY.STREAM. Under speculation the
kick may only read until the youngest SID commits (R231). -/
def execSeqFkick (g : RegionIx) (s : State) : Host.Outcome State Fault Refusal :=
  let g := g.val
  seqIssue g 0x28 legRaRb true (fun _ => false) (fun n s =>
    let x := s.seq g
    let f := nbits (x.reg (raF n)).toNat 0 8
    let list := (x.reg (rbF n)).toNat
    if s.ferryOwner f ≠ some (strOf x.key) then
      .next (raiseS { cls := 1, code := 0x09, frame := some (frameOf x.key), region := g, unit := 9, index := x.pc } (strOf x.key) s)
    else .next (ferryKickOp f list (some (keyOf x.key)) (x.sids.getLast?.map (fun d => (g, d.sid))) s)) s

/-- A ferry is committed unless its kick came under open speculation. -/
def Ferry.committed (x : Ferry) : Bool := match x.cur with | some k => k.spec.isNone | none => true

/-- FERRY_BLOCK_START: the next kick or the next block of the list is read and checked (R282 to R284); QUOTA 0 parks. -/
def execFerryBlockStart (f : FerryIx) (s : State) : Host.Outcome State Fault Refusal :=
  let f := f.val
  let x := s.ferry f
  if s.f (aFerryCtl f) 0 7 = 0 ∨ s.f (aFerryStatus f) 8 5 ≠ 0 ∨ x.block.isSome then idle s else
  let next := match x.cur, x.kicks with
    | some k, ks => some (k, ks, x.at_)
    | none, k :: ks => some (k, ks, k.list)
    | none, [] => none
  match next with
  | none => idle s
  | some (k, ks, a) =>
    let s1 := s.setFerry f { x with cur := some k, kicks := ks, at_ := a }
    if !inWin (s.ferryWin f 0) a 32 then done s (ferryFault f 1 s1)
    else if a % 32 ≠ 0 then done s (ferryFault f 2 s1)
    else
      let (got, s2) := s1.basinRead a 32
      if got.bad then done s (ferryFault f 5 s2) else
      let ws := (pieces 8 32 got.bytes).map (fun p => BitVec.ofNat 64 (ofBytes p))
      let b := blkOf ws
      if blkBad s b k.key then done s (ferryFault f 2 s2)
      else if !(sideIn s f b.ss b.saddr b.len b.count b.sstr && sideIn s f b.ds b.daddr (b.out b.len) b.count b.dstr) then
        done s (ferryFault f 1 s2)
      else done s (s2.setFerry f { s2.ferry f with block := some ws, started := true, rd := 0, wr := 0, inflight := 0 })

/-- Bytes of the read at source position p: up to 64, 32 from an edge port, within its row. -/
def Blk.chunk (b : Blk) (p : Nat) : Nat :=
  if b.len = 0 ∨ b.total ≤ p then 0 else min (if b.ss = 3 then 32 else 64) (b.len - p % b.len)

/-- Bytes of the next n reads from position p. -/
def Blk.ahead (b : Blk) (p : Nat) : Nat → Nat
  | 0 => 0
  | n + 1 => b.chunk p + b.ahead (p + b.chunk p) n

/-- Bytes outstanding. -/
def Ferry.inflightBytes (x : Ferry) : Nat := match x.block with | some ws => (blkOf ws).ahead x.rd x.inflight | none => 0

/-- The position of the next read to issue, and its size; none when the block has no more or staging has no space. -/
def Ferry.nextRead (x : Ferry) : Option (Blk × Nat × Nat) :=
  match x.block with
  | none => none
  | some ws =>
    let b := blkOf ws
    let p := x.rd + x.inflightBytes
    let n := b.chunk p
    if n = 0 ∨ 4096 < x.staged.length + x.inflightBytes + n then none else some (b, p, n)

/-- Address of source position p (or destination, given its row length and stride). -/
def rowAddr (a len p : Nat) (str : Int) : Nat := ((a : Int) + (p / len : Nat) * str + (p % len : Nat)).toNat

/-! ### The DRAM read port (R287 to R289) -/

/-- FERRY_CTL.QUOTA and RATE. -/
def State.quota (s : State) (f : Nat) : Nat := s.f (aFerryCtl f) 0 7
def State.rate (s : State) (f : Nat) : Nat := s.f (aFerryCtl f) 8 16

/-- Tags a ferry has out at the DRAM read port. -/
def Ferry.tags (x : Ferry) : Nat :=
  match x.block with | some ws => if (blkOf ws).ss = 1 then x.inflight else 0 | none => 0

/-- Sum of the quotas of bounded ferries. -/
def State.bounded (s : State) : Nat :=
  ((List.range 256).map (fun f => let q := s.quota f; if q ≤ 64 then q else 0)).foldl (· + ·) 0

/-- A tag is available to ferry f. -/
def State.tagFor (s : State) (f : Nat) : Bool :=
  let q := s.quota f
  if q ≤ 64 then decide ((s.ferry f).tags < q)
  else
    let used := ((s.ferries.filter (fun p => decide (64 < s.quota p.1))).map (fun p => p.2.tags)).foldl (· + ·) 0
    decide (used < 512 - s.bounded)

/-- Slack of a is less than that of b: (fill + inflight) / RATE, infinite with RATE 0. -/
def slackLt (s : State) (a b : Nat) : Bool :=
  let n := fun f => (s.ferry f).staged.length + (s.ferry f).inflightBytes
  match s.rate a, s.rate b with
  | 0, _ => false
  | _, 0 => true
  | ra, rb => decide (n a * rb < n b * ra)

/-- The ferry the read port picks (R287). -/
def State.dramPick (s : State) : Option Nat :=
  let cand := (s.ferries.map (·.1)).filter (fun f =>
    let x := s.ferry f
    decide (s.quota f ≠ 0) && s.tagFor f && (match x.nextRead with | some (b, _, _) => b.ss == 1 | none => false))
  let com := cand.filter (fun f => (s.ferry f).committed)
  let guard := s.f aMemEarly 16 16
  let early := ((s.ferries.filter (fun p => !p.2.committed)).map (fun p => p.2.tags)).foldl (· + ·) 0
  let tight := com.any (fun f => decide (0 < s.rate f)
    && decide (((s.ferry f).staged.length + (s.ferry f).inflightBytes) * 1000 < guard * s.rate f))
  let cand := if tight ∨ s.f aMemEarly 0 10 ≤ early then com else cand
  match cand.find? (fun f => decide (0 < s.rate f) && cand.all (fun g => !slackLt s g f)) with
  | some f => some f
  | none =>
    match cand.find? (fun f => decide (s.mem.ferryRr < f)) with
    | some f => some f
    | none => cand.head?

/-- DRAM_READ_PORT_PICK: the chosen ferry takes a tag for its next read. -/
def execDramReadPortPick (s : State) : Host.Outcome State Fault Refusal :=
  if !s.dramUp then idle s else
  match s.dramPick with
  | none => idle s
  | some f =>
    let t := s.setFerry f { s.ferry f with inflight := (s.ferry f).inflight + 1 }
    done s (if s.rate f = 0 then { t with mem := { t.mem with ferryRr := f } } else t)

/-! ### Reads and writes of a ferry -/

/-- Bytes with the poison of the words that fed them. -/
def flagBytes (bs : List Byte) (psn : Bool) : List (Byte × Bool) := bs.map (fun b => (b, psn))

/-- Store n bytes read, in staging. -/
def ferryStage (f : Nat) (bs : List (Byte × Bool)) (dram : Bool) (s : State) : State :=
  let x := s.ferry f
  let s := s.setFerry f { x with staged := x.staged ++ bs, rd := x.rd + bs.length, inflight := if dram then x.inflight - 1 else x.inflight }
  let s := s.count (cFerry f 0) bs.length
  if x.committed then s else s.count (ferryPage f + 0x80) bs.length

/-- The poison of each byte of a memory read, by 64-bit word. -/
def readFlags (r : Ram) (a : Nat) (bs : List Byte) : List (Byte × Bool) :=
  (List.range bs.length).map (fun i => (nth bs i 0, r.state ((a + i) / 8) == .poison))

/-- FERRY_READ_COMPLETE: the oldest read returns its data (R276, R286, R290); a basin, host or edge read is made here. -/
def execFerryReadComplete (f : FerryIx) (host : HostReply) (s : State) : Host.Outcome State Fault Refusal :=
  let f := f.val
  let x := s.ferry f
  match x.block with
  | none => idle s
  | some ws =>
    let b := blkOf ws
    if b.ss = 1 then
      let n := b.chunk x.rd
      let a := rowAddr b.saddr b.len x.rd b.sstr
      if x.inflight = 0 || n = 0 || !s.dramUp || s.dramWaits a n then idle s else
      let flags := fun (bs : List Byte) => if s.mem.touched.isEmpty then flagBytes bs false else readFlags s.mem.dram a bs
      let (g, s1) := s.dramRead a n
      if g.bad then done s (ferryFault f 4 s1) else done s (ferryStage f (flags g.bytes) true s1)
    else
      match x.nextRead with
      | none => idle s
      | some (_, p, n) =>
        if s.quota f = 0 then idle s
        else if b.ss = 0 then
          let a := rowAddr b.saddr b.len p b.sstr
          let (g, s1) := s.basinRead a n
          if g.bad then done s (ferryFault f 5 s1) else done s (ferryStage f (readFlags s.mem.basin a g.bytes) false s1)
        else if b.ss = 2 then
          let a := s.f (aFerryHwinHi f) 0 32 * 2 ^ 32 + s.f (aFerryHwinLo f) 12 20 * 4096 + rowAddr b.saddr b.len p b.sstr
          match host with
          | .abort => done s (ferryFault f 1 (s.emit (.host a none)))
          | .ok data =>
            if data.length ≠ n then .refused (.illFormed "host reply length")
            else done s (ferryStage f (flagBytes data false) false (s.emit (.host a none)))
        else
          match ringTake b.saddr s with
          | none => idle s
          | some (en, bad, s1) =>
            if bad then done s (ferryFault f 5 s1)
            else done s (ferryStage f (flagBytes (payBytes en.pay) (psnOf en.side)) false s1)

/-- Source bytes one write takes: what makes 64 destination bytes, or one record of an edge port. -/
def Blk.quantum (b : Blk) : Nat :=
  let d := if b.ds = 3 then 32 else 64
  match b.codec with | 1 => 2 * d | 2 => 4 * d | 3 => d / 2 | 4 => d / 4 | _ => d

/-- The destination bytes of source bytes, with the poison that fed each (R286, R291, R292). -/
def Blk.convert (b : Blk) (xs : List (Byte × Bool)) : List (Byte × Bool) :=
  match b.codec with
  | 0 => xs
  | c =>
    let mode := if c = 1 ∨ c = 3 then 1 else 2
    let k := match c with | 1 => 16 | 2 => 32 | _ => 8
    (pieces k xs.length xs).flatMap (fun p =>
      let bs := p.map (·.1)
      flagBytes (if c ≤ 2 then encodeRow mode b.csign bs else decodeRow mode b.csign bs) (p.any (·.2)))

/-- A decoded word has a reserved shift (R293). -/
def Blk.shiftBad (b : Blk) (xs : List (Byte × Bool)) : Bool :=
  decide (3 ≤ b.codec) && (pieces 8 xs.length xs).any (fun p => decide (6 ≤ codecShift (ofBytes (p.map (·.1)))))

/-- Runs of bytes with the same flag: offset, bytes, flag. -/
def runs : Nat → List (Byte × Bool) → List (Nat × List Byte × Bool)
  | _, [] => []
  | o, (b, p) :: xs =>
    match runs (o + 1) xs with
    | (o', bs, q) :: rest => if p = q ∧ o' = o + 1 then (o, b :: bs, p) :: rest else (o, [b], p) :: (o', bs, q) :: rest
    | [] => [(o, [b], p)]

/-- Unstated bytes: n of them, drawn. -/
def drawBytes : Nat → State → List Byte × State
  | 0, s => ([], s)
  | n + 1, s => let (w, s) := s.draw; let (bs, s) := drawBytes n s; (w.setWidth 8 :: bs, s)

/-- Write destination bytes of a block at destination position `dp` (a record for an edge port); none while it must wait. -/
def ferryPut (f : Nat) (b : Blk) (dp : Nat) (ds : List (Byte × Bool)) (lastOfRow lastOfBlock : Bool) (host : HostReply) (s : State) :
    Option (Option Nat × State) :=
  let rowLen := max (b.out b.len) 1
  match b.ds with
  | 3 =>
    let key := (((s.ferry f).cur.bind (·.key))).getD 0
    let (pad, s) := drawBytes (32 - ds.length) s
    let side := sideOf (strOf key) (frameOf key) b.iter (b.eorrow && lastOfRow) (b.eofr && lastOfBlock) false (ds.any (·.2))
    (ringWrite b.daddr ⟨payOfBytes (ds.map (·.1) ++ pad), side⟩ s).map (fun s => (none, s))
  | 0 =>
    let a := rowAddr b.daddr rowLen dp b.dstr
    let (bad, s) := (runs 0 ds).foldl (fun (r : Bool × State) p =>
      let (bad, s) := r.2.basinWrite (a + p.1) p.2.1 p.2.2
      (r.1 || bad, s)) (false, s)
    some (if bad then some 5 else none, s)
  | 1 =>
    if !s.dramUp then none else
    let a := rowAddr b.daddr rowLen dp b.dstr
    some (none, (runs 0 ds).foldl (fun s p => s.dramWrite (a + p.1) p.2.1 p.2.2) s)
  | _ =>
    let a := s.f (aFerryHwinHi f) 0 32 * 2 ^ 32 + s.f (aFerryHwinLo f) 12 20 * 4096 + rowAddr b.daddr rowLen dp b.dstr
    match host with
    | .abort => some (some 1, s)
    | .ok _ =>
      let bs := ds.map (fun p => if p.2 then 0 else p.1)
      let s := if ds.any (·.2) then s.setB (aFerryStatus f) 13 true else s
      some (none, (s.hostWrite a bs).emit (.host a (some bs)))

/-- FERRY_WRITE: the next destination bytes are written (R285, R286, R291 to R293); a speculative kick writes nothing (R290). -/
def execFerryWrite (f : FerryIx) (host : HostReply) (s : State) : Host.Outcome State Fault Refusal :=
  let f := f.val
  let x := s.ferry f
  match x.block with
  | none => idle s
  | some ws =>
    let b := blkOf ws
    let k := if b.len = 0 then 0 else min b.quantum (b.len - x.wr % b.len)
    if k = 0 || decide (x.staged.length < k) || !x.committed then idle s else
    let xs := x.staged.take k
    if b.shiftBad xs then done s (ferryFault f 3 s) else
    let ds := b.convert xs
    let lastOfRow := decide ((x.wr + k) % b.len = 0)
    let lastOfBlock := decide (b.total ≤ x.wr + k)
    let s1 := s.setFerry f { x with staged := x.staged.drop k, wr := x.wr + k }
    match ferryPut f b (x.wr / b.len * b.out b.len + b.out (x.wr % b.len)) ds lastOfRow lastOfBlock host s1 with
    | none => idle s
    | some (none, s2) => done s (s2.count (cFerry f 1) ds.length)
    | some (some c, s2) => done s (ferryFault f c s2)

/-- FERRY_BLOCK_COMPLETE: every write of the block is visible; TMEN adds 1 to its tidemark for the owner (R252, R285). -/
def execFerryBlockComplete (f : FerryIx) (s : State) : Host.Outcome State Fault Refusal :=
  let f := f.val
  let x := s.ferry f
  match x.block with
  | none => idle s
  | some ws =>
    let b := blkOf ws
    let filling := decide (b.ds = 1) && s.mem.fills.any (fun _ => true)
    if decide (x.wr < b.total) || !x.committed || filling then idle s else
    let s1 := (s.count (cFerry f 2) 1).setFerry f
      { x with block := none, started := false, rd := 0, wr := 0, inflight := 0,
               cur := if b.last then none else x.cur, at_ := if b.last then 0 else x.at_ + 32 }
    match b.tmen, s.ferryOwner f with
    | true, some n => done s { s1 with tmq := s1.tmq ++ [⟨.ferry f, b.tmi, n, some 1⟩] }
    | _, _ => done s s1

/-- FERRY_STATUS.STATE: 0 idle, 1 running, 2 waiting on a ring, 3 parked, 4 faulted. -/
def ferryState (s : State) (f : Nat) : Nat :=
  let x := s.ferry f
  if s.f (aFerryStatus f) 8 5 ≠ 0 then 4
  else if s.quota f = 0 ∧ (x.cur.isSome ∨ !x.kicks.isEmpty) then 3
  else match x.block with
    | some ws =>
      let b := blkOf ws
      if (b.ss = 3 ∧ x.nextRead.isSome ∧ (s.edge b.saddr).recs.isEmpty)
        ∨ (b.ds = 3 ∧ !x.staged.isEmpty ∧ (s.ringSlot b.daddr).isNone) then 2 else 1
    | none => if x.cur.isSome ∨ !x.kicks.isEmpty then 1 else 0

end Sys2Proof.Machine
end

