-- ==== Sys2Proof/WellFormed.lean ====
section
/-! DEFINITION. The operands the hardware's events can have: sizes and ranges that the types do not fix. -/
namespace Sys2Proof

/-- A host access of the bus: 1, 2, 4 or 8 bytes in window A; at least one byte in windows B and C. -/
def HostAccess.wellFormed : HostAccess → Bool
  | .read _ len => decide (0 < len)
  | .write _ data => decide (0 < data.length)

/-- A VF serves stream n for n from 1 to 255 (R35). -/
def Fn.wellFormed : Fn → Bool
  | .pf => true
  | .vf n => decide (0 < n.val)

/-- The widths of a window A access (R424: 32 and 64 bits are taken, narrower ones are answered). -/
def widthOk (w : Nat) : Bool := w == 8 || w == 16 || w == 32 || w == 64

/-- The checks a command must pass: the meanings refuse an ill-formed one by name. -/
def Instr.wellFormed : Instr → Bool
  | .registerWrite fn _ width _ => fn.wellFormed && widthOk width
  | .counterLowRead fn off => fn.wellFormed && decide (off % 4 = 0)
  | .accessTimeout fn _ => fn.wellFormed
  | .hostWindowBAccess a => a.wellFormed
  | .hostWindowCAccess a => a.wellFormed
  | .sqDoorbell fn _ _ => fn.wellFormed
  | .cqHeadWrite fn _ _ => fn.wellFormed
  | .ferryKick fn _ _ => fn.wellFormed
  | .faultHeadWrite fn _ _ => fn.wellFormed
  | .pcieLinkTrained width rate => (width == 1 || width == 2 || width == 4 || width == 8) && decide (1 ≤ rate.toNat ∧ rate.toNat ≤ 5)
  | .bmcPoll ps => decide (ps.length = 4)
  | .throttleEnd ts => decide (ts.length = 25)
  | _ => true

end Sys2Proof
end

