-- ==== Sys2Proof/Machine/Complete.lean ====
section
/-! DEFINITION. Job contexts, and the completion path of a stream: ring, held entries, overflow area (03, R65 to R67). -/
namespace Sys2Proof.Machine

/-! ### Fields of a job descriptor (03, Job descriptors) -/

def JobCtx.w (j : JobCtx) (i : Nat) : Word := nth j.words i 0
def JobCtx.jobId (j : JobCtx) : Nat := nbits (j.w 0).toNat 0 16
def JobCtx.layoutId (j : JobCtx) : Word := j.w 1
def JobCtx.patchLen (j : JobCtx) : Nat := nbits (j.w 2).toNat 16 10
def JobCtx.patchOff (j : JobCtx) : Nat := nbits (j.w 2).toNat 0 16
def JobCtx.reject (j : JobCtx) : Word := j.w 3
def JobCtx.deadline (j : JobCtx) : Word := j.w 4
def JobCtx.pulse (j : JobCtx) : Nat := (j.w 5).toNat
def JobCtx.enc (j : JobCtx) : Nat := nbits (j.w 6).toNat 6 2
def JobCtx.actuator (j : JobCtx) : Nat := nbits (j.w 6).toNat 0 4
def JobCtx.skipReject (j : JobCtx) : Bool := nbit (j.w 7).toNat 16
def JobCtx.every (j : JobCtx) : Nat := nbits (j.w 7).toNat 8 8
def JobCtx.mode (j : JobCtx) : Nat := nbits (j.w 7).toNat 0 4
def JobCtx.thresh (j : JobCtx) (i : Nat) : Nat := (j.w (8 + i)).toNat

/-- The stream runs a frame: STATE is not STOPPED. -/
def State.up (s : State) (n : Nat) : Bool := decide (s.st n ≠ 0)

/-! ### The completion ring -/

/-- Entries of the completion ring. -/
def State.cqSize (s : State) (n : Nat) : Nat := 2 ^ (s.f (aCqCfg n) 0 4 + 4)
/-- Entries of the submission ring. -/
def State.sqSize (s : State) (n : Nat) : Nat := 2 ^ (s.f (aSqCfg n) 0 4 + 4)
/-- Host address of the completion ring. -/
def State.cqBase (s : State) (n : Nat) : Nat := (s.rd (aCqBaseHi n)).toNat * 2 ^ 32 + (s.rd (aCqBaseLo n)).toNat / 64 * 64
/-- Entries the overflow area holds. -/
def State.ovfCap (s : State) (n : Nat) : Nat := s.f (aCqOvf n) 16 16 * 64
/-- The basin address of place i of the overflow area. -/
def State.ovfAddr (s : State) (n i : Nat) : Nat := s.f (aCqOvf n) 0 16 * 4096 + i % max (s.ovfCap n) 1 * 64

/-- The ring takes another entry: the link is up and one slot besides stays empty (R68). -/
def State.cqRoom (s : State) (n : Nat) : Bool :=
  s.linkUp && decide ((s.f (aCqTail n) 0 12 + 1) % s.cqSize n ≠ s.f (aCqHead n) 0 12 % s.cqSize n)

/-- The bytes of an entry. -/
def entryBytes (ws : List Word) : List Byte := ws.flatMap (fun w => toBytes 4 w.toNat)

/-- Set STREAM_INT_CAUSE.CQ and begin a new count of unsignalled entries (R67). -/
def cqSignal (n : Nat) (s : State) : State := (s.modStream n (fun x => { x with unsig := 0 })).cause n 0

/-- Write an entry to the ring with its PHASE, advance CQ_TAIL after it, count it for R67. -/
def cqWrite (n : Nat) (ws : List Word) (s : State) : State :=
  let t := s.f (aCqTail n) 0 12
  let x := s.stream n
  let ws := (nth ws 0 0 ||| (if x.phase then 1#32 else 0#32)) :: ws.drop 1
  let t' := (t + 1) % s.cqSize n
  let s := (s.hostWrite (s.cqBase n + t * 64) (entryBytes ws)).setF (aCqTail n) 0 12 t'
  let s := s.modStream n (fun x => { x with phase := if t' = 0 then !x.phase else x.phase, unsig := x.unsig + 1 })
  if max (s.f (aStreamIntCoal n) 0 8) 1 ≤ (s.stream n).unsig then cqSignal n s else s

/-- One move of the path, oldest first: held entries to the ring, then overflow to held, then what waits behind them. -/
def cqStep (n : Nat) (s : State) : State :=
  let x := s.stream n
  match x.held with
  | e :: es => if s.cqRoom n then cqWrite n e (s.setStream n { x with held := es }) else s
  | [] => s

/-- Refill the held entries from the overflow area or from behind it. -/
def cqRefill (n : Nat) (s : State) : State :=
  let x := s.stream n
  if 64 ≤ x.held.length then
    match x.waitq with
    | e :: es =>
      if x.ovf < s.ovfCap n then
        ((s.basinPut (s.ovfAddr n (x.ovfAt + x.ovf)) (entryBytes e)).count (cStream n 8) 1).setStream n
          { x with waitq := es, ovf := x.ovf + 1 }
      else s
    | [] => s
  else if 0 < x.ovf then
    let (g, s) := s.basinRead (s.ovfAddr n x.ovfAt) 64
    s.setStream n { x with held := x.held ++ [(pieces 4 64 g.bytes).map (fun b => BitVec.ofNat 32 (ofBytes b))],
                           ovf := x.ovf - 1, ovfAt := (x.ovfAt + 1) % max (s.ovfCap n) 1 }
  else match x.waitq with
    | e :: es => s.setStream n { x with held := x.held ++ [e], waitq := es }
    | [] => s

/-- Move the path until nothing moves, with fuel. -/
def cqMoves (n : Nat) : Nat → State → State
  | 0, s => s
  | f + 1, s => cqMoves n f (cqRefill n (cqStep n s))

/-- CQ_STALL is set when the held entries and the overflow area are full, and clears when the overflow area is empty. -/
def cqStall (n : Nat) (s : State) : State :=
  let x := s.stream n
  if 64 ≤ x.held.length ∧ s.ovfCap n ≤ x.ovf then s.setB (aStreamStatus n) 7 true
  else if x.ovf = 0 ∧ x.waitq = [] then s.setB (aStreamStatus n) 7 false else s

/-- Move entries as far as space allows (R66). -/
def cqMove (n : Nat) (s : State) : State :=
  let x := s.stream n
  cqStall n (cqMoves n (2 * (x.held.length + x.ovf + x.waitq.length) + 2) s)

/-- A completion entry of stream n: KIND, and words 1 to 15 (R65, R66). -/
def cqPut (n kind : Nat) (body : List Word) (s : State) : State :=
  let x := s.stream n
  let head := BitVec.ofNat 32 (x.cqSeq % 65536 * 65536 + n % 256 * 256 + kind % 16 * 16)
  let ws := head :: (body ++ List.replicate (15 - body.length) 0)
  cqMove n (s.setStream n { x with cqSeq := (x.cqSeq + 1) % 65536, waitq := x.waitq ++ [ws] })

/-- A submission completion (KIND 1). STATUS 0 DONE, 1 REJECTED, 2 ABORT. -/
def complete (n status op cid tag reason job : Nat) (s : State) : State :=
  cqPut n 1 [BitVec.ofNat 32 (status % 16 * 2 ^ 24 + op % 256 * 2 ^ 16 + cid % 65536), BitVec.ofNat 32 (tag % 4096),
             BitVec.ofNat 32 (reason % 256 * 2 ^ 16 + job % 1024)] s

/-- CQ_COALESCE_TIMER: CQ_TIME µs after the first unsignalled entry (R67). -/
def execCqCoalesceTimer (n : StreamIx) (s : State) : Host.Outcome State Fault Refusal :=
  when_ (decide (0 < (s.stream n.val).unsig ∧ s.f (aStreamIntCoal n.val) 8 16 ≠ 0)) s (cqSignal n.val s)

/-- Index i lies on the path from `a` to `b` in ring order of N entries, both ends included (R68). -/
def onPath (N a b i : Nat) : Bool := decide (i < N ∧ (i + N - a % N) % N ≤ (b + N - a % N) % N)

/-- A write to CQ_HEAD (R68): free space is filled at once. -/
def cqHeadSet (vf : Option Nat) (n i : Nat) (s : State) : State :=
  if onPath (s.cqSize n) (s.f (aCqHead n) 0 12) (s.f (aCqTail n) 0 12) i then cqMove n (s.setF (aCqHead n) 0 12 i)
  else reject vf (aCqHead n) s

/-- A function reaches stream n's page: the PF, or the stream's own VF (R60). -/
def fnReaches (fn : Fn) (n : Nat) : Bool := match fn with | .pf => true | .vf m => m.val == n

/-- CQ_HEAD_WRITE. -/
def execCqHeadWrite (fn : Fn) (n : StreamIx) (i : BitVec 12) (s : State) : Host.Outcome State Fault Refusal :=
  if !fn.wellFormed then .refused (.illFormed "VF 0") else
  if fnReaches fn n.val then hostRow fn (aCqHead n.val) i.toNat s (cqHeadSet (fnStream fn) n.val i.toNat s) else idle s

/-- A write to SQ_TAIL (R68). -/
def sqTailSet (vf : Option Nat) (n i : Nat) (s : State) : State :=
  if i < s.sqSize n then s.setF (aSqTail n) 0 12 i else reject vf (aSqTail n) s

/-- SQ_DOORBELL. -/
def execSqDoorbell (fn : Fn) (n : StreamIx) (i : BitVec 12) (s : State) : Host.Outcome State Fault Refusal :=
  if !fn.wellFormed then .refused (.illFormed "VF 0") else
  if fnReaches fn n.val then hostRow fn (aSqTail n.val) i.toNat s (sqTailSet (fnStream fn) n.val i.toNat s) else idle s

end Sys2Proof.Machine
end

