-- ==== Sys2Proof/Machine/Press.lean ====
section
/-! DEFINITION. The press interface in the keel (14, The press interface; R324 to R340): encoders, triggers and their FIFOs,
distance timers, interval timers, actuators. -/
namespace Sys2Proof.Machine

/-! ### Positions and timers -/

/-- PRESS_CTL.EN. -/
def State.pressOn (s : State) : Bool := s.bit aPressCtl 0

/-- Position p reaches target t (R326). -/
def reachedAt (p t : Word) : Bool := decide ((p - t).toNat < 2 ^ 31)

/-- The position a timer follows: the hk count, or an encoder. -/
def State.position (s : State) (tbase : Bool) (enc : Nat) : Word :=
  if tbase then BitVec.ofNat 32 s.time.hk else s.rd (aEncPos enc)

/-- A timer that is not free (DT_ARMED). -/
def Timer.busy (x : Timer) : Bool := decide (x.st ≠ 0)
/-- A timer that has not fired yet. -/
def Timer.armed (x : Timer) : Bool := x.st == 1 || x.st == 2 || x.st == 3 || x.st == 5

/-- Change a timer. -/
def State.modTimer (s : State) (k : Nat) (f : Timer → Timer) : State := s.setTimer k (f (s.timer k))

/-- TRIG_CFG.TBASE in effect of input i. -/
def State.tbase (s : State) (i : Nat) : Bool := s.bitA (aTrigCfg i) 29

/-- The unbound edges of input i, oldest first. -/
def State.fifo (s : State) (i : Nat) : List Edge := tget [] s.press.fifo i
def State.setFifo (s : State) (i : Nat) (l : List Edge) : State :=
  { s with press := { s.press with fifo := tset [] s.press.fifo i l } }

/-- The press context of stream n (R331). -/
def State.pressCtx (s : State) (n : Nat) : JobCtx := tget JobCtx.init s.press.ctx n
def State.setPressCtx (s : State) (n : Nat) (j : JobCtx) : State :=
  { s with press := { s.press with ctx := tset JobCtx.init s.press.ctx n j } }

/-- INGEST_CH_CTL fields: EN, TRIG_EN, TRIG, STREAM. -/
def State.chEn (s : State) (c : Nat) : Bool := s.bit (aIngestChCtl c) 0
def State.chStream (s : State) (c : Nat) : Nat := s.f (aIngestChCtl c) 8 8

/-- The enabled channel that binds input i (R329). -/
def State.boundChan (s : State) (i : Nat) : Option Nat :=
  findNat 32 (fun c => s.chEn c && s.bit (aIngestChCtl c) 20 && s.f (aIngestChCtl c) 16 4 == i)

/-- The timers of input i that are armed. -/
def State.armedOf (s : State) (i : Nat) : List Nat :=
  (List.range 64).filter (fun k => (s.timer k).armed && (s.timer k).trig == i)

/-- The edge's position under a job: the hk count, or the count of the job's encoder (R328). -/
def Edge.at (e : Edge) (tbase : Bool) (enc : Nat) : Word := if tbase then e.hk else nth e.encs enc 0

/-- Fire: the output is driven, the firing is counted and journalled (R332, R335, R360). -/
def fireTimer (k : Nat) (s : State) : State :=
  let x := s.timer k
  let s := s.setTimer k { x with st := 4 }
  let s := s.count (cPress (20 + x.act)) 1
  if s.bit aJournalCtl 0 then
    s.journalPut 5 [BitVec.ofNat 32 (x.tag.getD 0 * 2 ^ 20 + x.stream * 2 ^ 12 + x.act * 2 ^ 8 + k), x.fire,
      BitVec.ofNat 32 (b2n (!x.coal.isEmpty) + 2 * b2n x.slip + 4 * b2n (s.bit aPwrStatus 24) + 8 * b2n x.tag.isNone)]
  else s

/-- Set timer k for an edge under a job: fire position, actuator, pulse (R331). -/
def Timer.set (x : Timer) (tbase : Bool) (i : Nat) (e : Edge) (j : JobCtx) : Timer :=
  let p := e.at tbase j.enc
  { x with fire := p + j.reject, deadline := p + j.deadline, act := j.actuator, pulse := j.pulse, trig := i, enc := j.enc,
           tbase := tbase, edgePos := p }

/-- Arm a timer for an edge on input i of stream n: the lowest free one, with one kept for each other bound input that has
none armed; else the edge is coalesced into its input's timer that fires last (R331, R334). An encoder with EN = 0 counts
as reached: the timer fires at once (R327). -/
def armEdge (i n : Nat) (e : Edge) (s : State) : Edge × State :=
  let j := s.pressCtx n
  let free := (List.range 64).filter (fun k => !(s.timer k).busy)
  let own := s.armedOf i
  let keep := (List.range 16).filter (fun o => o != i && (s.boundChan o).isSome && (s.armedOf o).isEmpty)
  let lost := raiseC { cls := 0, code := 0x0F, stream := some n, die := 2, unit := 15, index := i }
  if own.isEmpty || decide (keep.length < free.length) then
    match free.head? with
    | none => (e, lost s)
    | some k =>
      let dead := !s.tbase i && !s.bit (aEncCtl j.enc) 31
      let hot := dead || (s.bit aPressCtl 2 && s.bit aPwrStatus 24)
      let s := s.setTimer k { Timer.init.set (s.tbase i) i e j with st := 1, stream := n, hot := hot, slip := e.slip, reached := dead }
      ({ e with timer := some k }, if dead && s.pressOn then fireTimer k s else s)
  else
    let last := own.foldl (fun (b k : Nat) => if reachedAt (s.timer k).fire (s.timer b).fire then k else b) (own.headD 0)
    let s := s.modTimer last (fun x => { x with st := 5, coal := x.coal ++ [e.at (s.tbase i) j.enc + j.reject] })
    ({ e with timer := some last, coal := true }, lost (s.count (cPress 36) 1))

/-- An edge of input i is accepted at time `time` (R328 to R330); on a channel whose link forwards triggers it is sent
on the master uplink too (R28). -/
def acceptEdge (i time : Nat) (s : State) : State :=
  let s := s.wr (aTrigCount i) (s.rd (aTrigCount i) + 1)
  match s.boundChan i with
  | none => s
  | some c =>
    let n := s.chStream c
    let full := decide (64 ≤ (s.fifo i).length)
    let lost := s.f (aTrigStatus i) 24 8
    let s := if !full then s else
      let s := raiseC { cls := 0, code := 0x0F, stream := some n, die := 2, unit := 15, index := i } s
      let s := (s.setB (aTrigStatus i) 22 true).setB (aTrigStatus i) 23 true
      if lost = 255 then s.setB (aTrigStatus i) 20 true else s.setF (aTrigStatus i) 24 8 (lost + 1)
    let e : Edge := { time := time, encs := (List.range 4).map (fun q => s.rd (aEncPos q)), hk := BitVec.ofNat 32 s.time.hk,
                      pos := 0, timer := none, slip := full, coal := false }
    let (e, s) := armEdge i n { e with pos := e.at (s.tbase i) (s.pressCtx n).enc } s
    let s := if full then s else s.setFifo i (s.fifo i ++ [e])
    let l := s.f (aIngestChCtl c) 4 3
    if s.f (aIngestChCtl c) 1 3 = 1 ∧ s.bit (aCxpLinkCtl l) 11 ∧ s.f (aCxpLinkCtl l) 4 3 = 0 then
      { s with press := { s.press with uplink := s.press.uplink ++ [l] } }
    else s

/-- A pin's filtered level. -/
def State.pin (s : State) (p : Nat) : Bool := tget false s.press.levels p
def State.setPin (s : State) (p : Nat) (b : Bool) : State :=
  { s with press := { s.press with levels := tset false s.press.levels p b } }

/-- PWR_STATUS.STATE. -/
def State.pwrState (s : State) : Nat := s.f aPwrStatus 28 4

/-- A pipeline boot begins with step 3: RAIL_EN[0] is asserted (R362). -/
def bootStart (s : State) : State :=
  let s := (((s.setF aBootStatus 28 4 3).setF aBootStatus 16 8 0).setF aBootStatus 0 8 0).setB aGlobalStatus 28 false
  { s with power := { s.power with boot := 3, rail := 0, railEn := 1, trip := false } }

/-- A pipeline boot may begin: in KEEL, none in progress; after a trip only once every reading has stayed below WARN for 1 s
(R380); not while the tray holds the package in KEEL (R419). -/
def State.mayBoot (s : State) : Bool :=
  decide (s.pwrState = 3) && decide (s.power.boot = 0) && !s.tray.holds
  && (!s.power.trip || (match s.power.coolAt with | some h => decide (200000000 ≤ s.time.hk - h) | none => false))

/-- A wake source occurs in KEEL (R373). -/
def wake (s : State) : State := if s.mayBoot then bootStart s else s

/-- TRIGGER_EDGE: a transition of TRIG_IN[i] stable for FILT hk; MODE selects the transitions accepted (R328, R340). In KEEL
an accepted edge on an input of PWR_WAKE.TRIG_MASK wakes the device (R373). -/
def execTriggerEdge (i : Fin 16) (rising : Bool) (s : State) : Host.Outcome State Fault Refusal :=
  let i := i.val
  let m := s.fa (aTrigCfg i) 30 2
  let s1 := s.setPin (12 + i) rising
  let t := acceptEdge i (s.now - 5 * s.fa (aTrigCfg i) 8 8) s1
  if s.pressOn && nbit m (if rising then 0 else 1) then done s (if s.bit aPwrWake (16 + i) then wake t else t) else done s s1

/-- LOST loses one; slip ends at 0; with LOST_SAT nothing changes (R330). -/
def lostDec (i : Nat) (s : State) : State :=
  if !s.bit (aTrigStatus i) 23 || s.bit (aTrigStatus i) 20 then s
  else
    let l := s.f (aTrigStatus i) 24 8 - 1
    let s := s.setF (aTrigStatus i) 24 8 l
    if l = 0 then s.setB (aTrigStatus i) 23 false else s

/-- Edge e of input i belongs to a frame of stream n: its timer is set again from the frame's own job and records the tag
(R331). A frame held at admission does so again when it is admitted. -/
def setEdgeJob (i n : Nat) (tag : Option Nat) (j : JobCtx) (e : Edge) (s : State) : Edge × State :=
  let tb := s.tbase i
  let e := { e with pos := e.at tb j.enc }
  match e.timer with
  | none => (e, s)
  | some k =>
    let x := s.timer k
    if !e.coal && x.armed && x.trig == i && (x.tag.isNone || (x.tag == tag && x.stream == n)) then
      (e, s.setTimer k { x.set tb i e j with st := if x.st = 5 then 5 else 2, stream := n, tag := tag, slip := x.slip || e.slip })
    else (e, s)

/-- Bind the oldest unbound edge of input i to a frame of stream n; none waits: the frame is unbound and LOST loses one
(R330). -/
def bindEdge (i n : Nat) (tag : Option Nat) (j : JobCtx) (s : State) : Option Edge × State :=
  match s.fifo i with
  | [] => (none, lostDec i s)
  | e :: es =>
    let (e, s) := setEdgeJob i n tag j { e with slip := e.slip || s.bit (aTrigStatus i) 23 } (s.setFifo i es)
    (some e, s)

/-- A channel that binds input i is disabled: slip ends, LOST and LOST_SAT clear (R330). -/
def slipClear (i : Nat) (s : State) : State := ((s.setF (aTrigStatus i) 24 8 0).setB (aTrigStatus i) 23 false).setB (aTrigStatus i) 20 false

/-! ### Encoders -/

/-- Place of (A, B) in the forward order 00, 10, 11, 01 (PRESUMED: A leads B, notes/assumptions/10.md). -/
def quad (a b : Bool) : Nat := match a, b with | false, false => 0 | true, false => 1 | true, true => 2 | false, true => 3

/-- The encoder-based interval timers of encoder e count a tick. -/
def itTick (e : Nat) (s : State) : State :=
  each (List.range 32) s (fun s k =>
    if s.bit (aItCfg k) 31 && !s.bit (aItCfg k) 30 && s.f (aItCfg k) 0 2 == e && decide (s.rd (aItPeriod k) ≠ 0) then
      { s with press := { s.press with ticks := tset 0 s.press.ticks k (tget 0 s.press.ticks k + 1) } }
    else s)

/-- ENCODER_TRANSITION: the filtered levels become a, b; one that changes moves the position by one, both set ERR
(R324, R325). Levels are followed while EN = 0, and nothing counts. -/
def execEncoderTransition (e : Fin 4) (a b : Bool) (s : State) : Host.Outcome State Fault Refusal :=
  let e := e.val
  let d := (quad a b + 4 - quad (s.pin (3 * e)) (s.pin (3 * e + 1))) % 4
  let t := (s.setPin (3 * e) a).setPin (3 * e + 1) b
  if !s.bit (aEncCtl e) 31 || d = 0 then done s t
  else if d = 2 then done s ((t.setB (aEncStatus e) 2 true).count (cPress e) 1)
  else
    let fwd := decide (d = 1) != s.bit (aEncCtl e) 30
    let t := t.wr (aEncPos e) (if fwd then s.rd (aEncPos e) + 1 else s.rd (aEncPos e) - 1)
    done s (itTick e (t.setB (aEncStatus e) 1 (!fwd)))

/-- ENCODER_INDEX: a rising ENC_Z latches the position under ZMODE 1; ZMODE 0 ignores it (R325). -/
def execEncoderIndex (e : Fin 4) (s : State) : Host.Outcome State Fault Refusal :=
  let e := e.val
  let t := s.setPin (3 * e + 2) true
  done s (if s.f (aEncCtl e) 28 2 = 1 then (t.wr (aEncZpos e) (s.rd (aEncPos e))).setB (aEncStatus e) 0 true else t)

/-- A write of v to ENC_CTL[e] (R327, R10). -/
def encCtlSet (e : Nat) (v : Word) (s : State) : State :=
  let old := (s.rd (aEncCtl e)).toNat
  let new := v.toNat &&& 0xF00000FF
  let held := (List.range 64).any (fun k => (s.timer k).busy && !(s.timer k).tbase && (s.timer k).enc == e)
  if decide (1 < nbits new 28 2) || (held && ((nbit old 31 && !nbit new 31) || nbit old 30 != nbit new 30)) then
    reject none (aEncCtl e) s
  else s.wr (aEncCtl e) (BitVec.ofNat 32 new)

/-- ENC_CTL_WRITE. -/
def execEncCtlWrite (e : Fin 4) (v : Word) (s : State) : Host.Outcome State Fault Refusal := done s (encCtlSet e.val v s)

/-! ### Firing -/

/-- A timer's position is reached now. -/
def State.timerDue (s : State) (k : Nat) : Bool :=
  let x := s.timer k
  x.reached || reachedAt (s.position x.tbase x.enc) x.fire

/-- DISTANCE_TIMER_FIRE: a timer not disarmed whose position is reached fires while EN = 1 (R332, R340). -/
def execDistanceTimerFire (tm : Fin 64) (s : State) : Host.Outcome State Fault Refusal :=
  when_ ((s.timer tm.val).armed && s.timerDue tm.val && s.pressOn) s (fireTimer tm.val s)

/-- PULSE_END: the pulse is over, that of a coalesced timer only after each coalesced edge's fire position too; the timer
is free (R334, R335). -/
def execPulseEnd (tm : Fin 64) (s : State) : Host.Outcome State Fault Refusal :=
  let x := s.timer tm.val
  when_ (decide (x.st = 4) && x.coal.all (fun p => reachedAt (s.position x.tbase x.enc) p)) s (s.setTimer tm.val Timer.init)

/-- INTERVAL_TIMER_EXPIRY: PERIOD ticks are counted; ACTION is performed (R336). -/
def execIntervalTimerExpiry (k : Fin 32) (s : State) : Host.Outcome State Fault Refusal :=
  let k := k.val
  let n := tget 0 s.press.ticks k
  let period := (s.rd (aItPeriod k)).toNat
  if !(s.bit (aItCfg k) 31 && decide (period ≠ 0 ∧ period ≤ n)) then idle s
  else if !s.bit (aItCfg k) 30 && !s.bit (aEncCtl (s.f (aItCfg k) 0 2)) 31 then idle s
  else
    let t := { s with press := { s.press with ticks := tset 0 s.press.ticks k (n - period) } }
    let target := s.f (aItCfg k) 24 4
    match s.f (aItCfg k) 28 2 with
    | 0 => done s (t.setB aItStatus k true)
    | 1 => done s { t with press := { t.press with pulses := tset 0 t.press.pulses k (s.rd (aItWidth k)).toNat } }
    | _ => done s (if s.pressOn then acceptEdge target s.now t else t)

/-- PRESS_ENABLE. -/
def execPressEnable (s : State) : Host.Outcome State Fault Refusal := done s (s.setB aPressCtl 0 true)

/-- PRESS_DISABLE: acceptance stops; pulses in progress end by themselves, armed timers stay (R340). -/
def execPressDisable (s : State) : Host.Outcome State Fault Refusal := done s (s.setB aPressCtl 0 false)

/-- TRIGGER_PACKET_SEND: the trigger packet leaves on the master uplink (R28). -/
def execTriggerPacketSend (l : Fin 8) (s : State) : Host.Outcome State Fault Refusal :=
  when_ (s.press.uplink.contains l.val) s
    ({ s with press := { s.press with uplink := s.press.uplink.erase l.val } }.emit (.uplink l.val))

/-! ### What the status registers show -/

/-- DT_INFO[k]. -/
def dtInfo (x : Timer) : Nat :=
  if x.st = 0 then 0 else x.tag.getD 0 * 2 ^ 20 + x.stream * 2 ^ 12 + x.act * 2 ^ 8 + x.trig * 2 ^ 4 + x.st * 2

/-- Output a is active: a firing timer or an interval pulse, unless forced. -/
def State.actActive (s : State) (a : Nat) : Bool :=
  match s.f (aActCfg a) 1 2 with
  | 1 => false
  | 2 => true
  | _ => (List.range 64).any (fun k => (s.timer k).st == 4 && (s.timer k).act == a)
      || s.press.pulses.any (fun p => s.f (aItCfg p.1) 24 4 == a)

/-- ACT_STATUS[a]: the timers on the output that are not free, and ACTIVE. -/
def actStatus (s : State) (a : Nat) : Nat :=
  ((List.range 64).filter (fun k => (s.timer k).busy && (s.timer k).act == a)).length * 256 + b2n (s.actActive a)

end Sys2Proof.Machine
end

