-- ==== Sys2Proof/Machine/Gate.lean ====
section
/-! DEFINITION. The exit gate (14): frame slots and their order, final tokens, actions and the keel's answers, records
(R316 to R323), and the completion of a changeover among the records (R65). -/
namespace Sys2Proof.Machine

/-! ### Frame slots (R319) -/

def State.slot (s : State) (n tag : Nat) : Slot := (s.stream n).slot tag
def State.setSlot (s : State) (n tag : Nat) (y : Slot) : State := s.modStream n (fun x => x.setSlot tag y)

/-- A filled slot has been released: its action is under way or answered. -/
def State.released (s : State) (n tag : Nat) : Bool :=
  s.gate.actions.any (fun a => a.stream == n && a.tag == tag) || s.gate.answers.any (fun a => a.stream == n && a.tag == tag)

/-- Fill an OPEN slot with an outcome that no token gives: 2 ABORT, 3 DROPPED, 4 LATE, 5 SKIPPED. -/
def fillSlot (n tag outcome : Nat) (s : State) : State :=
  if (s.slot n tag).st = .opened then
    s.setSlot n tag { s.slot n tag with st := .filled, outcome := outcome, byToken := false }
  else s

/-- Every OPEN slot of stream n takes ABORT (R347). -/
def abortFill (n : Nat) (s : State) : State := each (s.stream n).admitted s (fun s t => fillSlot n t 2 s)

/-- A frame is admitted: its slot is OPEN, and the slot of the tag 2,048 before is FREE. -/
def openSlot (n tag : Nat) (y : Slot) (s : State) : State :=
  let s := s.modStream n (fun x =>
    { (x.setSlot ((tag + 2048) % 4096) Slot.init).setSlot tag { y with st := .opened } with
      admitted := x.admitted ++ [tag], lastAdmitted := some tag, nextTag := (tag + 1) % 4096 })
  s.count (cStream n 0) 1

/-- The next tag lies in the tag window: within 2,047 of the oldest tag in flight (R48, R99). -/
def State.tagFits (s : State) (n : Nat) : Bool :=
  match (s.stream n).admitted with
  | [] => true
  | t :: _ => decide (((s.stream n).nextTag + 4096 - t) % 4096 ≤ 2047)

/-! ### Final tokens (R317, R318) -/

/-- SCORE[i], CLASS, USER, VCODE of a payload. -/
def tokScore (p : Pay) (i : Nat) : Int := sgn 16 (nbits p.toNat (32 + 16 * i) 16)
def tokScores (p : Pay) : Nat := nbits p.toNat 32 128
def tokUser (p : Pay) : Nat := nbits p.toNat 160 64
def tokClass (p : Pay) : Nat := nbits p.toNat 8 8
def tokVcode (p : Pay) : Nat := nbits p.toNat 0 4

/-- THRESH word w is crossed by a score. -/
def crossed (w : Nat) (score : Int) : Bool :=
  nbit w 31 && (if nbit w 30 then decide (score < sgn 16 (nbits w 0 16)) else decide (sgn 16 (nbits w 0 16) < score))

/-- TMASK of a token under a job. -/
def tmaskOf (j : JobCtx) (p : Pay) : Nat :=
  ((List.range 8).map (fun i => b2n (crossed (j.thresh i) (tokScore p i)) * 2 ^ i)).foldl (· + ·) 0

/-- The verdict of a token without PSN: 0 PASS, 1 FAIL. -/
def verdictOf (j : JobCtx) (p : Pay) : Nat :=
  if j.mode = 0 then (if tokVcode p = 0 then 0 else 1) else (if tmaskOf j p = 0 then 0 else 1)

/-- A class S fault of the gate at port y. -/
def gateS (code y : Nat) (e : Entry) (s : State) : State :=
  let t := 20 * y + 19
  raiseS { cls := 1, code := code, frame := some (frameOf e.side), region := regionOf t, tile := t, unit := 12, index := y }
    (strOf e.side) s

/-- A final token fills its OPEN slot (R318, R323). -/
def tokenFill (y : Nat) (e : Entry) (s : State) : State :=
  let n := strOf e.side
  let tag := frameOf e.side
  let sl := s.slot n tag
  let psn := psnOf e.side
  let room := decide (0 < s.gate.free)
  let s := if room then { s with gate := { s.gate with free := s.gate.free - 1 } } else (s.setB aExitStatus 16 true).count (cGate 3) 1
  let s := if sl.job.mode = 0 && decide (2 ≤ tokVcode e.pay) then s.count (cGate 2) 1 else s
  let s := s.setSlot n tag { sl with
    st := .filled, outcome := if psn then 2 else verdictOf sl.job e.pay, byToken := true, buffered := room,
    cls := tokClass e.pay, tmask := if sl.job.mode = 1 then tmaskOf sl.job e.pay else 0, scores := tokScores e.pay,
    user := tokUser e.pay, gov := nbit e.side.toNat 1, psn := psn }
  if psn then gateS 0x14 y e s else s

/-- A popped entry (R317, R320). -/
def gateToken (y : Nat) (e : Entry) (s : State) : State :=
  let n := strOf e.side
  let sl := s.slot n (frameOf e.side)
  if !nbit e.side.toNat 2 then gateS 0x02 y e s
  else
    let s := s.count (cGate 0) 1
    match sl.st with
    | .opened => tokenFill y e s
    | .free => gateS 0x03 y e s
    | _ => if sl.byToken && decide (sl.outcome < 2) then gateS 0x03 y e s else s.count (cGate 1) 1

/-- FINAL_TOKEN_POP: port y gives up its oldest entry, whose credit returns; an entry of a stream being purged is discarded
(R316, R347). -/
def execFinalTokenPop (y : Fin 20) (s : State) : Host.Outcome State Fault Refusal :=
  let y := y.val
  match tget [] s.gate.ports y with
  | [] => idle s
  | e :: es =>
    let t := credit (s.linkSender (20 * y + 19) 1) 1 { s with gate := { s.gate with ports := tset [] s.gate.ports y es } }
    done s (if s.purging (strOf e.side) then t else gateToken y e t)

/-! ### Release and the keel's decision (R321, R322) -/

/-- The oldest slot of stream n not yet released. -/
def State.nextSlot (s : State) (n : Nat) : Option Nat := (s.stream n).admitted.find? (fun t => !s.released n t)

/-- GATE_SLOT_RELEASE. -/
def execGateSlotRelease (n : StreamIx) (s : State) : Host.Outcome State Fault Refusal :=
  let n := n.val
  match s.nextSlot n with
  | none => idle s
  | some tag =>
    let o := (s.slot n tag).outcome
    when_ (decide ((s.slot n tag).st = .filled)) s
      (State.count { s with gate := { s.gate with actions := s.gate.actions ++ [Action.mk n tag o] } } (cStream n (1 + o)) 1)

/-- The timer of a bound edge, if it is still that frame's. -/
def State.frameTimer (s : State) (n tag : Nat) (e : Edge) : Option Nat :=
  match e.timer with
  | some k => if (s.timer k).busy && (s.timer k).stream == n && (s.timer k).tag == some tag && !e.coal then some k else none
  | none => none

/-- The position of a bound frame's timer base now, and whether the frame's deadline is reached (R22). -/
def State.frameNow (s : State) (y : Slot) : Word := s.position (s.tbase y.trig) y.job.enc
def State.frameLate (s : State) (y : Slot) (e : Edge) : Bool := reachedAt (s.frameNow y) (e.pos + y.job.deadline)

/-- What the keel decides on an action (R322): its answer and the state after. -/
def decideAction (a : Action) (s : State) : Answer × State :=
  let y := s.slot a.stream a.tag
  let ebb := s.bit aPwrStatus 24
  match y.edge with
  | none => ({ stream := a.stream, tag := a.tag, verdict := a.outcome, fire := false, ebb := ebb, slip := false, coal := false,
               actionPos := s.position (s.tbase y.trig) y.job.enc }, s)
  | some e =>
    let late := decide (a.outcome < 2) && s.frameLate y e
    let k := s.frameTimer a.stream a.tag e
    let coal := e.coal || (match k with | some k => !(s.timer k).coal.isEmpty | none => false)
    let slip := e.slip || s.bit (aTrigStatus y.trig) 23
    let mayStop := !slip && !coal && (match k with | some k => (s.timer k).armed && !(s.timer k).hot && !(s.timer k).slip | none => false)
    let stop := !late && mayStop && (decide (a.outcome = 0) || (decide (a.outcome = 5) && !y.job.skipReject))
    let s := match k with
      | none => s
      | some k =>
        if stop then s.setTimer k Timer.init
        else s.modTimer k (fun x => { x with accepted := true, st := if x.armed && a.outcome == 1 && !late && x.st != 5 then 3 else x.st })
    let s := if late then raiseC { cls := 0, code := 0x0E, stream := some a.stream, frame := some a.tag, die := 2, unit := 15 } s else s
    let s := if a.outcome < 2 then
        let d := s.now - y.lastPixel
        let s := s.count (cStream a.stream 9) d
        if (s.cnt (cStream a.stream 10)).toNat < d then s.count (cStream a.stream 10) (d - (s.cnt (cStream a.stream 10)).toNat) else s
      else s
    ({ stream := a.stream, tag := a.tag, verdict := if late then 4 else a.outcome, fire := !stop, ebb := ebb, slip := e.slip,
       coal := coal, actionPos := s.frameNow y }, s)

/-- KEEL_ACTION_DECISION: the oldest action reaches the keel. -/
def execKeelActionDecision (s : State) : Host.Outcome State Fault Refusal :=
  match s.gate.actions with
  | [] => idle s
  | a :: rest =>
    let (r, t) := decideAction a { s with gate := { s.gate with actions := rest } }
    done s { t with gate := { t.gate with answers := t.gate.answers ++ [r] } }

/-! ### The record (R323, The verdict record) -/

/-- Words 1 to 15 of the record. -/
def recordBody (y : Slot) (tag : Nat) (r : Answer) : List Word :=
  let w := fun (n : Nat) => BitVec.ofNat 32 n
  let trunc := y.byToken && !y.buffered
  let tok := y.byToken && y.buffered
  let scores := if tok then y.scores else 0
  let user := if tok then y.user else 0
  let time := (match y.edge with | some e => e.time | none => 0)
  let pos := (match y.edge with | some e => e.pos | none => 0)
  [ w (tag * 2 ^ 20 + r.verdict % 16 * 2 ^ 16 + y.job.jobId),
    w ((if tok then y.cls % 256 * 2 ^ 24 + y.tmask % 256 * 2 ^ 16 else 0) + b2n r.coal * 128 + b2n r.fire * 64 + b2n r.ebb * 32
       + b2n r.slip * 16 + b2n y.edge.isNone * 8 + b2n trunc * 4 + b2n y.psn * 2 + b2n y.gov),
    w (y.trig % 16 * 256 + y.job.enc * 16 + y.job.actuator),
    w (time % 2 ^ 32), w (time / 2 ^ 32), pos, r.actionPos, w (y.camTime.toNat % 2 ^ 32), w (y.camTime.toNat / 2 ^ 32) ]
  ++ (lanes 32 4 scores).map w ++ (lanes 32 2 user).map w

/-- The changeover of stream n in force completes DONE once the record of the last frame under the old job is written (R65). -/
def coSettle (n : Nat) (s : State) : State :=
  match (s.stream n).pend with
  | none => s
  | some p =>
    match p.inForce, p.firstTag with
    | true, some f =>
      let older := (s.stream n).admitted.takeWhile (fun t => t != f)
      if !older.isEmpty then s
      else
        let s := s.modStream n (fun x => { x with pend := none })
        (complete n 0 1 p.cid f 0 p.ctx.slot (s.setB (aStreamStatus n) 8 false)).cause n 3
    | _, _ => s

/-- VERDICT_RECORD_WRITE: the record of stream n's oldest answered frame goes to the completion path (R65, R323). The record of
a changeover's first frame waits for the CHANGEOVER completion. -/
def execVerdictRecordWrite (n : StreamIx) (s : State) : Host.Outcome State Fault Refusal :=
  let n := n.val
  match s.gate.answers.find? (fun a => a.stream == n) with
  | none => idle s
  | some r =>
    let y := s.slot n r.tag
    let waits := match (s.stream n).pend with | some p => p.firstTag == some r.tag | none => false
    if waits then idle s else
    let t := { s with gate := { s.gate with answers := s.gate.answers.erase r, free := s.gate.free + b2n y.buffered } }
    let t := t.modStream n (fun x => { (x.setSlot r.tag { y with st := .closed }) with admitted := x.admitted.filter (fun u => u != r.tag) })
    let t := t.setF (aStreamStatus n) 20 12 r.tag
    done s (coSettle n (cqPut n 0 (recordBody y r.tag r) t))

/-! ### LATE (R22, R319, R322, R333) -/

/-- The bound frames of timer k whose deadline is reached before their action is accepted: stream and tag. -/
def State.lateFrames (s : State) (k : Nat) : List (Nat × Nat) :=
  s.streams.flatMap (fun p => (p.2.admitted.filter (fun t =>
    let y := p.2.slot t
    match y.edge with
    | none => false
    | some e => e.timer == some k && (s.frameTimer p.1 t e == some k || e.coal) && s.frameLate y e
        && !s.gate.answers.any (fun a => a.stream == p.1 && a.tag == t) && !s.gate.lates.contains (p.1, t)
        && (y.st == .opened || decide (y.outcome < 2)))).map (fun t => (p.1, t)))

/-- The unbound edges of timer k's input whose deadline is reached (R333). -/
def State.orphans (s : State) (k : Nat) : List Edge :=
  let x := s.timer k
  let j := s.pressCtx x.stream
  (s.fifo x.trig).filter (fun e => e.timer == some k && reachedAt (s.position (s.tbase x.trig) j.enc) (e.at (s.tbase x.trig) j.enc + j.deadline))

/-- DEADLINE_REACHED: the keel sends LATE for a bound frame without an accepted action; an edge still unbound is an orphan. -/
def execDeadlineReached (tm : Fin 64) (s : State) : Host.Outcome State Fault Refusal :=
  let k := tm.val
  if !(s.timer k).busy then idle s else
  let i := (s.timer k).trig
  let os := s.orphans k
  let t := { s with gate := { s.gate with lates := s.gate.lates ++ s.lateFrames k } }
  let t := t.setFifo i ((t.fifo i).filter (fun e => !os.contains e))
  done s (each os t (fun t _ => lostDec i ((t.setB (aTrigStatus i) 21 true).count (cPress (4 + i)) 1)))

/-- LATE_RECEIVE: the slot takes LATE if it is OPEN, or holds a verdict not yet released; VERDICT_LATE is counted. -/
def execLateReceive (s : State) : Host.Outcome State Fault Refusal :=
  match s.gate.lates with
  | [] => idle s
  | (n, tag) :: rest =>
    let y := s.slot n tag
    let t := { s with gate := { s.gate with lates := rest } }
    let t := raiseC { cls := 0, code := 0x0E, stream := some n, frame := some tag, die := 2, unit := 15 } t
    let hit := decide (y.st = .opened) || (decide (y.st = .filled ∧ y.outcome < 2) && !s.released n tag)
    done s (if hit then t.setSlot n tag { y with st := .filled, outcome := 4 } else t)

end Sys2Proof.Machine
end

