-- ==== Sys2Proof/Machine/Region.lean ====
section
/-! DEFINITION. Regions as a whole: set-reset (R88, R113, R158, R269), the purge of a stream (R348), quiescence (R309), the
uses of the all-region barrier (R254, R255), plane swaps, and the start of a sequencer (R237). -/
namespace Sys2Proof.Machine

/-! ### Set-reset -/

/-- What GSR clears in a tile (04, Planes and set-reset; R158, R199). -/
def Tile.gsrClear (x : Tile) : Tile :=
  { x with iq := [], oq := [], used := [], acc := [], banks := [], cq := [], c := [], replay := none, pendStart := none,
           dead := false, synWait := none, open_ := [], eofSeen := [], awaits := [], record := none, patches := [], wins := [],
           shown := [], halos := [], disp := Disp.init, gt := [], staged := [] }

/-- Boundary inbound links (tile, direction) of region g. -/
def boundaries (g : Nat) : List (Nat × Nat) :=
  (tilesOf g).flatMap (fun t => ((List.range 4).filter (fun a => boundary t a)).map (fun a => (t, a)))

/-- The lane keys of the crossing links of region g: its own inbound lanes and the neighbours' lanes it feeds. -/
def crossLanes (g : Nat) : List Nat :=
  (boundaries g).flatMap (fun p => (List.range 15).map (fun l => (p.1 * 4 + p.2) * 16 + l)
    ++ (match neighbour p.1 p.2 with
        | some n => (List.range 15).map (fun l => (n * 4 + opp p.2) * 16 + l)
        | none => []))

/-- The senders whose credit counters a GSR of region g restores. -/
def State.gsrSenders (s : State) (g : Nat) : List Nat :=
  (tilesOf g).flatMap (fun t => (List.range 8).map (sOq t))
  ++ (boundaries g).flatMap (fun p => (List.range 15).flatMap (fun l =>
      sLane p.1 p.2 l :: (match s.laneSender p.1 p.2 l with | some c => [c] | none => [])))

/-- Put a sender's counter back to its full credit. -/
def creditFull (c : Nat) (s : State) : State :=
  if c < 10000 then s.setOqUsed (c / 8) (c % 8) 0
  else if c < 50000 then s.setLaneUsed ((c - 10000) / 64) ((c - 10000) / 16 % 4) ((c - 10000) % 16) 0
  else if c < 60000 then { s with fabric := { s.fabric with westUsed := tset 0 s.fabric.westUsed (c - 50000) 0 } }
  else s.setEdge (c - 60000) { s.edge (c - 60000) with used := 0 }

/-- Drop the entries of a table of lists whose key `p` picks. -/
def tdrop {α : Type} (p : Nat → Bool) (t : Tab (List α)) : Tab (List α) := t.filter (fun e => !p e.1)

/-- GSR of region g. -/
def gsrRegion (g : Nat) (s : State) : State :=
  let senders := s.gsrSenders g
  let cross := crossLanes g
  let ts := tilesOf g
  let into := fun (k : Nat) => match neighbour (k / 4) (k % 4) with | some n => regionOf n == g | none => false
  let s := each senders s (fun s c => creditFull c s)
  let s := { s with fabric := { s.fabric with
    wires := tdrop (fun k => ts.contains (k / 4) || into k) s.fabric.wires,
    holds := tdrop (fun k => ts.contains (k / 64)) s.fabric.holds,
    lanes := tdrop (fun k => cross.contains k) s.fabric.lanes,
    back := s.fabric.back.filter (fun p => !senders.contains p.1) } }
  let s := each (List.range 40) s (fun s e =>
    if regionOf (edgeTile e) = g then s.setEdge e { s.edge e with inq := [], recs := [], wr := 0 } else s)
  each ts s (fun s t => s.modTile t Tile.gsrClear)

/-- Hold or release the GSR of region g. -/
def gsrHold (b : Bool) (g : Nat) (s : State) : State := each (tilesOf g) s (fun s t => s.modTile t (fun x => { x with gsr := b }))

/-- The sequencer starts at SEQ_RESTART (R237); `tags` says whether the tag counter restarts too (R220). -/
def seqStart (g : Nat) (tags : Bool) (s : State) : State :=
  let base := nbits (s.act (aSeqSpillBase g)).toNat 6 11 * 64
  let pc := nbits (s.act (aSeqRestart g)).toNat 2 15 * 4
  s.modSeq g (fun x => { x with
    pc := pc, g := [], win := [], ra := [], cwp := 0, resident := 1, depth := 0, loops := [], key := 0, tmask := 0,
    tag := if tags then 0 else x.tag, spill := base, sids := [], notices := [], keys := [], seen := 0, wait := 0,
    waitIdx := none, granted := false, record := none, started := 0, doneReplays := 0, trapped := false, halted := false })

/-- Discard the spill rings of every group with a queue in region g (R352 step 2). -/
def spillDrop (g : Nat) (s : State) : State :=
  each (List.range 16) s (fun s n =>
    if (s.groupRegions n).contains g then
      s.setGrp n { s.grp n with rings := (s.grp n).rings.map (fun r => (r.1, r.2.1, [])), spilling := false, moved := [] }
    else s)

/-! ### The purge of a stream (R348) -/

/-- The entries of other streams. -/
def others (n : Nat) (es : List Entry) : List Entry := es.filter (fun e => strOf e.side != n)

/-- Purge IQ q of tile t: each entry returns its credit; the passed entries of a watched IQ are counted again. -/
def purgeIq (n t q : Nat) (s : State) : State :=
  let es := s.iq t q
  let keep := others n es
  if keep.length = es.length then s else
  let s := match s.watcher t q with
    | some g => s.modSeq g (fun x => { x with seen := (others n ((s.iqAll t q).take x.seen)).length })
    | none => s
  credit (s.iqSender t q) (es.length - keep.length) (s.setIq t q keep)

/-- Purge what tile t holds of stream n, its open replays included, which count as done. -/
def purgeTile (n t : Nat) (s : State) : State :=
  let s := each (List.range 8) s (fun s q => (purgeIq n t q s).setOq t q (others n (s.oq t q)))
  let x := s.tile t
  let mine := x.open_.filter (fun r => sfStr r.2.1 == n)
  let started := match x.pendStart with | some (m, _, _) => b2n (sfStr m == n) | none => 0
  let runs := match x.replay with | some (m, _, _) => sfStr m == n | none => false
  let s := s.modSeq (regionOf t) (fun q => { q with doneReplays := q.doneReplays + mine.length + started })
  let s := s.modTile t (fun x =>
    let x := winPurge n x
    { x with disp := dspPurge n x.disp, open_ := x.open_.filter (fun r => sfStr r.2.1 != n),
             eofSeen := x.eofSeen.filter (fun p => !mine.any (fun r => r.1 == p.1)),
             pendStart := if started = 1 then none else x.pendStart,
             replay := if runs then none else x.replay, synWait := if runs then none else x.synWait, dead := false,
             awaits := x.awaits.filter (fun a => a.stream != n),
             gt := x.gt.filter (fun p => strOf p.1.side != n),
             banks := x.banks.filter (fun b => b.2.owner != some n),
             staged := x.staged.filter (fun p => match p.2.2.2 with | .push _ e => strOf e.side != n | _ => true) })
  discardCmds t false (fun c _ => strOf c.key == n || (match c.bound with | some b => b.stream == n | none => false)) s

/-- The tags that frames held at admission will receive. -/
def Chan.heldTags (x : Chan) : List Nat :=
  x.waits.map (·.tag) ++ (match x.frame with | some f => if f.held then [f.tag] else [] | none => [])

/-- Discard from the pools the rows of frames of stream n that the fabric will not take, those of held frames too if `held`
says so, and what remains of a frame in progress; a west-edge port in the midst of such a row is free. -/
def purgePool (n : Nat) (held : Bool) (s : State) : State :=
  each (s.chans.map (·.1)) s (fun s c =>
    if s.chStream c ≠ n then s else
    let ch := s.chan c
    let gone := fun (tag : Nat) =>
      if ch.heldTags.contains tag then held else (s.slot n tag).st != .opened
    let cut := fun (f : Frame) => if !f.refused && gone f.tag then { f with dropped := true } else f
    let lost := (ch.pool.filter (fun r => gone r.tag)).map (·.seg)
    let s := s.setChan c { ch with pool := ch.pool.filter (fun r => !gone r.tag), closeTo := [], frame := ch.frame.map cut,
                                   waits := ch.waits.map cut }
    let free := fun (p : Nat × Nat) => p.2 == c + 1 && lost.contains p.1
    { s with fabric := { s.fabric with west := s.fabric.west.filter (fun p => !free p) } })

/-- Discard the entries of stream n from a causeway link's receive buffers; a flit's credit is owed once its last entry goes. -/
def rxPurge (n : Nat) (x : Cwy) : Cwy :=
  each (x.rxq.map (·.1)) x (fun x c =>
    let es := tget [] x.rxq c
    let gone := (es.filter (fun e => strOf e.1.side == n && e.2)).length
    { x with rxq := tset [] x.rxq c (es.filter (fun e => strOf e.1.side != n)), owed := tset 0 x.owed c (tget 0 x.owed c + gone) })

/-- Purge stream n. -/
def purgeStream (n : Nat) (s : State) : State :=
  let s := each ((s.tiles.map (·.1))) s (fun s t => purgeTile n t s)
  let s := each (s.fabric.lanes.map (·.1)) s (fun s k =>
    let (t, a, l) := (k / 64, k / 16 % 4, k % 16)
    let keep := others n (s.lane t a l)
    credit (s.laneSender t a l) ((s.lane t a l).length - keep.length) (s.setLane t a l keep))
  let s := each (List.range 20) s (fun s y =>
    let es := tget [] s.gate.ports y
    let keep := others n es
    credit (s.linkSender (20 * y + 19) 1) (es.length - keep.length)
      { s with gate := { s.gate with ports := tset [] s.gate.ports y keep } })
  let s := each (s.edges.map (·.1)) s (fun s e =>
    let es := (s.edge e).inq
    let keep := others n es
    ringPurge e n (credit (s.linkSender (edgeTile e) (edgeDir e)) (es.length - keep.length) (s.setEdge e { s.edge e with inq := keep })))
  let s := each (s.cwy.map (·.1)) s (fun s l => s.setLink l (rxPurge n (s.link l)))
  let s := each (s.under.map (·.1)) s (fun s k =>
    let u := s.grp k
    let s := s.setGrp k { u with rings := u.rings.map (fun r => (r.1, r.2.1, others n r.2.2)) }
    s.setB (aUndertowGrpStatus k) 1 ((s.grp k).rings.any (fun r => !r.2.2.isEmpty)))
  let s := each (s.seqs.map (·.1)) s (fun s g =>
    let s := s.modSeq g (fun x => { x with notices := x.notices.filter (fun k => strOf k != n), keys := x.keys.filter (fun k => strOf k != n) })
    let x := s.seq g
    let s := if x.keyOk && strOf x.key == n then seqRestart g s else s
    let w := (s.act (aSeqWatch g)).toNat
    if nbit w 31 then watchScan (tileOf g (nbits w 3 4)) (nbits w 0 3) s else s)
  let s := each (s.ferries.map (·.1)) s (fun s f => if s.ferryOwner f = some n then ferryStop f s else s)
  purgePool n true s

/-! ### Quiescence (R309) -/

/-- The slot of the image that is the active plane of region g. -/
def State.activeIn (s : State) (g : Nat) : Option Nat :=
  (s.images.find? (fun p => nbit p.2.active g)).map (·.1)

/-- Tile t holds nothing of the streams `ns`; for a changeover its window contexts and dispatch unit hold nothing at all. -/
def State.tileQuiet (s : State) (t : Nat) (ns : List Nat) (change : Bool) : Bool :=
  let x := s.tile t
  let clear := fun (es : List Entry) => es.all (fun e => !ns.contains (strOf e.side))
  x.iq.all (fun p => clear p.2) && x.oq.all (fun p => clear p.2)
  && s.fabric.lanes.all (fun p => p.1 / 64 != t || clear p.2)
  && s.fabric.holds.all (fun p => p.1 / 64 != t || clear p.2)
  && s.fabric.wires.all (fun p => p.1 / 4 != t || clear (p.2.map (·.2)))
  && (List.range 4).all (fun e => (x.queue e).all (fun c =>
      !ns.contains (strOf c.key) && (match c.bound with | some b => !ns.contains b.stream | none => true)))
  && x.open_.all (fun r => !ns.contains (sfStr r.2.1))
  && (match x.pendStart with | some (m, _, _) => !ns.contains (sfStr m) | none => true)
  && x.staged.all (fun p => match p.2.2.2 with | .push _ e => !ns.contains (strOf e.side) | _ => true)
  && x.wins.all (fun c => !change && !ns.contains (strOf c.key)) && x.shown.all (fun v => !change && !ns.contains v.stream)
  && x.halos.all (fun h => !change && !ns.contains (strOf h.ctxKey))
  && (if change then x.disp.empty else ns.all (fun n => dspPurge n x.disp == x.disp))
  && !s.scanShift (regionOf t)

/-- The sequencer's condition: for a changeover it waits in KEYGET with no SID open and no PATCH unapplied; for a stop or
drain that holds only if its KEY is of one of the streams (R237, R349). -/
def State.seqQuiet (s : State) (g : Nat) (ns : List Nat) (change : Bool) : Bool :=
  let x := s.seq g
  (!change && !(x.keyOk && ns.contains (strOf x.key)))
  || (x.wait == 4 && x.sids.isEmpty && (s.unapplied g).isEmpty && !x.patching)

/-- Region g is quiescent for the streams `ns`. A region of no active layout holds nothing; a halted one never is. -/
def State.quiet (s : State) (g : Nat) (ns : List Nat) (change : Bool) : Bool :=
  (s.activeIn g).isNone
  || ((s.phase g == 0 || s.phase g == 4) && s.live g && !s.gsr g
    && (tilesOf g).all (fun t => s.tileQuiet t ns change)
    && s.seqQuiet g ns change
    && (List.range 40).all (fun e => regionOf (edgeTile e) != g || (s.edge e).inq.all (fun x => !ns.contains (strOf x.side)))
    && s.under.all (fun p => !(s.groupRegions p.1).contains g
        || p.2.rings.all (fun r => if change then r.2.2.isEmpty else r.2.2.all (fun e => !ns.contains (strOf e.side))))
    && s.ferries.all (fun p => match s.ferryOwner p.1 with
        | some n => !ns.contains n || (p.2.kicks.isEmpty && p.2.cur.isNone && p.2.block.isNone)
        | none => true))

/-! ### The all-region barrier (R254, R255) -/

/-- Regions the image of a slot occupies. -/
def State.slotRegions (s : State) (k : Nat) : List Nat :=
  match s.image k with
  | some im => (List.range 25).filter (fun g => nbit im.regions g)
  | none => []

/-- Every region has added its increment for a use. -/
def State.useDone (s : State) (u : Use) : Bool := (s.slotRegions u.slot).all (fun g => u.done.contains g)

/-- The use of slot k in progress: its first one whose phase has not completed. -/
def State.useNow (s : State) (k : Nat) : Option Use := s.uses.find? (fun u => u.slot == k && !s.useDone u)

/-- Ask for the use of a changeover group. -/
def useChange (k : Nat) (ns : List Nat) (s : State) : State := { s with uses := s.uses ++ [⟨k, true, ns, []⟩] }

/-- Put a stop or drain among the uses: with one that waits already, else ahead of the changeovers that wait (R255). -/
def useInsert (now : Option Use) (k n : Nat) : List Use → List Use
  | [] => [⟨k, false, [n], []⟩]
  | u :: us =>
    if u.slot = k ∧ now ≠ some u ∧ !u.change ∧ u.done = [] then { u with streams := u.streams ++ [n] } :: us
    else if u.slot = k ∧ now ≠ some u ∧ u.change ∧ u.done = [] then ⟨k, false, [n], []⟩ :: u :: us
    else u :: useInsert now k n us

/-- Ask for the barrier of a stop or drain of stream n. -/
def useStop (n : Nat) (s : State) : State :=
  match (s.stream n).job with
  | some j => { s with uses := useInsert (s.useNow j.layout) j.layout n s.uses }
  | none => s

/-- The barrier use of stream n's stop or drain has completed (a stream without an image has no region to wait for). -/
def State.stopped (s : State) (n : Nat) : Bool :=
  s.uses.all (fun u => u.change || !u.streams.contains n || s.useDone u)

/-- The use of stream n's stop or drain is over for it. -/
def useEnd (n : Nat) (s : State) : State :=
  let us := s.uses.map (fun u => if u.change then u else { u with streams := u.streams.filter (fun m => m != n) })
  { s with uses := us.filter (fun u => u.change || !u.streams.isEmpty) }

/-- Region g adds its increment for the use in progress of slot k (R254, R309). -/
def useAdd (g k : Nat) (s : State) : State :=
  match s.useNow k with
  | none => s
  | some u =>
    if u.done.contains g then s
    else
      let s := { s with uses := s.uses.map (fun v => if v = u then { u with done := u.done ++ [g] } else v) }
      tmSystem k 1 s

/-- A changeover use whose group stopped being ready: the missing increments are added and nothing follows (R255). -/
def useAbandon (k : Nat) (s : State) : State :=
  match s.uses.find? (fun u => u.slot == k && u.change) with
  | none => s
  | some u =>
    let missing := ((s.slotRegions k).filter (fun g => !u.done.contains g)).length
    let begun := s.useNow k == some u
    let s := if begun then tmSystem k missing s else s
    { s with uses := s.uses.filter (fun v => v != u) }

/-- Tag `t` still lies ahead of the next tag of stream n in its tag window (R72). -/
def State.tagAhead (s : State) (n t : Nat) : Bool :=
  let d := (t + 4096 - (s.stream n).nextTag) % 4096
  decide (0 < d ∧ d ≤ 2047)

/-- The last frame under the old job of stream n has left the fabric: none admitted before its changeover frame is OPEN, and
the changeover frame is not still to come at a later tag (R72, R75). -/
def State.oldFramesOut (s : State) (n : Nat) : Bool :=
  let x := s.stream n
  match x.pend with
  | none => x.admitted.all (fun t => (x.slot t).st != .opened)
  | some p =>
    match p.firstTag with
    | some f => (x.admitted.takeWhile (fun t => t != f)).all (fun t => (x.slot t).st != .opened)
    | none => x.admitted.all (fun t => (x.slot t).st != .opened)
        && (match p.atTag with | some t => !s.tagAhead n t | none => true)

/-- REGION_QUIESCENT: region g, quiescent for the streams of the use in progress of slot k, adds 1. -/
def execRegionQuiescent (g : RegionIx) (k : Fin 8) (s : State) : Host.Outcome State Fault Refusal :=
  match s.useNow k.val with
  | none => idle s
  | some u =>
    let t := each u.streams s (fun s n => if s.purging n then purgeStream n s else s)
    when_ ((s.slotRegions k.val).contains g.val && !u.done.contains g.val && u.streams.all (fun n => s.oldFramesOut n)
           && t.quiet g.val u.streams u.change) s (useAdd g.val k.val t)

/-! ### Planes -/

/-- The planed registers of tile t. -/
def planedTile (t : Nat) : List Nat :=
  ((List.range 60).map (fun i => aTileSwOut t (i / 15) (i % 15))) ++ ((List.range 16).map (aTileQbind t))
  ++ [aTileWinGeom t, aTileWinCh t, aTileWinPad t, aTileWinLb t, aTileWinPitch t, aTileWinRow t, aTileWinHalo t 0, aTileWinHalo t 1,
      aTileDspCfg t, aTileDspQ t, aTileDspThr t, aTileDspTm t, aTileDspGb t, aTileGtCfg t]

/-- The planed registers of sequencer g. -/
def planedSeq (g : Nat) : List Nat := [aSeqRestart g, aSeqSpillBase g, aSeqSpillLimit g, aSeqWatch g]

/-- Exchange the two planes of a planed register. -/
def planeSwapReg (s : State) (off : Nat) : State := (s.wr off (s.act off)).wrAct off (s.rd off)

/-- A pending value takes effect. -/
def applyReg (s : State) (off : Nat) : State := s.wrAct off (s.rd off)

/-- Exchange the code planes of a sequencer's memory (R201). -/
def swapCode {α : Type} (m : Tab α) : Tab α :=
  let lo := m.filter (fun p => p.1 < 0x3000)
  let mid := m.filter (fun p => 0x3000 ≤ p.1 && p.1 < 0x6000)
  let hi := m.filter (fun p => 0x6000 ≤ p.1)
  mid.map (fun p => (p.1 - 0x3000, p.2)) ++ lo.map (fun p => (p.1 + 0x3000, p.2)) ++ hi

/-- Step 4 of R310: the region's divider takes effect. -/
def applyDiv (s : State) (g : Nat) : State := s.setF (aRegionClk g) 16 4 (s.f (aRegionClk g) 0 4)

/-- Steps 4 to 6 of R310 for region g: divider, planes, EXIT_PORTS of its east-edge tiles, the sequencer's start. -/
def swapRegion (g : Nat) (s : State) : State :=
  let s := applyDiv s g
  let s := each (tilesOf g) s (fun s t =>
    let s := each (planedTile t) s planeSwapReg
    s.modTile t (fun x => { x with plane := !x.plane, imem := x.imemSh, imemSh := x.imem, imemBad := [], u := x.uSh, uSh := x.u }))
  let s := each (planedSeq g) s planeSwapReg
  let s := s.modSeq g (fun x => { x with mem := swapCode x.mem, ecc := swapCode x.ecc, patching := false, patch := [] })
  let s := each (List.range 20) s (fun s y =>
    if regionOf (20 * y + 19) = g then
      s.wrAct aExitPorts (BitVec.ofNat 32 (nput (s.act aExitPorts).toNat y 1 (s.f aExitPorts y 1)))
    else s)
  seqStart g true s

end Sys2Proof.Machine
end

