-- ==== Sys2Proof/Machine/Legal.lean ====
section
/-! DEFINITION. Reserved encodings of registers (R10): field by field, and the combinations that count as one. -/
namespace Sys2Proof.Machine

/-- The value a word gives a field. -/
def Field.val (f : Field) (v : Nat) : Nat := nbits v f.lo (f.hi + 1 - f.lo)

/-- Every enumerated field a write can set holds a value its table lists. -/
def fieldsLegal (off v : Nat) : Bool :=
  match regAt off with
  | none => true
  | some r => r.fields.all (fun f =>
      f.acc == .ro || f.legal.isEmpty || f.legal.any (fun p => decide (p.1 ≤ f.val v ∧ f.val v ≤ p.2)))

/-- The bits a register keeps: those of its fields (R9). -/
def regMask (off : Nat) : Nat :=
  match regAt off with
  | none => 0
  | some r => r.fields.foldl (fun a f => a ||| ((2 ^ (f.hi + 1 - f.lo) - 1) * 2 ^ f.lo)) 0

/-- Store a value with its reserved bits dropped (R9, R12). -/
def State.wrM (s : State) (off v : Nat) : State := s.wr off (BitVec.ofNat 32 (v &&& regMask off))

/-- TILE_SW_OUT: SRC_SLOT 15 of an inbound link and OQ 8 to 15 are reserved (05). -/
def swLegal (v : Nat) : Bool := if nbits v 4 3 = 4 then decide (nbits v 0 4 < 8) else decide (nbits v 0 4 < 15)

/-- TILE_QBIND[q]: DIR of an IQ, CREDITS of an OQ (05). -/
def qbindLegal (q v : Nat) : Bool := if q < 8 then decide (nbits v 23 3 < 4) else decide (nbits v 0 2 < 2)

/-- The combinations of TILE_DSP_CFG and TILE_DSP_Q that count as reserved while EN = 1 (09, Registers). -/
def dspLegal (cfg q : Nat) : Bool :=
  let func := nbits cfg 29 2
  let grp := nbit cfg 28
  let nm1 := nbits cfg 23 3
  !nbit cfg 31
  || !((!grp && nm1 == 7 && decide (func < 2))
      || (grp && func == 1 && decide (256 < (nbits cfg 10 6 + 1) * (nbits cfg 16 4 + 1)))
      || (!grp && func == 0 && decide (nbits q 12 3 ≤ nm1))
      || (!grp && func == 1 && decide (nbits q 28 3 ≤ nm1)))

/-- A value for register `rel` of a tile page is no reserved encoding; `rd` gives the pending values of the page. -/
def tileLegal (rd : Nat → Nat) (rel v : Nat) : Bool :=
  fieldsLegal (tilePage 0 + rel) v
  && (if 0x100 ≤ rel && rel < 0x200 then swLegal v
      else if 0x200 ≤ rel && rel < 0x240 then qbindLegal ((rel - 0x200) / 4) v
      else if rel = 0x340 then dspLegal v (rd 0x344)
      else if rel = 0x344 then dspLegal (rd 0x340) v
      else true)

/-- EDGE_CFG[e]: no second port on a (link, channel) pair (R45), by the pending values. -/
def edgeCfgLegal (s : State) (e v : Nat) : Bool :=
  decide (nbits v 30 2 ≠ 3)
  || (List.range 40).all (fun o => o == e || decide (s.f (aEdgeCfg o) 30 2 ≠ 3) || decide (s.f (aEdgeCfg o) 16 6 ≠ nbits v 16 6))

/-- EDGE_RING[e]: SIZE 0 is reserved with MODE 1 or 2 (12, Registers). -/
def edgeRingLegal (s : State) (e v : Nat) : Bool :=
  let m := s.f (aEdgeCfg e) 30 2
  decide (m ≠ 1 ∧ m ≠ 2) || decide (nbits v 16 14 ≠ 0)

/-- The constants of the FEAT_* registers (R430). -/
def featWord (off : Nat) : Word :=
  match off with
  | 0x100 => 0x14140419
  | 0x104 => 0x10088010
  | 0x108 => 0x40101040
  | 0x10C => 0x88404010
  | 0x110 => 0x100F030F
  | 0x114 => 0xC3FE0760
  | 0x118 => 0x80008100
  | 0x11C => 0x40804400
  | 0x120 => if Config.gradeA then 0x04E203FF else 0x03E803FF
  | _ => 0

end Sys2Proof.Machine
end

