-- ==== Sys2Proof/Machine/Layout.lean ====
section
/-! DEFINITION. Layouts (13): packages and their checks, translation of portable code, the image store, staging, and the
swap of planes (R296 to R315). -/
namespace Sys2Proof.Machine

/-! ### Packages -/

/-- The header of a package from its bytes. -/
def pkgHeader (bs : List Byte) : PkgHeader :=
  let w := fun (i : Nat) => ofBytes ((bs.drop (4 * i)).take 4)
  { magic := w 0, form := nbits (w 1) 24 8, version := nbits (w 1) 0 24, layoutId := w 2, regions := w 3, lfab := w 4,
    keySlot := nbits (w 5) 0 8, sections := nbits (w 6) 0 16, length := w 7 }

/-- The header breaks its table: MAGIC, FORM, VERSION (with the zero byte above it), the number of sections. -/
def headBad (h : PkgHeader) : Bool :=
  decide (h.magic ≠ 0x454C504B) || decide (3 ≤ h.form) || decide (h.version < 0x100 ∨ 0x1FF < h.version)
  || decide (h.sections = 0 ∨ 64 < h.sections)

/-- A section entry is invalid: TYPE, the zero word, a length beyond the sections. -/
def sectionBad (bs : List Byte) (len i : Nat) : Bool :=
  let w := fun (k : Nat) => ofBytes ((bs.drop (0x40 + 16 * i + 4 * k)).take 4)
  decide (w 0 = 0 ∨ 9 ≤ w 0) || decide (w 3 ≠ 0) || decide (len < w 1 + w 2 + 64)

/-- The key in a key store slot: fused slots 0 to 3, loaded slots 4 to 15 (zero: empty). -/
def State.key (s : State) (k : Nat) : Option (BitVec 512) :=
  if k < 4 then some (Config.fusedKey k)
  else if k < 16 then (let v := tget 0 s.keys.slots k; if v = 0 then none else some v)
  else none

/-- A signature of 64 bytes, r then s big-endian, as a number. -/
def sigOf (bs : List Byte) : BitVec 512 := BitVec.ofNat 512 (ofBytes bs.reverse)

/-- R297. -/
def State.signed (s : State) (keySlot : Nat) (bs : List Byte) (len : Nat) : Bool :=
  match s.key keySlot with
  | none => false
  | some k => Config.ecdsaValid k (bs.take (len - 64)) (sigOf ((bs.drop (len - 64)).take 64))

/-! ### Portable code (R298) -/

/-- The fields of a portable record. -/
structure Rec where
  unit : Nat
  eow : Bool
  cont : Bool
  fields : Nat
  rkind : Nat
  rpos : Nat
  sym : Nat
  clean : Bool

/-- A record decoded. -/
def recOf (v : BitVec 128) : Rec :=
  let n := v.toNat
  { unit := nbits n 124 4, eow := nbit n 123, cont := nbit n 122, fields := nbits n 64 56, rkind := nbits n 56 8,
    rpos := nbits n 48 8, sym := nbits n 0 32, clean := decide (nbits n 120 2 = 0 ∧ nbits n 32 16 = 0) }

/-- Low bit and width of a unit's slot in the native word (06); a sequencer instruction stands alone. -/
def unitAt (u : Nat) : Nat × Nat :=
  match u with
  | 0 => (240, 16)
  | 1 => (216, 24)
  | 2 => (184, 32)
  | 3 => (144, 40)
  | 4 => (104, 40)
  | 5 => (56, 48)
  | 6 => (0, 56)
  | _ => (0, 32)

/-- The opcode of a sequencer instruction. -/
def seqOp (n : Nat) : Nat := nbits n 26 6

/-- Width of the branch offset of a sequencer instruction, 0 when it has none. -/
def offWidth (op : Nat) : Nat :=
  if op = 0x16 ∨ op = 0x17 then 26 else if 0x12 ≤ op ∧ op ≤ 0x15 then 16 else if op = 0x27 then 14 else 0

/-- Where an IQ set, an IQ number or an OQ number lies in a slot: the width of the relocated field, none if RPOS is reserved. -/
def circuitField (unit rkind rpos : Nat) : Option Nat :=
  match rkind, unit, rpos with
  | 1, 6, 34 | 1, 5, 18 | 1, 4, 22 => some 8
  | 1, 1, 7 => some 3
  | 2, 6, 29 | 2, 5, 13 | 2, 3, 26 => some 3
  | _, _, _ => none

/-- Resolve a relocation of a slot whose fields are `f`, at word or code address `a`, in `target`: REASON or the new fields. -/
def relocate (p : Sections) (target a unit f : Nat) (r : Rec) : Except Nat Nat :=
  match r.rkind with
  | 0 => .ok f
  | 1 | 2 =>
    match circuitField unit r.rkind r.rpos,
          p.circuits.find? (fun c => c.1 == r.sym && c.2.1 == target && (r.rkind == 1) == decide (c.2.2 < 8)) with
    | some 8, some c => .ok (f ||| 2 ^ (r.rpos + c.2.2))
    | some w, some c => .ok (nput f r.rpos w (c.2.2 % 8))
    | _, _ => .error 8
  | 3 =>
    match p.labels.find? (fun l => l.1 == r.sym) with
    | none => .error 8
    | some (_, l) =>
      if unit = 7 then
        let w := offWidth (seqOp f)
        if r.rpos ≠ 0 then .error 8
        else if w = 0 then (if 496 ≤ l then .error 8 else .ok (nput f 0 16 l))
        else .ok (nput f 0 w (pat w (((l : Int) - (a + 4 : Nat)) / 4)))
      else if unit = 0 ∧ r.rpos = 1 ∧ l < 496 then .ok (nput f 1 9 l) else .error 8
  | 4 =>
    match p.tiles.find? (fun t => t.tile.val == target) with
    | none => .error 8
    | some t =>
      if t.extUnits ≤ r.sym then .error 8
      else if unit = 0 ∧ r.rpos = 3 then .ok (nput f 3 13 (t.extBase + r.sym))
      else if unit = 2 ∧ r.rpos = 0 then .ok (nput f 0 16 (t.extBase + r.sym))
      else .error 8
  | 5 =>
    if unit = 7 ∧ r.rpos = 0 then
      let g := target - 0x200
      let used := ((p.tiles.filter (fun t => regionOf t.tile.val == g)).map (fun t => 2 ^ localOf t.tile.val)).foldl (· ||| ·) 0
      .ok (nput f 0 16 (Config.localMask used r.sym).toNat)
    else .error 8
  | _ => .error 8

/-- Pack records into words: the slots of the word so far (unit, fields), the address, the words done. -/
def packRecs (p : Sections) (target : Nat) : List (BitVec 128) → Nat → List (Nat × Nat) → List (Nat × Nat) → Except Nat (List (Nat × Nat))
  | [], _, [], out => .ok out
  | [], _, _ :: _, _ => .error 2
  | v :: vs, a, slots, out =>
    let r := recOf v
    let seq := decide (0x200 ≤ target)
    if !r.clean || decide (8 ≤ r.unit) || ((r.unit == 7) != seq) then .error 4
    else
      let base : Option Nat := if r.cont then (if r.fields ≠ 0 then none else (slots.head?.map (·.2))) else
        if seq then some (nbits r.fields 32 24 * 2 ^ 32 + nbits r.fields 0 32) else some r.fields
      match base with
      | none => .error 4
      | some f =>
        let unit := if r.cont then ((slots.head?.map (·.1)).getD 0) else r.unit
        if 2 ^ (unitAt unit).2 ≤ f || (!r.cont && slots.any (fun x => x.1 == unit)) then .error 4
        else match relocate p target a unit f r with
          | .error e => .error e
          | .ok f' =>
            let slots := (unit, f') :: (if r.cont then slots.drop 1 else slots)
            if r.eow then
              let w := (slots.map (fun x => x.2 * 2 ^ (unitAt x.1).1)).foldl (· + ·) 0
              packRecs p target vs (if seq then a + 4 else a + 1) [] (out ++ [(a, w)])
            else packRecs p target vs a slots out

/-- Translate one run into the sections (R298). -/
def transRun (p : Sections) (q : Sections) (r : PortableRun) : Except Nat Sections :=
  match packRecs p r.target r.records r.start [] [] with
  | .error e => .error e
  | .ok ws =>
    .ok (if 0x200 ≤ r.target then
      { q with regions := q.regions.map (fun x => if x.region.val + 0x200 = r.target then
          { x with code := x.code ++ ws.map (fun w => (w.1, BitVec.ofNat 32 w.2)) } else x) }
    else { q with tiles := q.tiles.map (fun x => if x.tile.val = r.target then
          { x with code := x.code ++ ws.map (fun w => (w.1, BitVec.ofNat 256 w.2)) } else x) })

/-- Translate a portable package: REASON or native sections. -/
def translate (p : Sections) : Except Nat Sections :=
  p.portable.foldl (fun a r => match a with | .error e => .error e | .ok q => transRun p q r) (.ok p)

/-! ### Checks (R299) -/

/-- Value of address a in a list of (address, value) pairs, the last one listed prevailing. -/
def listed {α : Type} (l : List (Nat × α)) (a : Nat) (d : α) : α :=
  match l.reverse.find? (fun p => p.1 == a) with
  | some p => p.2
  | none => d

/-- A tile's register image: the value of page offset `rel`. -/
def imgReg (x : TileRec) (rel : Nat) : Nat := (listed x.regs rel (regReset (tilePage 0 + rel))).toNat
/-- A tile's word. -/
def imgWord (x : TileRec) (a : Nat) : Nat := (listed x.code a 0).toNat

/-- A sequencer instruction holds a reserved encoding (R204). -/
def seqBad (n : Nat) : Bool :=
  let op := seqOp n
  !(if op = 0 ∨ op = 0x19 ∨ op = 0x1B ∨ op = 0x1F then legZero n
    else if op ≤ 0x0B then legR n
    else if op = 0x0F then regOk (rdF n) && decide (raF n = 0)
    else if op ≤ 0x15 ∨ op = 0x27 then legI n
    else if op ≤ 0x17 then true
    else if op = 0x18 ∨ op = 0x1E ∨ op = 0x23 ∨ op = 0x25 ∨ op = 0x26 then legRa n
    else if op = 0x1A then legI n && decide (immF n ≠ 0)
    else if op = 0x1C then legR n && decide (rbF n = 0)
    else if op = 0x1D then regOk (raF n) && regOk (rbF n) && decide (nbits n 0 11 = 0)
    else if op = 0x24 then regOk (rdF n) && decide (nbits n 0 21 = 0)
    else if op = 0x29 then regOk (rdF n) && decide (raF n = 0) && decide (rbF n < 12) && decide (nbits n 0 11 = 0)
    else if op = 0x2A then regOk (raF n) && decide (rdF n = 0) && decide (rbF n = 0 ∨ rbF n = 3) && decide (nbits n 0 11 = 0)
    else if op ≤ 0x28 then legRaRb n
    else false)

/-- REASON 2 beyond the header: a record outside its table, or of a region or tile outside REGIONS (R296). -/
def shapeBad (h : PkgHeader) (p : Sections) : Bool :=
  p.regions.any (fun r => !nbit h.regions r.region.val || r.code.any (fun c => decide (c.1 % 4 ≠ 0 ∨ 0xC000 ≤ c.1))
      || r.regs.any (fun x => !(planedSeq r.region.val).contains (seqPage r.region.val + x.1)))
  || p.tiles.any (fun t => !nbit h.regions (regionOf t.tile.val) || t.code.any (fun c => decide (512 ≤ c.1))
      || t.uregs.any (fun x => decide (64 ≤ x.1))
      || t.regs.any (fun x => !(planedTile t.tile.val).contains (tilePage t.tile.val + x.1)
          && !(decide (0x100 ≤ x.1 ∧ x.1 < 0x200) && x.1 % 0x40 == 0x3C)))
  || p.tidemarks.any (fun t => decide (8192 ≤ t.1 ∨ 3 ≤ t.2.1 ∨ 2 ^ 24 ≤ t.2.2))
  || p.edges.any (fun e => decide (40 ≤ e.1))
  || (List.range 25).any (fun g => nbit h.regions g && !p.regions.any (fun r => r.region.val == g))

/-- REASON 3: a requirement exceeds the device's figure; the minimum of FEAT_CLOCK.DIVS is a set of dividers. -/
def featBad (f : Nat × Nat × Nat × Nat) : Bool :=
  let v := nbits (featWord f.1).toNat f.2.1 f.2.2.1
  if f.1 = 0x120 ∧ f.2.1 = 0 then decide (f.2.2.2 &&& v ≠ f.2.2.2) else decide (v < f.2.2.2)

/-- REASON 4. -/
def codeBad (p : Sections) : Bool :=
  p.tiles.any (fun t => t.code.any (fun c => decide (c.1 < 496) && (wordBad (fun h => imgWord t (496 + h)) c.1 (imgWord t c.1)).isSome))
  || p.regions.any (fun r => r.code.any (fun c => seqBad c.2.toNat))

/-- REASON 5. -/
def regsBad (p : Sections) : Bool :=
  p.tiles.any (fun t => t.regs.any (fun x => !tileLegal (imgReg t) x.1 x.2.toNat))
  || p.regions.any (fun r => !fieldsLegal (aRegionClk 0) r.div || r.regs.any (fun x => !fieldsLegal (seqPage 0 + x.1) x.2.toNat))
  || p.edges.any (fun e => !fieldsLegal (aEdgeCfg 0) e.2.1.toNat
      || (decide (nbits e.2.1.toNat 30 2 = 1 ∨ nbits e.2.1.toNat 30 2 = 2) && decide (nbits e.2.2.toNat 16 14 = 0)))

/-- REASON 6: R160 of a tile whose window unit is on. -/
def geomBad (t : TileRec) : Bool :=
  let g := imgReg t 0x300
  let c := nbits (imgReg t 0x304) 0 13
  let efmt := nbits g 22 2
  let bpp := if efmt = 1 then (c + 1) / 2 else if efmt = 2 then 2 * c else c
  let span := (nbits g 10 2 + 1) * ((nbits g 18 2 + 1) * max (nbits g 0 3) 1 - 1) + 1
  let need := (span - 1) / (nbits g 14 2 + 1) + 1
  let rows := nbits (imgReg t 0x30C) 13 6
  let pitch := nbits (imgReg t 0x310) 0 14
  nbit g 31 && (decide (pitch < (nbits (imgReg t 0x310) 16 15 * bpp + 31) / 32) || decide (rows < need)
    || decide (8192 < nbits (imgReg t 0x30C) 0 13 + rows * pitch))

/-- The references of a tile's image to inbound (a, k): by IQs, by outbound links. -/
def iqRefs (t : TileRec) (a k : Nat) : List Nat :=
  (List.range 8).filter (fun q => let b := imgReg t (0x200 + 4 * q); nbit b 31 && nbits b 23 3 == a && nbit b (8 + k))
def outRefs (t : TileRec) (a k : Nat) : List Nat :=
  (List.range 60).filterMap (fun i => let v := imgReg t (0x100 + i / 15 * 0x40 + i % 15 * 4)
    if nbit v 7 && nbits v 4 3 == a && nbits v 0 4 == k then some (i / 15) else none)

/-- REASON 7 of a tile's image: a slot listed twice, slot 15, an inbound slot named twice, R451, R109. -/
def schedBad (t : TileRec) : Bool :=
  let x := t.tile.val
  let sched := t.regs.filter (fun r => decide (0x100 ≤ r.1 ∧ r.1 < 0x200))
  decide ((sched.map (·.1)).dedup.length ≠ sched.length)
  || sched.any (fun r => r.1 % 0x40 == 0x3C && nbit r.2.toNat 7)
  || (decide (x % 20 = 0) && (List.range 15).any (fun k => nbit (imgReg t (0x1C0 + 4 * k)) 7))
  || (List.range 60).any (fun i =>
      let iq := iqRefs t (i / 15) (i % 15)
      let out := outRefs t (i / 15) (i % 15)
      if boundary x (i / 15) then decide (1 < iq.length + out.dedup.length) else decide (1 < iq.length + out.length))
  || (List.range 8).any (fun q => decide (1 < (outRefs t 4 q).dedup.length))
  || (List.range 8).any (fun q =>
      let b := imgReg t (0x200 + 4 * q)
      nbit b 31 && boundary x (nbits b 23 3) && decide (1 < ((List.range 15).filter (fun k => nbit b (8 + k))).length))

/-- REASON 9: what staging loads in a region besides weights, above 96 KiB; or more than 256 tidemark values. -/
def volumeBad (p : Sections) : Bool :=
  decide (256 < p.tidemarks.length) || p.regions.any (fun r =>
    let ts := p.tiles.filter (fun t => regionOf t.tile.val == r.region.val)
    let v := (ts.map (fun t => 32 * t.code.length + 4 * (t.regs.length + t.uregs.length))).foldl (· + ·) 0
    decide (96 * 1024 < v + 4 * (r.code.length + r.regs.length + 1)))

/-- The extents of two records of one tile overlap. -/
def extOverlap (a b : TileRec) : Bool :=
  a.tile == b.tile && decide (a.extBase < b.extBase + b.extUnits ∧ b.extBase < a.extBase + a.extUnits)

/-- Some pair of the list overlaps. -/
def pairOverlap : List TileRec → Bool
  | [] => false
  | t :: ts => ts.any (extOverlap t) || pairOverlap ts

/-- REASON 11. -/
def extBad (p : Sections) : Bool :=
  p.tiles.any (fun t => decide (8192 < t.extBase + t.extUnits)
    || t.weights.any (fun w => decide (w.1 < t.extBase ∨ t.extBase + t.extUnits ≤ w.1)))
  || pairOverlap p.tiles

/-- REASON 14 (R412). -/
def State.placeBad (s : State) (p : Sections) : Bool :=
  match p.position with
  | none => false
  | some (pos, ls) => decide (pos ≠ s.power.smb) || ls.any (fun l =>
      !(s.bit (aCwyLinkStatus l.1) 0 && s.bit (aCwyLinkStatus l.1) 3
        && s.f (aCwyLinkStatus l.1) 4 2 == l.2.1 && s.f (aCwyLinkStatus l.1) 6 2 == l.2.2))

/-- The first REASON of the list whose check fails, 0 if none does. -/
def firstReason (l : List (Nat × Bool)) : Nat := ((l.find? (·.2)).map (·.1)).getD 0

/-- REASON 4 to 8 and 11 of native content. -/
def nativeReason (p : Sections) : Nat :=
  firstReason [(4, codeBad p), (5, regsBad p), (6, p.tiles.any geomBad), (7, p.tiles.any schedBad), (11, extBad p)]

/-- What install finds after the signature: a REASON, or the native sections. The lowest REASON is recorded
(notes/assumptions/31.md). -/
def checkImage (k : Nat) (h : PkgHeader) (p : Sections) (s : State) : Nat × Sections :=
  if headBad h || shapeBad h p then (2, p)
  else if p.features.any featBad then (3, p)
  else
    let (tr, q) := if h.form = 0 then (match translate p with | .error e => (e, p) | .ok q => (0, q)) else (0, p)
    let nat := if h.form = 0 then (if tr ≠ 0 then tr else nativeReason q) else 0
    let low := if 4 ≤ nat && nat ≤ 8 then nat else 0
    (firstReason [(low, decide (low ≠ 0)), (9, volumeBad q), (10, (s.image k).isSome), (11, nat == 11),
      (12, h.form == 2 && decide (nativeReason p ≠ 0)), (13, decide (s.test.failing &&& h.regions ≠ 0)),
      (14, s.placeBad p)], q)

/-! ### The image store (R303) -/

/-- The number of regions in a mask. -/
def popRegions (m : Nat) : Nat := ((List.range 25).filter (fun g => nbit m g)).length

/-- Place an accepted image in slot k: its system tidemark has TARGET = the number of its regions. -/
def placeImage (k : Nat) (h : PkgHeader) (p : Sections) (s : State) : State :=
  (s.setImage k (some { id := h.layoutId, native := h.form == 1, staged := false, active := 0, regions := h.regions % 2 ^ 25,
                        lfab := h.lfab, body := p })).setTm (8184 + k)
    { Tm.init with mode := 1, target := popRegions h.regions, lay := (0, popRegions h.regions, 0, 1) }

/-- An operation ends: BUSY clears, DONE or ERR with its REASON. -/
def layFinish (reason : Nat) (s : State) : State :=
  let s := { s with layOp := none }
  let s := (s.setB aLayoutStatus 31 false).setF aLayoutStatus 16 8 reason
  (s.setB aLayoutStatus 30 (reason == 0)).setB aLayoutStatus 29 (reason != 0)

/-- An operation begins. -/
def layBegin (op k : Nat) (s : State) : State :=
  let s := (s.setF aLayoutCtl 8 3 k).setF aLayoutCtl 0 4 op
  ((s.setF aLayoutStatus 29 3 4).setF aLayoutStatus 16 8 0).setF aLayoutStatus 8 3 k

/-- Slot k is in use (R303): ACTIVE in a region, named by a running stream's job or by a validated changeover. -/
def State.slotUsed (s : State) (k : Nat) : Bool :=
  (match s.image k with | some im => decide (im.active ≠ 0) | none => false)
  || s.streams.any (fun p => (s.up p.1 && (match p.2.job with | some j => j.layout == k | none => false))
      || (match p.2.pend with | some c => c.ctx.layout == k | none => false))

/-- Evict (OP 2). -/
def layEvict (k : Nat) (s : State) : State :=
  if s.slotUsed k then layFinish 10 s
  else layFinish 0 (({ s with staging := s.staging.filter (fun x => x != k) }.setImage k none).setTm (8184 + k) Tm.init)

/-- The package at LAYOUT_PKG. -/
def State.pkg (s : State) : List Byte :=
  s.mem.basin.read (s.f aLayoutPkg 0 14 * 4096) (s.f aLayoutPkg 16 14 * 4096)

/-- Install ends (R299): SIZE 0 or a LENGTH that leaves no room for header, table and signature is REASON 2, as no signature
can be found; then REASON 1, then the rest. -/
def layInstall (k : Nat) (p : Sections) (s : State) : State :=
  let bs := s.pkg
  let h := pkgHeader bs
  if bs.isEmpty || decide (bs.length < h.length ∨ h.length < 128 + 16 * h.sections) then layFinish 2 s
  else if !s.signed h.keySlot bs h.length then layFinish 1 s
  else if (List.range h.sections).any (sectionBad bs h.length) then layFinish 2 s
  else
    let (r, q) := checkImage k h p s
    if r ≠ 0 then layFinish r s else layFinish 0 (placeImage k h q s)

/-- LAYOUT_INSTALL: the write of GO with OP 1. -/
def execLayoutInstall (k : Fin 8) (s : State) : Host.Outcome State Fault Refusal :=
  hostRow .pf aLayoutCtl (2 ^ 31 + k.val * 256 + 1) s
    (if s.bit aLayoutStatus 31 then reject none aLayoutCtl s else { (layBegin 1 k.val s) with layOp := some (1, k.val) })

/-- LAYOUT_EVICT. -/
def execLayoutEvict (k : Fin 8) (s : State) : Host.Outcome State Fault Refusal :=
  hostRow .pf aLayoutCtl (2 ^ 31 + k.val * 256 + 2) s
    (if s.bit aLayoutStatus 31 then reject none aLayoutCtl s else layEvict k.val (layBegin 2 k.val s))

/-- LAYOUT_INSTALL_COMPLETE: the sections are those the keel read in the package. -/
def execLayoutInstallComplete (p : Sections) (s : State) : Host.Outcome State Fault Refusal :=
  match s.layOp with
  | some (1, k) => done s (layInstall k p s)
  | _ => idle s

/-! ### Staging (R304 to R306, R308) -/

/-- R304: the extents of two images are disjoint in every tile they share. -/
def fastPair (a b : Sections) : Bool := a.tiles.all (fun x => b.tiles.all (fun y => !extOverlap x y))

/-- Tile record x of an image to be staged in slot k overlaps the extents of the image active in its region. -/
def State.deferred (s : State) (k : Nat) (x : TileRec) : Bool :=
  match s.activeIn (regionOf x.tile.val) with
  | none => false
  | some a => a != k && (match s.image a with | some im => im.body.tiles.any (extOverlap x) | none => false)

/-- Write the weights of a tile. -/
def loadWeights (s : State) (x : TileRec) : State :=
  s.modTile x.tile.val (fun t => { t with store := x.weights.foldl (fun r w => r.write (w.1 * 32) (payBytes w.2) false) t.store })

/-- Write the shadow plane of tile t. -/
def stageTile (b : Sections) (s : State) (t : Nat) : State :=
  let rs := b.tiles.filter (fun r => r.tile.val == t)
  let s := each (planedTile t) s (fun s off => s.wr off (regReset off))
  let s := each (rs.flatMap (·.regs)) s (fun s p => s.wrM (tilePage t + p.1) p.2.toNat)
  s.modTile t (fun x => { x with
    imemSh := (rs.flatMap (·.code)).foldl (fun m c => tset 0 m c.1 c.2) [],
    uSh := (rs.flatMap (·.uregs)).foldl (fun m c => tset 0 m c.1 c.2) [], shadowValid := true })

/-- Pending values of the image: dividers and edge ports. -/
def stagePending (b : Sections) (s : State) : State :=
  let s := each b.regions s (fun s r => s.setF (aRegionClk r.region.val) 0 4 r.div)
  each b.edges s (fun s e => (s.wrM (aEdgeCfg e.1) e.2.1.toNat).wrM (aEdgeRing e.1) e.2.2.toNat)

/-- Write the shadow code plane and the sequencer registers of a region. -/
def stageRegion (s : State) (r : RegionRec) : State :=
  let g := r.region.val
  let s := each (planedSeq g) s (fun s off => s.wr off (regReset off))
  let s := each r.regs s (fun s p => s.wrM (seqPage g + p.1) p.2.toNat)
  s.modSeq g (fun q => { q with
    mem := r.code.foldl (fun m c => tset 0 m (0x3000 + c.1 / 4) c.2) (q.mem.filter (fun p => p.1 < 0x3000 || 0x6000 ≤ p.1)),
    ecc := q.ecc.filter (fun p => p.1 < 0x3000 || 0x6000 ≤ p.1) })

/-- Stage the image of slot k: shadow planes, pending values, weights; `all` writes every weight. Other images staged in its
regions lose STAGED. -/
def stageImage (k : Nat) (all : Bool) (s : State) : State :=
  match s.image k with
  | none => s
  | some im =>
    let gs := s.slotRegions k
    let s := each (gs.flatMap tilesOf) s (stageTile im.body)
    let s := each im.body.regions s stageRegion
    let s := stagePending im.body s
    let s := each (im.body.tiles.filter (fun x => all || !s.deferred k x)) s loadWeights
    let s := each (List.range 8) s (fun s o =>
      match s.image o with
      | some y => if o ≠ k && decide (y.regions &&& im.regions ≠ 0) then s.setImage o (some { y with staged := false }) else s
      | none => s)
    s.setImage k (some { im with staged := true })

/-- Ask for the image of slot k in the shadow planes: one STAGED has its pending values written again (R308). -/
def stageWant (k : Nat) (s : State) : State :=
  match s.image k with
  | none => s
  | some im =>
    if im.staged then stagePending im.body s
    else if s.staging.contains k then s else { s with staging := s.staging ++ [k] }

/-- STAGING_COMPLETE. -/
def execStagingComplete (k : Fin 8) (s : State) : Host.Outcome State Fault Refusal :=
  when_ (s.staging.contains k.val) s (stageImage k.val false { s with staging := s.staging.filter (fun x => x != k.val) })

/-! ### Slack water (R56, R313) -/

/-- The fields of stream n's enabled ingest channel, and of the trigger input it binds, take effect. -/
def slackWater (n : Nat) (s : State) : State :=
  each (List.range 32) s (fun s c =>
    if s.chEn c && s.chStream c == n then
      let s := each [aIngestChFmt c, aIngestChGeom c, aIngestChSeg c, aIngestChPool c] s applyReg
      if s.bit (aIngestChCtl c) 20 then applyReg s (aTrigCfg (s.f (aIngestChCtl c) 16 4)) else s
    else s)

/-! ### The swap (R310 to R314) -/

/-- Step 3: the tidemark values for stream n; one outside its range is not written. -/
def loadTidemarks (b : Sections) (s : State) (n : Nat) : State :=
  each b.tidemarks s (fun s v =>
    let i := s.f (aStreamTm n) 0 13 + v.1
    if s.tmRange n i && decide (i < 8184) then
      tmUpdate i { (s.tm i) with count := 0, target := v.2.2, owner := n, mode := v.2.1, phase := 0, ovf := false,
                                 lay := (0, v.2.2, n, v.2.1) } s
    else s)

/-- Step 3: the edge ports of the regions take their pending values; causeway channels start with fresh credits. -/
def rebindEdges (gs : List Nat) (s : State) : State :=
  each ((List.range 40).filter (fun e => gs.contains (regionOf (edgeTile e)))) s (fun s e =>
    let fresh := fun (s : State) =>
      if s.edgeMode e = 3 then
        let (l, c) := (s.fa (aEdgeCfg e) 20 2, s.fa (aEdgeCfg e) 16 4)
        let x := s.link l
        s.setLink l { x with spent := tset 0 x.spent c 0, owed := tset 0 x.owed c 0, txq := tset [] x.txq c [],
                             rxq := tset [] x.rxq c [], open_ := tset [] x.open_ c [] }
      else s
    let changes := decide (s.rd (aEdgeCfg e) ≠ s.act (aEdgeCfg e))
    let s := if changes then fresh s else s
    let s := applyReg (applyReg s (aEdgeCfg e)) (aEdgeRing e)
    if changes then fresh s else s)

/-- What the outgoing images keep: their regions outside stay active; STAGED only of a fast pair whose regions the incoming
image takes whole (R312, R314). -/
def retireImages (k : Nat) (im : Image) (s : State) : State :=
  each (List.range 8) s (fun s o =>
    match s.image o with
    | some y =>
      if o ≠ k && decide (y.active &&& im.regions ≠ 0) then
        let keep := fastPair y.body im.body && decide (y.regions &&& im.regions = y.regions)
        let s := s.setImage o (some { y with active := y.active - (y.active &&& im.regions), staged := keep })
        each (((List.range 25).filter (fun g => nbit (y.active &&& im.regions) g)).flatMap tilesOf) s
          (fun s t => s.modTile t (fun x => { x with shadowValid := keep }))
      else s
    | none => s)

/-- Steps 2 to 6 of R310 for the image of slot k and the streams of its group. -/
def swapImage (k : Nat) (ns : List Nat) (s : State) : State :=
  match s.image k with
  | none => s
  | some im =>
    let gs := s.slotRegions k
    let late := im.body.tiles.filter (s.deferred k)
    let s := each gs s (fun s g => gsrRegion g s)
    let s := each late s loadWeights
    let s := each ns s (loadTidemarks im.body)
    let s := rebindEdges gs s
    let s := each gs s (fun s g => swapRegion g s)
    let s := each (gs.flatMap tilesOf) s (fun s t => s.modTile t (fun x => { x with shadowValid := false }))
    let s := retireImages k im s
    let s := s.setImage k (some { im with active := im.regions, staged := false })
    let s := each gs s (fun s g => gsrHold false g s)
    each ns s (fun s n => slackWater n s)

end Sys2Proof.Machine
end

