-- ==== Sys2Proof/Machine/Streams.lean ====
section
/-! DEFINITION. Streams (03): job validation (R70), the submission ring (R62 to R64), changeovers and their groups (R72 to
R76), the commands of STREAM_CTL (R78 to R80), slack water and direct load. -/
namespace Sys2Proof.Machine

/-! ### Job descriptors (R69, R70) -/

/-- The descriptor of a slot and its patch set, as the job table holds them. -/
def readJob (k : Nat) (s : State) : JobCtx × List Nat × State :=
  let (g, s) := s.basinRead (s.partBase 2 + k * 64) 64
  let ws := (pieces 4 64 g.bytes).map (fun b => BitVec.ofNat 32 (ofBytes b))
  let j : JobCtx := ⟨k, ws, []⟩
  let n := min j.patchLen 512
  let (p, s) := s.basinRead (s.partBase 2 + j.patchOff * 64) (8 * n)
  let es := (pieces 8 512 p.bytes).map ofBytes
  ({ j with patches := es.map (fun e => (nbits e 54 10, nbits e 48 6, BitVec.ofNat 32 (nbits e 0 32))) }, es, s)

/-- REASON 2 of a descriptor or of its patch entries. -/
def jobBad (j : JobCtx) (es : List Nat) : Bool :=
  !nbit (j.w 0).toNat 31 || decide (nbits (j.w 0).toNat 19 12 ≠ 0) || decide (nbits (j.w 2).toNat 26 6 ≠ 0)
  || decide (nbits (j.w 6).toNat 8 24 ≠ 0) || decide (nbits (j.w 6).toNat 4 2 ≠ 0) || decide (nbits (j.w 7).toNat 17 15 ≠ 0)
  || decide (nbits (j.w 7).toNat 4 4 ≠ 0) || decide (2 ≤ j.mode) || decide (512 < j.patchLen) || decide (j.pulse = 0)
  || decide (j.reject.toNat ≤ j.deadline.toNat)
  || es.any (fun e => decide (nbits e 32 16 ≠ 0)
      || !(decide (nbits e 54 10 < 400) || decide (0x200 ≤ nbits e 54 10 ∧ nbits e 54 10 < 0x200 + 25)))

/-- REASON 4 of a descriptor: the actuator and encoder of STREAM_PRESS, the tidemark values of the layout. -/
def jobOutside (n : Nat) (j : JobCtx) (im : Image) (s : State) : Bool :=
  !nbit (s.f (aStreamPress n) 0 16) j.actuator || !nbit (s.f (aStreamPress n) 16 4) j.enc
  || im.body.tidemarks.any (fun v => decide (s.f (aStreamTm n) 16 14 ≤ v.1) || decide (8184 ≤ s.f (aStreamTm n) 0 13 + v.1))

/-- The region that a patch TARGET lies in. -/
def targetRegion (t : Nat) : Nat := if t < 400 then regionOf t else t - 0x200

/-- Validate slot k for stream n (R70): REASON, 0 if it passes, and the context. -/
def validate (n k : Nat) (s : State) : Nat × JobCtx × State :=
  let (j, es, s) := readJob k s
  let lo := s.f (aStreamJobRange n) 0 10
  let hi := s.f (aStreamJobRange n) 16 10
  let r :=
    if k < lo || hi < k then 4
    else if jobBad j es then 2
    else match s.image j.layout with
      | none => 3
      | some im =>
        if im.id ≠ j.layoutId.toNat then 3
        else if jobOutside n j im s then 4
        else if j.patches.any (fun p => !nbit im.regions (targetRegion p.1)) then 5 else 0
  (r, j, s)

/-! ### Patch sets (R75, R76) -/

/-- The writes of a patch set in region g, in list order. -/
def patchWrites (ps : List (Nat × Nat × Word)) (g : Nat) : List (Nat × Nat × Word) :=
  ps.flatMap (fun p => if p.1 < 400 then (if regionOf p.1 = g then [p] else [])
    else if p.1 - 0x200 = g then (tilesOf g).map (fun t => (t, p.2)) else [])

/-- Region g sends its writes over the management slot. -/
def patchSend (g : Nat) (ws : List (Nat × Nat × Word)) (s : State) : State :=
  (each ws s (fun s w => sendPatch g w.1 w.2.1 w.2.2 (s.seq g).patchNo s)).modSeq g
    (fun x => { x with patchNo := x.patchNo + 1, patch := ws, patching := true })

/-- Begin a patch set in the regions of slot k; the values in force before it are kept for a recovery (R76). -/
def patchBegin (k : Nat) (ps : List (Nat × Nat × Word)) (s : State) : State :=
  each (s.slotRegions k) s (fun s g =>
    let ws := patchWrites ps g
    if ws.isEmpty then s
    else patchSend g ws (each (tilesOf g) s (fun s t => s.modTile t (fun x => { x with uBase := x.u }))))

/-- No write of a patch set is left in the regions of slot k. -/
def State.patched (s : State) (k : Nat) : Bool :=
  (s.slotRegions k).all (fun g => !(s.seq g).patching || ((s.unapplied g).isEmpty && (s.phase g == 0 || s.phase g == 4)))

/-- The patch set is applied in the regions of slot k. -/
def patchEnd (k : Nat) (s : State) : State :=
  each (s.slotRegions k) s (fun s g =>
    if (s.seq g).patching then
      (each (tilesOf g) s (fun s t => s.modTile t (fun x => { x with uBase := [] }))).modSeq g
        (fun x => { x with patching := false, patch := [] })
    else s)

/-! ### Groups (R73, R74) -/

/-- The layout slot of a stream's bound job, if it has one. -/
def State.layoutOf (s : State) (n : Nat) : Option Nat := (s.stream n).job.map (·.layout)

/-- The streams that are not STOPPED. -/
def State.upStreams (s : State) : List Nat := (s.streams.map (·.1)).filter (fun n => s.up n)

/-- A changeover of stream n to context j is an exchange: slot or identity differs. -/
def State.isExchange (s : State) (n : Nat) (j : JobCtx) : Bool :=
  match (s.stream n).job with
  | some o => !(o.layout == j.layout && o.layoutId == j.layoutId)
  | none => true

/-- The group of a changeover of stream n (R73). -/
def State.groupOf (s : State) (n : Nat) (p : Pend) : List Nat :=
  let k := p.ctx.layout
  if s.isExchange n p.ctx then
    let rs := ((s.image k).map (·.regions)).getD 0
    s.upStreams.filter (fun m => decide (s.regionsOf m &&& rs ≠ 0))
  else s.upStreams.filter (fun m => s.layoutOf m == some k)

/-- Two pending changeovers leave the regions in the same state. -/
def agree (a b : Pend) : Bool :=
  a.ctx.layout == b.ctx.layout && a.ctx.layoutId == b.ctx.layoutId && a.ctx.patches == b.ctx.patches

/-- The pending changeover of a stream that is not committed. -/
def State.waitingPend (s : State) (n : Nat) : Option Pend :=
  match (s.stream n).pend with
  | some p => if p.applying || p.inForce then none else some p
  | none => none

/-- The waiting fabric-altering changeovers. -/
def State.altering (s : State) : List (Nat × Pend) :=
  s.streams.filterMap (fun q => match s.waitingPend q.1 with | some p => if p.isLocal then none else some (q.1, p) | none => none)

/-- CO_CONFLICT shows on each stream of a group whose pending changeovers disagree (R74). -/
def coConflicts (s : State) : State :=
  let bad := s.altering.flatMap (fun q =>
    let g := s.groupOf q.1 q.2
    if g.any (fun m => match s.waitingPend m with | some p => !agree p q.2 | none => false) then g else [])
  each (s.streams.map (·.1)) s (fun s n =>
    if s.bit (aStreamStatus n) 9 = bad.contains n then s else s.setB (aStreamStatus n) 9 (bad.contains n))

/-- A group is no longer ready: its use is abandoned, and frames that wait as changeover frames run under the old job. -/
def unready (k : Nat) (ns : List Nat) (s : State) : State :=
  let s := useAbandon k s
  each ns s (fun s m =>
    match (s.stream m).pend, (s.stream m).job with
    | some p, some j =>
      if p.ready && !p.isLocal && !p.applying && !p.inForce then
        s.modStream m (fun x =>
          let late := match p.firstTag with | some f => x.admitted.dropWhile (fun t => t != f) | none => []
          let x := late.foldl (fun x t => x.setSlot t { x.slot t with job := j }) x
          { x with pend := some { p with ready := false, firstTag := none } })
      else s
    | _, _ => s)

/-- The pending changeover of stream n ends without effect: REJECTED with REASON 6, or ABORT (R74, R79). -/
def coEnd (n status reason : Nat) (s : State) : State :=
  match s.waitingPend n with
  | none => s
  | some p =>
    let s := if p.ready && !p.isLocal then unready p.ctx.layout (s.groupOf n p) s else s
    let s := s.modStream n (fun x => { x with pend := none })
    let s := s.setF (aStreamStatus n) 8 2 0
    coConflicts ((complete n status 1 p.cid 0 reason p.ctx.slot s).cause n 3)

/-! ### The submission ring (R62 to R64) -/

/-- Fields of an entry. -/
def sqOp (e : SqEntry) : Nat := nbits e.w0.toNat 0 8
def sqCid (e : SqEntry) : Nat := nbits e.w0.toNat 16 16

/-- An entry with a reserved opcode or a non-zero reserved bit (REASON 1). -/
def sqBits (e : SqEntry) : Bool :=
  decide (4 ≤ sqOp e) || decide (nbits e.w0.toNat 8 8 ≠ 0) || decide (e.rest ≠ 0)
  || (match sqOp e with
      | 1 => decide (nbits e.w1.toNat 10 21 ≠ 0) || decide (nbits e.w2.toNat 12 20 ≠ 0)
      | 3 => decide (nbits e.w1.toNat 13 19 ≠ 0) || decide (nbits e.w2.toNat 24 8 ≠ 0)
      | _ => decide (e.w1 ≠ 0 ∨ e.w2 ≠ 0))

/-- The device may read an entry of stream n: RUNNING, one is pending, and none before it is incomplete (R62). -/
def State.sqReads (s : State) (n : Nat) : Bool :=
  decide (s.st n = 1) && decide (s.f (aSqHead n) 0 12 ≠ s.f (aSqTail n) 0 12) && (s.stream n).pend.isNone
  && (s.stream n).fence.isNone

/-- An entry is read: SQ_HEAD advances, SQ_SPACE when it reaches SQ_TAIL (R62, R64). -/
def sqTake (n : Nat) (s : State) : State :=
  let h := (s.f (aSqHead n) 0 12 + 1) % s.sqSize n
  let s := s.setF (aSqHead n) 0 12 h
  if h = s.f (aSqTail n) 0 12 then s.cause n 1 else s

/-- A CHANGEOVER entry: validation, then a pending changeover, or REJECTED (R63, R69 to R73). -/
def coSubmit (n : Nat) (e : SqEntry) (s : State) : State :=
  let k := nbits e.w1.toNat 0 10
  let (r, j, s) := validate n k s
  if r ≠ 0 then (complete n 1 1 (sqCid e) 0 r k s).cause n 3
  else
    let loc := match (s.stream n).job with
      | some o => o.layout == j.layout && o.layoutId == j.layoutId && o.patches == j.patches
      | none => false
    let p : Pend := { cid := sqCid e, ctx := j, atTag := if nbit e.w1.toNat 31 then some (nbits e.w2.toNat 0 12) else none,
                      isLocal := loc, ready := loc, applying := false, inForce := false, firstTag := none }
    coConflicts ((s.modStream n (fun x => { x with pend := some p })).setB (aStreamStatus n) 8 true)

/-- An entry with nothing reserved takes effect. -/
def sqRun (n : Nat) (e : SqEntry) (s : State) : State :=
  match sqOp e with
  | 1 => coSubmit n e s
  | 2 => s.modStream n (fun x => { x with fence := some (sqCid e, x.lastAdmitted.getD 4096) })
  | 3 =>
    let i := nbits e.w1.toNat 0 13
    let k := nbits e.w2.toNat 0 24
    if !s.tmValid n i then complete n 1 3 (sqCid e) 0 4 0 s
    else complete n 0 3 (sqCid e) 0 0 0 (if k = 0 then s else tmApply ⟨.host, i, n, some k⟩ k s)
  | op => complete n 0 op (sqCid e) 0 0 0 s

/-- An entry of stream n's ring is read. -/
def sqEntry (n : Nat) (e : SqEntry) (s : State) : Host.Outcome State Fault Refusal :=
  when_ (s.sqReads n) s
    (let t := sqTake n s
     if sqBits e then (let t := complete n 1 (sqOp e) (sqCid e) 0 1 0 t; if sqOp e = 1 then t.cause n 3 else t) else sqRun n e t)

/-- SQ_NOP. -/
def execSqNop (n : StreamIx) (e : SqEntry) (s : State) : Host.Outcome State Fault Refusal :=
  if sqOp e = 0 then sqEntry n.val e s else .refused (.illFormed "not a NOP entry")

/-- CHANGEOVER. -/
def execChangeover (n : StreamIx) (e : SqEntry) (s : State) : Host.Outcome State Fault Refusal :=
  if sqOp e = 1 then sqEntry n.val e s else .refused (.illFormed "not a CHANGEOVER entry")

/-- FENCE. -/
def execFence (n : StreamIx) (e : SqEntry) (s : State) : Host.Outcome State Fault Refusal :=
  if sqOp e = 2 then sqEntry n.val e s else .refused (.illFormed "not a FENCE entry")

/-- EVENT. -/
def execEvent (n : StreamIx) (e : SqEntry) (s : State) : Host.Outcome State Fault Refusal :=
  if sqOp e = 3 then sqEntry n.val e s else .refused (.illFormed "not an EVENT entry")

/-- SQ_RESERVED_ENTRY. -/
def execSqReservedEntry (n : StreamIx) (e : SqEntry) (s : State) : Host.Outcome State Fault Refusal :=
  if sqBits e then sqEntry n.val e s else .refused (.illFormed "an entry without a reserved value")

/-- FENCE_COMPLETE: the records of every frame admitted before are written (R65). -/
def execFenceComplete (n : StreamIx) (s : State) : Host.Outcome State Fault Refusal :=
  match (s.stream n.val).fence with
  | none => idle s
  | some (cid, tag) =>
    when_ (!(s.stream n.val).admitted.contains tag) s
      (complete n.val 0 2 cid (if tag = 4096 then 0 else tag) 0 0 (s.modStream n.val (fun x => { x with fence := none })))

/-! ### Application (R73, R75, R76, R310) -/

/-- CHANGEOVER_GROUP_READY: every stream of the group of stream n's changeover has one that agrees (R73); the use of the
barrier is asked for, and staging begins for an exchange (R305). -/
def execChangeoverGroupReady (n : StreamIx) (s : State) : Host.Outcome State Fault Refusal :=
  match s.waitingPend n.val with
  | none => idle s
  | some p =>
    let g := s.groupOf n.val p
    let ok := !p.isLocal && !p.ready && g.all (fun m => match s.waitingPend m with | some q => agree p q | none => false)
    let t := each g s (fun s m => s.modStream m (fun x =>
      { x with pend := x.pend.map (fun q => { q with ready := true, isLocal := false }) }))
    let t := if s.isExchange n.val p.ctx then stageWant p.ctx.layout t else t
    when_ ok s (useChange p.ctx.layout g t)

/-- The changeovers of the streams `ns` to slot k are committed and its patch set begins. -/
def commitGroup (k : Nat) (ns : List Nat) (s : State) : State :=
  let s := each ns s (fun s m =>
    (s.modStream m (fun x => { x with pend := x.pend.map (fun q =>
      { q with applying := true, firstTag := some (q.firstTag.getD x.nextTag) }) })).setF (aStreamStatus m) 8 2 0)
  match ns.findSome? (fun m => (s.stream m).pend) with
  | some p => patchBegin k p.ctx.patches s
  | none => s

/-- The use of a changeover of slot k whose phase is complete. -/
def State.changeDone (s : State) (k : Nat) : Option Use := s.uses.find? (fun u => u.slot == k && u.change && s.useDone u)

/-- The streams of a use exchange the layout. -/
def State.useExchange (s : State) (u : Use) : Bool :=
  u.streams.any (fun m => match (s.stream m).pend with | some p => s.isExchange m p.ctx | none => false)

/-- The slack water of a group whose phase is complete: the swap, if it is an exchange, then the patch set. -/
def groupApply (k : Nat) (s : State) : Option State :=
  match s.changeDone k with
  | none => none
  | some u =>
    let ex := s.useExchange u
    let staged := match s.image k with | some im => im.staged | none => false
    if ex && (s.staging.contains k || !staged) then none
    else
      let s := { s with uses := s.uses.filter (fun v => v != u) }
      let s := if ex then swapImage k u.streams s else each u.streams s (fun s m => slackWater m s)
      some (commitGroup k u.streams s)

/-- CHANGEOVER_APPLY: the group of stream n's changeover. -/
def execChangeoverApply (n : StreamIx) (s : State) : Host.Outcome State Fault Refusal :=
  match s.waitingPend n.val with
  | none => idle s
  | some p =>
    if !p.ready || p.isLocal then idle s else
    match groupApply p.ctx.layout s with
    | some t => done s t
    | none => idle s

/-- SLACK_WATER_SWAP: the group that exchanges to slot k. -/
def execSlackWaterSwap (k : Fin 8) (s : State) : Host.Outcome State Fault Refusal :=
  match s.changeDone k.val with
  | none => idle s
  | some u =>
    if !s.useExchange u then idle s else
    match groupApply k.val s with
    | some t => done s t
    | none => idle s

/-- The changeover of stream n is in force: job, JOB, and the completion when the records allow (R65). -/
def coInForce (n : Nat) (s : State) : State :=
  match (s.stream n).pend with
  | none => s
  | some p =>
    let s := s.modStream n (fun x => { x with job := some p.ctx, pend := some { p with inForce := true } })
    coSettle n (s.setF (aStreamStatus n) 10 10 p.ctx.slot)

/-- PATCH_SET_APPLIED: the sequencers have applied the set of stream n's changeover or direct load; its frames enter the fabric. -/
def execPatchSetApplied (n : StreamIx) (s : State) : Host.Outcome State Fault Refusal :=
  let n := n.val
  match (s.stream n).pend with
  | some p =>
    if !(p.applying && !p.inForce && s.patched p.ctx.layout) then idle s else
    let ns := (s.streams.map (·.1)).filter (fun m => match (s.stream m).pend with
      | some q => q.applying && !q.inForce && q.ctx.layout == p.ctx.layout
      | none => false)
    done s (each ns (patchEnd p.ctx.layout s) (fun s m => coInForce m s))
  | none =>
    match s.layoutOf n with
    | none => idle s
    | some k =>
      if !((s.stream n).loading && !s.loads.contains k && s.patched k) then idle s else
      done s ((patchEnd k s).modStream n (fun x => { x with loading := false }))

/-- A waiting exchange to slot k that is ready, if any: its streams. -/
def State.readyGroup (s : State) (k : Nat) : Option (List Nat) :=
  (s.altering.find? (fun q => q.2.ready && q.2.ctx.layout == k && s.isExchange q.1 q.2.ctx)).map (fun q => s.groupOf q.1 q.2)

/-- A recovery of a region of slot k scans (R315: it completes first). -/
def State.scanning (s : State) (k : Nat) : Bool := (s.slotRegions k).any (fun g => s.phase g == 2 || s.phase g == 3)

/-- The forced exchange to slot k for the group `ns` (R315). -/
def forceSwap (k : Nat) (ns : List Nat) (s : State) : State :=
  let gs := s.slotRegions k
  let s := useAbandon k s
  let s := each ns s (fun s n =>
    purgePool n false (each (s.stream n).admitted s (fun s t => if (s.slot n t).inFabric then fillSlot n t 2 s else s)))
  let s := each gs s (fun s g => spillDrop g (dropSids g ((s.seq g).sids.map (·.sid)) s))
  let s := each (s.ferries.map (·.1)) s (fun s f =>
    match s.ferryOwner f with
    | some n => if ns.contains n then ferryStop f s else s
    | none => s)
  let staged := match s.image k with | some im => im.staged | none => false
  let s := { (if staged then s else stageImage k false s) with staging := s.staging.filter (fun x => x != k) }
  commitGroup k ns (swapImage k ns s)

/-- Proceed with a forced exchange in progress, if no scan holds it. -/
def forcedGo (s : State) : State :=
  match s.layOp with
  | some (3, k) =>
    match s.readyGroup k with
    | none => layFinish 10 s
    | some ns => if s.scanning k then s else layFinish 0 (forceSwap k ns s)
  | _ => s

/-- FORCED_EXCHANGE: LAYOUT_CTL OP 3. -/
def execForcedExchange (k : Fin 8) (s : State) : Host.Outcome State Fault Refusal :=
  hostRow .pf aLayoutCtl (2 ^ 31 + k.val * 256 + 3) s
    (if s.bit aLayoutStatus 31 then reject none aLayoutCtl s
     else forcedGo { (layBegin 3 k.val s) with layOp := some (3, k.val) })

/-! ### STREAM_CTL (R78 to R80) -/

/-- A fabric-altering changeover is pending on layout slot k (R78). -/
def State.alteringOn (s : State) (k : Nat) : Bool :=
  s.streams.any (fun q => match q.2.pend with
    | some p => !p.isLocal && !p.inForce && (p.ctx.layout == k || s.layoutOf q.1 == some k)
    | none => false)

/-- FERRY_STATUS.CAUSE of the ferries of stream n returns to 0 when the stream is re-admitted (12, Registers). -/
def ferryClear (n : Nat) (s : State) : State :=
  each (List.range 256) s (fun s f => if s.ferryOwner f = some n then s.setF (aFerryStatus f) 8 5 0 else s)

/-- START binds STREAM_JOB's slot (R78); a layout not ACTIVE in its regions is loaded directly (R307). -/
def startStream (n : Nat) (s : State) : State :=
  if s.st n ≠ 0 then s
  else
    let k := s.f (aStreamJob n) 0 10
    let (r, j, s) := validate n k s
    let l := j.layout
    let gs := s.slotRegions l
    let active := match s.image l with | some im => decide (im.active = im.regions) | none => false
    let held := gs.any (fun g => (s.streamsIn g).any (fun m => s.layoutOf m != some l))
    if r ≠ 0 || s.alteringOn l || (!active && held) then s.setB (aStreamStatus n) 6 true
    else
      let first := if s.bit (aStreamCtl n) 10 then s.f (aStreamCtl n) 20 12 else (s.stream n).nextTag
      let s := s.modStream n (fun x => { x with job := some j, nextTag := first, inspect := 0, loading := !active,
                                                drainReq := none, drainKind := none })
      let s := ((s.setF (aStreamStatus n) 0 3 1).setB (aStreamStatus n) 5 false).setF (aStreamStatus n) 10 10 k
      let s := ferryClear n (s.setPressCtx n j)
      if active || s.loads.contains l then s
      else
        let s := each gs s (fun s g => gsrHold true g (gsrRegion g s))
        { s with loads := s.loads ++ [l] }

/-- START. -/
def execStart (n : StreamIx) (s : State) : Host.Outcome State Fault Refusal :=
  hostRow .pf (aStreamCtl n.val) (s.rd (aStreamCtl n.val) ||| 1#32).toNat s (startStream n.val s)

/-- DIRECT_LOAD_COMPLETE: the image is in the shadow planes and the planes swap; then the patch set of the jobs (R307, R310). -/
def execDirectLoadComplete (k : Fin 8) (s : State) : Host.Outcome State Fault Refusal :=
  let k := k.val
  let ns := (s.streams.map (·.1)).filter (fun n => (s.stream n).loading && s.layoutOf n == some k)
  let t := stageImage k true { s with loads := s.loads.filter (fun x => x != k), staging := s.staging.filter (fun x => x != k) }
  let t := swapImage k ns t
  let ps := ns.flatMap (fun n => match (s.stream n).job with | some j => j.patches | none => [])
  when_ (s.loads.contains k) s (patchBegin k ps t)

/-- STOP: the pending changeover is cancelled and the barrier asked for (R74, R80, R254). -/
def stopStream (n : Nat) (s : State) : State :=
  if s.st n ≠ 1 then s
  else useStop n ((coEnd n 1 6 s).setF (aStreamStatus n) 0 3 2)

/-- STOP. -/
def execStop (n : StreamIx) (s : State) : Host.Outcome State Fault Refusal :=
  hostRow .pf (aStreamCtl n.val) (s.rd (aStreamCtl n.val) ||| 2#32).toNat s (stopStream n.val s)

/-- Frames of stream n that are still held at admission when it stops are not admitted; their rows leave the pool. -/
def heldDiscard (n : Nat) (s : State) : State :=
  each (s.chans.map (·.1)) s (fun s c =>
    if s.chStream c ≠ n then s else
    let ch := s.chan c
    let tags := ch.heldTags
    let fr := ch.frame.map (fun f => if f.held then { f with held := false, refused := true } else f)
    s.setChan c { ch with pool := ch.pool.filter (fun r => !tags.contains r.tag), waits := [], frame := fr })

/-- A stream becomes STOPPED. -/
def toStopped (n : Nat) (s : State) : State := coConflicts (heldDiscard n ((useEnd n s).setF (aStreamStatus n) 0 3 0))

/-- STOP_COMPLETE. -/
def execStopComplete (n : StreamIx) (s : State) : Host.Outcome State Fault Refusal :=
  let n := n.val
  let x := s.stream n
  when_ (decide (s.st n = 2) && x.drainReq.isNone && x.admitted.isEmpty && x.pend.isNone && x.fence.isNone && s.stopped n) s (toStopped n s)

/-- DRAIN asks for the drain point. -/
def execDrain (n : StreamIx) (s : State) : Host.Outcome State Fault Refusal :=
  hostRow .pf (aStreamCtl n.val) (s.rd (aStreamCtl n.val) ||| 4#32).toNat s (reqDrain .drain s n.val)

/-- ABORT, the stream reset: as DRAIN with the ABORT fill; in DRAINING it fills what is still OPEN (R80). Its journal entry
is of TYPE 0x02 (R382). -/
def abortStream (n : Nat) (s : State) : State :=
  if s.st n = 0 then s
  else
    let s := s.journalPut 2 [BitVec.ofNat 32 (4 + n * 2 ^ 16)]
    if s.st n = 3 then abortFill n s
    else reqDrain .abort s n

/-- ABORT. -/
def execAbort (n : StreamIx) (s : State) : Host.Outcome State Fault Refusal :=
  hostRow .pf (aStreamCtl n.val) (s.rd (aStreamCtl n.val) ||| 8#32).toNat s (abortStream n.val s)

/-- CO_CANCEL acts in RUNNING (R74, R80). -/
def cancelStream (n : Nat) (s : State) : State := if s.st n = 1 then coEnd n 1 6 s else s

/-- CO_CANCEL. -/
def execCoCancel (n : StreamIx) (s : State) : Host.Outcome State Fault Refusal :=
  hostRow .pf (aStreamCtl n.val) (s.rd (aStreamCtl n.val) ||| 16#32).toNat s (cancelStream n.val s)

end Sys2Proof.Machine
end

