-- ==== Sys2Proof/Machine/Show.lean ====
section
/-! DEFINITION. What the status registers of tiles and sequencers show, and the scan-out images made of them (04, 10, 17). -/
namespace Sys2Proof.Machine

/-! ### Tile pages -/

/-- TILE_ID. -/
def tileIdWord (t : Nat) : Nat :=
  regionOf t * 2 ^ 23 + localOf t * 2 ^ 19 + t / 20 * 2 ^ 14 + t % 20 * 2 ^ 9 + t

/-- TILE_STATUS.BUSY: an engine with a fired command, IDX never, SYN while it waits. -/
def tileBusy (x : Tile) : Nat :=
  ((List.range 4).map (fun e => b2n ((x.queue e).any (fun c => c.run.isSome)) * 2 ^ e)).foldl (· + ·) 0 + b2n x.synWait.isSome * 32

/-- TILE_STATUS. -/
def tileStatusWord (s : State) (t : Nat) : Nat :=
  let x := s.tile t
  b2n x.halted * 2 ^ 12 + b2n (s.scanShift (regionOf t)) * 2 ^ 11 + b2n x.gsr * 2 ^ 10 + b2n x.shadowValid * 2 ^ 9 + b2n x.plane * 2 ^ 8 + tileBusy x

/-- The entries of queue q (0 to 7 IQ, 8 to 15 OQ). -/
def State.queueOf (s : State) (t q : Nat) : List Entry := if q < 8 then s.iq t q else s.oq t (q - 8)

/-- TILE_QSTAT[q]. -/
def qstatWord (s : State) (t q : Nat) : Nat :=
  let b := (s.act (aTileQbind t q)).toNat
  let cr := if q < 8 then 0 else s.oqCredits t (q - 8) - s.oqUsed t (q - 8)
  cr * 2 ^ 16 + b2n (nbit b 30) * 2 ^ 9 + b2n (nbit b 31) * 2 ^ 8 + min (s.queueOf t q).length 64

/-- TILE_QHEAD[q]. -/
def qheadWord (s : State) (t q : Nat) : Nat := ((s.queueOf t q).head?.map (fun e => e.side.toNat)).getD 0

/-- TILE_CQ_OCC_A (e = 0) and _B (e = 2). -/
def cqOccWord (x : Tile) (e : Nat) : Nat := (x.queue (e + 1)).length % 512 * 2 ^ 16 + (x.queue e).length % 512

/-! ### Sequencer control pages -/

/-- SEQ_STATUS. -/
def seqStatusWord (s : State) (g : Nat) : Nat :=
  let x := s.seq g
  b2n x.trapped * 2 ^ 31 + b2n (s.bit (aSeqCtl g) 0) * 2 ^ 30 + x.spst % 16 * 2 ^ 26 + x.wait % 8 * 2 ^ 23 + x.cwp % 8 * 2 ^ 20
    + x.resident % 8 * 2 ^ 17 + x.loops.length % 8 * 2 ^ 14

/-! ### Scan-out images -/

/-- The bytes of words. -/
def wordBytes (ws : List Nat) : List Byte := ws.flatMap (fun w => toBytes 4 w)

/-- A tile's image: offsets and bytes. -/
def tileImage (s : State) (t : Nat) : List (Nat × List Byte) :=
  let x := s.tile t
  let q := s.seq (regionOf t)
  let head := fun (i : Nat) => (s.queueOf t i).head?
  let tail := fun (i : Nat) => (s.queueOf t i).getLast?
  let side := fun (e : Option Entry) => (e.map (fun e => e.side.toNat)).getD 0
  [(0, wordBytes ([tileIdWord t, tileStatusWord s t, q.rc, 0] ++ q.fault.map (·.toNat)))]
  ++ (List.range 16).map (fun i => (0x40 + i * 48,
      wordBytes [qstatWord s t i, side (head i), side (tail i), 0] ++ payBytes ((head i).map (·.pay) |>.getD 0)))
  ++ (List.range 4).flatMap (fun e => ((x.queue e).take 8).zipIdx.map (fun c =>
      (0x340 + e * 128 + c.2 * 16, toBytes 16 (c.1.cmd.toNat + b2n c.1.bound.isSome + 2 * b2n c.1.run.isSome))))
  ++ [(0x540, (List.range 16).flatMap (fun i => toBytes 2 (tget 0 x.x i).toNat)),
      (0x560, wordBytes [((List.range 8).map (fun i => b2n (tget false x.c i) * 2 ^ i)).foldl (· + ·) 0]),
      (0x570, wordBytes [winCtxWord (s.win t) x 0, winCtxWord (s.win t) x 1, winKeyWord x 0, winKeyWord x 1]),
      (0x580, wordBytes [dspStatus x, ((List.range 4).map (fun b => b2n (tget Bank.init x.banks b).full * 2 ^ b)).foldl (· + ·) 0]),
      (0x600, (List.range 16).flatMap (fun i => payBytes (tget 0 x.v i)))]

/-- A sequencer's image. The last word of a window's 16 is its resident flag; q3 of a window stands as p3 of the next. -/
def seqImage (s : State) (g : Nat) : List (Nat × List Byte) :=
  let x := s.seq g
  let resident := fun (w : Nat) => decide (w < 7 ∧ (x.cwp + 7 - w) % 7 < x.resident)
  [(0, wordBytes [seqStatusWord s g, x.pc, x.key.toNat, x.tag % 65536]),
   (0x40, wordBytes ((List.range 16).map (fun i => (x.ldw (trapBase + 4 * i)).toNat))),
   (0x80, wordBytes ((List.range 8).map (fun i => (tget 0 x.g i).toNat))),
   (0xA0, wordBytes ((List.range 12).map (fun i => ((x.special i).getD 0).toNat))),
   (0x380, wordBytes (x.notices.map (·.toNat)))]
  ++ (List.range 7).map (fun w => (0x100 + w * 64,
      wordBytes ((List.range 15).map (fun i => (tget 0 x.win (winIx w (i + 8))).toNat) ++ [b2n (resident w)])))
  ++ x.loops.reverse.zipIdx.map (fun l => (0x300 + l.2 * 16, wordBytes [l.1.1, l.1.2.1, l.1.2.2.1, l.1.2.2.2.2]))

/-- Lay pieces over `n` zero bytes. -/
def layBytes (n : Nat) (ps : List (Nat × List Byte)) : List Byte :=
  (ps.foldl (fun (b : List Byte) p => b.take p.1 ++ p.2 ++ b.drop (p.1 + p.2.length)) (List.replicate n 0)).take n

/-- Write the scan-out image of region g at its place in the scan area (R352, 17 Scan-out images). -/
def scanRegion (g : Nat) (s : State) : State :=
  let base := s.partBase 4 + g * 0x22000
  let ps := (List.range 16).map (fun k => (base + k * 0x2000, layBytes 0x800 (tileImage s (tileOf g k))))
    ++ [(base + 0x20000, layBytes 0x2000 (seqImage s g))]
  each ps s (fun s p => s.basinPut p.1 p.2)

end Sys2Proof.Machine
end

