-- ==== Sys2Proof/Machine/Recovery.lean ====
section
/-! DEFINITION. Containment and recovery (15): the drain point and the end of a drain (R347 to R349), the recovery of a
region (R351 to R353, R358), the fault rings' read side, the journal's data register. -/
namespace Sys2Proof.Machine

/-! ### Stream drain -/

/-- R415: each causeway channel that has sent entries of a frame of stream n without EOFR sends its closing payload. -/
def cwyClose (n : Nat) (s : State) : State :=
  each (s.cwy.map (·.1)) s (fun s l =>
    each ((s.link l).open_.map (·.1)) s (fun s c =>
      let x := s.link l
      let mine := (tget [] x.open_ c).filter (fun w => strOf w == n)
      let rest := (tget [] x.open_ c).filter (fun w => strOf w != n)
      let close := mine.map (fun w => Entry.mk 0 (sideOf n (frameOf w) (iterOf w) false true false true))
      s.setLink l { x with open_ := tset [] x.open_ c rest, txq := tset [] x.txq c (tget [] x.txq c ++ close) }))

/-- The drain point of stream n (R347, R74, R79): DRAINING, the ABORT fill, what was read but not completed ends ABORT; the
purge begins (R348), and the stream asks for the barrier (R254, R349). -/
def drainPoint (k : DrainKind) (n : Nat) (s : State) : State :=
  let stopping := decide (s.st n = 2)
  let s := (s.modStream n (fun x => { x with drainReq := none, drainKind := some k })).setF (aStreamStatus n) 0 3 3
  let s := if k = .drain then s else abortFill n s
  let s := coEnd n 2 0 s
  let s := match (s.stream n).fence with
    | some (cid, _) => complete n 2 2 cid 0 0 0 (s.modStream n (fun x => { x with fence := none }))
    | none => s
  let s := if s.purging n then purgeStream n s else s
  let s := if stopping then s else useStop n s
  cwyClose n s

/-- DRAIN_POINT. -/
def execDrainPoint (n : StreamIx) (s : State) : Host.Outcome State Fault Refusal :=
  match (s.stream n.val).drainReq with
  | none => idle s
  | some k => when_ (decide (s.st n.val = 1 ∨ s.st n.val = 2)) s (drainPoint k n.val s)

/-- Regions released with streams draining whose last stream has drained: PHASE 0. -/
def phaseSettle (s : State) : State :=
  each (List.range 25) s (fun s g =>
    if s.phase g = 4 && (s.streamsIn g).all (fun n => s.st n ≠ 3 && (s.stream n).drainReq.isNone)
    then s.setF (aRegionFstatus g) 28 4 0 else s)

/-- The drain of stream n completes (R258, R349): DRAINED, STOPPED, vector 4; then RUNNING if a fault caused it and
AUTO_RESUME = 1. -/
def drainEnd (n : Nat) (s : State) : State :=
  let resume := decide ((s.stream n).drainKind = some .fault) && s.bit (aStreamCtl n) 8
  let s := tmDrain n (purgeStream n s)
  let s := (toStopped n (s.setB (aStreamStatus n) 5 true)).modStream n (fun x => { x with drainKind := none })
  let s := s.cause n 4
  let s := if resume then ferryClear n ((s.setF (aStreamStatus n) 0 3 1).setB (aStreamStatus n) 5 false) else s
  phaseSettle s

/-- DRAIN_COMPLETE: every slot is released and recorded, every region of the layout has added its increment. -/
def execDrainComplete (n : StreamIx) (s : State) : Host.Outcome State Fault Refusal :=
  when_ (decide (s.st n.val = 3) && (s.stream n.val).admitted.isEmpty && s.stopped n.val) s (drainEnd n.val s)

/-! ### Region recovery (R352) -/

/-- SCAN_OUT_COMPLETE: the image is written; GSR is asserted and the spill rings of the region's groups are discarded. -/
def execScanOutComplete (g : RegionIx) (s : State) : Host.Outcome State Fault Refusal :=
  let g := g.val
  when_ (s.phase g == 2) s
    ((spillDrop g (gsrHold true g (gsrRegion g (scanRegion g s)))).setF (aRegionFstatus g) 28 4 3)

/-- Rewrite the active planes of tile t from the image `b`; u0 to u63 keep the values in force, or those before an interrupted
patch set. -/
def scanInTile (b : Sections) (patching : Bool) (s : State) (t : Nat) : State :=
  let rs := b.tiles.filter (fun r => r.tile.val == t)
  let s := each (planedTile t) s (fun s off => s.wrAct off (regReset off))
  let s := each (rs.flatMap (·.regs)) s (fun s p =>
    s.wrAct (tilePage t + p.1) (BitVec.ofNat 32 (p.2.toNat &&& regMask (tilePage t + p.1))))
  s.modTile t (fun x => { x with
    imem := (rs.flatMap (·.code)).foldl (fun m c => tset 0 m c.1 c.2) [], imemBad := [],
    u := if patching then x.uBase else x.u })

/-- Rewrite the active code plane and the planed registers of sequencer g. -/
def scanInSeq (b : Sections) (g : Nat) (s : State) : State :=
  each (b.regions.filter (fun r => r.region.val == g)) s (fun s r =>
    let s := each (planedSeq g) s (fun s off => s.wrAct off (regReset off))
    let s := each r.regs s (fun s p =>
      s.wrAct (seqPage g + p.1) (BitVec.ofNat 32 (p.2.toNat &&& regMask (seqPage g + p.1))))
    s.modSeq g (fun q => { q with
      mem := r.code.foldl (fun m c => tset 0 m (c.1 / 4) c.2) (q.mem.filter (fun p => 0x3000 ≤ p.1)),
      ecc := q.ecc.filter (fun p => 0x3000 ≤ p.1) }))

/-- Step 3: scan-in from the active image; an interrupted patch set is applied again from its first entry (R76). -/
def scanIn (g : Nat) (s : State) : State :=
  let s := spillDrop g (gsrRegion g s)
  let q := s.seq g
  let s := match s.activeIn g with
    | none => s
    | some k =>
      match s.image k with
      | none => s
      | some im =>
        let s := each (tilesOf g) s (scanInTile im.body q.patching)
        let s := scanInSeq im.body g s
        if s.bit (aRegionFctl g) 30 then
          each (im.body.tiles.filter (fun x => regionOf x.tile.val == g)) s loadWeights
        else s
  if q.patching then
    let s := { s with fabric := { s.fabric with pkts := s.fabric.pkts.filter (fun p => !(p.body.isSome && regionOf p.dst == g)) } }
    patchSend g q.patch s
  else s

/-- Step 4: GSR is released, REGION_CLK.CUR restored, the sequencer starts, RECOVERIES counts the recovery (DEDUCED from the
worked example of 15: 0 in PHASE 2, 1 after step 4), and the region adds its increment for the draining streams of the use in
progress. -/
def scanRelease (g : Nat) (s : State) : State :=
  let div := (s.seq g).savedDiv
  let s := each (tilesOf g) s (fun s t => s.modTile t (fun x => { x with halted := false, gsr := false }))
  let times := (s.seq g).recTimes.filter (fun t => s.now - t < 1000000000) ++ [s.now]
  let s := (seqStart g false (s.setF (aRegionClk g) 16 4 div)).modSeq g (fun q => { q with fault := [], recTimes := times })
  let s := s.setF (aRegionFstatus g) 16 8 (min times.length 255)
  let drains := (s.streamsIn g).any (fun n => decide (s.st n = 3) || (s.stream n).drainReq.isSome)
  let s := s.setF (aRegionFstatus g) 28 4 (if drains then 4 else 0)
  match s.activeIn g with
  | none => s
  | some k =>
    match s.useNow k with
    | some u => if !u.change && !u.done.contains g && u.streams.all (fun n => s.oldFramesOut n) && s.quiet g u.streams false
                then useAdd g k s else s
    | none => s

/-- SCAN_IN_COMPLETE: a forced exchange that waited for the recovery goes on (R315). -/
def execScanInComplete (g : RegionIx) (s : State) : Host.Outcome State Fault Refusal :=
  when_ (s.phase g.val == 3) s (forcedGo (scanRelease g.val (scanIn g.val s)))

/-- A write of 1 to REGION_FCTL.RECOVER: a halted region recovers; a running one takes HOST_RECOVER first, and recovers
whatever AUTO says. After a class F fault the fabric stays halted (R355). -/
def regionRecover (g : Nat) (s : State) : State :=
  if s.bit aGlobalStatus 28 then s
  else if s.phase g = 1 then startRecovery g s
  else if (s.phase g = 0 || s.phase g = 4) && s.live g then
    let s := raiseG { cls := 2, code := 0x16, die := 2, region := g, unit := 15 } g s
    if s.phase g = 1 then startRecovery g s else s
  else s

/-- REGION_RECOVER. -/
def execRegionRecover (g : RegionIx) (s : State) : Host.Outcome State Fault Refusal :=
  hostRow .pf (aRegionFctl g.val) (s.rd (aRegionFctl g.val) ||| 0x80000000#32).toNat s (regionRecover g.val s)

/-- RECOVERY_STEP_TIMEOUT: RECOVERY_FAILED of class F (R358). -/
def execRecoveryStepTimeout (g : RegionIx) (s : State) : Host.Outcome State Fault Refusal :=
  let g := g.val
  when_ (s.phase g == 2 || s.phase g == 3) s
    ((raiseF { cls := 3, code := 0x15, region := g, unit := 9 } s).setF (aRegionFstatus g) 28 4 5)

/-! ### Rings and journal -/

/-- A write of h to FAULT_HEAD: 15 is reserved; LOST clears (15, Registers). -/
def faultHeadSet (vf : Option Nat) (n h : Nat) (s : State) : State :=
  if h = 15 then reject vf (aFaultHead n) s
  else (s.setF (aFaultHead n) 0 4 h).setF (aFaultTail n) 24 8 0

/-- FAULT_HEAD_WRITE. -/
def execFaultHeadWrite (fn : Fn) (n : StreamIx) (v : Word) (s : State) : Host.Outcome State Fault Refusal :=
  if !fn.wellFormed then .refused (.illFormed "VF 0") else
  if fnReaches fn n.val then hostRow fn (aFaultHead n.val) v.toNat s (faultHeadSet (fnStream fn) n.val (nbits v.toNat 0 4) s) else idle s

/-- A write to FLOG_HEAD. -/
def flogHeadSet (h : Nat) (s : State) : State := (s.setF aFlogHead 0 6 h).setF aFlogTail 24 8 0

/-- FLOG_HEAD_WRITE. -/
def execFlogHeadWrite (v : Word) (s : State) : Host.Outcome State Fault Refusal := done s (flogHeadSet (nbits v.toNat 0 6) s)

/-- FLOG_CTL.FCLR. -/
def flogClear (s : State) : State := s.wrs 0x12410 [0, 0, 0, 0]

/-- FCLR. -/
def execFclr (s : State) : Host.Outcome State Fault Refusal := done s (flogClear s)

/-- FLOG_CTL.CCLR. -/
def countClear (s : State) : State := each (List.range 256) s (fun s c => s.wr (aFaultCCount c) 0)

/-- CCLR. -/
def execCclr (s : State) : Host.Outcome State Fault Refusal := done s (countClear s)

/-- A byte of the MRAM: one that nothing has written since the model's start holds an unknown value. -/
def State.mramByte (s : State) (a : Nat) : Byte :=
  match s.journal.mram.find? (fun c => c.1 == a) with
  | some c => c.2
  | none => Config.mram a

/-- A read of JOURNAL_DATA: the word at ADDR, which advances by 4. -/
def journalRead (s : State) : Word × State :=
  let i := s.f aJournalAddr 2 21
  (BitVec.ofNat 32 (ofBytes ((List.range 4).map (fun k => s.mramByte (4 * i + k)))), s.setF aJournalAddr 2 21 (i + 1))

/-- JOURNAL_DATA_READ. -/
def execJournalDataRead (s : State) : Host.Outcome State Fault Refusal :=
  let (v, t) := journalRead s
  done s (t.emit (.data 0 (toBytes 4 v.toNat)))

end Sys2Proof.Machine
end

