-- ==== Sys2Proof/Machine/Ingest.lean ====
section
/-! DEFINITION. The frame ingest unit (02): pixels, segments and rows (R50, R51), admission and held frames (R46 to R49), pools
and dropped frames (R54, R55), the west-edge ports (R52), CoaXPress packets (R29) and GVSP blocks (R30 to R32). -/
namespace Sys2Proof.Machine

/-! ### Fields -/

/-- INGEST_CH_CTL: SRC_TYPE, SRC_LINK, TRIG_EN, TRIG, line count mode; INGEST_CH_STATUS.RUNNING. -/
def State.chType (s : State) (c : Nat) : Nat := s.f (aIngestChCtl c) 1 3
def State.chLink (s : State) (c : Nat) : Nat := s.f (aIngestChCtl c) 4 3
def State.chTrig (s : State) (c : Nat) : Option Nat :=
  if s.bit (aIngestChCtl c) 20 then some (s.f (aIngestChCtl c) 16 4) else none
def State.chLines (s : State) (c : Nat) : Bool := s.f (aIngestChCtl c) 21 2 == 1
def State.chRuns (s : State) (c : Nat) : Bool := s.bit (aIngestChStatus c) 0

/-- The geometry of a frame: FMT, GEOM, SEG and POOL decoded. -/
structure Geom where
  pixel : Nat
  deep8 : Bool
  pad4 : Bool
  s2d : Nat
  width : Nat
  stripe : Nat
  segs : Nat
  row0 : Nat
  halo : Nat
  lines : Nat
  pool : Nat

/-- Decode the four words. -/
def geomOf (ws : List Word) : Geom :=
  let w := fun (i : Nat) => (nth ws i 0).toNat
  { pixel := nbits (w 0) 0 4, deep8 := nbits (w 0) 4 2 == 1, pad4 := nbit (w 0) 8, s2d := 2 ^ nbits (w 0) 6 2,
    width := nbits (w 1) 0 16, stripe := nbits (w 1) 16 9, segs := nbits (w 1) 25 5, row0 := nbits (w 2) 3 5,
    halo := nbits (w 2) 0 3, lines := nbits (w 2) 16 16, pool := nbits (w 3) 16 14 * 4096 }

/-- The values of channel c in effect. -/
def State.chCfg (s : State) (c : Nat) : List Word :=
  [s.act (aIngestChFmt c), s.act (aIngestChGeom c), s.act (aIngestChSeg c), s.act (aIngestChPool c)]

/-- R46, R51 and the zeros and limits of the tables. -/
def Geom.ok (g : Geom) (lineMode : Bool) : Bool :=
  decide (0 < g.width ∧ g.width ≤ 16384 ∧ 0 < g.stripe ∧ g.stripe ≤ 256 ∧ 0 < g.segs ∧ g.segs ≤ 20)
  && decide (g.row0 + g.segs ≤ 20 ∧ 0 < g.pool ∧ 0 < g.width / g.segs)
  && (!lineMode || decide (0 < g.lines))
  && decide (g.width % g.s2d = 0 ∧ g.width / g.segs % g.s2d = 0 ∧ g.stripe % g.s2d = 0 ∧ g.halo % g.s2d = 0)
  && (!lineMode || decide (g.lines % g.s2d = 0))

/-! ### Pixels, rows, segments -/

/-- A 10-bit or 12-bit value as its output bytes (R50). -/
def deepPixel (deep8 : Bool) (b p : Nat) : List Byte :=
  let p := p % 2 ^ b
  if deep8 then toBytes 1 (min 255 ((p + 2 ^ (b - 9)) / 2 ^ (b - 8))) else toBytes 2 p

/-- A line's bytes as pixels; a short line is zero-filled, a long one cut; packed formats fill from bit 0 (PRESUMED). -/
def linePixels (g : Geom) (bs : List Byte) : List (List Byte) :=
  let n := ofBytes bs
  match g.pixel with
  | 1 => (lanes 16 g.width n).map (deepPixel g.deep8 10)
  | 2 => (lanes 10 g.width n).map (deepPixel g.deep8 10)
  | 3 => (lanes 16 g.width n).map (deepPixel g.deep8 12)
  | 4 => (lanes 12 g.width n).map (deepPixel g.deep8 12)
  | 5 => (lanes 24 g.width n).map (fun p => toBytes 3 p ++ (if g.pad4 then [0] else []))
  | _ => (lanes 8 g.width n).map (toBytes 1)

/-- The output pixels of f lines (R51): the channels of the f × f block, row-major. -/
def rowPixels (g : Geom) (ls : List (List Byte)) : List (List Byte) :=
  let cols := ls.map (fun l => (pieces g.s2d g.width (linePixels g l)).map List.flatten)
  match cols with
  | [] => []
  | c :: cs => cs.foldl (List.zipWith (· ++ ·)) c

/-- The source columns of segment i: equal widths, the remainder in the last; halos from the neighbours only. -/
def segCols (g : Geom) (i : Nat) : Nat × Nat :=
  let w := g.width / g.segs
  let stop := fun (i : Nat) => if i + 1 = g.segs then g.width else (i + 1) * w
  let lo := if i = 0 then 0 else max (i * w - g.halo) ((i - 1) * w)
  let hi := if i + 1 = g.segs then g.width else min (stop i + g.halo) (stop (i + 1))
  (lo, hi)

/-- The payloads of segment i of a row. -/
def segPays (g : Geom) (px : List (List Byte)) (i : Nat) : List Pay :=
  let (lo, hi) := segCols g i
  let bs := ((px.drop (lo / g.s2d)).take (hi / g.s2d - lo / g.s2d)).flatten
  (pieces 32 (bs.length + 1) bs).map payOfBytes

/-- The entries of a segment row: EOR on the last payload, EOFR on the last of the frame. -/
def segRow (n tag iter : Nat) (last : Bool) : List Pay → List Entry
  | [] => []
  | [p] => [⟨p, sideOf n tag iter true last false false⟩]
  | p :: ps => ⟨p, sideOf n tag iter false false false false⟩ :: segRow n tag iter last ps

/-! ### Dropped frames (R55) -/

/-- Take the rows of a tag out of channel c's pool; a west-edge port in the midst of one is free. -/
def poolDiscard (c tag : Nat) (s : State) : State :=
  let ch := s.chan c
  let lost := (ch.pool.filter (fun r => r.tag == tag)).map (·.seg)
  let s := s.setChan c { ch with pool := ch.pool.filter (fun r => r.tag != tag) }
  { s with fabric := { s.fabric with west := s.fabric.west.filter (fun p => !(p.2 == c + 1 && lost.contains p.1)) } }

/-- The DROPPED rule for frame f of channel c: its rows leave the pool, each port that took payloads is closed with one
payload of EOFR = 1 and PSN = 1, and the gate learns of it (a held frame: when it is admitted). `pool`: for want of space. -/
def dropFrame (c : Nat) (pool : Bool) (f : Frame) (s : State) : Frame × State :=
  if f.dropped || f.refused then (f, s)
  else
    let n := s.chStream c
    let s := poolDiscard c f.tag s
    let ch := s.chan c
    let close := f.taken.map (fun p => (p.1, Entry.mk 0 (sideOf n f.tag p.2 false true false true)))
    let s := s.setChan c { ch with closeTo := ch.closeTo ++ close }
    let s := (s.setB (aIngestChStatus c) 3 true).count (cChan c (if pool then 1 else 2)) 1
    let s := if f.held then s else fillSlot n f.tag 3 s
    let s := if pool then
        raiseC { cls := 0, code := 0x0D, stream := some n, frame := some f.tag, die := 1, unit := 13, index := c } s
      else s
    ({ f with dropped := true, part := [] }, s)

/-! ### Admission (R46 to R49, R66, R71, R72) -/

/-- R329, R49: every frame that arrives is admitted and dropped. -/
def State.admitDrop (s : State) (n : Nat) : Bool :=
  decide (s.st n = 3) || s.bit (aStreamCtl n) 9 || (s.bit aPwrStatus 24 && s.bit aPwrEbb 16)

/-- The job of the next frame of stream n, and whether it is the changeover frame (R72). -/
def State.nextJob (s : State) (n : Nat) : JobCtx × Bool :=
  let x := s.stream n
  let old := x.job.getD JobCtx.init
  match x.pend with
  | none => (old, false)
  | some p =>
    if p.inForce || !p.ready then (old, false)
    else if p.firstTag.isSome then (p.ctx, false)
    else if (match p.atTag with | some t => !s.tagAhead n t | none => true) then (p.ctx, true)
    else (old, false)

/-- Frame f of channel c is admitted: job, edge, frame slot; DROPPED or SKIPPED at once where that is its outcome. -/
def admitFrame (c : Nat) (f : Frame) (s : State) : Frame × State :=
  let n := s.chStream c
  let tag := (s.stream n).nextTag
  let (j, first) := s.nextJob n
  let s := if first then s.modStream n (fun x =>
      { x with inspect := 0, pend := x.pend.map (fun p => { p with firstTag := some tag }) }) else s
  let here := match (s.stream n).pend with | some p => first && p.isLocal | none => false
  let s := if here then coInForce n (slackWater n s) else s
  let trig := s.chTrig c
  let (e, s) := match trig with
    | none => (none, s)
    | some i =>
      let s := s.setPressCtx n j
      if f.held then
        match f.edge with
        | some e => (let (e, s) := setEdgeJob i n (some tag) j e s; (some e, s))
        | none => (none, s)
      else bindEdge i n (some tag) j s
  let every := max j.every 1
  let k := (s.stream n).inspect
  let s := s.modStream n (fun x => { x with inspect := (k + 1) % every })
  let s := openSlot n tag { Slot.init with job := j, trig := trig.getD 0, edge := e, camTime := f.camTime } s
  let s := s.count (cChan c 0) 1
  let f := { f with tag := tag, held := false, edge := none, cfg := if f.got = 0 then s.chCfg c else f.cfg }
  if f.dropped || s.admitDrop n then
    ({ f with dropped := true, part := [] }, poolDiscard c tag ((fillSlot n tag 3 s).setB (aIngestChStatus c) 3 true))
  else if k ≠ 0 then ({ f with dropped := true, part := [] }, poolDiscard c tag (fillSlot n tag 5 s))
  else (f, s)

/-- A frame starts on channel c (R47): admitted, held by the tag window (R48), refused under CQ_STALL (R66), or not admitted
at all after EN or the stream stopped (R49). `bad`: its header differs from the configuration. -/
def frameStart (c lines : Nat) (camTime : DWord) (bad : Bool) (s : State) : State :=
  let n := s.chStream c
  if !s.chEn c || !(s.st n = 1 || s.st n = 3) then s.count (cChan c 4) 1
  else
    let f : Frame := { tag := 0, lines := lines, got := 0, held := false, refused := false, dropped := false, taken := [],
                       part := [], camTime := camTime, edge := none, cfg := s.chCfg c }
    let put := fun (f : Frame) (s : State) => s.setChan c { s.chan c with frame := some f }
    if s.bit (aStreamStatus n) 7 then
      let s := match s.chTrig c with | some i => (bindEdge i n none (s.nextJob n).1 s).2 | none => s
      put { f with refused := true } s
    else
      let (f, s) :=
        if (s.chan c).waits.isEmpty && s.tagFits n then admitFrame c f s
        else
          let tag := ((s.stream n).nextTag + (s.chan c).waits.length) % 4096
          let (e, s) := match s.chTrig c with
            | some i => bindEdge i n (some tag) (s.nextJob n).1 s
            | none => (none, s)
          ({ f with tag := tag, held := true, edge := e }, s)
      let g := geomOf f.cfg
      let tall := !s.chLines c && decide (lines % g.s2d ≠ 0 ∨ lines = 0)
      let (f, s) := if bad || tall || !g.ok (s.chLines c) then dropFrame c false f s else (f, s)
      put f s

/-- EN = 0 with no frame in progress and none held: RUNNING reads 0 (R49, R57). -/
def chanSettle (c : Nat) (s : State) : State :=
  if !s.chEn c && s.chRuns c && (s.chan c).frame.isNone && (s.chan c).waits.isEmpty then s.setB (aIngestChStatus c) 0 false else s

/-- The frame arriving on channel c has ended: the time of its last pixel is noted; a held one waits for its tag. -/
def frameEnd (c : Nat) (s : State) : State :=
  let n := s.chStream c
  match (s.chan c).frame with
  | none => s
  | some f =>
    let ch := s.chan c
    if f.held then s.setChan c { ch with frame := none, waits := ch.waits ++ [f] }
    else
      let s := if f.refused then s else
        match (s.slot n f.tag).st with
        | .free => s
        | _ => s.setSlot n f.tag { s.slot n f.tag with lastPixel := s.now }
      chanSettle c (s.setChan c { ch with frame := none })

/-- The frame in progress of channel c is dropped for its source and ends. -/
def frameLost (c : Nat) (s : State) : State :=
  match (s.chan c).frame with
  | none => s
  | some f =>
    let (f, s) := dropFrame c false f s
    frameEnd c (s.setChan c { s.chan c with frame := some f })

/-- Mark the frame in progress dropped for its source; the rest of it is consumed. -/
def frameSpoil (c : Nat) (s : State) : State :=
  match (s.chan c).frame with
  | none => s
  | some f =>
    let (f, s) := dropFrame c false f s
    s.setChan c { s.chan c with frame := some f }

/-- HELD_FRAME_ADMIT: the oldest held frame of channel c is admitted once its tag fits the window. -/
def execHeldFrameAdmit (c : ChanIx) (s : State) : Host.Outcome State Fault Refusal :=
  let c := c.val
  let n := s.chStream c
  let ok := (s.st n = 1 || s.st n = 3) && s.tagFits n
  match (s.chan c).waits, (s.chan c).frame with
  | f :: fs, _ =>
    if !ok then idle s else
    let (f, t) := admitFrame c f (s.setChan c { s.chan c with waits := fs })
    let t := match (t.slot n f.tag).st with
      | .free => t
      | _ => t.setSlot n f.tag { t.slot n f.tag with lastPixel := t.now }
    done s (chanSettle c t)
  | [], some f =>
    if !(ok && f.held) then idle s else
    let (f, t) := admitFrame c f s
    done s (t.setChan c { t.chan c with frame := some f })
  | [], none => idle s

/-! ### Lines and rows (R54) -/

/-- Bytes of channel c's pool in use. -/
def Chan.used (x : Chan) : Nat := (x.pool.map (·.bytes)).foldl (· + ·) 0

/-- The row of f's lines `ls` goes to the pool if it holds space for the whole row. -/
def rowArrive (c : Nat) (f : Frame) (ls : List (List Byte)) (s : State) : Frame × State :=
  let g := geomOf f.cfg
  let n := s.chStream c
  let px := rowPixels g ls
  let iter := (f.got + 1 - g.s2d) / max g.stripe 1 % 256
  let last := decide (f.lines ≤ f.got + 1)
  let rows := (List.range g.segs).map (fun i =>
    let es := segRow n f.tag iter last (segPays g px i)
    ({ tag := f.tag, seg := g.row0 + i, pays := es, bytes := 32 * es.length } : PoolRow))
  let need := (rows.map (·.bytes)).foldl (· + ·) 0
  let ch := s.chan c
  if g.pool < ch.used + need then dropFrame c true f s
  else ({ f with part := [] }, s.setChan c { ch with pool := ch.pool ++ rows })

/-- A line reaches the frame in progress of channel c. -/
def lineArrive (c : Nat) (bs : List Byte) (s : State) : State :=
  match (s.chan c).frame with
  | none => s
  | some f =>
    let (f, s) :=
      if f.dropped || f.refused then (f, s)
      else
        let ls := f.part ++ [bs]
        if ls.length < (geomOf f.cfg).s2d then ({ f with part := ls }, s) else rowArrive c f ls s
    let f := { f with got := f.got + 1 }
    let s := s.setChan c { s.chan c with frame := some f }
    if f.lines ≤ f.got then frameEnd c s else s

/-! ### The west edge (R52) -/

/-- Rows of this frame of stream n may enter the fabric: its slot is OPEN, and neither a direct load nor a changeover that
begins at or before it is still to be applied (R75, R307). -/
def State.sendable (s : State) (n tag : Nat) : Bool :=
  let x := s.stream n
  (s.slot n tag).st == .opened && !x.loading
  && (match x.pend with
      | some p => p.inForce || (match p.firstTag with
          | some t => (x.admitted.takeWhile (fun u => u != t)).contains tag
          | none => true)
      | none => true)

/-- Channel c has something for port y: a closing payload, or a row whose frame may enter. -/
def State.offers (s : State) (c y : Nat) : Bool :=
  (s.chan c).closeTo.any (fun p => p.1 == y)
  || (match (s.chan c).pool.find? (fun r => r.seg == y) with
      | some r => !(s.chan c).heldTags.contains r.tag && s.sendable (s.chStream c) r.tag
      | none => false)

/-- Entries enter lane 0 of T(0,y) from the west, each on a credit of the port's 16. -/
def westPush (y : Nat) (es : List Entry) (s : State) : State :=
  let s := { s with fabric := { s.fabric with westUsed := tset 0 s.fabric.westUsed y (tget 0 s.fabric.westUsed y + es.length) } }
  each es s (fun s e => laneArrive (20 * y) 3 0 e s)

/-- Port y takes what it has credits for of channel c's next row, when the round robin gives it the turn. -/
def portPump (c y : Nat) (s : State) : State :=
  let own := tget 0 s.fabric.west y
  let turn := tget 0 s.fabric.westLast y
  let before := (List.range 32).map (fun i => (turn + i) % 32)
  let mine := if own = 0 then (before.find? (fun d => s.offers d y)) == some c else own == c + 1
  let room := 16 - tget 0 s.fabric.westUsed y
  if !mine || s.gsr (regionOf (20 * y)) || !s.offers c y || room = 0 then s
  else
    let ch := s.chan c
    let turnOver := fun (s : State) =>
      { s with fabric := { s.fabric with west := tset 0 s.fabric.west y 0, westLast := tset 0 s.fabric.westLast y (c + 1) } }
    match own, ch.closeTo.find? (fun p => p.1 == y) with
    | 0, some p => turnOver (westPush y [p.2] (s.setChan c { ch with closeTo := ch.closeTo.erase p }))
    | _, _ =>
      match ch.pool.find? (fun r => r.seg == y) with
      | none => s
      | some r =>
        let n := s.chStream c
        let now := r.pays.take room
        let left := r.pays.drop room
        let rest := ch.pool.erase r
        let iter := match now.head? with | some e => iterOf e.side | none => 0
        let fr := ch.frame.map (fun f => if !f.held && !f.refused && f.tag = r.tag then
          { f with taken := f.taken.filter (fun p => p.1 != y) ++ [(y, iter)] } else f)
        let pool := if left.isEmpty then rest else { r with pays := left } :: rest
        let s := s.setChan c { ch with pool := pool, frame := fr }
        let s := s.setSlot n r.tag { s.slot n r.tag with inFabric := true }
        let s := westPush y now s
        if left.isEmpty then turnOver s
        else { s with fabric := { s.fabric with west := tset 0 s.fabric.west y (c + 1) } }

/-- WEST_EDGE_ROW_SEND. -/
def execWestEdgeRowSend (c : ChanIx) (s : State) : Host.Outcome State Fault Refusal :=
  when_ ((List.range 20).any (fun y => s.offers c.val y)) s
    (each (List.range 20) s (fun s y => portPump c.val y s))

/-! ### Start and stop -/

/-- The source of channel c is up: an aligned master link, or a port with link, whose LOOP field is zero. -/
def State.sourceUp (s : State) (c : Nat) : Bool :=
  match s.chType c with
  | 1 => s.bit (aCxpLinkStatus (s.chLink c)) 1 && s.f (aCxpLinkCtl (s.chLink c)) 4 3 == 0
  | 2 => s.bit (aEthPortStatus 0) 0 && s.f (aEthPortCtl 0) 3 3 == 0
  | 3 => s.bit (aEthPortStatus 1) 0 && s.f (aEthPortCtl 1) 3 3 == 0
  | _ => false

/-- Two channels name the same source: master link and CoaXPress stream ID, or port, UDP port and group. -/
def State.sameSource (s : State) (c d : Nat) : Bool :=
  s.chType c == s.chType d && s.chType c != 0
  && (if s.chType c = 1 then s.chLink c == s.chLink d && s.f (aIngestChSrc c) 16 8 == s.f (aIngestChSrc d) 16 8
      else s.f (aIngestChSrc c) 0 16 == s.f (aIngestChSrc d) 0 16 && s.rd (aIngestChMcast c) == s.rd (aIngestChMcast d))

/-- Another enabled channel owns channel c's source or stream (R46). -/
def State.doubled (s : State) (c : Nat) : Bool :=
  (List.range 32).any (fun d => d != c && (s.chEn d || s.chRuns d) && (s.sameSource c d || s.chStream c == s.chStream d))

/-- A write of EN = 1, the other fields already in place: the start of R46. -/
def chanStart (c : Nat) (s : State) : State :=
  if s.chRuns c then s.setB (aIngestChCtl c) 0 true
  else if s.doubled c then reject none (aIngestChCtl c) s
  else
    let s := s.setB (aIngestChCtl c) 0 true
    let s := each [aIngestChFmt c, aIngestChGeom c, aIngestChSeg c, aIngestChPool c] s applyReg
    let ok := s.sourceUp c && (s.stream (s.chStream c)).job.isSome && (geomOf (s.chCfg c)).ok (s.chLines c)
    if ok then
      let s := (s.setB (aIngestChStatus c) 0 true).setB (aIngestChStatus c) 1 false
      s.setChan c { s.chan c with frame := none, block := none, lastBlock := none, expect := none }
    else s.setB (aIngestChStatus c) 1 true

/-- INGEST_CHANNEL_START. -/
def execIngestChannelStart (c : ChanIx) (s : State) : Host.Outcome State Fault Refusal :=
  hostRow .pf (aIngestChCtl c.val) (s.rd (aIngestChCtl c.val) ||| 1#32).toNat s (chanStart c.val s)

/-- A write that clears EN (R49, R330). -/
def chanStop (c : Nat) (s : State) : State :=
  let was := s.chEn c
  let s := s.setB (aIngestChCtl c) 0 false
  let s := match s.chTrig c with | some i => if was then slipClear i s else s | none => s
  chanSettle c s

/-- INGEST_CHANNEL_STOP. -/
def execIngestChannelStop (c : ChanIx) (s : State) : Host.Outcome State Fault Refusal :=
  hostRow .pf (aIngestChCtl c.val) (s.rd (aIngestChCtl c.val) &&& 0xFFFFFFFE#32).toNat s (chanStop c.val s)

/-! ### The host path (R33) -/

/-- Slots of each ring of host path p; where the receive and the transmit ring begin. -/
def State.hpSlots (s : State) (p : Nat) : Nat := 2 ^ (s.f (aHostpathCtl p) 16 4 + 4)
def State.hpRx (s : State) (p i : Nat) : Nat := (s.f (aHostpathCtl p) 0 14 + i) * 4096
def State.hpTx (s : State) (p i : Nat) : Nat := (s.f (aHostpathCtl p) 0 14 + s.hpSlots p + i) * 4096

/-- A frame, packet or notice of `type` reaches the receive ring of host path p; `ts` is its event timestamp. A full ring
discards it: HP_DROP on an Ethernet port. More than 2,048 bytes do not fit a slot and are discarded. -/
def hpReceive (p type : Nat) (ts : Option Nat) (data : List Byte) (s : State) : State :=
  let n := s.hpSlots p
  let tail := s.f (aHostpathRx p) 16 12
  if !s.bit (aHostpathCtl p) 31 || 2048 < data.length then s
  else if (tail + 1) % n = s.f (aHostpathRx p) 0 12 then
    if p < 2 then (s.setB (aEthPortStatus p) 2 true).count (cEth p 3) 1 else s
  else
    let a := s.hpRx p tail
    let s := s.basinPut (a + 16) data
    let s := s.basinPut a (toBytes 2 data.length ++ toBytes 2 type ++ toBytes 4 (b2n ts.isSome * 2) ++ toBytes 8 (ts.getD 0))
    let s := if p < 2 ∧ type = 0 then s.count (cEth p 2) 1 else s
    s.setF (aHostpathRx p) 16 12 ((tail + 1) % n)

/-- A write of i to HOSTPATH_RX.HEAD. -/
def hpRxSet (p i : Nat) (s : State) : State :=
  if onPath (s.hpSlots p) (s.f (aHostpathRx p) 0 12) (s.f (aHostpathRx p) 16 12) i then s.setF (aHostpathRx p) 0 12 i
  else reject none (aHostpathRx p) s

/-- HOSTPATH_RX_HEAD_WRITE. -/
def execHostpathRxHeadWrite (p : Fin 10) (i : BitVec 12) (s : State) : Host.Outcome State Fault Refusal :=
  hostRow .pf (aHostpathRx p.val) i.toNat s (hpRxSet p.val i.toNat s)

/-- A write of i to HOSTPATH_TX.TAIL. -/
def hpTxSet (p i : Nat) (s : State) : State :=
  if i < s.hpSlots p then s.setF (aHostpathTx p) 0 12 i else reject none (aHostpathTx p) s

/-- HOSTPATH_TX_DOORBELL. -/
def execHostpathTxDoorbell (p : Fin 10) (i : BitVec 12) (s : State) : Host.Outcome State Fault Refusal :=
  hostRow .pf (aHostpathTx p.val) i.toNat s (hpTxSet p.val i.toNat s)

/-- The messageType of an IEEE 1588 event message in an Ethernet frame: over 802.3 (EtherType 0x88F7) or over UDP/IPv4 to
port 319; PRESUMED, the spec names the messages and not their layout. -/
def ptpEvent (bs : List Byte) : Bool :=
  let b := fun (i : Nat) => (nth bs i 0).toNat
  let v := if b 12 = 0x81 ∧ b 13 = 0 then 4 else 0
  let type := b (12 + v) * 256 + b (13 + v)
  if type = 0x88F7 then decide (b (14 + v) % 16 < 4)
  else decide (type = 0x0800 ∧ b (14 + v) = 0x45 ∧ b (23 + v) = 17 ∧ b (36 + v) * 256 + b (37 + v) = 319 ∧ b (42 + v) % 16 < 4)

/-- HOSTPATH_TX_SEND: the slot at HEAD is sent, or marked ERR when it is longer than 2,048 bytes; bytes 4 to 15 are written
back and HEAD advances. A slot of any type but 0 and 3 goes as type 0. -/
def execHostpathTxSend (p : Fin 10) (s : State) : Host.Outcome State Fault Refusal :=
  let p := p.val
  let head := s.f (aHostpathTx p) 16 12
  if !s.bit (aHostpathCtl p) 31 || decide (head = s.f (aHostpathTx p) 0 12) then idle s
  else
    let a := s.hpTx p head
    let (h, t) := s.basinRead a 2
    let len := ofBytes h.bytes
    let long := decide (2048 < len)
    let (g, t) := if long then ((⟨[], false, false⟩ : Got), t) else t.basinRead (a + 16) len
    let ev := !long && decide (p < 2) && ptpEvent g.bytes
    let t := if long then t else t.emit (.sent p g.bytes)
    let t := t.basinPut (a + 4) (toBytes 4 (1 + b2n ev * 2 + b2n long * 4) ++ toBytes 8 (if ev then t.now else 0))
    done s (t.setF (aHostpathTx p) 16 12 ((head + 1) % s.hpSlots p))

/-! ### CoaXPress (R29) -/

/-- The running channel of master link l for a CoaXPress stream ID, and whether any running channel owns the link. -/
def State.cxpChan (s : State) (l sid : Nat) : Option Nat :=
  findNat 32 (fun c => s.chRuns c && s.chType c == 1 && s.chLink c == l && s.f (aIngestChSrc c) 16 8 == sid)
def State.cxpOwned (s : State) (l : Nat) : Bool :=
  (List.range 32).any (fun c => s.chRuns c && s.chType c == 1 && s.chLink c == l)
/-- The channel bound to that source that does not run: what arrives for it is discarded and counted (R49). -/
def State.cxpIdle (s : State) (l sid : Nat) : Option Nat :=
  findNat 32 (fun c => !s.chRuns c && s.chType c == 1 && s.chLink c == l && s.f (aIngestChSrc c) 16 8 == sid)

/-- An image header or a line reaches running channel c. -/
def cxpStream (c : Nat) (p : CxpPacket) (s : State) : State :=
  let ch := s.chan c
  let inSeq := match ch.expect with | some e => e == p.seq | none => true
  let bad := !p.crcOk || !inSeq
  let s := s.setChan c { ch with expect := if p.crcOk then some (p.seq + 1) else none }
  let g := geomOf (s.chCfg c)
  match p.body with
  | .header w px n =>
    if s.chLines c then
      let g := match ch.frame with | some f => geomOf f.cfg | none => g
      if bad || w ≠ g.width || px ≠ g.pixel then frameSpoil c s else s
    else
      frameStart c n 0 (!p.crcOk || decide (w ≠ g.width ∨ px ≠ g.pixel)) (frameLost c s)
  | .line bs =>
    let s := if ch.frame.isNone && s.chLines c then frameStart c g.lines 0 false s else s
    if (s.chan c).frame.isNone then (if ch.frame.isNone && s.chLines c then s else s.count (cChan c 4) 1)
    else lineArrive c bs (if bad then frameSpoil c s else s)
  | _ => s

/-- CXP_PACKET_RECEIVE: events, heartbeats and control replies go to the host path; stream packets to the owning channel. -/
def execCxpPacketReceive (l : Fin 8) (p : CxpPacket) (s : State) : Host.Outcome State Fault Refusal :=
  let l := l.val
  if !(s.bit (aCxpLinkStatus l) 0 && decide (s.f (aCxpLinkCtl l) 4 3 = 0)) then idle s else
  let t := s.count (cCxp l 0) 1
  let t := if p.crcOk then t else (t.setB (aCxpLinkStatus l) 2 true).count (cCxp l 1) 1
  match p.body with
  | .event bs => done s (if p.crcOk then hpReceive (2 + l) 2 none bs t else t)
  | .control bs => done s (if p.crcOk then hpReceive (2 + l) 3 none bs t else t)
  | _ =>
    let sid := p.streamId.toNat
    let t := if s.cxpOwned l then t else t.setB (aCxpLinkStatus l) 3 true
    match s.cxpChan l sid, s.cxpIdle l sid with
    | some c, _ => done s (cxpStream c p t)
    | none, some c => done s (t.count (cChan c 4) 1)
    | none, none => done s t

/-! ### GVSP (R30 to R32) -/

/-- A resend notice (R31) in the receive ring of port p: channel, block ID, first and last missing packet ID. -/
def resendNotice (p c block lo hi : Nat) (s : State) : State :=
  hpReceive p 1 none (toBytes 4 c ++ toBytes 8 block ++ toBytes 4 lo ++ toBytes 4 hi) s

/-- The block in progress of channel c ends; what remains of its frame in camera frame mode is lost. -/
def blockEnd (c : Nat) (s : State) : State :=
  let ch := s.chan c
  match ch.block with
  | none => s
  | some b =>
    let s := s.setChan c { ch with block := none, lastBlock := some b.id }
    if s.chLines c then s else frameLost c s

/-- The block in progress is dropped for its missing packets. -/
def blockDrop (c : Nat) (s : State) : State := blockEnd c (frameSpoil c s)

/-- One image line of the block reaches the frame; in line count mode it may start one. -/
def gvLine (c : Nat) (bs : List Byte) (s : State) : State :=
  let s := if (s.chan c).frame.isNone && s.chLines c then frameStart c (geomOf (s.chCfg c)).lines 0 false s else s
  lineArrive c bs s

/-- Deliver the packets of the block that no missing one holds back, with fuel. -/
def gvDeliver (c : Nat) : Nat → State → State
  | 0, s => s
  | f + 1, s =>
    match (s.chan c).block with
    | none => s
    | some b =>
      match b.early.find? (fun e => e.1 == b.due) with
      | none => s
      | some e =>
        gvDeliver c f (gvLine c e.2 (s.setChan c { s.chan c with block := some { b with
          due := b.due + 1, early := b.early.erase e } }))

/-- Packets `lo` to `hi` are missing: a notice goes out unless RESEND_WAIT is 0. -/
def gvGap (p c lo hi : Nat) (s : State) : State :=
  match (s.chan c).block with
  | none => s
  | some b =>
    let miss := (List.range (hi + 1 - lo)).map (· + lo)
    let s := s.setChan c { s.chan c with block := some { b with missing := b.missing ++ miss } }
    if s.f (aEthPortCtl p) 16 16 = 0 then s else resendNotice p c b.id lo hi s

/-- The block ends once its trailer has come and nothing is missing; RESEND_WAIT 0 drops one with a gap at its trailer. -/
def gvFinish (p c : Nat) (s : State) : State :=
  match (s.chan c).block with
  | none => s
  | some b =>
    match b.total with
    | none => s
    | some _ =>
      if b.missing.isEmpty then blockEnd c s
      else if s.f (aEthPortCtl p) 16 16 = 0 then blockDrop c s else s

/-- What a GVSP packet of a block does on channel c of port p. -/
def gvspArrive (p c block : Nat) (body : GvspBody) (s : State) : State :=
  let ch := s.chan c
  let stale := s.count (cChan c 4) 1
  let mine := match ch.block with | some b => b.id == block | none => false
  match body with
  | .otherType => stale
  | .leader w px lines camTime =>
    if mine || ch.lastBlock == some block then stale
    else
      let s := if s.chLines c then s else frameLost c s
      let s := s.setChan c { s.chan c with block := some ⟨block, 1, 1, [], [], none⟩ }
      let g := geomOf (s.chCfg c)
      if s.chLines c then
        let g := match ch.frame with | some f => geomOf f.cfg | none => g
        if w ≠ g.width ∨ px ≠ g.pixel then frameSpoil c s else s
      else frameStart c lines camTime (decide (w ≠ g.width ∨ px ≠ g.pixel)) s
  | .data id line =>
    match ch.block with
    | none => stale
    | some b =>
      if !mine then stale
      else if id < b.next && !b.missing.contains id then stale
      else
        let s := if b.next < id then gvGap p c b.next (id - 1) s else s
        let s := match (s.chan c).block with
          | some b => s.setChan c { s.chan c with block := some { b with
              next := max b.next (id + 1), missing := b.missing.filter (fun i => i != id), early := b.early ++ [(id, line)] } }
          | none => s
        gvFinish p c (gvDeliver c (b.early.length + 1) s)
  | .trailer n =>
    if !mine then stale
    else
      let s := match ch.block with
        | some b => if b.next ≤ n then gvGap p c b.next n s else s
        | none => s
      let s := match (s.chan c).block with
        | some b => s.setChan c { s.chan c with block := some { b with total := some n, next := max b.next (n + 1) } }
        | none => s
      gvFinish p c s

/-- The multicast MAC address of an IPv4 group. -/
def groupMac (ip : Word) : BitVec 48 := BitVec.ofNat 48 (0x01005E000000 + ip.toNat % 2 ^ 23)

/-- The MAC address of port p. -/
def State.portMac (s : State) (p : Nat) : BitVec 48 :=
  BitVec.ofNat 48 (s.f (aEthPortMacHi p) 0 16 * 2 ^ 32 + (s.rd (aEthPortMacLo p)).toNat)

/-- The channel that takes a frame (R30): enabled, or completing its frame in progress. -/
def State.gvspChan (s : State) (p : Nat) (f : EthFrame) : Option Nat :=
  findNat 32 (fun c => (s.chEn c || s.chRuns c) && s.chType c == 2 + p && f.ipv4
    && (match f.udpPort with | some u => u.toNat == s.f (aIngestChSrc c) 0 16 | none => false)
    && ((f.ip == s.rd (aEthPortIp p) && f.mac == s.portMac p)
        || (s.rd (aIngestChMcast c) != 0 && f.ip == s.rd (aIngestChMcast c) && f.mac == groupMac f.ip)))

/-- ETH_FRAME_RECEIVE. Under LOOP = 3 the frame is sent back (02, Loop-backs; R58). -/
def execEthFrameReceive (p : Fin 2) (f : EthFrame) (s : State) : Host.Outcome State Fault Refusal :=
  let p := p.val
  if !(s.bit (aEthPortStatus p) 0 && decide (s.f (aEthPortCtl p) 3 3 = 0)) then
    when_ (s.bit (aEthPortStatus p) 0 && decide (s.f (aEthPortCtl p) 3 3 = 3)) s (s.emit (.sent p f.raw)) else
  let t := s.count (cEth p 0) 1
  let ts := if f.ptpEvent then some s.now else none
  if f.ipv4 && f.frag then done s (t.count (cEth p 4) 1)
  else match s.gvspChan p f with
    | some c =>
      let t := t.count (cEth p 1) 1
      done s (if s.chRuns c then gvspArrive p c f.block f.gvsp t else t.count (cChan c 4) 1)
    | none =>
      if f.mac = s.portMac p ∨ f.mac = BitVec.allOnes 48 then done s (hpReceive p 0 ts f.raw t)
      else if f.mac.getLsbD 40 then
        done s (if s.bit (aEthPortCtl p) 6 then hpReceive p 0 ts f.raw t else t.count (cEth p 6) 1)
      else done s t

/-- RESEND_WAIT_EXPIRY: a block with packets still missing is dropped (R31). -/
def execResendWaitExpiry (c : ChanIx) (s : State) : Host.Outcome State Fault Refusal :=
  match (s.chan c.val).block with
  | none => idle s
  | some b => when_ (!b.missing.isEmpty && decide (s.f (aEthPortCtl (s.chType c.val - 2)) 16 16 ≠ 0)) s (blockDrop c.val s)

/-! ### Source links -/

/-- The links of a CoaXPress group from its master. -/
def State.cxpGroup (s : State) (l : Nat) : List Nat := (List.range (s.f (aCxpLinkCtl l) 8 2 + 1)).map (· + l)

/-- SOURCE_LINK_UP: LOCK and, on the master, ALIGNED; or the Ethernet port's LINK, and FEC_LOCK under RSFEC. -/
def execSourceLinkUp (src : Source) (s : State) : Host.Outcome State Fault Refusal :=
  match src with
  | .cxp l =>
    when_ (decide (s.f (aCxpLinkCtl l.val) 0 4 ≠ 0)) s
      ((each (s.cxpGroup l.val) s (fun s k => s.setB (aCxpLinkStatus k) 0 true)).setB (aCxpLinkStatus l.val) 1 true)
  | .eth p =>
    when_ (decide (s.f (aEthPortCtl p.val) 0 2 ≠ 0)) s
      ((s.setB (aEthPortStatus p.val) 0 true).setB (aEthPortStatus p.val) 1 (s.bit (aEthPortCtl p.val) 2))

/-- SOURCE_LINK_DOWN: a frame in progress is dropped under R55; the channel stays enabled. -/
def execSourceLinkDown (src : Source) (s : State) : Host.Outcome State Fault Refusal :=
  match src with
  | .cxp l =>
    let t := (each (s.cxpGroup l.val) s (fun s k => s.setB (aCxpLinkStatus k) 0 false)).setB (aCxpLinkStatus l.val) 1 false
    let cs := (List.range 32).filter (fun c => s.chRuns c && s.chType c == 1 && s.chLink c == l.val)
    done s (each cs t (fun s c => frameLost c (s.setChan c { s.chan c with expect := none })))
  | .eth p =>
    let t := (s.setB (aEthPortStatus p.val) 0 false).setB (aEthPortStatus p.val) 1 false
    let cs := (List.range 32).filter (fun c => s.chRuns c && s.chType c == 2 + p.val)
    done s (each cs t (fun s c => frameLost c (blockEnd c s)))

end Sys2Proof.Machine
end

