-- ==== Sys2Proof/Machine/Shore.lean ====
section
/-! DEFINITION. The PCIe link (R37) and the causeway links (R39 to R45). -/
namespace Sys2Proof.Machine

/-! ### PCIe -/

/-- The link is down: WIDTH, RATE and LINK_UP read 0. -/
def pcieDown (s : State) : State := ((s.setF aPcieLinkStatus 0 3 0).setF aPcieLinkStatus 4 4 0).setB aPcieLinkStatus 8 false

/-- What waits for the link goes out in order: messages, then completion entries (R66, R345). -/
def linkFlush (s : State) : State :=
  let s := { s with outbox := s.outbox ++ s.waiting, waiting := [] }
  each (s.streams.map (·.1)) s (fun s n => cqMove n s)

/-- PCIE_LINK_TRAINED: below x8 or 32 GT/s sets DEGRADED (R37). -/
def execPcieLinkTrained (width : BitVec 4) (rate : BitVec 3) (s : State) : Host.Outcome State Fault Refusal :=
  if !Instr.wellFormed (.pcieLinkTrained width rate) then .refused (.illFormed "PCIE_LINK_TRAINED") else
  let t := ((s.setF aPcieLinkStatus 0 3 rate.toNat).setF aPcieLinkStatus 4 4 width.toNat).setB aPcieLinkStatus 8 true
  let t := if width.toNat < 8 ∨ rate.toNat < 5 then t.setB aPcieLinkStatus 9 true else t
  done s (linkFlush t)

/-- PCIE_LINK_DOWN: no stream is aborted (R37). -/
def execPcieLinkDown (s : State) : Host.Outcome State Fault Refusal := done s (pcieDown s)

/-! ### Causeway flits -/

/-- The fields of a flit (02, Lanes and framing), CRC apart. -/
structure Flit where
  type : Nat
  seq : Nat
  chan : Nat
  crChan : Nat
  crCount : Nat
  grp : Nat
  pay : Pay
  side : Word

/-- The CRC of a flit: over bits [351:32], high bit first. -/
def flitCrc (f : BitVec 352) : BitVec 32 := crc32c ((List.range 320).map (fun i => f.getLsbD (351 - i)))

/-- Read a flit's fields; bits [325:322] are ignored. -/
def flitOf (f : BitVec 352) : Flit :=
  let n := f.toNat
  ⟨nbits n 348 4, nbits n 340 8, nbits n 336 4, nbits n 332 4, nbits n 326 6, nbits n 320 2, BitVec.ofNat 256 (nbits n 64 256),
   BitVec.ofNat 32 (nbits n 32 32)⟩

/-- The bits of a flit with its CRC. -/
def Flit.bits (f : Flit) : BitVec 352 :=
  let n := f.type % 16 * 2 ^ 348 + f.seq % 256 * 2 ^ 340 + f.chan % 16 * 2 ^ 336 + f.crChan % 16 * 2 ^ 332 + f.crCount % 64 * 2 ^ 326
    + f.grp % 4 * 2 ^ 320 + f.pay.toNat * 2 ^ 64 + f.side.toNat * 2 ^ 32
  BitVec.ofNat 352 (n + (flitCrc (BitVec.ofNat 352 n)).toNat)

/-- The port bound to a channel (R45). -/
def State.chanPort (s : State) (l c : Nat) : Option Nat :=
  findNat 40 (fun e => decide (s.edgeMode e = 3 ∧ s.fa (aEdgeCfg e) 20 2 = l ∧ s.fa (aEdgeCfg e) 16 4 = c))

/-- CODEC and CSIGN of a channel's port. -/
def State.chanCodec (s : State) (l c : Nat) : Nat × Bool :=
  match s.chanPort l c with
  | some e => (s.fa (aEdgeCfg e) 12 2, s.bitA (aEdgeCfg e) 11)
  | none => (0, false)

/-- Entries a flit may hold: 1, 2 or 4. -/
def groupMax (codec : Nat) : Nat := if codec = 1 then 2 else if codec = 2 then 4 else 1

/-- The 64-bit words of PAYLOAD from bit 319 downward. -/
def flitWords (p : Pay) : List Nat := [nbits p.toNat 192 64, nbits p.toNat 128 64, nbits p.toNat 64 64, nbits p.toNat 0 64]

/-- The link trained and carries flits: no loop-back is on (R58). -/
def State.cwyUp (s : State) (l : Nat) : Bool := s.bit (aCwyLinkStatus l) 0 && decide (s.f (aCwyLinkCtl l) 1 3 = 0)

/-- Send a flit on link l. -/
def flitOut (l : Nat) (f : BitVec 352) (s : State) : State := (s.emit (.flit l f)).count (cCwy l 0) 1

/-! ### The link goes down (R43) -/

/-- Streams whose bound layout binds a channel of link l. -/
def State.linkStreams (s : State) (l : Nat) : List Nat :=
  s.upStreams.filter (fun n => match (s.stream n).job with
    | some j => match s.image j.layout with
      | some im => im.body.edges.any (fun e => nbits e.2.1.toNat 30 2 == 3 && nbits e.2.1.toNat 20 2 == l)
      | none => false
    | none => false)

/-- UP, LANES_OK and the partner's values read 0, and what the link held is lost. -/
def cwyDown (l : Nat) (s : State) : State :=
  let a := aCwyLinkStatus l
  (((s.setB a 0 false).setB a 3 false).setF a 4 4 0).setF a 8 4 0 |>.setLink l Cwy.init

/-- R43: RETRY_LIMIT is exceeded: DOWN_EVENT, and CAUSEWAY_CRC of class S for every stream that binds a channel. -/
def cwyFail (l : Nat) (s : State) : State :=
  let ns := s.linkStreams l
  let s := (cwyDown l s).setB (aCwyLinkStatus l) 1 true
  each ns s (fun s n => raiseS { cls := 1, code := 0x10, unit := 14, index := l } n s)

/-- RETRY_LIMIT; 0 means 8. -/
def State.retryLimit (s : State) (l : Nat) : Nat := let n := s.f (aCwyLinkCtl l) 4 4; if n = 0 then 8 else n

/-- CWY_LINK_TRAINED: UP with all four lanes, the partner's position and link number (R39); every channel starts with 64
credits. A link that trains while UP had gone down at its partner's end (R43). -/
def execCwyLinkTrained (l : Fin 4) (pos link : BitVec 2) (s : State) : Host.Outcome State Fault Refusal :=
  let a := aCwyLinkStatus l.val
  let t := if s.bit a 0 then cwyFail l.val s else s
  when_ (s.bit (aCwyLinkCtl l.val) 0) s
    ((((((t.setF a 8 4 15).setF a 6 2 link.toNat).setF a 4 2 pos.toNat).setB a 3 true).setB a 0 true).setLink l.val Cwy.init)

/-! ### Receiving -/

/-- Received entries of channel c enter the edge tile inbound while the port holds a credit (R45, R268). A flit whose last
entry has left its buffer gives its credit back (R42). -/
def cwyDeliver (l c : Nat) : Nat → State → State
  | 0, s => s
  | f + 1, s =>
    match s.chanPort l c, tget [] (s.link l).rxq c with
    | some e, (x, last) :: rest =>
      let t := edgeTile e
      if 64 ≤ (s.edge e).used || s.gsr (regionOf t) then s
      else
        let k := s.link l
        let k := { k with rxq := tset [] k.rxq c rest, owed := tset 0 k.owed c (tget 0 k.owed c + b2n last) }
        let s := (s.setLink l k).setEdge e { s.edge e with used := (s.edge e).used + 1 }
        cwyDeliver l c f (laneArrive t (edgeDir e) 0 x s)
    | _, _ => s

/-- Deliver on every channel of link l. -/
def cwyPump (l : Nat) (s : State) : State :=
  each (List.range 16) s (fun s c => cwyDeliver l c (tget [] (s.link l).rxq c).length s)

/-- The entries of a data flit, none where GRP or a shift is not allowed (R45). -/
def flitEntries (codec : Nat) (sg : Bool) (f : Flit) : Option (List (Entry × Bool)) :=
  if groupMax codec ≤ f.grp then none
  else if codec = 0 then some [(⟨f.pay, f.side⟩, true)]
  else
    let per := if codec = 1 then 2 else 1
    let ws := (flitWords f.pay).take ((f.grp + 1) * per)
    if ws.any (fun w => decide (6 ≤ codecShift w)) then none
    else some ((List.range (f.grp + 1)).map (fun i =>
      let bs := ((ws.drop (i * per)).take per).flatMap (decodeBlock codec sg)
      let side := if i = f.grp then f.side
        else sideOf (strOf f.side) (frameOf f.side) (iterOf f.side) false false (govOf f.side) (psnOf f.side)
      (⟨payOfBytes bs, side⟩, decide (i = f.grp))))

/-- A nak with the last good SEQ (R40); too many in succession take the link down (R43). -/
def cwyNak (l : Nat) (s : State) : State :=
  let x := s.link l
  let s := s.setLink l { x with sentNaks := x.sentNaks + 1 }
  let s := flitOut l (Flit.bits ⟨4, (x.rxSeq + 255) % 256, 0, 0, 0, 0, 0, 0⟩) s
  if s.retryLimit l < x.sentNaks + 1 then cwyFail l s else s

/-- The flits after the one with SEQ `n`, if the list holds it. -/
def afterSeq (n : Nat) (fs : List (BitVec 352)) : List (BitVec 352) :=
  match findNat fs.length (fun i => (flitOf (nth fs i 0)).seq == n) with
  | some i => fs.drop (i + 1)
  | none => fs

/-- An ack: the flits up to SEQ leave the replay buffer. -/
def cwyAcked (l n : Nat) (s : State) : State :=
  let x := s.link l
  s.setLink l { x with replay := afterSeq n x.replay, resend := afterSeq n x.resend, naks := 0 }

/-- A nak: replay from the flit after SEQ; the same SEQ too often takes the link down (R40, R43). -/
def cwyNakked (l n : Nat) (s : State) : State :=
  let x := s.link l
  let k := if x.naks ≠ 0 ∧ x.nakSeq = n then x.naks + 1 else 1
  let rest := afterSeq n x.replay
  let s := (s.setLink l { x with replay := rest, resend := rest, nakSeq := n, naks := k }).count (cCwy l 3) 1
  if s.retryLimit l < k then cwyFail l s else s

/-- A data flit in sequence: its entries enter the channel's buffer; every 32nd good flit is acknowledged (R40). -/
def cwyTake (l c : Nat) (es : List (Entry × Bool)) (s : State) : State :=
  let x := s.link l
  let good := x.good + 1
  let s := s.setLink l { x with rxSeq := (x.rxSeq + 1) % 256, sentNaks := 0, good := if 32 ≤ good then 0 else good,
                                rxq := tset [] x.rxq c (tget [] x.rxq c ++ es) }
  if 32 ≤ good then flitOut l (Flit.bits ⟨3, x.rxSeq, 0, 0, 0, 0, 0, 0⟩) s else s

/-- Credits a flit of any type returns (R42). -/
def cwyCredits (l : Nat) (f : Flit) (s : State) : State :=
  let x := s.link l
  s.setLink l { x with spent := tset 0 x.spent f.crChan (tget 0 x.spent f.crChan - f.crCount) }

/-- A received flit (R40, R42). A data flit out of sequence is nakked once; what follows it is discarded until the replay. -/
def cwyReceive (l : Nat) (w : BitVec 352) (s : State) : State :=
  let f := flitOf w
  let x := s.link l
  let s := s.count (cCwy l 1) 1
  let (codec, sg) := s.chanCodec l f.chan
  if BitVec.ofNat 32 w.toNat ≠ flitCrc w ∨ 4 < f.type then cwyNak l s
  else if f.type = 1 then
    match flitEntries codec sg f with
    | none => cwyNak l s
    | some es =>
      if f.seq = x.rxSeq then cwyTake l f.chan es (cwyCredits l f s)
      else if x.sentNaks = 0 then cwyNak l s else s
  else
    let s := cwyCredits l f s
    if f.type = 3 then cwyAcked l f.seq s else if f.type = 4 then cwyNakked l f.seq s else s

/-- CAUSEWAY_FLIT_RECEIVE. Under the far loop-back a flit that passes the CRC check is sent back (02, Loop-backs). -/
def execCausewayFlitReceive (l : Fin 4) (flit : BitVec 352) (s : State) : Host.Outcome State Fault Refusal :=
  if s.cwyUp l.val then done s (cwyPump l.val (cwyReceive l.val flit s))
  else when_ (s.bit (aCwyLinkStatus l.val) 0 && decide (s.f (aCwyLinkCtl l.val) 1 3 = 3)
      && decide (BitVec.ofNat 32 flit.toNat = flitCrc flit)) s
    (flitOut l.val flit (s.count (cCwy l.val 1) 1))

/-! ### Sending -/

/-- The entries waiting for channel c: closing payloads, then those at its port. -/
def State.chanQueue (s : State) (l c : Nat) : List Entry :=
  tget [] (s.link l).txq c ++ (match s.chanPort l c with | some e => (s.edge e).inq | none => [])

/-- R45: the first entries of a queue that make one group. -/
def groupTake : Nat → List Entry → List Entry
  | 0, _ => []
  | _ + 1, [] => []
  | n + 1, e :: es =>
    if eorOf e.side || eofrOf e.side then [e]
    else match es with
      | [] => [e]
      | e' :: _ => if keyOf e.side = keyOf e'.side then e :: groupTake n es else [e]

/-- The flit of a group: PAYLOAD, GRP and SIDEBAND (R45). -/
def groupFlit (codec : Nat) (sg : Bool) (es : List Entry) : Nat × Pay × Word :=
  let last := (es.getLast?.map (·.side)).getD 0
  if codec = 0 then (0, (es.head?.map (·.pay)).getD 0, last)
  else
    let ws := es.flatMap (fun e => (pieces 8 32 (encodeRow codec sg (payBytes e.pay))).map ofBytes)
    let pay := ws.zipIdx.map (fun w => w.1 * 2 ^ (192 - 64 * w.2))
    (es.length - 1, BitVec.ofNat 256 (pay.foldl (· + ·) 0),
     sideOf (strOf last) (frameOf last) (iterOf last) (eorOf last) (eofrOf last) (es.any (fun e => govOf e.side)) (es.any (fun e => psnOf e.side)))

/-- R415: the frames on which the channel has sent entries without EOFR, each with the sideband of its last entry. -/
def openAfter (ws : List Word) (w : Word) : List Word :=
  let rest := ws.filter (fun v => !(strOf v == strOf w && frameOf v == frameOf w))
  if eofrOf w then rest else rest ++ [w]

/-- The lowest channel with credits to return, and how many a flit takes. -/
def Cwy.dues (x : Cwy) : Nat × Nat :=
  match findNat 16 (fun c => decide (0 < tget 0 x.owed c)) with
  | some c => (c, min (tget 0 x.owed c) 63)
  | none => (0, 0)

/-- The first n entries leave the queue of channel c; those from the port return the tile's credits. -/
def chanPop (l c n : Nat) (s : State) : State :=
  let x := s.link l
  let q := tget [] x.txq c
  let k := n - q.length
  let s := s.setLink l { x with txq := tset [] x.txq c (q.drop n) }
  match s.chanPort l c with
  | some e => credit (s.linkSender (edgeTile e) (edgeDir e)) k (s.setEdge e { s.edge e with inq := (s.edge e).inq.drop k })
  | none => s

/-- Send the next data flit of channel c: it takes a credit and a place of the replay buffer, and returns credits (R42). -/
def sendData (l c : Nat) (s : State) : State :=
  let (codec, sg) := s.chanCodec l c
  let es := groupTake (groupMax codec) (s.chanQueue l c)
  let (grp, pay, side) := groupFlit codec sg es
  let x := s.link l
  let (dc, dn) := x.dues
  let w := Flit.bits ⟨1, x.txSeq, c, dc, dn, grp, pay, side⟩
  let s := chanPop l c es.length s
  let x := s.link l
  let s := s.setLink l { x with txSeq := (x.txSeq + 1) % 256, replay := x.replay ++ [w], owed := tset 0 x.owed dc (tget 0 x.owed dc - dn),
                                spent := tset 0 x.spent c (tget 0 x.spent c + 1),
                                open_ := tset [] x.open_ c (openAfter (tget [] x.open_ c) side) }
  flitOut l w s

/-- One more flit of the replay (R43). -/
def sendReplay (l : Nat) (w : BitVec 352) (rest : List (BitVec 352)) (s : State) : State :=
  let s := (s.setLink l { s.link l with resend := rest }).count (cCwy l 2) 1
  let s := s.setB (aCwyLinkStatus l) 2 true
  flitOut l w (raiseC { cls := 0, code := 0x10, unit := 14, index := l } s)

/-- A flit that only returns credits. -/
def sendCredits (l : Nat) (s : State) : State :=
  let x := s.link l
  let (dc, dn) := x.dues
  flitOut l (Flit.bits ⟨2, 0, 0, dc, dn, 0, 0, 0⟩) (s.setLink l { x with owed := tset 0 x.owed dc (tget 0 x.owed dc - dn) })

/-- CAUSEWAY_FLIT_SEND: a replay in progress goes first; then channel c sends if an entry waits, it holds one of its 64
credits and the replay buffer of 128 has room; then credits wait no longer for a data flit. -/
def execCausewayFlitSend (l : Fin 4) (chan : Fin 16) (s : State) : Host.Outcome State Fault Refusal :=
  if !s.cwyUp l.val then idle s else
  let s1 := cwyPump l.val s
  let x := s1.link l.val
  match x.resend with
  | w :: rest => done s (sendReplay l.val w rest s1)
  | [] =>
    if !(s1.chanQueue l.val chan.val).isEmpty && decide (tget 0 x.spent chan.val < 64) && decide (x.replay.length < 128) then
      done s (sendData l.val chan.val s1)
    else done s (if x.dues.2 = 0 then s1 else sendCredits l.val s1)

end Sys2Proof.Machine
end

