-- ==== Sys2Proof/Machine/Power.lean ====
section
/-! DEFINITION. Supplies, clocks, power states, resets, boot and the key store (16, 20 R428 to R429, 21 R432 to R442). -/
namespace Sys2Proof.Machine

/-! ### What power loss and resets clear -/

/-- Registers that a loss of the pipeline and shoreline dies leaves: those of the GLOBAL and KEEL blocks, the debug lock, and
what self-test found (R373, R396, R400). -/
def keepOff (off : Nat) : Bool := decide (off < 0x20000) || off == aDbgLock || (decide (0x440004 ≤ off) && decide (off < 0x440010))

/-- Registers that a warm reset leaves: power, clocks, thermal, time, boot and keys; journal; press; the debug lock's count
(16, Resets; R338, R361; notes/assumptions/40.md). -/
def keepWarm (off : Nat) : Bool :=
  (decide (0x10000 ≤ off) && decide (off < 0x12000)) || (decide (0x13000 ≤ off) && decide (off < 0x20000)) || off == aDbgLock

/-- Everything on the pipeline and shoreline dies returns to its reset state; the registers `keep` picks stay. -/
def dieReset (keep : Nat → Bool) (s : State) : State :=
  let z := State.reset
  { s with
    regs := s.regs.filter (fun p => keep p.1), active := s.active.filter (fun p => keep p.1),
    latches := s.latches.filter (fun p => keep (p.1 % 2 ^ 26)), counters := s.counters.filter (fun p => keep p.1),
    msixTab := z.msixTab, streams := z.streams, chans := z.chans, gate := z.gate, tiles := z.tiles, seqs := z.seqs,
    tms := z.tms, tmq := z.tmq, granted := z.granted, replies := z.replies, uses := z.uses, images := z.images,
    layOp := z.layOp, staging := z.staging, loads := z.loads, ferries := z.ferries, mem := z.mem, edges := z.edges,
    cwy := z.cwy, fabric := z.fabric, under := z.under, waiting := z.waiting,
    power := { s.power with target := none, waking := false, deferred := [] } }

/-- Set PWR_STATUS.STATE. -/
def setPwr (v : Nat) (s : State) : State := s.setF aPwrStatus 28 4 v

/-- Pipeline and shoreline lose power: FABRIC_ON and the PLL locks read 0, RAIL_EN is removed. -/
def fabricOff (s : State) : State :=
  let s := (((dieReset keepOff s).setB aPwrStatus 25 false).setB aClkStatus 0 false).setB aClkStatus 1 false
  let s := s.setB aGlobalStatus 27 false
  { s with power := { s.power with railEn := 0, shutdown := false, hold := false, boot := 0 } }

/-- FABRIC_ON. -/
def State.fabricOn (s : State) : Bool := s.bit aPwrStatus 25
/-- The keel runs on VBAK. -/
def State.onVbak (s : State) : Bool := s.bit aPwrStatus 24

/-! ### Switch-over and the ebb hold (R363 to R367) -/

/-- The reading of supply r (SUPPLY_MON). -/
def supply (r mv : Nat) (uv : Bool) (s : State) : State := (s.setF (aSupplyMon r) 0 16 mv).setB (aSupplyMon r) 31 uv

/-- The steps of R366 begin: SUPPLY_EBB of class F, or the code given, and with it every drain point. -/
def shutdown (code : Nat) (s : State) : State :=
  let s := raiseF { cls := 3, code := code, die := 2, unit := 15 } s
  { s with power := { s.power with hold := false, shutdown := true } }

/-- The switch-over: class C, the journal, EBB_N low, BACKUP; with EBB_REJECT = 1 every armed timer fires whatever verdict
comes (R339); HOLD = 0 ends the hold at once. -/
def switchOver (mv : Nat) (s : State) : State :=
  if s.onVbak then s else
  let fab := s.fabricOn
  let s := supply 7 mv true s
  let s := (raiseC { cls := 0, code := 0x11, die := 2, unit := 15 } s).journalPut 3 [BitVec.ofNat 32 mv]
  let s := { s with power := { s.power with before := s.pwrState, hold := fab, backupAt := s.now, ebbPin := false } }
  let s := setPwr 4 (s.setB aPwrStatus 24 true)
  let s := if s.bit aPressCtl 2 then
      each (List.range 64) s (fun s k => if (s.timer k).busy then s.modTimer k (fun x => { x with hot := true }) else s)
    else s
  if fab && decide (s.f aPwrEbb 0 8 = 0) then shutdown 0x11 s else s

/-- SUPPLY_SWITCH_OVER. -/
def execSupplySwitchOver (mv : BitVec 16) (s : State) : Host.Outcome State Fault Refusal :=
  when_ (decide (mv.toNat < 1620)) s (switchOver mv.toNat s)

/-- The SUPPLY_MON number and the threshold of VCORE, VSRAM, VIO. -/
def holdRail (r : Fin 3) : Nat × Nat := match r with | 0 => (0, 680) | 1 => (1, 740) | 2 => (5, 1620)

/-- EBB_HOLD_END: the hold ends on its time, an undervoltage, a trip, or a lost RAIL_PG (R365, R438). -/
def execEbbHoldEnd (why : EbbEnd) (s : State) : Host.Outcome State Fault Refusal :=
  if !s.power.hold then idle s else
  match why with
  | .timeout => done s (shutdown 0x11 s)
  | .undervoltage r mv => when_ (decide (mv.toNat < (holdRail r).2)) s (shutdown 0x11 (supply (holdRail r).1 mv.toNat true s))
  | .trip => when_ s.power.trip s (shutdown 0x11 s)
  | .railPg k => when_ (nbit s.power.railEn k.val) s (shutdown 0x11 s)

/-- RAIL_REMOVAL: the gate has released its filled slots or 20 µs have passed; the rails are removed (R366). -/
def execRailRemoval (s : State) : Host.Outcome State Fault Refusal :=
  when_ s.power.shutdown s (setPwr (if s.onVbak then 4 else 3) (fabricOff s))

/-- The return to VAON_MAIN: with the rails in place the state before; else KEEL, and a pipeline boot under AUTO_BOOT (R367). -/
def returnMain (s : State) : State :=
  let us := (s.now - s.power.backupAt) / 1000
  let removed := decide (s.power.before ≠ 3) && !s.fabricOn
  let s := ((s.setB aPwrStatus 24 false).setB aPwrStatus 21 true).setB (aSupplyMon 7) 31 false
  let s := s.journalPut 4 [BitVec.ofNat 32 us]
  let s := { s with power := { s.power with hold := false, ebbPin := true }, tray := { s.tray with in12 := true } }
  let s := setPwr (if removed then 3 else s.power.before) s
  if removed && s.bit aPwrCtl 8 then wake s else s

/-- RETURN_TO_MAIN. -/
def execReturnToMain (s : State) : Host.Outcome State Fault Refusal := when_ s.onVbak s (returnMain s)

/-- VBAK_LOW (R368). -/
def execVbakLow (mv : BitVec 16) (s : State) : Host.Outcome State Fault Refusal :=
  when_ (decide (mv.toNat < 3000)) s ((supply 8 mv.toNat true s).setB aPwrStatus 23 true)

/-- OFF, and what a cold reset leaves: the journal, fused keys, the firmware images in flash, the outside. -/
def coldState (s : State) : State :=
  { State.reset with
    pending := s.pending, journal := s.journal, tray := s.tray, hostMem := s.hostMem, outbox := s.outbox, free := s.free,
    test := { State.reset.test with noncePos := s.test.noncePos + 1 },
    power := { State.reset.power with fwA := s.power.fwA, fwB := s.power.fwB, rstHeld := s.power.rstHeld } }

/-- VBAK_EXHAUSTED: with VAON_MAIN absent the device reaches OFF (R368). -/
def execVbakExhausted (s : State) : Host.Outcome State Fault Refusal := when_ s.onVbak s (coldState s)

/-- RAIL_PG_LOSS: on VAON_MAIN, SUPPLY_EBB of class F and the steps of R366; in BACKUP the hold ends (R438). -/
def execRailPgLoss (k : Fin 4) (s : State) : Host.Outcome State Fault Refusal :=
  when_ (nbit s.power.railEn k.val && !s.power.shutdown && (!s.onVbak || s.power.hold)) s (shutdown 0x11 s)

/-- The level PRESS_BANK.VSEL selects, in mV. -/
def State.vpress (s : State) : Nat := match s.f aPressBank 0 2 with | 0 => 1800 | 1 => 2500 | _ => 3300

/-- VPRESS_UNDERVOLTAGE (R439). -/
def execVpressUndervoltage (mv : BitVec 16) (s : State) : Host.Outcome State Fault Refusal :=
  when_ (decide (10 * mv.toNat < 9 * s.vpress)) s (supply 6 mv.toNat true s)

/-! ### Boot -/

/-- Set BOOT_STATUS.STAGE and the step in progress. -/
def bootStage (n : Nat) (s : State) : State :=
  { s.setF aBootStatus 28 4 n with power := { s.power with boot := n } }

/-- The boot fails with a code: stage 10, the device is in KEEL (R384). -/
def bootFail (code : Nat) (s : State) : State :=
  setPwr (if s.onVbak then 4 else 3) (((fabricOff s).setF aBootStatus 28 4 10).setF aBootStatus 16 8 code)

/-- POR_RELEASE: a cold reset; the straps are sampled (R432); step 1 begins. -/
def execPorRelease (smb : BitVec 2) (s : State) : Host.Outcome State Fault Refusal :=
  let t := (coldState s).journalPut 2 [0]
  let t := ((t.setB aClkStatus 5 true).setB aClkStatus 4 true).setB aPwrStatus 25 false
  let t := bootStage 1 (setPwr 3 t)
  done s { t with power := { t.power with smb := smb.toNat, railEn := 0 } }

/-- FIRMWARE_VERIFIED: image A, else image B; neither: code 1 (R384). Step 2 begins unless RST_N is low (R441). -/
def execFirmwareVerified (okA okB : Bool) (fw : Word) (s : State) : Host.Outcome State Fault Refusal :=
  if s.power.boot ≠ 1 then idle s
  else if !okA && !okB then done s (bootFail 1 s)
  else
    let t := s.setB aBootStatus 8 (!okA)
    let t := { t with power := { t.power with fw := fw, boot := 2, fwA := if okA then (fw, true) else (s.power.fwA.1, false),
                                              fwB := if okA then s.power.fwB else (fw, true) } }
    done s (if s.power.rstHeld then t else bootStage 2 t)

/-- RST_N_RISE: step 2 begins (R441). -/
def execRstNRise (s : State) : Host.Outcome State Fault Refusal :=
  let t := { s with power := { s.power with rstHeld := false } }
  when_ s.power.rstHeld s (if s.power.boot = 2 then bootStage 2 t else t)

/-- Each empty key slot of 4 to 15 for which flash holds a key is loaded while LOCK = 0 (R385). -/
def flashKeys (s : State) : State :=
  if s.bit aKeystoreStatus 16 then s else
  each ((List.range 12).map (· + 4)) s (fun s k =>
    if tget 0 s.keys.slots k = 0 then
      (match Config.flashKey k with
       | some v => { s with keys := { s.keys with slots := tset 0 s.keys.slots k v } }
       | none => s)
    else s)

/-- KEEL_FIRMWARE_READY: step 2 ends: journal TYPE 0x06, keys; rails that are on already stay on. -/
def execKeelFirmwareReady (s : State) : Host.Outcome State Fault Refusal :=
  if !(decide (s.power.boot = 2) && !s.power.rstHeld) then idle s else
  let t := flashKeys (s.journalPut 6 [s.power.fw])
  done s (if s.fabricOn && decide (s.power.railEn = 15) then bootStage 4 t else bootStart t)

/-- RAIL_POWER_GOOD: the next enable is asserted; after RAIL_PG[3] the dies are powered and step 4 begins (R362). -/
def execRailPowerGood (k : Fin 4) (s : State) : Host.Outcome State Fault Refusal :=
  if !(decide (s.power.boot = 3) && decide (s.power.rail = k.val)) then idle s else
  if k.val = 3 then done s (bootStage 4 (s.setB aPwrStatus 25 true))
  else done s { s with power := { s.power with rail := k.val + 1, railEn := s.power.railEn + 2 ^ (k.val + 1) } }

/-- RAIL_PG_TIMEOUT: failure code 2 (R362). -/
def execRailPgTimeout (k : Fin 4) (s : State) : Host.Outcome State Fault Refusal :=
  when_ (decide (s.power.boot = 3) && decide (s.power.rail = k.val)) s (bootFail 2 s)

/-- CUR_N takes N (R374). -/
def pllApply (s : State) : State := s.setF aClkFcPll 16 6 (s.f aClkFcPll 0 6)

/-- PLL_LOCK: both PLLs lock with N in effect; step 5 begins (R374). -/
def execPllLock (s : State) : Host.Outcome State Fault Refusal :=
  when_ (decide (s.power.boot = 4)) s (bootStage 5 (pllApply ((s.setB aClkStatus 0 true).setB aClkStatus 1 true)))

/-- BOOT_SCRUB_COMPLETE: tile stores, sequencer memories and the basin hold zero with valid check bits (R88, R264, R383). -/
def execBootScrubComplete (s : State) : Host.Outcome State Fault Refusal :=
  when_ (decide (s.power.boot = 5)) s
    (bootStage 6 { s with tiles := s.tiles.map (fun p => (p.1, { p.2 with store := Ram.init })),
                          seqs := s.seqs.map (fun p => (p.1, { p.2 with mem := [], ecc := [] })),
                          mem := { s.mem with basin := Ram.init } })

/-- Step 8: an image flagged resident is installed into its slot under R299; LAYOUT_STATUS shows the last one's end. -/
def bootImage (s : State) (p : Fin 8 × PkgHeader × Bool × Sections) : State :=
  let (k, h, sig, secs) := p
  let s := s.setF aLayoutStatus 8 3 k.val
  if !sig then layFinish 1 s
  else
    let (r, q) := checkImage k.val h secs s
    if r ≠ 0 then layFinish r s else (layFinish 0 (placeImage k.val h q s)).setB aBootStatus k.val true

/-- DRAM_TRAINING_COMPLETE: every page untouched; then the boot policy: the job table from flash, the resident images. -/
def execDramTrainingComplete (pol : BootPolicy) (s : State) : Host.Outcome State Fault Refusal :=
  if s.power.boot ≠ 6 then idle s else
  let t := { s with mem := { s.mem with dram := Ram.init, touched := [], fills := [] } }.setB aMemDramStatus 0 true
  let t := each pol.jobTable t (fun t p => t.basinPut (t.partBase 2 + p.1) [p.2])
  let t := each pol.images t bootImage
  let t := (bootStage 9 t)
  let t := { t with power := { t.power with boot := 0, before := 0 } }
  done s (if s.onVbak then t else setPwr 0 t)

/-! ### Power states (R371 to R373) -/

/-- The conditions of R371. -/
def State.mayRest (s : State) : Bool :=
  s.streams.all (fun p => s.st p.1 == 0) && (List.range 32).all (fun c => !s.chEn c) && !s.bit aLayoutStatus 31
  && (List.range 25).all (fun g => decide (s.phase g ≠ 2 ∧ s.phase g ≠ 3 ∧ s.phase g ≠ 4)) && !s.onVbak

/-- A write of TARGET = 1 or 2: accepted under R371, else REFUSED. -/
def restRequest (k : Nat) (s : State) : State :=
  if s.mayRest then { s.setF aPwrCtl 0 4 k with power := { s.power with target := some k } } else s.setB aPwrStatus 22 true

/-- PWR_TARGET_DOZE. -/
def execPwrTargetDoze (s : State) : Host.Outcome State Fault Refusal := done s (restRequest 1 s)
/-- PWR_TARGET_KEEL. -/
def execPwrTargetKeel (s : State) : Host.Outcome State Fault Refusal := done s (restRequest 2 s)

/-- The wake from DOZE begins (R372). -/
def dozeWake (s : State) : State := if s.pwrState = 2 then { s with power := { s.power with waking := true } } else s

/-- A write of TARGET = RUN: a request not yet completed is withdrawn, DOZE ends (R372). -/
def runRequest (s : State) : State :=
  let s := s.setF aPwrCtl 0 4 0
  dozeWake { s with power := { s.power with target := none } }

/-- PWR_TARGET_RUN. -/
def execPwrTargetRun (s : State) : Host.Outcome State Fault Refusal := done s (runRequest s)

/-- POWER_STATE_REACHED: DOZE keeps everything with the PLLs off; KEEL loses the pipeline and shoreline dies. -/
def execPowerStateReached (s : State) : Host.Outcome State Fault Refusal :=
  match s.power.target with
  | none => idle s
  | some k =>
    let t := { s with power := { s.power with target := none } }
    if k = 1 then done s (setPwr 2 ((t.setB aClkStatus 0 false).setB aClkStatus 1 false))
    else done s (setPwr 3 (fabricOff t))

/-- WAKE_PIN. -/
def execWakePin (s : State) : Host.Outcome State Fault Refusal := when_ (s.bit aPwrWake 0) s (wake s)
/-- SMBUS_WAKE. -/
def execSmbusWake (s : State) : Host.Outcome State Fault Refusal := when_ (s.bit aPwrWake 1) s (wake s)
/-- RTC_ALARM: RTC_SEC reaches RTC_ALARM. -/
def execRtcAlarm (s : State) : Host.Outcome State Fault Refusal :=
  let t := s.wr aRtcSec (s.rd aRtcAlarm)
  done s (if s.bit aPwrWake 2 then wake t else t)

/-- Region g is idle (R369). -/
def State.regionIdle (s : State) (g : Nat) : Bool :=
  let none_ := fun {α : Type} (t : Tab (List α)) => t.all (fun p => p.2.isEmpty)
  (tilesOf g).all (fun t =>
    let x := s.tile t
    none_ x.iq && none_ x.oq && none_ x.cq && x.replay.isNone && x.pendStart.isNone && x.wins.isEmpty && x.halos.isEmpty
    && x.disp.empty)
  && s.fabric.lanes.all (fun p => regionOf (p.1 / 64) != g || p.2.isEmpty)
  && s.under.all (fun p => !(s.groupRegions p.1).contains g || p.2.rings.all (fun r => r.2.2.isEmpty))
  && ((s.seq g).wait == 3 || (s.seq g).wait == 4)

/-- REGION_ARMED_ENTRY: IDLE rc have passed with the region idle and its clock running (R369). -/
def execRegionArmedEntry (g : RegionIx) (s : State) : Host.Outcome State Fault Refusal :=
  let g := g.val
  when_ (s.live g && decide (s.f (aRegionPwr g) 0 24 ≠ 0) && s.regionIdle g) s (s.setF (aRegionPwr g) 24 2 1)

/-! ### Clocks and time (R375, R377) -/

/-- REFCLK_LOSS: the fabric and memory PLLs lose lock; SUPPLY_EBB of class F and the steps of R366; a boot that waits for the
PLLs fails with code 3. -/
def execRefclkLoss (s : State) : Host.Outcome State Fault Refusal :=
  if s.power.refLost then idle s else
  let t := ((s.setB aClkStatus 5 false).setB aClkStatus 0 false).setB aClkStatus 1 false
  let t := { t with power := { t.power with refLost := true } }
  done s (if s.power.boot = 4 then bootFail 3 t else if s.fabricOn && !s.power.shutdown then shutdown 0x11 t else t)

/-- HK_FALLBACK. -/
def execHkFallback (s : State) : Host.Outcome State Fault Refusal :=
  when_ s.power.refLost s ((s.setB aClkStatus 3 true).setB aClkStatus 8 true)

/-- HK_RESTORE: REFCLK has been stable for 1 ms. -/
def execHkRestore (s : State) : Host.Outcome State Fault Refusal :=
  when_ s.power.refLost s
    { (s.setB aClkStatus 3 false).setB aClkStatus 5 true with power := { s.power with refLost := false } }

/-- KTIME_STEP: the signed value is added as one change (R377). -/
def ktimeAdd (v : Word) (s : State) : State := { s with time := { s.time with ktime := s.time.ktime + v.signExtend 64 } }

/-- KTIME_STEP. -/
def execKtimeStep (v : Word) (s : State) : Host.Outcome State Fault Refusal := done s (ktimeAdd v s)

/-! ### Thermal sensing (R378 to R380) -/

/-- A sensor's reading, in 0.25 °C. -/
def State.temp (s : State) (i : Nat) : Int := sgn 10 (s.f (aThermTemp i) 0 10)

/-- THERM_STATUS.MAX and SENSOR: the highest reading, its lowest-numbered sensor; and since when every reading lies below
WARN. -/
def thermMax (s : State) : State :=
  let k := (List.range 27).foldl (fun b i => if s.temp b < s.temp i then i else b) 0
  let s := (s.setF aThermStatus 24 8 (pat 8 (s.temp k / 4))).setF aThermStatus 16 5 k
  let cool := decide (s.temp k < 4 * (s.f aThermCfg 0 8 : Int))
  { s with power := { s.power with
      coolAt := if cool then (match s.power.coolAt with | some h => some h | none => some s.time.hk) else none } }

/-- The reading of a sensor is updated; during a calibration it holds its last value. -/
def sense (i : Nat) (v : BitVec 10) (s : State) : State :=
  if s.bit aThermStatus 10 then s else thermMax (s.setF (aThermTemp i) 0 10 v.toNat)

/-- A reading meets the thresholds: WARN; THROTTLE for a pipeline sensor with THROTTLE_EN = 1; 115 °C for any but the keel's,
where the comparators stay live during a calibration. -/
def thermMeet (i : Nat) (v : BitVec 10) (s : State) : State :=
  let t := sgn 10 v.toNat
  let s := sense i v s
  let live := !s.bit aThermStatus 10
  let s := if live && decide (4 * (s.f aThermCfg 0 8 : Int) ≤ t) then s.setB aThermStatus 8 true else s
  let s := if live && decide (i < 25 ∧ 4 * (s.f aThermCfg 8 8 : Int) ≤ t) && s.bit aThermCfg 31 then s.setB aThermStatus 9 true else s
  if i < 26 ∧ 460 ≤ t ∧ !s.power.shutdown then
    let s := s.setB aPwrStatus 20 true
    let s := { s with power := { s.power with trip := true, coolAt := none } }
    if s.fabricOn then shutdown 0x12 s else s
  else s

/-- THERMAL_WARN. -/
def execThermalWarn (sensor : Fin 27) (temp : BitVec 10) (s : State) : Host.Outcome State Fault Refusal :=
  done s (thermMeet sensor.val temp s)
/-- THERMAL_THROTTLE. -/
def execThermalThrottle (sensor : Fin 27) (temp : BitVec 10) (s : State) : Host.Outcome State Fault Refusal :=
  done s (thermMeet sensor.val temp s)
/-- THERMAL_TRIP. -/
def execThermalTrip (sensor : Fin 27) (temp : BitVec 10) (s : State) : Host.Outcome State Fault Refusal :=
  done s (thermMeet sensor.val temp s)

/-- THROTTLE_END: the 25 pipeline readings; all below THROTTLE end the throttling (R379). -/
def execThrottleEnd (cool : List (BitVec 10)) (s : State) : Host.Outcome State Fault Refusal :=
  if cool.length ≠ 25 then .refused (.illFormed "THROTTLE_END") else
  let t := each cool.zipIdx s (fun s p => thermMeet p.2 p.1 s)
  let below := cool.all (fun v => decide (sgn 10 v.toNat < 4 * (s.f aThermCfg 8 8 : Int)))
  done s (if below then t.setB aThermStatus 9 false else t)

/-- THERMAL_CALIBRATION: CAL rises as a calibration starts and falls as it ends; readings hold meanwhile. -/
def execThermalCalibration (s : State) : Host.Outcome State Fault Refusal :=
  done s (s.setB aThermStatus 10 (!s.bit aThermStatus 10))

/-! ### Resets -/

/-- The keel runs new firmware that the BMC wrote for this package, if it verifies (R420). -/
def firmwareRestart (s : State) : State :=
  match s.tray.pend.find? (fun p => p.1 == s.power.smb) with
  | none => s
  | some (d, im) =>
    let useB := !s.bit aBootStatus 8
    let s := { s with tray := { s.tray with pend := s.tray.pend.filter (fun p => p.1 != d) } }
    let s := { s with power := if useB then { s.power with fwB := (im.version, im.valid) } else { s.power with fwA := (im.version, im.valid) } }
    if im.valid then { s.setB aBootStatus 8 useB with power := { s.power with fw := im.version } } else s

/-- A warm reset (16, Resets; R338, R361, R381, R396, R429): in BACKUP with the rails removed it restarts only the firmware
(R382), clears the counters (R386) and locks debug (R396); else steps 2 to 8 of the boot follow. `held`: RST_N is still low. -/
def warmReset (held : Bool) (s : State) : State :=
  let s := firmwareRestart (s.journalPut 2 [1])
  let s := { s.setB aDbgLock 0 true with counters := [], latches := [] }
  if s.onVbak && !s.fabricOn then s
  else
    let s := dieReset keepWarm s
    let s := { (s.setB aClkStatus 0 false).setB aClkStatus 1 false with test := { State.reset.test with noncePos := s.test.noncePos } }
    let s := ((s.setF aBootStatus 16 8 0).setF aBootStatus 0 8 0)
    let s := if s.onVbak || !s.fabricOn then s else setPwr 0 s
    if held then { s with power := { s.power with boot := 2, rstHeld := true } } else bootStage 2 s

/-- WARM_RESET: GLOBAL_RESET.WARM (R429). -/
def execWarmReset (s : State) : Host.Outcome State Fault Refusal := done s (warmReset false s)

/-- WARM_RESET_PIN: RST_N is low; before POR is released it only holds the boot (R441). -/
def execWarmResetPin (s : State) : Host.Outcome State Fault Refusal :=
  if s.f aBootStatus 28 4 = 0 ∨ s.power.boot = 1 then done s { s with power := { s.power with rstHeld := true } }
  else done s (warmReset true s)

/-- PERST_N (R442). -/
def execPerstN (s : State) : Host.Outcome State Fault Refusal := done s (pcieDown s)

/-- Set-reset of the whole fabric. -/
def gsrAll (s : State) : State :=
  { s with
    tiles := s.tiles.map (fun p => (p.1, { p.2.gsrClear with gsr := false, halted := false, dhalt := false, step := false, shadowValid := false })),
    seqs := s.seqs.map (fun p => (p.1, { Seq.init with mem := p.2.mem, ecc := p.2.ecc, rc := p.2.rc, recTimes := p.2.recTimes })),
    fabric := State.reset.fabric, under := [],
    edges := s.edges.map (fun p => (p.1, { EdgePort.init with inq := [] })) }

/-- The fabric column of the reset table: no layout ACTIVE, planes invalid, region clocks off, tidemarks at their layout
values (R259). -/
def fabricColumn (s : State) : State :=
  let s := gsrAll s
  let s := { s with
    active := s.active.filter (fun p => decide (p.1 < 0x200000) || decide (0x390000 ≤ p.1)),
    images := s.images.map (fun p => (p.1, { p.2 with active := 0, staged := false })),
    tms := s.tms.map (fun p => (p.1, { p.2.restore with waits := [] })),
    tmq := [], granted := [], replies := [], uses := [], staging := [], loads := [] }
  each (List.range 25) s (fun s g => (s.setF (aRegionClk g) 16 4 0).setF (aRegionFstatus g) 28 4 0)

/-- FABRIC_RESET (R428): every stream not STOPPED passes its drain point with ABORT; recoveries and layout operations are
abandoned. -/
def fabricReset (s : State) : State :=
  if s.bit aGlobalStatus 27 then reject none aGlobalReset s
  else
    let s := s.setB aGlobalStatus 27 true
    let s := each (s.streams.map (·.1)) s (fun s n =>
      if s.st n = 0 then s
      else if s.st n = 3 then (abortFill n s).modStream n (fun x => { x with drainKind := some .abort })
      else drainPoint .abort n s)
    let s := if s.bit aLayoutStatus 31 then (layFinish 0 s).setF aLayoutStatus 29 3 1 else s
    (fabricColumn s).journalPut 2 [2]

/-- FABRIC_RESET. -/
def execFabricReset (s : State) : Host.Outcome State Fault Refusal := done s (fabricReset s)

/-- FABRIC_RESET_COMPLETE: once the gate has released every slot, every stream is STOPPED with DRAINED = 1 (R355), FATAL and
RESET_BUSY read 0, N takes effect (R374). -/
def execFabricResetComplete (s : State) : Host.Outcome State Fault Refusal :=
  if !(s.bit aGlobalStatus 27 && s.streams.all (fun p => s.st p.1 == 0 || p.2.admitted.isEmpty)) then idle s else
  let t := each (s.streams.map (·.1)) s (fun t n => if t.st n = 0 then t else drainEnd n t)
  let t := each (List.range 256) t (fun t n => t.setB (aStreamStatus n) 5 true)
  done s (pllApply ((t.setB aGlobalStatus 28 false).setB aGlobalStatus 27 false))

/-- A region reset (R381): refused while a running or draining stream's layout occupies the region; else GSR, the sequencer
at its restart, the requesters' waits and phase records discarded (R259). A halted region is released unless the device is. -/
def regionReset (g : Nat) (s : State) : State :=
  if !(s.streamsIn g).isEmpty then s.setB (aRegionPwr g) 26 true
  else
    let s := tmRegionReset g (spillDrop g (gsrRegion g s))
    let s := seqStart g true s
    let s := if s.bit aGlobalStatus 28 then s.modSeq g (fun q => { q with halted := true })
      else (each (tilesOf g) s (fun s t => s.modTile t (fun x => { x with halted := false, gsr := false }))).setF (aRegionFstatus g) 28 4 0
    s.journalPut 2 [BitVec.ofNat 32 (3 + g * 256)]

/-- REGION_RESET. -/
def execRegionReset (g : RegionIx) (s : State) : Host.Outcome State Fault Refusal :=
  hostRow .pf (aRegionPwr g.val) (s.rd (aRegionPwr g.val) ||| 0x80000000#32).toNat s (regionReset g.val s)

/-! ### Key store (R385) -/

/-- LOAD: the 64 bytes at BASE, x then y, each big-endian; a point not on the curve leaves the slot empty. -/
def keyLoad (k base : Nat) (s : State) : State :=
  let (g, s) := s.basinRead (base * 4096) 64
  let v : BitVec 512 := BitVec.ofNat 512 (ofBytes g.bytes.reverse)
  let ok := decide (v ≠ 0) && Config.onCurve v
  let s := { s with keys := { s.keys with slots := tset 0 s.keys.slots k (if ok then v else 0) } }
  if ok then s else s.setB aKeystoreStatus 17 true

/-- A write of v to KEYSTORE_CTL: SLOT 0 to 3 is reserved; while LOCK = 1, LOAD and CLEAR are ignored; LOAD and CLEAR together
clear and then load. -/
def keystoreSet (v : Word) (s : State) : State :=
  let n := v.toNat
  let k := nbits n 16 4
  if k < 4 then reject none aKeystoreCtl s
  else
    let s := (s.setF aKeystoreCtl 16 4 k).setF aKeystoreCtl 0 14 (nbits n 0 14)
    let locked := s.bit aKeystoreStatus 16
    let s := if nbit n 29 && !locked then { s with keys := { s.keys with slots := tset 0 s.keys.slots k 0 } } else s
    let s := if nbit n 30 && !locked then keyLoad k (nbits n 0 14) s else s
    if nbit n 31 then s.setB aKeystoreStatus 16 true else s

/-- KEYSTORE_LOAD: a write with LOAD = 1. -/
def execKeystoreLoad (v : Word) (s : State) : Host.Outcome State Fault Refusal := done s (keystoreSet (v ||| 0x40000000#32) s)
/-- KEYSTORE_CLEAR: a write with CLEAR = 1. -/
def execKeystoreClear (v : Word) (s : State) : Host.Outcome State Fault Refusal := done s (keystoreSet (v ||| 0x20000000#32) s)
/-- KEYSTORE_LOCK: a write with LOCK = 1. -/
def execKeystoreLock (v : Word) (s : State) : Host.Outcome State Fault Refusal := done s (keystoreSet (v ||| 0x80000000#32) s)

end Sys2Proof.Machine
end

