-- ==== Sys2Proof/Machine/Observe.lean ====
section
/-! DEFINITION. Counters' control, telemetry, scan-out, debug and its lock, self-test, loop-backs, the TAP (17). -/
namespace Sys2Proof.Machine

/-- DBG_LOCK.LOCKED: writes to the DEBUG block other than DBG_LOCK and DBG_RESP, and to the debug ranges of tile and
sequencer pages, are ignored (R396). -/
def State.dbgLocked (s : State) : Bool := s.bit aDbgLock 0

/-! ### Counters (R386, R388) -/

/-- OBS_CTL.CLR: every counter and every high-word latch. -/
def obsClear (s : State) : State := { s with counters := [], latches := [] }

/-- OBS_CLR. -/
def execObsClr (s : State) : Host.Outcome State Fault Refusal :=
  hostRow .pf aObsCtl (s.rd aObsCtl ||| 2#32).toNat s (if s.dbgLocked then s else obsClear s)
/-- OBS_FREEZE. -/
def execObsFreeze (s : State) : Host.Outcome State Fault Refusal :=
  hostRow .pf aObsCtl 1 s (if s.dbgLocked then s else s.setB aObsCtl 0 true)
/-- OBS_UNFREEZE. -/
def execObsUnfreeze (s : State) : Host.Outcome State Fault Refusal :=
  hostRow .pf aObsCtl 0 s (if s.dbgLocked then s else s.setB aObsCtl 0 false)

/-! ### Telemetry (R393) -/

/-- The counters of TELEM_CTL.SET: first and last. -/
def telemSet (k : Nat) : Nat × Nat := match k with | 0 => (0, 19) | 1 => (40, 87) | 2 => (88, 107) | _ => (0, 108)

/-- A tile's sample: STAMP, REGION, TILE, the sample number, then the counters (notes/assumptions/41.md). -/
def telemBytes (s : State) (t : Nat) : List Byte :=
  let (a, b) := telemSet (s.f aTelemCtl 24 2)
  toBytes 8 s.now ++ toBytes 2 0 ++ toBytes 1 (regionOf t) ++ toBytes 1 0 ++ toBytes 2 t ++ toBytes 2 0 ++ toBytes 4 s.test.sampleNo
    ++ toBytes 12 0 ++ (List.range (b + 1 - a)).flatMap (fun i => toBytes 8 (s.cnt (cTile t (a + i))).toNat)

/-- Bytes enter the telemetry ring, which wraps. -/
def telemStore (bs : List Byte) (s : State) : State :=
  let cap := s.f aTelemRing 16 14 * 4096
  if cap = 0 then s else
  let base := s.f aTelemRing 0 14 * 4096
  let at_ := s.test.telemAt % cap
  let k := cap - at_
  let s := (s.basinPut (base + at_) (bs.take k)).basinPut base (bs.drop k)
  { s with test := { s.test with telemAt := (at_ + bs.length) % cap } }

/-- TELEMETRY_SAMPLE: every tile of REGIONS; skipped while a scan of one of them occupies the management slot. -/
def execTelemetrySample (s : State) : Host.Outcome State Fault Refusal :=
  let gs := (List.range 25).filter (fun g => s.bit aTelemFilt g)
  if !(s.bit aTelemCtl 31 && decide (s.f aTelemCtl 0 16 ≠ 0)) then idle s
  else if gs.any (fun g => s.scanShift g) then done s (s.count cTelemSkipped 1)
  else
    let t := each (gs.flatMap tilesOf) s (fun t k => telemStore (telemBytes s k) t)
    done s { t with test := { t.test with sampleNo := t.test.sampleNo + 1 } }

/-! ### Scan-out and debug halts (R394, R395) -/

/-- A host scan-out of region g may run: halted, or all 16 tiles and the sequencer in debug halt. -/
def State.scanMay (s : State) (g : Nat) : Bool :=
  (s.seq g).halted || ((s.seq g).dhalt && (tilesOf g).all (fun t => (s.tile t).dhalt))

/-- A write to SCAN_CTL with GO: the image goes to the scan area if it holds it. -/
def scanOut (g : Nat) (s : State) : State :=
  if s.dbgLocked then s
  else if !s.scanMay g then reject none aScanCtl s
  else
    let s := s.setF aScanCtl 0 5 g
    if scanRoom s g then scanRegion g s else s

/-- SCAN_OUT. -/
def execScanOut (g : RegionIx) (s : State) : Host.Outcome State Fault Refusal :=
  hostRow .pf aScanCtl (2 ^ 31 + g.val) s (scanOut g.val s)

/-- TILE_DBG_CTL.HALT = b: debug halt begins or ends. -/
def tileHalt (t : Nat) (b : Bool) (s : State) : State := (s.setB (aTileDbgCtl t) 31 b).modTile t (fun x => { x with dhalt := b })
/-- TILE_DBG_CTL.STEP: a halted tile may issue one word. -/
def tileStep (t : Nat) (s : State) : State := s.modTile t (fun x => { x with step := x.dhalt })
/-- SEQ_DBG_CTL.HALT = b. -/
def seqHalt (g : Nat) (b : Bool) (s : State) : State := (s.setB (aSeqDbgCtl g) 31 b).modSeq g (fun x => { x with dhalt := b })
/-- SEQ_DBG_CTL.STEP. -/
def seqStep (g : Nat) (s : State) : State := s.modSeq g (fun x => { x with step := x.dhalt })

/-- TILE_DEBUG_HALT. -/
def execTileDebugHalt (t : TileIx) (s : State) : Host.Outcome State Fault Refusal :=
  hostRow .pf (aTileDbgCtl t.val) (s.rd (aTileDbgCtl t.val) ||| 0x80000000#32).toNat s (if s.dbgLocked then s else tileHalt t.val true s)
/-- TILE_DEBUG_STEP. -/
def execTileDebugStep (t : TileIx) (s : State) : Host.Outcome State Fault Refusal :=
  hostRow .pf (aTileDbgCtl t.val) (s.rd (aTileDbgCtl t.val) ||| 0x40000000#32).toNat s (if s.dbgLocked then s else tileStep t.val s)
/-- SEQ_DEBUG_HALT. -/
def execSeqDebugHalt (g : RegionIx) (s : State) : Host.Outcome State Fault Refusal :=
  hostRow .pf (aSeqDbgCtl g.val) (s.rd (aSeqDbgCtl g.val) ||| 0x80000000#32).toNat s (if s.dbgLocked then s else seqHalt g.val true s)
/-- SEQ_DEBUG_STEP. -/
def execSeqDebugStep (g : RegionIx) (s : State) : Host.Outcome State Fault Refusal :=
  hostRow .pf (aSeqDbgCtl g.val) (s.rd (aSeqDbgCtl g.val) ||| 0x40000000#32).toNat s (if s.dbgLocked then s else seqStep g.val s)

/-! ### The debug lock (R397) -/

/-- DBG_CHAL. -/
def State.chal (s : State) : BitVec 64 := Config.nonce s.test.noncePos

/-- The signature in DBG_RESP: r then s, big-endian. -/
def State.resp (s : State) : BitVec 512 :=
  BitVec.ofNat 512 ((List.range 16).foldl (fun a i => a * 2 ^ 32 + (s.rd (aDbgResp i)).toNat) 0)

/-- UNLOCK: a valid signature of the nonce under the key of KEY_SLOT clears LOCKED; a failure counts and draws a new nonce;
after 8 failures nothing unlocks until a cold reset. -/
def dbgUnlock (s : State) : State :=
  let fails := s.f aDbgLock 8 4
  if 8 ≤ fails then s else
  let ok := match s.key (s.f aDbgLock 16 4) with
    | some k => Config.ecdsaValid k (toBytes 8 s.chal.toNat) s.resp
    | none => false
  if ok then s.setB aDbgLock 0 false
  else
    let s := s.setF aDbgLock 8 4 (fails + 1)
    { s with test := { s.test with noncePos := s.test.noncePos + 1 } }

/-- DEBUG_UNLOCK. -/
def execDebugUnlock (s : State) : Host.Outcome State Fault Refusal :=
  hostRow .pf aDbgLock (s.rd aDbgLock ||| 0x80000000#32).toNat s (dbgUnlock s)
/-- DEBUG_RELOCK. -/
def execDebugRelock (s : State) : Host.Outcome State Fault Refusal :=
  hostRow .pf aDbgLock (s.rd aDbgLock ||| 0x40000000#32).toNat s (s.setB aDbgLock 0 true)

/-! ### Memory self-test (R399, R400) -/

/-- A write to BIST_CTL with GO. -/
def bistStart (n : Nat) (s : State) : State :=
  if s.dbgLocked then s
  else if !(s.mayRest && s.images.all (fun p => p.2.active == 0)) then reject none aBistCtl s
  else if s.test.bist.isSome then s
  else { (s.setF aBistCtl 0 3 n).setB aBistCtl 31 true with test := { s.test with bist := some n } }

/-- BIST_START. -/
def execBistStart (targets : BitVec 3) (s : State) : Host.Outcome State Fault Refusal :=
  hostRow .pf aBistCtl (2 ^ 31 + targets.toNat) s (bistStart targets.toNat s)

/-- The tested memories read zero; a basin test empties the image store and the job table. -/
def bistClear (n : Nat) (s : State) : State :=
  let tilePlane := fun (p : Nat × Word) =>
    decide (0x200000 ≤ p.1 ∧ p.1 < 0x390000 ∧ 0x4000 ≤ p.1 % 0x10000 ∧ 0x100 ≤ (p.1 - 0x4000) % 0x10000 % 0xC00 ∧ (p.1 - 0x4000) % 0x10000 % 0xC00 < 0x400)
  let s := if nbit n 0 then
      { s with tiles := [], regs := s.regs.filter (fun p => !tilePlane p), active := s.active.filter (fun p => !tilePlane p),
               fabric := { s.fabric with wires := [], holds := [], lanes := [], laneUsed := [] } }
    else s
  let s := if nbit n 1 then { s with seqs := s.seqs.map (fun p => (p.1, { p.2 with mem := [], ecc := [] })) } else s
  if nbit n 2 then
    { s with mem := { s.mem with basin := Ram.init }, images := [], staging := [], tms := s.tms.filter (fun p => p.1 < 8184) }
  else s

/-- BIST_COMPLETE: a bit per failing region and per failing bank; a failing region keeps its clock off. -/
def execBistComplete (regions : BitVec 25) (banks : BitVec 16) (s : State) : Host.Outcome State Fault Refusal :=
  match s.test.bist with
  | none => idle s
  | some n =>
    let t := ((bistClear n s).setB aBistCtl 31 false).setF aBistStatus 0 25 regions.toNat
    done s { t.setF aBistBasin 0 16 banks.toNat with test := { t.test with bist := none, failing := regions.toNat } }

/-! ### Fabric loop-backs (R401) -/

/-- Some tile of region g runs a loop-back. -/
def State.looping (s : State) (g : Nat) : Bool := (tilesOf g).any (fun t => s.bit (aTileDbgLoop t) 31)

/-- A write to TILE_DBG_LOOP: EN = 1 needs a DEPTH, an unoccupied region, and at depth 2 an unoccupied neighbour; the region
clock runs at ÷1 meanwhile. A circuit without fault has no mismatch, so LOOP_ERR stays. -/
def loopSet (t : Nat) (en : Bool) (dir depth : Nat) (s : State) : State :=
  let g := regionOf t
  let used := fun (g : Nat) => !(s.streamsIn g).isEmpty
  let bad := en && (decide (depth = 0) || used g
    || (decide (depth = 2) && (match neighbour t dir with | some n => used (regionOf n) | none => true))
    || (decide (depth = 3) && (edgeAt t dir).isNone))
  if s.dbgLocked then s
  else if bad then reject none (aTileDbgLoop t) s
  else
    let s := if en && !s.looping g then
        (s.modSeq g (fun q => { q with savedDiv := s.f (aRegionClk g) 16 4 })).setF (aRegionClk g) 16 4 1
      else s
    let was := s.looping g
    let s := ((s.setB (aTileDbgLoop t) 31 en).setF (aTileDbgLoop t) 2 2 dir).setF (aTileDbgLoop t) 0 2 depth
    if was && !s.looping g then s.setF (aRegionClk g) 16 4 (s.seq g).savedDiv else s

/-- FABRIC_LOOPBACK: a write with EN = 1. -/
def execFabricLoopback (t : TileIx) (dir depth : BitVec 2) (s : State) : Host.Outcome State Fault Refusal :=
  hostRow .pf (aTileDbgLoop t.val) (2 ^ 31 + dir.toNat * 4 + depth.toNat) s (loopSet t.val true dir.toNat depth.toNat s)

/-! ### Pads and the TAP (R402 to R404) -/

/-- The level of press pad p: an input's level; an output as driven, low by its pull-down while its driver is off (R340). -/
def State.pad (s : State) (p : Nat) : Bool :=
  if p < 28 then s.pin p
  else if s.test.drive then s.test.latch.getLsbD p
  else if s.test.tap = 5 then false
  else if !s.pressOn then false
  else s.actActive (p - 28) != s.bit (aActCfg (p - 28)) 0

/-- The boundary cells of the press bank. -/
def State.cells (s : State) : BitVec 44 :=
  BitVec.ofNat 44 ((List.range 44).map (fun p => b2n (s.pad p) * 2 ^ p) |>.foldl (· + ·) 0)

/-- Load a TAP instruction (0 BYPASS, 1 IDCODE, 2 SAMPLE/PRELOAD, 3 EXTEST, 4 CLAMP, 5 HIGHZ, 6 EXTEST_PULSE,
7 EXTEST_TRAIN). -/
def tapLoad (k : Nat) (drive : Bool) (s : State) : State := { s with test := { s.test with tap := k, drive := drive } }

/-- BYPASS: one bit, captured as zero. -/
def tapBypass (s : State) : State := (tapLoad 0 false s).emit (.tdo 0)

/-- An instruction of the EXTEST kind: locked debug makes it BYPASS (R396), every rail must be powered (R403); the latch drives
the press bank only while PRESS_CTL.EN = 0 (R404). TDO carries the levels captured. -/
def tapTest (k : Nat) (s : State) : State :=
  if s.dbgLocked || !(s.fabricOn && decide (s.power.railEn = 15)) then tapBypass s
  else (tapLoad k (!s.pressOn) s).emit (.tdo s.cells)

/-- TAP_BYPASS. -/
def execTapBypass (s : State) : Host.Outcome State Fault Refusal := done s (tapBypass s)
/-- TAP_IDCODE. -/
def execTapIdcode (s : State) : Host.Outcome State Fault Refusal := done s ((tapLoad 1 false s).emit (.tdo 0x14020A5F#44))
/-- TAP_SAMPLE_PRELOAD: the levels go out, the latch takes what comes in. -/
def execTapSamplePreload (load : BitVec 44) (s : State) : Host.Outcome State Fault Refusal :=
  let t := (tapLoad 2 false s).emit (.tdo s.cells)
  done s { t with test := { t.test with latch := load } }
/-- TAP_EXTEST. -/
def execTapExtest (s : State) : Host.Outcome State Fault Refusal := done s (tapTest 3 s)
/-- TAP_CLAMP: the latch drives, the bypass bit is read. -/
def execTapClamp (s : State) : Host.Outcome State Fault Refusal :=
  done s (if s.dbgLocked then tapBypass s else (tapLoad 4 (!s.pressOn) s).emit (.tdo 0))
/-- TAP_HIGHZ: no output is driven while PRESS_CTL.EN = 0; the bypass bit is read. -/
def execTapHighz (s : State) : Host.Outcome State Fault Refusal :=
  done s (if s.dbgLocked then tapBypass s else (tapLoad (if s.pressOn then 0 else 5) false s).emit (.tdo 0))
/-- TAP_EXTEST_PULSE. -/
def execTapExtestPulse (s : State) : Host.Outcome State Fault Refusal := done s (tapTest 6 s)
/-- TAP_EXTEST_TRAIN. -/
def execTapExtestTrain (s : State) : Host.Outcome State Fault Refusal := done s (tapTest 7 s)

end Sys2Proof.Machine
end

