-- ==== Sys2Proof/Machine/Tray.lean ====
section
/-! DEFINITION. The Bolila T4 tray (19): its BMC registers and what the BMC does. This device is package D(SMB_ADDR). -/
namespace Sys2Proof.Machine

/-- The reset value of BMC register k. -/
def trayReset (k : Nat) : Word :=
  match k with
  | 0 => Config.trayId
  | 1 => BitVec.ofNat 32 (2 ^ 28 + 2 ^ 25 + Config.trayPresent.toNat * 2 ^ 16)
  | _ => 0

/-- BMC register k (0 TRAY_ID, 1 TRAY_STATUS, 2 TRAY_CTL, 3 TRAY_PRESS, 4 TRAY_BAK). -/
def State.trayRd (s : State) (k : Nat) : Word := tget (trayReset k) s.tray.regs k
/-- Set a field of BMC register k. -/
def traySet (k lo len v : Nat) (s : State) : State :=
  { s with tray := { s.tray with regs := tset (trayReset k) s.tray.regs k (BitVec.ofNat 32 (nput (s.trayRd k).toNat lo len v)) } }

/-- PWR_STATUS and BOOT_STATUS bits the BMC looks at. -/
def pkgOn (p : PackageStatus) : Bool := p.present && nbit p.pwr.toNat 25
def pkgFails (p : PackageStatus) : Bool := p.present && (nbit p.pwr.toNat 20 || decide (nbits p.boot.toNat 28 4 = 10))

/-- TRAY_STATUS.STATE of the readings (R421): BACKUP without 12 V, RUN with a fabric on, STANDBY with every package in KEEL. -/
def trayState (in12 : Bool) (ps : List PackageStatus) (old : Nat) : Nat :=
  if !in12 then 2
  else if ps.any (fun p => pkgOn p) then 0
  else if ps.all (fun p => !p.present || decide (nbits p.pwr.toNat 28 4 = 3)) then 1
  else old

/-- Bits of a list of flags. -/
def flagBits (bs : List Bool) : Nat := (bs.zipIdx.map (fun p => b2n p.1 * 2 ^ p.2)).foldl (· + ·) 0

/-- LINKS_UP as this package sees its own links: ring link d from link 0, ring link d − 1 from link 1, its chord from link 2. -/
def linksUp (s : State) (s1 : State) : State :=
  let d := s.power.smb
  let up := fun (l : Nat) => b2n (s.bit (aCwyLinkStatus l) 0)
  traySet 1 (4 + d % 2) 1 (up 2) (traySet 1 ((d + 3) % 4) 1 (up 1) (traySet 1 d 1 (up 0) s1))

/-- BMC_POLL: the BMC reads every keel; this package's own reading is its registers. -/
def execBmcPoll (ps : List PackageStatus) (s : State) : Host.Outcome State Fault Refusal :=
  if ps.length ≠ 4 then .refused (.illFormed "BMC_POLL") else
  let ps := ps.set s.power.smb ⟨true, s.rd aPwrStatus, s.rd aBootStatus⟩
  let bank := nbit (s.trayRd 1).toNat 24
  let fell := fun (d : Nat) => s.tray.in12 && ((s.tray.last[d]?.map (fun p => pkgOn p)).getD false)
    && !((ps[d]?.map (fun p => pkgOn p)).getD false)
  let bad := (List.range 4).map (fun d => fell d || ((ps[d]?.map (fun p => pkgFails p)).getD false) || bank)
  let old := (s.trayRd 1).toNat
  let t := traySet 1 12 4 (nbits old 12 4 ||| flagBits bad) s
  let t := traySet 1 16 4 (flagBits (ps.map (·.present))) t
  let t := traySet 1 8 4 (flagBits (ps.map (fun p => p.present && nbit p.pwr.toNat 24))) t
  let t := traySet 1 28 4 (trayState s.tray.in12 ps (nbits old 28 4)) t
  let t := linksUp s t
  done s { t with tray := { t.tray with last := ps, faultPin := decide (nbits (t.trayRd 1).toNat 12 4 ≠ 0) } }

/-- BMC_FIRMWARE_WRITE: the image Dd does not use holds new firmware (R420). -/
def execBmcFirmwareWrite (d : Fin 4) (image : FwImage) (s : State) : Host.Outcome State Fault Refusal :=
  let p := s.tray.pend
  done s { s with tray := { s.tray with pend := p.filter (fun q => q.1 < d.val) ++ [(d.val, image)] ++ p.filter (fun q => d.val < q.1) } }

/-- The warm reset of Dd onto its new image: this package's own, or a request to another one. -/
def trayActivate (s : State) (d : Nat) : State :=
  if d = s.power.smb then warmReset false s
  else { s.emit (.trayReset d) with tray := { s.tray with pend := s.tray.pend.filter (fun q => q.1 != d) } }

/-- TRAY_ACTIVATE: a write of v to TRAY_CTL: UPD_OK takes its bits; each package with ACTIVATE and UPD_OK is reset, one after
the other (R420). -/
def execTrayActivate (v : Word) (s : State) : Host.Outcome State Fault Refusal :=
  let t := traySet 2 0 4 (nbits v.toNat 0 4) s
  done s (each ((List.range 4).filter (fun d => nbit v.toNat d && nbit v.toNat (4 + d))) t trayActivate)

/-- TRAY_BAK. -/
def bankRead (mv energy : Nat) (s : State) : State := traySet 4 0 16 mv (traySet 4 16 16 energy s)

/-- BANK_LOW: below 4.0 V the tray holds every package in KEEL (R419): no pipeline boot, and a request for KEEL. -/
def execBankLow (mv energy : BitVec 16) (s : State) : Host.Outcome State Fault Refusal :=
  if 4000 ≤ mv.toNat then idle s else
  let t := traySet 1 25 1 1 (bankRead mv.toNat energy.toNat s)
  let t := { t with tray := { t.tray with holds := true } }
  done s (if s.pwrState = 3 ∨ s.onVbak then t else restRequest 2 t)

/-- BANK_RECHARGED. -/
def execBankRecharged (mv energy : BitVec 16) (s : State) : Host.Outcome State Fault Refusal :=
  if mv.toNat < 4000 then idle s else
  let t := traySet 1 25 1 0 (bankRead mv.toNat energy.toNat s)
  done s { t with tray := { t.tray with holds := false } }

/-- TRAY_INPUT_LOSS: without 12 V every package switches over (R418). -/
def execTrayInputLoss (mv : BitVec 16) (s : State) : Host.Outcome State Fault Refusal :=
  if 1620 ≤ mv.toNat then idle s else
  let t := traySet 1 28 4 2 { s with tray := { s.tray with in12 := false } }
  let t := traySet 1 8 4 (nbits (t.trayRd 1).toNat 16 4) t
  done s (switchOver mv.toNat t)

end Sys2Proof.Machine
end

