-- ==== Sys2Proof/Machine/Host.lean ====
section
/-! DEFINITION. Host accesses (20; 00 R7 to R12): a write to any register of window A, a read of one, windows B and C, and
what a wake from DOZE completes. -/
namespace Sys2Proof.Machine

/-! ### Access codes (R7 to R10) -/

/-- The bits of a register's fields whose access code is among `as`. -/
def accMask (off : Nat) (as : List Acc) : Nat :=
  match regAt off with
  | none => 0
  | some r => r.fields.foldl (fun a f => if as.contains f.acc then a ||| ((2 ^ (f.hi + 1 - f.lo) - 1) * 2 ^ f.lo) else a) 0

/-- The word a register holds after a write of `v`: RW, RWS and RWL fields take it, a 1 clears a W1C bit, every other bit stays. -/
def written (off old v : Nat) : Nat :=
  let w := accMask off [.rw, .rws, .stop, .lock, .pf]
  let c := accMask off [.w1c]
  (old &&& (0xFFFFFFFF ^^^ w) &&& (0xFFFFFFFF ^^^ (c &&& v))) ||| (v &&& w)

/-- Store what a write of `v` leaves. -/
def State.take (s : State) (off v : Nat) : State := s.wr off (BitVec.ofNat 32 (written off (s.rd off).toNat v))

/-- The write would change a field among `as`. -/
def State.changes (s : State) (off v : Nat) (as : List Acc) : Bool :=
  decide (((s.rd off).toNat ^^^ v) &&& accMask off as ≠ 0)

/-- A write that changes an RWL field its lock protects (R10): STOP fields while the stream is not STOPPED; LOCK fields from
the VF while STREAM_LOCK.LOCK = 1 (R60). -/
def locked (vf : Option Nat) (off v : Nat) (s : State) : Bool :=
  (decide (0x100000 ≤ off ∧ off < 0x200000) && decide (s.st ((off - 0x100000) / 0x1000) ≠ 0) && s.changes off v [.stop])
  || (match vf with
      | none => false
      | some n => s.bit (aStreamLock n) 0 && s.changes off v [.lock])

/-! ### What a function reaches (R25, R423) -/

/-- The offset lies in an MSI-X table or pending bit array (R422). -/
def isMsix (off : Nat) : Bool := decide (0x8000 ≤ off ∧ off < 0x8080) || decide (0x9000 ≤ off ∧ off < 0x9008)

/-- The function sees a register at this offset. -/
def State.seesReg (s : State) (fn : Fn) (off : Nat) : Bool :=
  match fn with
  | .pf => true
  | .vf n => isMsix off || decide ((off - 0x100000) / 0x1000 = n.val ∧ 0x100000 ≤ off ∧ off < 0x200000)
      || (decide (0x50000 ≤ off ∧ off < 0x60000) && s.ferryOwner ((off - 0x50000) / 0x100) == some n.val)

/-- The number of a function: 0 the PF. -/
def fnNum : Fn → Nat
  | .pf => 0
  | .vf n => n.val

/-- The debug lock covers this offset: the DEBUG block but for DBG_LOCK and DBG_RESP, and the debug ranges of tile and
sequencer pages (R396). -/
def dbgRange (off : Nat) : Bool :=
  (decide (0x400000 ≤ off ∧ off < 0x800000) && off != aDbgLock && !decide (0x400040 ≤ off ∧ off < 0x400080))
  || (match locate off with
      | (.seq _, r) => decide (0x800 ≤ r)
      | (.tile _, r) => decide (0x800 ≤ r)
      | _ => false)

/-- A host access to a region's pages returns an ARMED region to RUN (R370). -/
def wakeRegion (off : Nat) (s : State) : State :=
  if 0x200000 ≤ off ∧ off < 0x390000 then
    let g := (off - 0x200000) / 0x10000
    if s.f (aRegionPwr g) 24 2 = 1 then (s.setF (aRegionPwr g) 24 2 0).count (cSeq g 17) 1 else s
  else s

/-! ### Writes with effects of their own -/

/-- GLOBAL_STATUS: clearing REG_REJECT returns OFFSET and GLOBAL_REJECT to zero (R11, R426). -/
def statusClear (v : Nat) (s : State) : State :=
  let s := s.take aGlobalStatus v
  if nbit v 31 then (s.setF aGlobalStatus 0 26 0).wr aGlobalReject 0 else s

/-- GLOBAL_RESET with its KEY: WARM prevails over FABRIC (R429); FABRIC during a fabric reset is dropped whole (R428). -/
def resetWrite (v : Nat) (s : State) : State :=
  if nbit v 30 then warmReset false s else if nbit v 31 then fabricReset s else s

/-- A group of CoaXPress links that R26 forbids: unaligned, or a non-master link with a non-zero GROUP. -/
def cxpBad (l v : Nat) (s : State) : Bool :=
  let g := nbits v 8 2
  (decide (g = 1) && decide (l % 2 ≠ 0)) || (decide (2 ≤ g) && decide (l % 4 ≠ 0))
  || (decide (g ≠ 0) && (List.range l).any (fun m => decide (l ≤ m + s.f (aCxpLinkCtl m) 8 2)))
  || (List.range 8).any (fun m => decide (l < m ∧ m ≤ l + g) && decide (s.f (aCxpLinkCtl m) 8 2 ≠ 0))

/-- The master of link l's group. -/
def State.cxpMaster (s : State) (l : Nat) : Nat := (findNat 8 (fun m => decide (m ≤ l ∧ l ≤ m + s.f (aCxpLinkCtl m) 8 2))).getD l

/-- A source's links lose lock: what SOURCE_LINK_DOWN says, without the event's frame of its own. -/
def sourceDown (src : Source) (s : State) : State :=
  match execSourceLinkDown src s with
  | .next t => t
  | _ => s

/-- CXP_LINK_CTL: a changed SPEED or GROUP takes the group down until it locks again (notes/assumptions/43.md). -/
def cxpCtlSet (l v : Nat) (s : State) : State :=
  if cxpBad l v s then reject none (aCxpLinkCtl l) s
  else if s.f (aCxpLinkCtl l) 0 4 ≠ nbits v 0 4 ∨ s.f (aCxpLinkCtl l) 8 2 ≠ nbits v 8 2 then
    (sourceDown (.cxp (Fin.ofNat 8 (s.cxpMaster l))) s).take (aCxpLinkCtl l) v
  else s.take (aCxpLinkCtl l) v

/-- ETH_PORT_CTL: RSFEC = 1 with SPEED = 1 is reserved; a changed SPEED or RSFEC takes the link down. -/
def ethCtlSet (p v : Nat) (s : State) : State :=
  if nbit v 2 && nbits v 0 2 == 1 then reject none (aEthPortCtl p) s
  else if s.f (aEthPortCtl p) 0 3 ≠ nbits v 0 3 then (sourceDown (.eth (Fin.ofNat 2 p)) s).take (aEthPortCtl p) v
  else s.take (aEthPortCtl p) v

/-- CWY_LINK_CTL: clearing EN ends the link. -/
def cwyCtlSet (l v : Nat) (s : State) : State :=
  let t := s.take (aCwyLinkCtl l) v
  if s.bit (aCwyLinkCtl l) 0 && !nbit v 0 then cwyDown l t else t

/-- INGEST_CH_CTL (R46, R49, R57). -/
def chCtlSet (c v : Nat) (s : State) : State :=
  let off := aIngestChCtl c
  if s.chRuns c && decide ((written off (s.rd off).toNat v ^^^ (s.rd off).toNat) &&& 0xFFFFFFFE ≠ 0) then reject none off s
  else if nbit v 0 then
    let t := s.take off (v - 1 + b2n (s.chEn c))
    if !s.chRuns c && t.doubled c then reject none off s else chanStart c t
  else (chanStop c s).take off v

/-- INGEST_CH_SRC and _MCAST: unchanged while the channel runs (R57); a group is an address of 224.0.0.0/4. -/
def chSrcSet (off c v : Nat) (s : State) : State :=
  if (s.chRuns c && s.changes off v [.rw]) || (off == aIngestChMcast c && decide (v ≠ 0 ∧ nbits v 28 4 ≠ 14)) then
    reject none off s
  else s.take off v

/-- LAYOUT_CTL: GO starts OP, and is dropped whole while an operation runs (13, Registers). -/
def layCtlSet (v : Nat) (s : State) : State :=
  let k := nbits v 8 3
  if !nbit v 31 then s.take aLayoutCtl v
  else if s.bit aLayoutStatus 31 then reject none aLayoutCtl s
  else match nbits v 0 4 with
    | 1 => { (layBegin 1 k s) with layOp := some (1, k) }
    | 2 => layEvict k (layBegin 2 k s)
    | 3 => forcedGo { (layBegin 3 k s) with layOp := some (3, k) }
    | _ => s.take aLayoutCtl v

/-- BASIN_PART[p]: partitions never overlap (R265). -/
def partOverlap (p v : Nat) (s : State) : Bool :=
  let b := nbits v 0 14
  let n := nbits v 16 14
  decide (n ≠ 0) && (List.range 8).any (fun q =>
    let b2 := s.f (aBasinPart q) 0 14
    let n2 := s.f (aBasinPart q) 16 14
    q != p && decide (n2 ≠ 0 ∧ b < b2 + n2 ∧ b2 < b + n))

/-- The largest MEM_APER.BASE: usable capacity less 16 GiB with 32 GiB parts, 0 otherwise (R271). -/
def aperMax : Nat := if nbits Config.dramCfg.toNat 1 2 = 2 then 12 else 0

/-- The least and largest CLK_FC_PLL.N (R374). -/
def pllLegal (n : Nat) : Bool := decide (20 ≤ n) && decide (n ≤ if Config.gradeA then 50 else 40)

/-- STREAM_CTL: its fields, then ABORT, DRAIN, STOP, START and CO_CANCEL, each a W1S bit that acts (R78 to R80). -/
def streamCtlSet (n v : Nat) (s : State) : State :=
  let s := s.take (aStreamCtl n) v
  let s := if nbit v 3 then abortStream n s else s
  let s := if nbit v 2 then reqDrain .drain s n else s
  let s := if nbit v 1 then stopStream n s else s
  let s := if nbit v 0 then startStream n s else s
  if nbit v 4 then cancelStream n s else s

/-- TIDEMARK_CNT or _CFG at this offset; a write of CFG takes OVF by W1C (R260). -/
def tmRegSet (off v : Nat) (s : State) : State :=
  tmHostWrite ((off - 0x80000) / 8) ((off - 0x80000) % 8 == 4) (BitVec.ofNat 32 v) s

/-- The sum of the quotas of bounded ferries (1 to 64) if ferry f's were q (R289). -/
def quotaSum (f q : Nat) (s : State) : Nat :=
  ((List.range 256).map (fun k => let x := if k = f then q else s.f (aFerryCtl k) 0 7; if 1 ≤ x ∧ x ≤ 64 then x else 0)).foldl (· + ·) 0

/-- FERRY_CTL: a write that raises the total of quotas above 512 is dropped whole (R289). -/
def ferryCtlSet (vf : Option Nat) (f v : Nat) (s : State) : State :=
  let now := quotaSum f (s.f (aFerryCtl f) 0 7) s
  let new := quotaSum f (nbits v 0 7) s
  if now < new ∧ 512 < new then reject vf (aFerryCtl f) s else s.take (aFerryCtl f) v

/-- PWR_CTL: AUTO_BOOT, then TARGET (R371 to R373). -/
def pwrCtlSet (v : Nat) (s : State) : State :=
  let s := s.setB aPwrCtl 8 (nbit v 8)
  if nbits v 0 4 = 0 then runRequest s else restRequest (nbits v 0 4) s

/-- TRIG_CFG[i]: pending until slack water of the stream whose channel binds the input; at once where none does (R313). -/
def trigCfgSet (i v : Nat) (s : State) : State :=
  let t := s.take (aTrigCfg i) v
  if (s.boundChan i).isNone then applyReg t (aTrigCfg i) else t

/-- IT_CFG[k]: PERIOD is counted from EN (R336). -/
def itCfgSet (k v : Nat) (s : State) : State :=
  let t := s.take (aItCfg k) v
  if !s.bit (aItCfg k) 31 && nbit v 31 then { t with press := { t.press with ticks := tset 0 t.press.ticks k 0 } } else t

/-- FLOG_CTL. -/
def flogCtlSet (v : Nat) (s : State) : State :=
  let s := if nbit v 1 then flogClear s else s
  if nbit v 0 then countClear s else s

/-- OBS_CTL: CLR acts, FREEZE is stored (R386, R388). -/
def obsCtlSet (v : Nat) (s : State) : State :=
  let s := s.setB aObsCtl 0 (nbit v 0)
  if nbit v 1 then obsClear s else s

/-- DBG_LOCK: KEY_SLOT, then UNLOCK, then RELOCK (R397). -/
def dbgLockSet (v : Nat) (s : State) : State :=
  let s := s.take aDbgLock v
  let s := if nbit v 31 then dbgUnlock s else s
  if nbit v 30 then s.setB aDbgLock 0 true else s

/-- REGION_PWR: IDLE and RST_REFUSED, then RST (R381). -/
def regionPwrSet (g v : Nat) (s : State) : State :=
  let s := s.take (aRegionPwr g) v
  if nbit v 31 then regionReset g s else s

/-- REGION_FCTL: its fields, then RECOVER (15, Registers). -/
def regionFctlSet (g v : Nat) (s : State) : State :=
  let s := s.take (aRegionFctl g) v
  if nbit v 31 then regionRecover g s else s

/-- SEQ_DBG_CTL: the breakpoint, HALT, STEP (R395). -/
def seqDbgSet (g v : Nat) (s : State) : State :=
  let s := seqHalt g (nbit v 31) (s.take (aSeqDbgCtl g) v)
  if nbit v 30 then seqStep g s else s

/-- TILE_DBG_CTL: the breakpoint, HALT, STEP (R395). -/
def tileDbgSet (t v : Nat) (s : State) : State :=
  let s := tileHalt t (nbit v 31) (s.take (aTileDbgCtl t) v)
  if nbit v 30 then tileStep t s else s

/-- TILE_CTL: ECC_CLR clears every TILE_ECC_BANK count and TILE_ECC_LAST (04, Registers). -/
def tileCtlSet (t v : Nat) (s : State) : State :=
  let s := s.take (aTileCtl t) v
  if nbit v 2 then (each (List.range 8) s (fun s b => s.wr (aTileEccBank t b) 0)).wr (aTileEccLast t) 0 else s

/-! ### The effect of a write, block by block -/

/-- The KEEL block. -/
def keelWrite (off v : Nat) (s : State) : State :=
  if off = aPwrCtl then pwrCtlSet v s
  else if off = aClkFcPll then (if pllLegal (nbits v 0 6) then s.take off v else reject none off s)
  else if off = aKtimeStep then ktimeAdd (BitVec.ofNat 32 v) s
  else if off = aRtcSec then { (s.take off v) with time := { s.time with aoFrac := 0 } }
  else if off = aKeystoreCtl then keystoreSet (BitVec.ofNat 32 v) s
  else if off = aFlogHead then flogHeadSet (nbits v 0 6) s
  else if off = aFlogCtl then flogCtlSet v s
  else if 0x18100 ≤ off ∧ off < 0x18140 then
    (if off % 16 = 0 then encCtlSet ((off - 0x18100) / 16) (BitVec.ofNat 32 v) s else s.take off v)
  else if 0x18200 ≤ off ∧ off < 0x18300 ∧ off % 16 = 0 then trigCfgSet ((off - 0x18200) / 16) v s
  else if 0x19000 ≤ off ∧ off < 0x19200 ∧ off % 16 = 0 then itCfgSet ((off - 0x19000) / 16) v s
  else s.take off v

/-- The SHORELINE block but for the ingest channels. -/
def shoreWrite (off v : Nat) (s : State) : State :=
  if off < 0x21000 ∧ off % 0x100 = 0 then cxpCtlSet ((off - 0x20000) / 0x100) v s
  else if off = aEthPortCtl 0 then ethCtlSet 0 v s
  else if off = aEthPortCtl 1 then ethCtlSet 1 v s
  else if 0x22100 ≤ off ∧ off < 0x221A0 then
    let p := (off - 0x22100) / 16
    if off % 16 = 4 then hpRxSet p (nbits v 0 12) s
    else if off % 16 = 8 then hpTxSet p (nbits v 0 12) s
    else s.take off v
  else if 0x23000 ≤ off ∧ off < 0x23400 ∧ off % 0x100 = 0 then cwyCtlSet ((off - 0x23000) / 0x100) v s
  else s.take off v

/-- The MEMORY and TIDEMARKS blocks. -/
def memWrite (off v : Nat) (s : State) : State :=
  if off = aMemAper then (if nbits v 0 5 ≤ aperMax then s.take off v else reject none off s)
  else if off = aMemUntouch then memUntouchWrite (BitVec.ofNat 32 v) s
  else if off = aLayoutCtl then layCtlSet v s
  else if 0x43000 ≤ off ∧ off < 0x43020 then
    (if partOverlap ((off - 0x43000) / 4) v s then reject none off s else s.take off v)
  else if 0x44000 ≤ off ∧ off < 0x44280 then
    let e := (off - 0x44000) / 16
    let ok := if off % 16 = 0 then edgeCfgLegal s e v else edgeRingLegal s e v
    (if ok then s.take off v else reject none off s)
  else if 0x80000 ≤ off ∧ off < 0x90000 then tmRegSet off v s
  else if off = 0x90000 then (let t := s.take off v; if nbit v 31 then t.setF off 0 8 0 else t)
  else s.take off v

/-- The DEBUG block. -/
def debugWrite (off v : Nat) (s : State) : State :=
  if off = aObsCtl then obsCtlSet v s
  else if off = aDbgLock then dbgLockSet v s
  else if 0x400040 ≤ off ∧ off < 0x400080 then s.wr off (BitVec.ofNat 32 v)
  else if off = aScanCtl then (if nbit v 31 then scanOut (nbits v 0 5) s else s.take off v)
  else if off = aBistCtl then (if nbit v 31 then bistStart (nbits v 0 3) s else s.take off v)
  else s.take off v

/-- A stream page. -/
def streamWrite (vf : Option Nat) (n rel v : Nat) (s : State) : State :=
  let off := streamPage n + rel
  if rel = 0 then streamCtlSet n v s
  else if rel = 0x2C then sqTailSet vf n (nbits v 0 12) s
  else if rel = 0x4C then cqHeadSet vf n (nbits v 0 12) s
  else if rel = 0x1F4 then faultHeadSet vf n (nbits v 0 4) s
  else if rel = 0x80 then (if vf.isSome then s else s.take off v)
  else s.take off v

/-- A sequencer control page. -/
def seqPageWrite (g rel v : Nat) (s : State) : State :=
  let off := seqPage g + rel
  if rel = 0x34 then (seqMemAccess g (some (BitVec.ofNat 32 v)) s).2
  else if rel = 0x44 then regionPwrSet g v s
  else if rel = 0x50 then regionFctlSet g v s
  else if rel = 0x800 then seqDbgSet g v s
  else s.take off v

/-- A tile page: a planed register keeps the value for the shadow plane (R7). -/
def tileWrite (t rel v : Nat) (s : State) : State :=
  let off := tilePage t + rel
  if !tileLegal (fun r => (s.rd (tilePage t + r)).toNat) rel v then reject none off s
  else if rel = 8 then tileCtlSet t v s
  else if rel = 0x800 then tileDbgSet t v s
  else if rel = 0x804 then loopSet t (nbit v 31) (nbits v 2 2) (nbits v 0 2) s
  else s.take off v

/-- A ferry's page. -/
def ferryWrite (vf : Option Nat) (f rel v : Nat) (s : State) : State :=
  if rel = 0 then ferryCtlSet vf f v s
  else if rel = 4 then ferryKickOp f (nbits v 0 21) none none s
  else s.take (ferryPage f + rel) v

/-- An ingest channel. -/
def chanWrite (c rel v : Nat) (s : State) : State :=
  let off := chanPage c + rel
  if rel = 0 then chCtlSet c v s
  else if rel = 0x18 ∨ rel = 0x1C then chSrcSet off c v s
  else s.take off v

/-- A 32-bit write of `v` at an aligned offset of window A (R7 to R12, R423, R428). -/
def regWrite (fn : Fn) (off : Nat) (w : Word) (s : State) : State :=
  let v := w.toNat
  let vf := fnStream fn
  if !s.seesReg fn off then s
  else if isMsix off then
    (if off < 0x9000 then { s with msixTab := tset 0 s.msixTab (fnNum fn * 128 + (off - 0x8000)) w } else s)
  else if s.deaf off || (s.dbgLocked && dbgRange off) || (regAt off).isNone then s
  else
    let s := wakeRegion off s
    if !fieldsLegal off v || locked vf off v s then reject vf off s
    else match locate off with
      | (.chan c, rel) => chanWrite c rel v s
      | (.stream n, rel) => streamWrite vf n rel v s
      | (.seq g, rel) => seqPageWrite g rel v s
      | (.tile t, rel) => tileWrite t rel v s
      | (.ferry f, rel) => ferryWrite vf f rel v s
      | (.glob, _) =>
        if off = aGlobalStatus then statusClear v s
        else if off = aGlobalReset then resetWrite v s
        else if off < 0x10000 then s.take off v
        else if off < 0x20000 then keelWrite off v s
        else if off < 0x40000 then shoreWrite off v s
        else if off < 0x400000 then memWrite off v s
        else debugWrite off v s

/-! ### Reads -/

/-- The low word's offset of the counter that holds this offset, if one does (17, Counters). -/
def counterAt (off : Nat) : Option Nat :=
  let c := off / 8 * 8
  let hit := match locate off with
    | (.chan _, r) => decide (0x40 ≤ r ∧ r < 0x68)
    | (.stream _, r) => decide (0x800 ≤ r ∧ r < 0x858)
    | (.seq _, r) => decide (0x400 ≤ r ∧ r < 0x490)
    | (.tile _, r) => decide (0x400 ≤ r ∧ r < 0x768 ∧ (r < 0x530 ∨ 0x540 ≤ r))
    | (.ferry _, r) => decide (0x80 ≤ r ∧ r < 0xC0)
    | (.glob, _) =>
      decide (0x20000 ≤ off ∧ off < 0x20800 ∧ 0x40 ≤ off % 0x100 ∧ off % 0x100 < 0x50)
      || decide (0x21000 ≤ off ∧ off < 0x21800 ∧ 0x40 ≤ off % 0x400 ∧ off % 0x400 < 0x78)
      || decide (0x22040 ≤ off ∧ off < 0x22058)
      || decide (0x23000 ≤ off ∧ off < 0x23400 ∧ 0x40 ≤ off % 0x100 ∧ off % 0x100 < 0x60)
      || decide (0x4C100 ≤ off ∧ off < 0x4C120)
      || decide (0x4E200 ≤ off ∧ off < 0x4E300)
      || decide (0x4F000 ≤ off ∧ off < 0x4F040)
      || decide (0x4F100 ≤ off ∧ off < 0x4F200)
      || decide (0x19400 ≤ off ∧ off < 0x19528)
      || decide (cTraceLost ≤ off ∧ off < cTraceLost + 8)
      || decide (cTelemSkipped ≤ off ∧ off < cTelemSkipped + 8)
  if hit then some c else none

/-- The value counter c holds; the PCIE_CNT counters hold free values, since the spec states no number of packets for an
access (notes/assumptions/3.md). -/
def State.cntNow (s : State) (c : Nat) : DWord × State :=
  if c = cPcie 0 ∨ c = cPcie 1 ∨ c = cPcie 2 then s.draw else (s.cnt c, s)

/-- A read of a counter (R387): its low word latches its high word for the function; its high word is what was latched. -/
def counterRead (fn c : Nat) (high : Bool) (s : State) : Word × State :=
  let k := fn * 2 ^ 26 + c
  if high then (tget 0 s.latches k, s)
  else
    let (v, s) := s.cntNow c
    (BitVec.ofNat 32 v.toNat, { s with latches := tset 0 s.latches k (BitVec.ofNat 32 (v.toNat / 2 ^ 32)) })

/-- The bits of `n` for which `p` holds, from bit `lo`. -/
def flagWord (lo n : Nat) (p : Nat → Bool) : Nat := ((List.range n).map (fun i => b2n (p (lo + i)) * 2 ^ i)).foldl (· + ·) 0

/-- No ingest channel is in the midst of a frame. -/
def State.ingestIdle (s : State) : Bool := s.chans.all (fun p => p.2.frame.isNone)

/-- Region g is ARMED: entered, and still idle (R369, R370). -/
def State.armed (s : State) (g : Nat) : Bool := s.f (aRegionPwr g) 24 2 == 1 && s.regionIdle g

/-- Every region whose clock runs is ARMED and there is one, and no frame is being received: PWR_STATUS.STATE shows 1 (R368). -/
def State.allArmed (s : State) : Bool :=
  let gs := (List.range 25).filter (fun g => s.f (aRegionClk g) 16 4 ≠ 0)
  !gs.isEmpty && gs.all s.armed && s.ingestIdle

/-- REGION_PWR.STATE: 0 RUN, 1 ARMED, 2 clock off. -/
def State.regionState (s : State) (g : Nat) : Nat :=
  if s.f (aRegionClk g) 16 4 = 0 then 2 else if s.armed g then 1 else 0

/-- LAYOUT_INFO of slot k, word w. -/
def layInfo (s : State) (k w : Nat) : Nat :=
  match s.image k with
  | none => 0
  | some im =>
    match w with
    | 0 => im.id
    | 1 => 8 + b2n im.native * 4 + b2n im.staged * 2 + b2n (im.active ≠ 0)
    | 2 => im.regions
    | _ => im.lfab

/-- The GLOBAL block's computed registers. -/
def globRead (off : Nat) (s : State) : Option Nat :=
  if off = aGlobalId then some (0x4020A100 + b2n (!Config.gradeA))
  else if off = aGlobalFw then some (if s.power.fw = 0 then Config.firmware.toNat else s.power.fw.toNat)
  else if off = aGlobalSerialLo then some (Config.serial.toNat % 2 ^ 32)
  else if off = aGlobalSerialHi then some (Config.serial.toNat / 2 ^ 32)
  else if off = aGlobalIntSum then some s.src
  else if 0x40 ≤ off ∧ off < 0x60 then
    some (flagWord (32 * ((off - 0x40) / 4)) 32 (fun n => decide (s.rd (aStreamIntCause n) &&& ~~~ s.rd (aStreamIntMask n) ≠ 0)))
  else if 0x100 ≤ off ∧ off < 0x124 then some (featWord off).toNat
  else none

/-- The KEEL block's computed registers. -/
def keelRead (off : Nat) (s : State) : Option Nat :=
  if off = aPwrStatus then some (if s.pwrState = 0 ∧ s.allArmed then nput (s.rd off).toNat 28 4 1 else (s.rd off).toNat)
  else if off = aPwrArmed then some (flagWord 0 25 s.armed)
  else if off = aKtimeHi then some (tget 0 s.latches aKtimeHi).toNat
  else if off = aJournalANext then some s.jA
  else if off = aJournalBNext then some s.jB
  else if off = aKeystoreStatus then
    some (nput (s.rd off).toNat 0 16 (15 + flagWord 4 12 (fun k => decide (tget 0 s.keys.slots k ≠ 0)) * 16))
  else if off = aDtArmedLo then some (flagWord 0 32 (fun k => (s.timer k).busy))
  else if off = aDtArmedHi then some (flagWord 32 32 (fun k => (s.timer k).busy))
  else if 0x18800 ≤ off ∧ off < 0x18A00 then
    (let x := s.timer ((off - 0x18800) / 8)
     some (if off % 8 = 0 then dtInfo x else if x.st = 0 then 0 else x.fire.toNat))
  else if 0x18300 ≤ off ∧ off < 0x18380 ∧ off % 8 = 4 then some (actStatus s ((off - 0x18300) / 8))
  else if 0x18200 ≤ off ∧ off < 0x18300 ∧ off % 16 = 4 then some (nput (s.rd off).toNat 0 7 (s.fifo ((off - 0x18200) / 16)).length)
  else if off = 0x19600 then some (flagWord 0 32 s.pad)
  else if off = 0x19604 then some (flagWord 32 12 s.pad)
  else none

/-- The MEMORY and TIDEMARKS blocks' computed registers. -/
def memRead (off : Nat) (s : State) : Option Nat :=
  if off = aMemDramCfg then some Config.dramCfg.toNat
  else if off = aMemTouched then some s.mem.touched.length
  else if off = aLayoutCtl then some (nput (s.rd off).toNat 31 1 (b2n (s.bit aLayoutStatus 31)))
  else if 0x48040 ≤ off ∧ off < 0x480C0 then some (layInfo s ((off - 0x48040) / 16) (off % 16 / 4))
  else if off = aExitStatus then some (nput (s.rd off).toNat 0 13 s.gate.free)
  else if 0x44000 ≤ off ∧ off < 0x44280 ∧ off % 16 = 8 then
    (let e := (off - 0x44000) / 16
     some (b2n (decide (s.edgeMode e ≠ 0) && (s.ringSlot e).isNone) * 2 ^ 31 + (s.edge e).recs.length))
  else if 0x80000 ≤ off ∧ off < 0x90000 then
    (let x := s.tm ((off - 0x80000) / 8)
     some (if off % 8 = 0 then x.owner % 256 * 2 ^ 24 + x.count % 2 ^ 24
           else x.mode % 4 * 2 ^ 30 + b2n x.ovf * 2 ^ 29 + x.phase % 32 * 2 ^ 24 + x.target % 2 ^ 24))
  else none

/-- The DEBUG block's computed registers. -/
def debugRead (off : Nat) (s : State) : Option Nat :=
  if off = aDbgChalLo then some (s.chal.toNat % 2 ^ 32)
  else if off = aDbgChalHi then some (s.chal.toNat / 2 ^ 32)
  else none

/-- A sequencer control page's computed registers. -/
def seqPageRead (g rel : Nat) (s : State) : Option Nat :=
  let x := s.seq g
  match rel with
  | 0x4 => some (seqStatusWord s g)
  | 0x8 => some x.pc
  | 0x1C => some x.key.toNat
  | 0x20 => some (x.tag % 65536)
  | 0x44 => some (nput (s.rd (aRegionPwr g)).toNat 24 2 (s.regionState g))
  | 0x54 => some (nput (s.rd (aRegionFstatus g)).toNat 16 8 (min (x.recTimes.filter (fun t => s.now - t < 1000000000)).length 255))
  | _ => none

/-- A tile page's computed registers. -/
def tileRead (t rel : Nat) (s : State) : Option Nat :=
  let x := s.tile t
  if rel = 0 then some (tileIdWord t)
  else if rel = 4 then some (tileStatusWord s t)
  else if 0x40 ≤ rel ∧ rel < 0xC0 then
    some (if rel % 8 = 0 then qstatWord s t ((rel - 0x40) / 8) else qheadWord s t ((rel - 0x40) / 8))
  else if rel = 0xC0 then some (cqOccWord x 0)
  else if rel = 0xC4 then some (cqOccWord x 2)
  else if 0x320 ≤ rel ∧ rel < 0x328 then some (winCtxWord (s.win t) x ((rel - 0x320) / 4))
  else if 0x328 ≤ rel ∧ rel < 0x330 then some (winKeyWord x ((rel - 0x328) / 4))
  else if rel = 0x358 then some (dspStatus x)
  else if rel = 0x808 then some (nput (s.rd (aTileDbgStatus t)).toNat 0 1 (b2n x.dhalt))
  else none

/-- A register that shows one of the structures of State; none: it shows its stored word. -/
def shown (off : Nat) (s : State) : Option Nat :=
  match locate off with
  | (.chan c, rel) =>
    if rel = 0x14 then
      some (nput (nput (s.rd off).toNat 20 12 (s.stream (s.chStream c)).nextTag) 2 1 (b2n (!(s.chan c).heldTags.isEmpty)))
    else none
  | (.seq g, rel) => seqPageRead g rel s
  | (.tile t, rel) => tileRead t rel s
  | (.ferry f, rel) =>
    if rel = 8 then some (nput (nput (s.rd off).toNat 4 4 (min (s.ferry f).kicks.length 8)) 0 3 (ferryState s f)) else none
  | (.stream _, _) => none
  | (.glob, _) =>
    if off < 0x10000 then globRead off s
    else if off < 0x20000 then keelRead off s
    else if off < 0x400000 then memRead off s
    else debugRead off s

/-- Fault records, the last class C record and the fatal record: stored, and in no register table of fields (15). -/
def isRecord (off : Nat) : Bool :=
  decide (0x12000 ≤ off ∧ off < 0x12420)
  || (decide (0x100000 ≤ off ∧ off < 0x200000) && decide (0x100 ≤ off % 0x1000 ∧ off % 0x1000 < 0x1F0))

/-- A 32-bit read at an aligned offset of window A (R7 to R9, R387, R396, R423, R428). -/
def regRead (fn : Fn) (off : Nat) (s : State) : Word × State :=
  if !s.seesReg fn off then (0, s)
  else if isMsix off then (if off < 0x9000 then tget 0 s.msixTab (fnNum fn * 128 + (off - 0x8000)) else 0, s)
  else if s.deaf off then (0, s)
  else match counterAt off with
    | some c =>
      let s := wakeRegion off s
      counterRead (fnNum fn) c (off % 8 == 4) s
    | none =>
      let s := wakeRegion off s
      if s.dbgLocked && dbgRange off && (match locate off with | (.glob, _) => false | _ => true) then (0, s)
      else if isRecord off then (s.rd off, s)
      else if (regAt off).isNone then (match shown off s with | some n => (BitVec.ofNat 32 n, s) | none => (0, s))
      else if off = aJournalData then journalRead s
      else if off = aKtimeLo then
        (BitVec.ofNat 32 (s.now % 2 ^ 32), { s with latches := tset 0 s.latches aKtimeHi (BitVec.ofNat 32 (s.now / 2 ^ 32)) })
      else match locate off with
        | (.seq g, 0x34) => seqMemAccess g none s
        | _ => (match shown off s with
            | some n => BitVec.ofNat 32 n
            | none => BitVec.ofNat 32 ((s.rd off).toNat &&& (0xFFFFFFFF ^^^ accMask off [.wo])), s)

/-! ### Accesses of the bus -/

/-- A taken write: 64 bits are two 32-bit writes, the low word first (R424). -/
def wideWrite (fn : Fn) (off width : Nat) (d : DWord) (s : State) : State :=
  let s := regWrite fn off (d.setWidth 32) s
  if width = 64 then regWrite fn (off + 4) ((d >>> 32).setWidth 32) s else s

/-- A taken read of whole words: the low word first. -/
def wideRead (fn : Fn) (off width : Nat) (s : State) : State :=
  let (a, s) := regRead fn off s
  let (bs, s) := if width = 64 then (let (b, s) := regRead fn (off + 4) s; (toBytes 4 a.toNat ++ toBytes 4 b.toNat, s))
    else (toBytes 4 a.toNat, s)
  s.emit (.data (fnNum fn) bs)

/-- REGISTER_WRITE. A narrow or misaligned one is discarded and sets ACC_BAD (R424). -/
def execRegisterWrite (fn : Fn) (off width : Nat) (data : DWord) (s : State) : Host.Outcome State Fault Refusal :=
  if !(fn.wellFormed && widthOk width) then .refused (.illFormed "REGISTER_WRITE")
  else if 0x4000000 < off + width / 8 then .fault (.noSuchAddress "A" off)
  else if decide (width < 32) || decide (off % (width / 8) ≠ 0) then done s (s.setB aGlobalStatus 29 true)
  else if s.seesReg fn off && s.dozing off then done s (deferAccess (.reg fn off width (some data)) s)
  else done s (wideWrite fn off width data s)

/-- COUNTER_LOW_READ: a 32-bit read of window A (R387); at an offset that is no counter's, the read of that register. -/
def execCounterLowRead (fn : Fn) (off : Nat) (s : State) : Host.Outcome State Fault Refusal :=
  if !(fn.wellFormed && decide (off % 4 = 0)) then .refused (.illFormed "COUNTER_LOW_READ")
  else if 0x4000000 < off + 4 then .fault (.noSuchAddress "A" off)
  else if s.seesReg fn off && s.dozing off then done s (deferAccess (.reg fn off 32 none) s)
  else done s (wideRead fn off 32 s)

/-- ACCESS_TIMEOUT: the read completes with zero data and sets ACC_TIMEOUT; only an access to a tile or sequencer page over
the management slot can be so late (R425). -/
def execAccessTimeout (fn : Fn) (off : Nat) (s : State) : Host.Outcome State Fault Refusal :=
  if !fn.wellFormed then .refused (.illFormed "ACCESS_TIMEOUT")
  else if 0x4000000 < off + 4 then .fault (.noSuchAddress "A" off)
  else when_ (fnStream fn == none && decide (0x200000 ≤ off ∧ off < 0x390000)
      && decide (s.f (aRegionClk ((off - 0x200000) / 0x10000)) 16 4 ≠ 0)) s
    ((s.setB aGlobalStatus 30 true).emit (.data 0 (toBytes 4 0)))

/-- GLOBAL_STATUS_CLEAR: a write of v to GLOBAL_STATUS. -/
def execGlobalStatusClear (v : Word) (s : State) : Host.Outcome State Fault Refusal := done s (statusClear v.toNat s)

/-- GLOBAL_INT_MASK_WRITE: a write of v to GLOBAL_INT_MASK. -/
def execGlobalIntMaskWrite (v : Word) (s : State) : Host.Outcome State Fault Refusal := done s (s.take aGlobalIntMask v.toNat)

/-- Answer a read of window B or C: poisoned where an uncorrectable or poisoned word fed it (R263, R272). -/
def answer (g : Got) (code index : Nat) (s : State) : State :=
  let s := s.emit (if g.psn then .poisoned 0 g.bytes else .data 0 g.bytes)
  if g.bad then raiseC { cls := 0, code := code, unit := 11, index := index } s else s

/-- An access of window B (R263, R424). -/
def winB (a : HostAccess) (s : State) : State :=
  match a with
  | .read off len => let (g, s) := s.basinRead off len; answer g 0x04 (bankOf off) s
  | .write off data => s.basinPut off data

/-- HOST_WINDOW_B_ACCESS. -/
def execHostWindowBAccess (a : HostAccess) (s : State) : Host.Outcome State Fault Refusal :=
  let (off, len) := match a with | .read off len => (off, len) | .write off data => (off, data.length)
  if !a.wellFormed then .refused (.illFormed "HOST_WINDOW_B_ACCESS")
  else if basinSize < off + len then .fault (.noSuchAddress "B" off)
  else if s.pwrState = 2 then done s (deferAccess (.winB a) s)
  else when_ s.fabricOn s (winB a s)

/-- The DRAM address of window C offset `off` (R271). -/
def State.aper (s : State) (off : Nat) : Nat := s.f aMemAper 0 5 * 2 ^ 30 + off

/-- An access of window C: what lies at or beyond usable capacity reads zero, is not written, and sets OOR; a read that
meets a page under zero-fill waits for it (R271, R277, R278). -/
def winC (a : HostAccess) (s : State) : State :=
  match a with
  | .read off len =>
    let d := s.aper off
    let k := min len (dramUsable - d)
    let s := if k < len then s.setB aMemAper 31 true else s
    let s := each (s.mem.fills.filter (fun f => decide (0 < k ∧ f.page * 4096 < d + k ∧ d < f.page * 4096 + 4096))) s (fun s f => fillDone f s)
    let (g, s) := s.dramRead d k
    answer { g with bytes := g.bytes ++ List.replicate (len - k) 0 } 0x0A 0 s
  | .write off data =>
    let d := s.aper off
    let k := min data.length (dramUsable - d)
    let s := if k < data.length then s.setB aMemAper 31 true else s
    s.dramWrite d (data.take k) false

/-- HOST_WINDOW_C_ACCESS. -/
def execHostWindowCAccess (a : HostAccess) (s : State) : Host.Outcome State Fault Refusal :=
  let (off, len) := match a with | .read off len => (off, len) | .write off data => (off, data.length)
  if !a.wellFormed then .refused (.illFormed "HOST_WINDOW_C_ACCESS")
  else if 2 ^ 34 < off + len then .fault (.noSuchAddress "C" off)
  else if s.pwrState = 2 then done s (deferAccess (.winC a) s)
  else when_ s.fabricOn s (winC a s)

/-- FERRY_KICK: a write to FERRY_KICK queues a kick without a key (R281). -/
def execFerryKick (fn : Fn) (f : FerryIx) (list : BitVec 21) (s : State) : Host.Outcome State Fault Refusal :=
  if !fn.wellFormed then .refused (.illFormed "VF 0")
  else if s.seesReg fn (aFerryKick f.val) then
    hostRow fn (aFerryKick f.val) list.toNat s (ferryKickOp f.val list.toNat none none s)
  else idle s

/-! ### The wake from DOZE (R372) -/

/-- A deferred access completes. -/
def finishAccess (s : State) (a : Waiting) : State :=
  match a with
  | .reg fn off width (some d) => wideWrite fn off width d s
  | .reg fn off width none => wideRead fn off width s
  | .winB a => winB a s
  | .winC a => winC a s

/-- DOZE_WAKE_COMPLETE: RUN, the PLLs locked, and the deferred accesses complete in order. -/
def execDozeWakeComplete (s : State) : Host.Outcome State Fault Refusal :=
  if !(decide (s.pwrState = 2) && s.power.waking) then idle s else
  let t := (((setPwr 0 s).setF aPwrCtl 0 4 0).setB aClkStatus 0 true).setB aClkStatus 1 true
  let t := { t with power := { t.power with waking := false, deferred := [] } }
  done s (each s.power.deferred t finishAccess)

/-- SMBUS_KEEL_WRITE: the BMC writes a register of the KEEL block with the effect a write of the PF has (R418). -/
def execSmbusKeelWrite (off : Nat) (v : Word) (s : State) : Host.Outcome State Fault Refusal :=
  when_ (decide (0x10000 ≤ off ∧ off < 0x20000 ∧ off % 4 = 0)) s (regWrite .pf off v s)

end Sys2Proof.Machine
end

