-- ==== Sys2Proof/Machine/Dispatch.lean ====
section
/-! DEFINITION. The dispatch: one arm per command, each a direct call of its meaning. -/
namespace Sys2Proof.Machine

def exec (i : Instr) (s : State) : Host.Outcome State Fault Refusal :=
  match i with
  | .registerWrite fn off width data => Sys2Proof.Machine.execRegisterWrite fn off width data s
  | .counterLowRead fn off => Sys2Proof.Machine.execCounterLowRead fn off s
  | .accessTimeout fn off => Sys2Proof.Machine.execAccessTimeout fn off s
  | .globalStatusClear v => Sys2Proof.Machine.execGlobalStatusClear v s
  | .globalIntMaskWrite v => Sys2Proof.Machine.execGlobalIntMaskWrite v s
  | .fabricReset => Sys2Proof.Machine.execFabricReset s
  | .fabricResetComplete => Sys2Proof.Machine.execFabricResetComplete s
  | .warmReset => Sys2Proof.Machine.execWarmReset s
  | .warmResetPin => Sys2Proof.Machine.execWarmResetPin s
  | .perstN => Sys2Proof.Machine.execPerstN s
  | .hostWindowBAccess a => Sys2Proof.Machine.execHostWindowBAccess a s
  | .hostWindowCAccess a => Sys2Proof.Machine.execHostWindowCAccess a s
  | .cxpPacketReceive l p => Sys2Proof.Machine.execCxpPacketReceive l p s
  | .ethFrameReceive p f => Sys2Proof.Machine.execEthFrameReceive p f s
  | .heldFrameAdmit c => Sys2Proof.Machine.execHeldFrameAdmit c s
  | .westEdgeRowSend c => Sys2Proof.Machine.execWestEdgeRowSend c s
  | .sourceLinkDown src => Sys2Proof.Machine.execSourceLinkDown src s
  | .triggerPacketSend l => Sys2Proof.Machine.execTriggerPacketSend l s
  | .resendWaitExpiry c => Sys2Proof.Machine.execResendWaitExpiry c s
  | .hostpathRxHeadWrite p ix => Sys2Proof.Machine.execHostpathRxHeadWrite p ix s
  | .hostpathTxDoorbell p ix => Sys2Proof.Machine.execHostpathTxDoorbell p ix s
  | .hostpathTxSend p => Sys2Proof.Machine.execHostpathTxSend p s
  | .pcieLinkTrained width rate => Sys2Proof.Machine.execPcieLinkTrained width rate s
  | .pcieLinkDown => Sys2Proof.Machine.execPcieLinkDown s
  | .cwyLinkTrained l pos link => Sys2Proof.Machine.execCwyLinkTrained l pos link s
  | .causewayFlitReceive l flit => Sys2Proof.Machine.execCausewayFlitReceive l flit s
  | .causewayFlitSend l chan => Sys2Proof.Machine.execCausewayFlitSend l chan s
  | .ingestChannelStart c => Sys2Proof.Machine.execIngestChannelStart c s
  | .ingestChannelStop c => Sys2Proof.Machine.execIngestChannelStop c s
  | .sqDoorbell fn n ix => Sys2Proof.Machine.execSqDoorbell fn n ix s
  | .sqNop n e => Sys2Proof.Machine.execSqNop n e s
  | .changeover n e => Sys2Proof.Machine.execChangeover n e s
  | .fence n e => Sys2Proof.Machine.execFence n e s
  | .fenceComplete n => Sys2Proof.Machine.execFenceComplete n s
  | .event n e => Sys2Proof.Machine.execEvent n e s
  | .sqReservedEntry n e => Sys2Proof.Machine.execSqReservedEntry n e s
  | .changeoverGroupReady n => Sys2Proof.Machine.execChangeoverGroupReady n s
  | .changeoverApply n => Sys2Proof.Machine.execChangeoverApply n s
  | .patchSetApplied n => Sys2Proof.Machine.execPatchSetApplied n s
  | .cqHeadWrite fn n ix => Sys2Proof.Machine.execCqHeadWrite fn n ix s
  | .cqCoalesceTimer n => Sys2Proof.Machine.execCqCoalesceTimer n s
  | .start n => Sys2Proof.Machine.execStart n s
  | .directLoadComplete k => Sys2Proof.Machine.execDirectLoadComplete k s
  | .stop n => Sys2Proof.Machine.execStop n s
  | .stopComplete n => Sys2Proof.Machine.execStopComplete n s
  | .drain n => Sys2Proof.Machine.execDrain n s
  | .abort n => Sys2Proof.Machine.execAbort n s
  | .coCancel n => Sys2Proof.Machine.execCoCancel n s
  | .tileWordIssue t => Sys2Proof.Machine.execTileWordIssue t s
  | .replayStart t => Sys2Proof.Machine.execReplayStart t s
  | .ldLdq t => Sys2Proof.Machine.execLdLdq t s
  | .ldLdw t => Sys2Proof.Machine.execLdLdw t s
  | .ldLdt t => Sys2Proof.Machine.execLdLdt t s
  | .stStq t => Sys2Proof.Machine.execStStq t s
  | .stStl t => Sys2Proof.Machine.execStStl t s
  | .vecAdd t => Sys2Proof.Machine.execVecAdd t s
  | .vecSub t => Sys2Proof.Machine.execVecSub t s
  | .vecMul t => Sys2Proof.Machine.execVecMul t s
  | .vecMax t => Sys2Proof.Machine.execVecMax t s
  | .vecMin t => Sys2Proof.Machine.execVecMin t s
  | .vecCmpgt t => Sys2Proof.Machine.execVecCmpgt t s
  | .vecSel t => Sys2Proof.Machine.execVecSel t s
  | .vecAbs t => Sys2Proof.Machine.execVecAbs t s
  | .vecShr t => Sys2Proof.Machine.execVecShr t s
  | .vecRq t => Sys2Proof.Machine.execVecRq t s
  | .vecAct t => Sys2Proof.Machine.execVecAct t s
  | .vecRsum t => Sys2Proof.Machine.execVecRsum t s
  | .vecRmax t => Sys2Proof.Machine.execVecRmax t s
  | .vecCvt t => Sys2Proof.Machine.execVecCvt t s
  | .vecAnd t => Sys2Proof.Machine.execVecAnd t s
  | .vecOr t => Sys2Proof.Machine.execVecOr t s
  | .vecXor t => Sys2Proof.Machine.execVecXor t s
  | .vecMov t => Sys2Proof.Machine.execVecMov t s
  | .matWload t => Sys2Proof.Machine.execMatWload t s
  | .matMma t => Sys2Proof.Machine.execMatMma t s
  | .matDmma t => Sys2Proof.Machine.execMatDmma t s
  | .matRead t => Sys2Proof.Machine.execMatRead t s
  | .matClr t => Sys2Proof.Machine.execMatClr t s
  | .commandStep t e wk => Sys2Proof.Machine.execCommandStep t e wk s
  | .engineCommandComplete t e wk => Sys2Proof.Machine.execEngineCommandComplete t e wk s
  | .tilePatrolScrub t bank => Sys2Proof.Machine.execTilePatrolScrub t bank s
  | .tileForcedScrub t bank => Sys2Proof.Machine.execTileForcedScrub t bank s
  | .tilePatchApply t => Sys2Proof.Machine.execTilePatchApply t s
  | .linkSend t d k => Sys2Proof.Machine.execLinkSend t d k s
  | .linkEntryArrive t d => Sys2Proof.Machine.execLinkEntryArrive t d s
  | .boundaryLaneMove t d lane => Sys2Proof.Machine.execBoundaryLaneMove t d lane s
  | .creditReturn k => Sys2Proof.Machine.execCreditReturn k s
  | .managementPacketHop t d => Sys2Proof.Machine.execManagementPacketHop t d s
  | .undertowStuck grp => Sys2Proof.Machine.execUndertowStuck grp s
  | .undertowSpillComplete grp => Sys2Proof.Machine.execUndertowSpillComplete grp s
  | .undertowRefill t q => Sys2Proof.Machine.execUndertowRefill t q s
  | .dispatchToken t => Sys2Proof.Machine.execDispatchToken t s
  | .gatherToken t => Sys2Proof.Machine.execGatherToken t s
  | .loopGateDecision t => Sys2Proof.Machine.execLoopGateDecision t s
  | .loopGateAdmit t => Sys2Proof.Machine.execLoopGateAdmit t s
  | .groupTablePop t => Sys2Proof.Machine.execGroupTablePop t s
  | .seqNop g => Sys2Proof.Machine.execSeqNop g s
  | .seqAdd g => Sys2Proof.Machine.execSeqAdd g s
  | .seqSub g => Sys2Proof.Machine.execSeqSub g s
  | .seqAnd g => Sys2Proof.Machine.execSeqAnd g s
  | .seqOr g => Sys2Proof.Machine.execSeqOr g s
  | .seqXor g => Sys2Proof.Machine.execSeqXor g s
  | .seqSll g => Sys2Proof.Machine.execSeqSll g s
  | .seqSrl g => Sys2Proof.Machine.execSeqSrl g s
  | .seqSra g => Sys2Proof.Machine.execSeqSra g s
  | .seqMul g => Sys2Proof.Machine.execSeqMul g s
  | .seqSlt g => Sys2Proof.Machine.execSeqSlt g s
  | .seqSltu g => Sys2Proof.Machine.execSeqSltu g s
  | .seqAddi g => Sys2Proof.Machine.execSeqAddi g s
  | .seqAndi g => Sys2Proof.Machine.execSeqAndi g s
  | .seqOri g => Sys2Proof.Machine.execSeqOri g s
  | .seqLui g => Sys2Proof.Machine.execSeqLui g s
  | .seqLw g => Sys2Proof.Machine.execSeqLw g s
  | .seqSw g => Sys2Proof.Machine.execSeqSw g s
  | .seqBeq g => Sys2Proof.Machine.execSeqBeq g s
  | .seqBne g => Sys2Proof.Machine.execSeqBne g s
  | .seqBlt g => Sys2Proof.Machine.execSeqBlt g s
  | .seqBge g => Sys2Proof.Machine.execSeqBge g s
  | .seqJmp g => Sys2Proof.Machine.execSeqJmp g s
  | .seqCall g => Sys2Proof.Machine.execSeqCall g s
  | .seqJr g => Sys2Proof.Machine.execSeqJr g s
  | .seqRet g => Sys2Proof.Machine.execSeqRet g s
  | .seqLoop g => Sys2Proof.Machine.execSeqLoop g s
  | .seqLpop g => Sys2Proof.Machine.execSeqLpop g s
  | .seqAff g => Sys2Proof.Machine.execSeqAff g s
  | .seqCmd g => Sys2Proof.Machine.execSeqCmd g s
  | .seqReplay g => Sys2Proof.Machine.execSeqReplay g s
  | .seqRwait g => Sys2Proof.Machine.execSeqRwait g s
  | .seqPatch g => Sys2Proof.Machine.execSeqPatch g s
  | .seqBcw g => Sys2Proof.Machine.execSeqBcw g s
  | .seqTminc g => Sys2Proof.Machine.execSeqTminc g s
  | .seqTmwait g => Sys2Proof.Machine.execSeqTmwait g s
  | .seqKeyget g => Sys2Proof.Machine.execSeqKeyget g s
  | .seqKeyi g => Sys2Proof.Machine.execSeqKeyi g s
  | .seqSetkey g => Sys2Proof.Machine.execSeqSetkey g s
  | .seqSpecbr g => Sys2Proof.Machine.execSeqSpecbr g s
  | .seqFkick g => Sys2Proof.Machine.execSeqFkick g s
  | .seqMfs g => Sys2Proof.Machine.execSeqMfs g s
  | .seqMts g => Sys2Proof.Machine.execSeqMts g s
  | .frameNoticePost g => Sys2Proof.Machine.execFrameNoticePost g s
  | .sidCommit g sid => Sys2Proof.Machine.execSidCommit g sid s
  | .sidSquash g sid => Sys2Proof.Machine.execSidSquash g sid s
  | .seqMemDataAccess g wr => Sys2Proof.Machine.execSeqMemDataAccess g wr s
  | .tidemarkIncrement k => Sys2Proof.Machine.execTidemarkIncrement k s
  | .tidemarkWait k => Sys2Proof.Machine.execTidemarkWait k s
  | .tidemarkWaiterRelease k => Sys2Proof.Machine.execTidemarkWaiterRelease k s
  | .barrierPhaseReply k => Sys2Proof.Machine.execBarrierPhaseReply k s
  | .tidemarkHostWrite ix cfg v => Sys2Proof.Machine.execTidemarkHostWrite ix cfg v s
  | .regionQuiescent g k => Sys2Proof.Machine.execRegionQuiescent g k s
  | .basinPatrolScrub bank => Sys2Proof.Machine.execBasinPatrolScrub bank s
  | .basinForcedScrub bank => Sys2Proof.Machine.execBasinForcedScrub bank s
  | .outPortRecordWrite e => Sys2Proof.Machine.execOutPortRecordWrite e s
  | .inPortRecordSend e => Sys2Proof.Machine.execInPortRecordSend e s
  | .dramRefresh => Sys2Proof.Machine.execDramRefresh s
  | .retrainingDue => Sys2Proof.Machine.execRetrainingDue s
  | .dramRetrain => Sys2Proof.Machine.execDramRetrain s
  | .forcedRetraining => Sys2Proof.Machine.execForcedRetraining s
  | .dramPatrolScrub => Sys2Proof.Machine.execDramPatrolScrub s
  | .zeroFillComplete k => Sys2Proof.Machine.execZeroFillComplete k s
  | .memUntouch v => Sys2Proof.Machine.execMemUntouch v s
  | .memUntouchDone => Sys2Proof.Machine.execMemUntouchDone s
  | .ferryKick fn f list => Sys2Proof.Machine.execFerryKick fn f list s
  | .ferryBlockStart f => Sys2Proof.Machine.execFerryBlockStart f s
  | .dramReadPortPick => Sys2Proof.Machine.execDramReadPortPick s
  | .ferryReadComplete f host => Sys2Proof.Machine.execFerryReadComplete f host s
  | .ferryWrite f host => Sys2Proof.Machine.execFerryWrite f host s
  | .ferryBlockComplete f => Sys2Proof.Machine.execFerryBlockComplete f s
  | .layoutInstall k => Sys2Proof.Machine.execLayoutInstall k s
  | .layoutEvict k => Sys2Proof.Machine.execLayoutEvict k s
  | .forcedExchange k => Sys2Proof.Machine.execForcedExchange k s
  | .layoutInstallComplete p => Sys2Proof.Machine.execLayoutInstallComplete p s
  | .stagingComplete k => Sys2Proof.Machine.execStagingComplete k s
  | .slackWaterSwap k => Sys2Proof.Machine.execSlackWaterSwap k s
  | .finalTokenPop y => Sys2Proof.Machine.execFinalTokenPop y s
  | .gateSlotRelease n => Sys2Proof.Machine.execGateSlotRelease n s
  | .keelActionDecision => Sys2Proof.Machine.execKeelActionDecision s
  | .verdictRecordWrite n => Sys2Proof.Machine.execVerdictRecordWrite n s
  | .deadlineReached tm => Sys2Proof.Machine.execDeadlineReached tm s
  | .lateReceive => Sys2Proof.Machine.execLateReceive s
  | .encoderTransition e a b => Sys2Proof.Machine.execEncoderTransition e a b s
  | .encoderIndex e => Sys2Proof.Machine.execEncoderIndex e s
  | .triggerEdge ix rising => Sys2Proof.Machine.execTriggerEdge ix rising s
  | .distanceTimerFire tm => Sys2Proof.Machine.execDistanceTimerFire tm s
  | .pulseEnd tm => Sys2Proof.Machine.execPulseEnd tm s
  | .intervalTimerExpiry k => Sys2Proof.Machine.execIntervalTimerExpiry k s
  | .pressEnable => Sys2Proof.Machine.execPressEnable s
  | .pressDisable => Sys2Proof.Machine.execPressDisable s
  | .encCtlWrite e v => Sys2Proof.Machine.execEncCtlWrite e v s
  | .drainPoint n => Sys2Proof.Machine.execDrainPoint n s
  | .drainComplete n => Sys2Proof.Machine.execDrainComplete n s
  | .scanOutComplete g => Sys2Proof.Machine.execScanOutComplete g s
  | .scanInComplete g => Sys2Proof.Machine.execScanInComplete g s
  | .regionRecover g => Sys2Proof.Machine.execRegionRecover g s
  | .recoveryStepTimeout g => Sys2Proof.Machine.execRecoveryStepTimeout g s
  | .faultHeadWrite fn n v => Sys2Proof.Machine.execFaultHeadWrite fn n v s
  | .flogHeadWrite v => Sys2Proof.Machine.execFlogHeadWrite v s
  | .fclr => Sys2Proof.Machine.execFclr s
  | .cclr => Sys2Proof.Machine.execCclr s
  | .journalDataRead => Sys2Proof.Machine.execJournalDataRead s
  | .supplySwitchOver mv => Sys2Proof.Machine.execSupplySwitchOver mv s
  | .trayInputLoss mv => Sys2Proof.Machine.execTrayInputLoss mv s
  | .ebbHoldEnd why => Sys2Proof.Machine.execEbbHoldEnd why s
  | .railRemoval => Sys2Proof.Machine.execRailRemoval s
  | .returnToMain => Sys2Proof.Machine.execReturnToMain s
  | .vbakLow mv => Sys2Proof.Machine.execVbakLow mv s
  | .vbakExhausted => Sys2Proof.Machine.execVbakExhausted s
  | .porRelease smb => Sys2Proof.Machine.execPorRelease smb s
  | .railPowerGood k => Sys2Proof.Machine.execRailPowerGood k s
  | .railPgTimeout k => Sys2Proof.Machine.execRailPgTimeout k s
  | .railPgLoss k => Sys2Proof.Machine.execRailPgLoss k s
  | .vpressUndervoltage mv => Sys2Proof.Machine.execVpressUndervoltage mv s
  | .pllLock => Sys2Proof.Machine.execPllLock s
  | .bootScrubComplete => Sys2Proof.Machine.execBootScrubComplete s
  | .dramTrainingComplete pol => Sys2Proof.Machine.execDramTrainingComplete pol s
  | .pwrTargetDoze => Sys2Proof.Machine.execPwrTargetDoze s
  | .pwrTargetKeel => Sys2Proof.Machine.execPwrTargetKeel s
  | .pwrTargetRun => Sys2Proof.Machine.execPwrTargetRun s
  | .powerStateReached => Sys2Proof.Machine.execPowerStateReached s
  | .wakePin => Sys2Proof.Machine.execWakePin s
  | .smbusWake => Sys2Proof.Machine.execSmbusWake s
  | .rtcAlarm => Sys2Proof.Machine.execRtcAlarm s
  | .regionArmedEntry g => Sys2Proof.Machine.execRegionArmedEntry g s
  | .refclkLoss => Sys2Proof.Machine.execRefclkLoss s
  | .hkFallback => Sys2Proof.Machine.execHkFallback s
  | .hkRestore => Sys2Proof.Machine.execHkRestore s
  | .ktimeStep v => Sys2Proof.Machine.execKtimeStep v s
  | .thermalWarn sensor temp => Sys2Proof.Machine.execThermalWarn sensor temp s
  | .thermalThrottle sensor temp => Sys2Proof.Machine.execThermalThrottle sensor temp s
  | .thermalTrip sensor temp => Sys2Proof.Machine.execThermalTrip sensor temp s
  | .thermalCalibration => Sys2Proof.Machine.execThermalCalibration s
  | .regionReset g => Sys2Proof.Machine.execRegionReset g s
  | .keystoreLoad v => Sys2Proof.Machine.execKeystoreLoad v s
  | .keystoreClear v => Sys2Proof.Machine.execKeystoreClear v s
  | .keystoreLock v => Sys2Proof.Machine.execKeystoreLock v s
  | .obsClr => Sys2Proof.Machine.execObsClr s
  | .obsFreeze => Sys2Proof.Machine.execObsFreeze s
  | .obsUnfreeze => Sys2Proof.Machine.execObsUnfreeze s
  | .traceRecordWrite u => Sys2Proof.Machine.execTraceRecordWrite u s
  | .telemetrySample => Sys2Proof.Machine.execTelemetrySample s
  | .scanOut g => Sys2Proof.Machine.execScanOut g s
  | .tileDebugHalt t => Sys2Proof.Machine.execTileDebugHalt t s
  | .tileDebugStep t => Sys2Proof.Machine.execTileDebugStep t s
  | .seqDebugHalt g => Sys2Proof.Machine.execSeqDebugHalt g s
  | .seqDebugStep g => Sys2Proof.Machine.execSeqDebugStep g s
  | .debugUnlock => Sys2Proof.Machine.execDebugUnlock s
  | .debugRelock => Sys2Proof.Machine.execDebugRelock s
  | .bistStart targets => Sys2Proof.Machine.execBistStart targets s
  | .bistComplete regions banks => Sys2Proof.Machine.execBistComplete regions banks s
  | .fabricLoopback t dir depth => Sys2Proof.Machine.execFabricLoopback t dir depth s
  | .tapBypass => Sys2Proof.Machine.execTapBypass s
  | .tapIdcode => Sys2Proof.Machine.execTapIdcode s
  | .tapSamplePreload load => Sys2Proof.Machine.execTapSamplePreload load s
  | .tapExtest => Sys2Proof.Machine.execTapExtest s
  | .tapClamp => Sys2Proof.Machine.execTapClamp s
  | .tapHighz => Sys2Proof.Machine.execTapHighz s
  | .tapExtestPulse => Sys2Proof.Machine.execTapExtestPulse s
  | .tapExtestTrain => Sys2Proof.Machine.execTapExtestTrain s
  | .bmcPoll k => Sys2Proof.Machine.execBmcPoll k s
  | .bmcFirmwareWrite d image => Sys2Proof.Machine.execBmcFirmwareWrite d image s
  | .trayActivate d => Sys2Proof.Machine.execTrayActivate d s
  | .bankLow mv energy => Sys2Proof.Machine.execBankLow mv energy s
  | .sourceLinkUp src => Sys2Proof.Machine.execSourceLinkUp src s
  | .seqReservedOpcode g => Sys2Proof.Machine.execSeqReservedOpcode g s
  | .throttleEnd cool => Sys2Proof.Machine.execThrottleEnd cool s
  | .rstNRise => Sys2Proof.Machine.execRstNRise s
  | .firmwareVerified okA okB fw => Sys2Proof.Machine.execFirmwareVerified okA okB fw s
  | .keelFirmwareReady => Sys2Proof.Machine.execKeelFirmwareReady s
  | .dozeWakeComplete => Sys2Proof.Machine.execDozeWakeComplete s
  | .dramRetrainComplete => Sys2Proof.Machine.execDramRetrainComplete s
  | .bankRecharged mv energy => Sys2Proof.Machine.execBankRecharged mv energy s
  | .smbusKeelWrite off v => Sys2Proof.Machine.execSmbusKeelWrite off v s

end Sys2Proof.Machine
end

