-- ==== Sys2Proof/Machine/Tick.lean ====
section
/-! DEFINITION. The idle tick: one hk of the device's clocks (DESIGN CHOICE, notes/assumptions/5.md): keel time and the RTC
(R377), interval timers on hk and their pulses (R336), and the counters of time (R102, R370, 17). -/
namespace Sys2Proof.Machine

/-- KTIME: 5 ns an hk, and RATE of 2^-32 of it more, within ±0x0020_C49C (R377). -/
def timeTick (s : State) : State :=
  let r := clamp (-0x20C49C) 0x20C49C (s.rd aKtimeRate).toInt
  let n := (s.time.frac : Int) + 5 * 2 ^ 32 + 5 * r
  { s with time := { s.time with ktime := s.time.ktime + BitVec.ofInt 64 (n / 2 ^ 32), frac := (n % 2 ^ 32).toNat, hk := s.time.hk + 1 } }

/-- RTC_SEC: one second is 200,000,000 hk. -/
def rtcTick (s : State) : State :=
  if s.time.aoFrac + 1 < 200000000 then { s with time := { s.time with aoFrac := s.time.aoFrac + 1 } }
  else { (s.wr aRtcSec (s.rd aRtcSec + 1)) with time := { s.time with aoFrac := 0 } }

/-- Interval timers on hk count; pulses of ACTION 1 run down (R336). -/
def itHk (s : State) : State :=
  let on := fun (k : Nat) => s.bit (aItCfg k) 31 && s.bit (aItCfg k) 30 && decide (s.rd (aItPeriod k) ≠ 0)
  let ticks := each ((List.range 32).filter on) s.press.ticks (fun t k => tset 0 t k (tget 0 t k + 1))
  { s with press := { s.press with ticks := ticks, pulses := (s.press.pulses.filter (fun p => 1 < p.2)).map (fun p => (p.1, p.2 - 1)) } }

/-- The divider of REGION_CLK.DIV codes 1 to 8. -/
def divOf (v : Nat) : Nat := match v with | 7 => 8 | 8 => 16 | v => v

/-- The rc of region g in this hk; `n` is how many eighths of an fc have passed before it (FC is 25 MHz times N). -/
def rcNow (n : Nat) (s : State) (g : Nat) : Nat :=
  match s.f (aRegionClk g) 16 4 with
  | 0 => 0
  | 9 => 1
  | v => if s.bit aClkStatus 0 then (n + s.f aClkFcPll 16 6) / (8 * divOf v) - n / (8 * divOf v) else 0

/-- What engine e of tile t counts in an rc (R102): 0 ACTIVE, 1 STALL_OPERAND, 2 STALL_COMMAND, 4 STALL_OUTPUT. No command
loses arbitration in a model without bank conflicts, so STALL_BANK (3) never holds. -/
def engineState (s : State) (t e : Nat) : Nat :=
  let x := s.tile t
  match (x.queue e).zipIdx.find? (fun p => p.1.run.isSome) with
  | some (c, i) =>
    match c.run with
    | some r =>
      if decide (r.made < r.total) && !stepRoom t e c s then 4
      else if decide (r.total ≤ r.made) || (tryStep t e i c r s).isSome then 0 else 1
    | none => 2
  | none =>
    if (firstFire t e s (x.window e) []).isSome then 0
    else if (x.queue e).any (fun c => c.bound.isSome && !c.dead) then 1 else 2

/-- The counters of tile t over k rc; `armed` gates the engines (R369). -/
def tileTick (armed : Bool) (k : Nat) (s : State) (t : Nat) : State :=
  let x := s.tile t
  let u := each (List.range 4) s (fun u e => u.count (cTile t (5 * e + (if armed then 2 else engineState s t e))) k)
  let u := if x.replay.isSome then u.count (cTile t 21) k else u
  let u := if x.disp.out.isEmpty then u else u.count (cTile t 37) k
  let u := each (List.range 16) u (fun u q =>
    let n := min (s.queueOf t q).length 64
    let u := u.count (cTile t (40 + 3 * q)) (k * n)
    if n = 0 then u.count (cTile t (42 + 3 * q)) k else if n = 64 then u.count (cTile t (41 + 3 * q)) k else u)
  each (List.range 4) u (fun u d =>
    let u := if (List.range 15).any (fun b => !(s.hold t d b).isEmpty) then u.count (cTile t (89 + 4 * d)) k else u
    if (List.range 15).any (fun l => decide (16 ≤ (s.lane t d l).length)) then u.count (cTile t (104 + d)) k else u)

/-- Region g over k rc: the rc count, CLOCKED, the WAIT code, ARMED_RC; a region that is no longer idle wakes (R370). -/
def regionTick (g k : Nat) (s : State) : State :=
  if k = 0 then s else
  let x := s.seq g
  let stored := decide (s.f (aRegionPwr g) 24 2 = 1)
  let armed := s.armed g
  let s := (s.modSeq g (fun q => { q with rc := (q.rc + k) % 2 ^ 32 })).count (cSeq g 15) k
  let s := if x.wait = 0 then s else s.count (cSeq g x.wait) k
  let s := if armed then s.count (cSeq g 16) k
    else if stored then (s.setF (aRegionPwr g) 24 2 0).count (cSeq g 17) 1 else s
  each (tilesOf g) s (tileTick armed k)

/-- HELD_HK: hk in which a frame of a channel is held. -/
def heldTick (s : State) : State :=
  each (s.chans.map (·.1)) s (fun s c => if (s.chan c).heldTags.isEmpty then s else s.count (cChan c 3) 1)

/-- One hk of idle time. -/
def tick (s : State) : State :=
  let n := s.time.fcFrac
  let t := heldTick (itHk (rtcTick (timeTick s)))
  let t := each (List.range 25) t (fun t g => regionTick g (rcNow n s g) t)
  let fc := if s.bit aClkStatus 0 then s.f aClkFcPll 16 6 else 0
  signal s { t with time := { t.time with fcFrac := (n + fc) % 5760 } }

end Sys2Proof.Machine
end

