-- ==== Sys2Proof/Safety.lean ====
section
/-! DEFINITION. The terms in which statements are made: safe steps, the summary, canonical memories, frames. -/
namespace Sys2Proof.Machine

/-- The command at the front gives a next state. -/
def StepSafe (s : State) : Prop := ∃ t, step s = .next t

/-- GLOBAL_INT_SUM.SRC is, bit by bit, the OR of its sources (20, the table of SRC; R427). -/
def SummaryOk (s : State) : Prop :=
  s.src < 1024
  ∧ (nbit s.src 0 = true ↔ s.f aFlogHead 0 6 ≠ s.f aFlogTail 0 6)
  ∧ (nbit s.src 1 = true ↔ s.bit aLayoutStatus 30 = true ∨ s.bit aLayoutStatus 29 = true)
  ∧ (nbit s.src 2 = true ↔ s.bit aThermStatus 8 = true)
  ∧ (nbit s.src 3 = true ↔ s.f aPwrStatus 20 3 ≠ 0 ∨ s.bit aPwrStatus 24 = true)
  ∧ (nbit s.src 4 = true ↔ s.rd aItStatus ≠ 0)
  ∧ (nbit s.src 5 = true ↔ s.f aGlobalStatus 29 3 ≠ 0)
  ∧ (nbit s.src 6 = true ↔ ∃ g < 25, s.f (aRegionFstatus g) 28 4 ≠ 0)
  ∧ (nbit s.src 7 = true ↔ (∃ p < 10, s.f (aHostpathRx p) 16 12 ≠ s.f (aHostpathRx p) 0 12)
      ∨ s.bit (aEthPortStatus 0) 2 = true ∨ s.bit (aEthPortStatus 1) 2 = true)
  ∧ (nbit s.src 8 = true ↔ s.bit aPcieLinkStatus 9 = true ∨ (∃ l < 4, s.bit (aCwyLinkStatus l) 1 = true)
      ∨ ∃ l < 8, s.bit (aCxpLinkStatus l) 3 = true)
  ∧ (nbit s.src 9 = true ↔ s.bit aGlobalStatus 28 = true)

/-- A memory is in canonical form: addresses strictly rising, nothing listed that equals what it reads as unlisted. -/
def Ram.wf (r : Ram) : Bool := twf 0 r.cells && twf .clean r.ecc

/-- The basin, DRAM and host memory are in canonical form. -/
def Memory.wf (s : State) : Bool := s.mem.basin.wf && s.mem.dram.wf && twf 0 s.hostMem

/-- Nothing differs but registers, and what every command brings up to date: the summary and messages. -/
def OnlyRegs (s t : State) : Prop := t = { s with regs := t.regs, src := t.src, outbox := t.outbox, waiting := t.waiting }

/-- Every register but those listed is as before. -/
def RegsBut (offs : List Nat) (s t : State) : Prop := ∀ off, off ∉ offs → t.rd off = s.rd off

/-- Host accesses to every block are served: the dies have power, no fabric reset runs, the device is not in DOZE. -/
def Served (s : State) : Prop := s.bit aPwrStatus 25 = true ∧ s.bit aGlobalStatus 27 = false ∧ s.f aPwrStatus 28 4 ≠ 2

/-- The sequencer of region g issues the word n now: it may run, no breakpoint is reached, no speculation is open, PC lies in the
active code plane, and the word there is n, with clean check bits (R203, R395). -/
def SeqAt (g : Nat) (n : Word) (s : State) : Prop :=
  s.seqRuns g = true ∧ s.seqBreak g = false ∧ (s.seq g).sids = [] ∧ (s.seq g).pc < 0xC000
  ∧ tget .clean (s.seq g).ecc ((s.seq g).pc / 4) = .clean ∧ tget 0 (s.seq g).mem ((s.seq g).pc / 4) = n

/-- What an issued instruction leaves: its sequencer is `x` at address a, not waiting (a trace record may have entered its
FIFO); no other sequencer, no register, memory or stream has changed. -/
def SeqGoes (g : Nat) (x : Seq) (a : Nat) (s t : State) : Prop :=
  (∃ tr, t.seq g = { x with pc := a % 0x20000, step := false, wait := 0, trace := tr }) ∧ (∀ h, h ≠ g → t.seq h = s.seq h)
  ∧ t.regs = s.regs ∧ t.active = s.active ∧ t.mem = s.mem ∧ t.hostMem = s.hostMem ∧ t.streams = s.streams

/-- What an instruction that waits leaves: its sequencer as it was but for the WAIT code, and nothing else changed. -/
def SeqHolds (g code : Nat) (x : Seq) (s t : State) : Prop :=
  (∃ tr, t.seq g = { x with wait := code, trace := tr }) ∧ (∀ h, h ≠ g → t.seq h = s.seq h)
  ∧ t.regs = s.regs ∧ t.mem = s.mem ∧ t.streams = s.streams ∧ t.tiles = s.tiles

/-- Command c, bound with b, is first in the queue of engine e and fires now with the key k: the tile runs, the engine is free,
its queues are bound, its bank is in the state it needs, the heads of its match set are present and agree, there is room for
its first step, and neither SPEC nor GTAB is set and nothing is staged (R96 to R98, R136, R142). -/
def Fires (t e : Nat) (c : QCmd) (b : Bound) (rest : List QCmd) (k : Word) (s : State) : Prop :=
  s.runs t = true ∧ (s.tile t).queue e = c :: rest ∧ (∀ o ∈ rest, o.run = none) ∧ c.bound = some b ∧ c.run = none
  ∧ c.dead = false ∧ c.spec = false ∧ c.gtab = false ∧ (s.tile t).staged = [] ∧ s.unboundQ t e b.slot = none
  ∧ bankReady (s.tile t) e b.slot = true
  ∧ (if c.mset e = [] then k = c.key else s.matchHeads t (slotFm e b.slot) (c.mset e) = .key k)
  ∧ stepRoom t e c s = true

/-- The payload of the head of IQ q. -/
def headPay (s : State) (t q : Nat) : Pay := ((s.iq t q).head?.map (·.pay)).getD 0

end Sys2Proof.Machine
end

