-- ==== Sys2Proof/Certificates/Slice0/Obligations.lean ====
section
/-! DEFINITION. The statements for the provers, by chapter of spec/. Each holds of every state, also of states no run reaches;
a completion has hypotheses on the state and the operands alone. -/
open Sys2Proof Sys2Proof.Machine

/-! ### The queue, time, interrupts, reset -/

/-- A step with a command at the front of the queue is exec of it on the state with the queue's rest. -/
def Obligations.StepRunsFront : Prop :=
  ∀ (c : Instr) (q : List Instr) (s : State), step { s with pending := c :: q } = exec c { s with pending := q }

/-- A step takes exactly one command off the queue, whatever the command does. -/
def Obligations.QueueIsFirstInFirstOut : Prop :=
  ∀ s t : State, step s = .next t → t.pending = s.pending.tail

/-- A step on an empty queue is one hk (the model's choice, log entry 5): no command runs, KTIME grows by 5 ns where KTIME_RATE
is 0 (R377), and a counter that FREEZE holds keeps its value (R388). -/
def Obligations.EmptyQueueIsOneHk : Prop :=
  ∀ s : State, s.pending = [] → ∃ t, step s = .next t ∧ t.pending = [] ∧ t.time.hk = s.time.hk + 1
    ∧ (s.rd aKtimeRate = 0 → s.time.frac < 2 ^ 32 → t.time.ktime = s.time.ktime + 5 ∧ t.time.frac = s.time.frac)
    ∧ (s.bit aObsCtl 0 = true → t.counters = s.counters)

/-- GLOBAL_INT_SUM.SRC is the OR of its sources in every state a step leaves, from every state in which it is (R427). -/
def Obligations.SummaryIsTheOrOfItsSources : Prop :=
  ∀ s t : State, SummaryOk s → step s = .next t → SummaryOk t

/-- Reset: registers hold the Reset columns of the register tables (20, and each chapter's Registers), every stream is STOPPED,
every slot free, every tile, sequencer and tidemark empty, the memories canonical, and the summary right. -/
def Obligations.ResetState : Prop :=
  let s := State.reset
  (∀ off, s.rd off = regReset off) ∧ SummaryOk s ∧ Memory.wf s = true ∧ s.pending = []
  ∧ (∀ n : StreamIx, s.st n.val = 0 ∧ s.f (aStreamIntMask n.val) 0 6 = 63 ∧ s.f (aStreamJobRange n.val) 16 10 = 1023
      ∧ s.bit (aStreamCtl n.val) 8 = true ∧ s.stream n.val = Stream.init)
  ∧ (∀ g : RegionIx, s.f (aRegionClk g.val) 16 4 = 0 ∧ s.f (aRegionPwr g.val) 0 24 = 4096 ∧ s.bit (aRegionFctl g.val) 29 = true
      ∧ s.phase g.val = 0)
  ∧ s.f aExitStatus 0 13 = 4096 ∧ s.bit aPwrStatus 25 = true ∧ s.f aPwrStatus 28 4 = 0 ∧ s.f aPwrEbb 0 8 = 200
  ∧ s.f aThermCfg 0 8 = 95 ∧ s.f aThermCfg 8 8 = 105 ∧ s.bit aDbgLock 0 = true ∧ s.f aDbgLock 16 4 = 3 ∧ s.f aKeystoreCtl 16 4 = 4
  ∧ (∀ p : Fin 2, s.f (aEthPortCtl p.val) 16 16 = 1000) ∧ s.f aBasinEcc 0 16 = 256 ∧ s.bit aPwrCtl 8 = true ∧ s.rd aGlobalStatus = 0
  ∧ s.tiles = [] ∧ s.seqs = [] ∧ s.tms = [] ∧ s.images = [] ∧ s.mem.basin = Ram.init ∧ s.mem.dram = Ram.init ∧ s.outbox = []

/-! ### Host accesses (20, 17, 12) -/

/-- R424: a write narrower than 32 bits, or a misaligned write, is discarded and sets ACC_BAD; nothing else changes. R424: an
aligned 64-bit write is applied as two 32-bit writes, the low word first, and a 32-bit one as itself. A PF write to a stream
page register without an action of its own: dropped whole where a field would take a reserved encoding (R10), ignored where
no register stands (R423), else stored under the access codes. Nothing else changes. -/
def Obligations.RegisterWritesOfTheHost : Prop :=
  (∀ (fn : Fn) (off width : Nat) (d : DWord) (s : State), fn.wellFormed = true →
      (width = 8 ∨ width = 16 ∨ ((width = 32 ∨ width = 64) ∧ off % (width / 8) ≠ 0)) → off + width / 8 ≤ 0x4000000 →
      ∃ t, exec (.registerWrite fn off width d) s = .next t ∧ OnlyRegs s t ∧ RegsBut [aGlobalStatus] s t
        ∧ t.bit aGlobalStatus 29 = true ∧ ∀ i < 32, i ≠ 29 → t.bit aGlobalStatus i = s.bit aGlobalStatus i)
  ∧ (∀ (off : Nat) (d : DWord) (s : State), off % 4 = 0 → off + 8 ≤ 0x4000000 → s.f aPwrStatus 28 4 ≠ 2 →
      exec (.registerWrite .pf off 32 d) s = .next (signal s (regWrite .pf off (d.setWidth 32) s))
      ∧ (off % 8 = 0 → exec (.registerWrite .pf off 64 d) s
          = .next (signal s (regWrite .pf (off + 4) ((d >>> 32).setWidth 32) (regWrite .pf off (d.setWidth 32) s)))))
  ∧ (∀ (n : StreamIx) (rel : Nat) (w : Word) (s : State), Served s → rel % 4 = 0 → rel < 0x1000 →
      rel ∉ [0, 0x2C, 0x4C, 0x1F4] →
      let off := streamPage n.val + rel
      exec (.registerWrite .pf off 32 (w.setWidth 64)) s = .next (signal s (
        if (regAt off).isNone then s
        else if !fieldsLegal off w.toNat || locked none off w.toNat s then reject none off s
        else s.wr off (BitVec.ofNat 32 (written off (s.rd off).toNat w.toNat)))))

/-- What a write leaves of each bit of a register: RW, RWS and open RWL fields take it, a 1 clears a W1C bit, every other bit
keeps its value, and so do reserved bits (R7, R9, R12). -/
def Obligations.AccessCodesDecideEveryBit : Prop :=
  ∀ (off old v i : Nat) (r : RegSpec), regAt off = some r → old < 2 ^ 32 → i < 32 →
    let has := fun (as : List Acc) => r.fields.any (fun f => as.contains f.acc && decide (f.lo ≤ i ∧ i ≤ f.hi))
    (written off old v).testBit i =
      if has [.rw, .rws, .stop, .lock, .pf] then v.testBit i
      else if has [.w1c] then old.testBit i && !v.testBit i
      else old.testBit i

/-- R426: GLOBAL_STATUS.OFFSET and GLOBAL_REJECT record the first rejected write, of any function, and keep it; clearing
REG_REJECT returns them to zero; reading GLOBAL_STATUS clears nothing; a VF's rejected write is given at its window A offset.
A rejection changes no other register but those of the class C event it counts as (R11, R341). -/
def Obligations.FirstRejectionIsKept : Prop :=
  ∀ (vf : Option StreamIx) (n : StreamIx) (off rel : Nat) (v w : Word) (s : State),
    let t := reject (vf.map (·.val)) off s
    let page := streamPage n.val
    (off < 2 ^ 26 → OnlyRegs s t
      ∧ RegsBut [aGlobalStatus, aGlobalReject, aFaultCCount 0x13, 0x12400, 0x12404, 0x12408, 0x1240C] s t
      ∧ t.bit aGlobalStatus 31 = true
      ∧ (s.bit aGlobalStatus 31 = true → t.rd aGlobalStatus = s.rd aGlobalStatus ∧ t.rd aGlobalReject = s.rd aGlobalReject)
      ∧ (s.bit aGlobalStatus 31 = false → t.f aGlobalStatus 0 26 = off ∧ t.bit aGlobalReject 31 = vf.isSome
          ∧ t.f aGlobalReject 0 8 = (vf.map (·.val)).getD 0)
      ∧ (t.rd (aFaultCCount 0x13)).toNat = min ((s.rd (aFaultCCount 0x13)).toNat + 1) (2 ^ 32 - 1))
    ∧ (∃ u, exec (.globalStatusClear v) s = .next u ∧ OnlyRegs s u ∧ RegsBut [aGlobalStatus, aGlobalReject] s u
      ∧ (∀ i, 29 ≤ i → i < 32 → u.bit aGlobalStatus i = (s.bit aGlobalStatus i && !nbit v.toNat i))
      ∧ u.f aGlobalStatus 26 3 = s.f aGlobalStatus 26 3
      ∧ u.f aGlobalStatus 0 26 = (if nbit v.toNat 31 then 0 else s.f aGlobalStatus 0 26)
      ∧ u.rd aGlobalReject = if nbit v.toNat 31 then 0 else s.rd aGlobalReject)
    ∧ (∃ u, exec (.counterLowRead .pf aGlobalStatus) s = .next u ∧ u.regs = s.regs)
    ∧ (Served s → 0 < n.val → rel % 4 = 0 → rel < 0x1000 → (regAt (page + rel)).isSome = true →
      fieldsLegal (page + rel) w.toNat = false →
      exec (.registerWrite (.vf n) (page + rel) 32 (w.setWidth 64)) s = .next (signal s (reject (some n.val) (page + rel) s)))

/-- A VF reaches its own stream page, its MSI-X table and the ferries its stream owns; it writes nothing else, and no rejection
is recorded (R423). R418: a write of the BMC to a register of the KEEL block is the write a PF makes; log entry 4 says that
one elsewhere does nothing. -/
def Obligations.VfAndSmbusWrites : Prop :=
  (∀ (n : StreamIx) (off : Nat) (d : DWord) (s : State), 0 < n.val → off % 4 = 0 → off + 4 ≤ 0x4000000 →
      ¬ (streamPage n.val ≤ off ∧ off < streamPage n.val + 0x1000) →
      ¬ (0x8000 ≤ off ∧ off < 0x8080) → ¬ (0x9000 ≤ off ∧ off < 0x9008) →
      (∀ f : FerryIx, ferryPage f.val ≤ off → off < ferryPage f.val + 0x100 → s.ferryOwner f.val ≠ some n.val) →
      exec (.registerWrite (.vf n) off 32 d) s = .next (signal s s))
  ∧ (∀ (off : Nat) (v : Word) (s : State),
      (0x10000 ≤ off → off < 0x20000 → off % 4 = 0 →
        exec (.smbusKeelWrite off v) s = .next (signal s (regWrite .pf off v s))
        ∧ exec (.registerWrite .pf off 32 (v.setWidth 64)) s = exec (.smbusKeelWrite off v) s)
      ∧ (¬ (0x10000 ≤ off ∧ off < 0x20000) → exec (.smbusKeelWrite off v) s = .next s))

/-- R387: a read of a counter's low word returns it and latches its high word for the reading function alone; a read of the high
word returns what that function latched and changes no latch; OBS_CTL.CLR, a warm and a cold reset leave every latch zero.
(The values of the PCIE_CNT counters are free: log entry 3.) -/
def Obligations.CounterHighWordIsLatched : Prop :=
  ∀ (fn : Fn) (c : Nat) (smb : BitVec 2) (s : State),
    let w := wakeRegion c s
    let v := (w.cntNow c).1
    let key := fun (g : Fn) (k : Nat) => fnNum g * 2 ^ 26 + k
    let t := { (w.cntNow c).2 with latches := tset 0 s.latches (key fn c) (BitVec.ofNat 32 (v.toNat / 2 ^ 32)) }
    (fn.wellFormed = true → c % 8 = 0 → c < 2 ^ 26 → counterAt c = some c → counterAt (c + 4) = some c → s.seesReg fn c = true →
      s.seesReg fn (c + 4) = true → Served s → isMsix c = false →
      exec (.counterLowRead fn c) s = .next (signal s (t.emit (.data (fnNum fn) (toBytes 4 (v.toNat % 2 ^ 32)))))
      ∧ exec (.counterLowRead fn (c + 4)) s
          = .next (signal s (w.emit (.data (fnNum fn) (toBytes 4 (tget 0 s.latches (key fn c)).toNat))))
      ∧ tget 0 t.latches (key fn c) = BitVec.ofNat 32 (v.toNat / 2 ^ 32)
      ∧ ∀ (g : Fn) (k : Nat), g.wellFormed = true → k < 2 ^ 26 → (g ≠ fn ∨ k ≠ c) →
          tget 0 t.latches (key g k) = tget 0 s.latches (key g k))
    ∧ (Served s → s.bit aDbgLock 0 = false → ∃ u, exec .obsClr s = .next u ∧ u.latches = [])
    ∧ (∃ u, exec .warmReset s = .next u ∧ u.latches = []) ∧ ∃ u, exec (.porRelease smb) s = .next u ∧ u.latches = []

/-- R425, R427: a read too late sets ACC_TIMEOUT and returns zero data; a write to GLOBAL_INT_MASK takes its ten bits. -/
def Obligations.LateReadsAndInterruptMask : Prop :=
  ∀ (off : Nat) (v : Word) (s : State),
    (0x200000 ≤ off → off + 4 ≤ 0x390000 → s.f (aRegionClk ((off - 0x200000) / 0x10000)) 16 4 ≠ 0 →
      exec (.accessTimeout .pf off) s = .next (signal s ((s.setB aGlobalStatus 30 true).emit (.data 0 [0, 0, 0, 0]))))
    ∧ exec (.globalIntMaskWrite v) s
        = .next (signal s (s.wr aGlobalIntMask (s.rd aGlobalIntMask &&& 0xFFFFFC00 ||| v &&& 0x3FF)))

/-- Window B is the basin byte by byte (R263, R424): a write stores its bytes and no other byte of any memory changes; a read of
clean words returns the bytes and changes no memory. Window C (R271, R277, R278): the first write to an untouched page starts
its zero-fill and waits for it; a write to a touched page stores its bytes; a read of an untouched page returns zero and
leaves the touched map; an access that lies beyond usable capacity reads zero, is not written, and sets OOR. R372: an access
to the pipeline die in DOZE waits for the wake it begins, and RUN, both locks and every waiting access, in order, come with
the wake's end. -/
def Obligations.WindowsAndAccessesInDoze : Prop :=
  (∀ (off len : Nat) (data : List Byte) (s : State), s.bit aPwrStatus 25 = true → s.f aPwrStatus 28 4 ≠ 2 →
      (data ≠ [] → off + data.length ≤ basinSize →
        ∃ t, exec (.hostWindowBAccess (.write off data)) s = .next t
          ∧ (∀ a, t.mem.basin.byte a = if off ≤ a ∧ a < off + data.length then (data[a - off]?).getD 0 else s.mem.basin.byte a)
          ∧ t.mem.dram = s.mem.dram ∧ t.hostMem = s.hostMem ∧ t.counters = s.counters
          ∧ RegsBut ((List.range 16).map aBasinEccBank ++ [aFaultCCount 0x04, 0x12400, 0x12404, 0x12408, 0x1240C]) s t)
      ∧ (0 < len → off + len ≤ basinSize →
        (∀ w, w * 8 < off + len → off < w * 8 + 8 → s.mem.basin.state w = .clean) →
        exec (.hostWindowBAccess (.read off len)) s
          = .next (signal s (s.emit (.data 0 ((List.range len).map (fun i => s.mem.basin.byte (off + i))))))))
  ∧ (∀ (off len : Nat) (data : List Byte) (s : State), s.bit aPwrStatus 25 = true → s.f aPwrStatus 28 4 ≠ 2 →
      let d := s.f aMemAper 0 5 * 2 ^ 30 + off
      off + len ≤ 2 ^ 34 → 0 < len → data.length = len →
      (d + len ≤ dramUsable → d / 4096 = (d + len - 1) / 4096 → (∀ f ∈ s.mem.fills, f.page ≠ d / 4096) →
        (d / 4096 ∈ s.mem.touched → ∃ t, exec (.hostWindowCAccess (.write off data)) s = .next t
          ∧ (∀ a, t.mem.dram.byte a = if d ≤ a ∧ a < d + len then (data[a - d]?).getD 0 else s.mem.dram.byte a)
          ∧ t.mem.touched = s.mem.touched ∧ t.mem.basin = s.mem.basin ∧ t.regs = s.regs)
        ∧ (d / 4096 ∉ s.mem.touched → (∃ t, exec (.hostWindowCAccess (.write off data)) s = .next t
            ∧ t.mem = { s.mem with fills := s.mem.fills ++ [⟨d / 4096, [(d, data, false)]⟩] } ∧ t.regs = s.regs)
          ∧ ∃ t, exec (.hostWindowCAccess (.read off len)) s = .next t ∧ t.mem = s.mem ∧ t.regs = s.regs
            ∧ .data 0 (List.replicate len 0) ∈ t.outbox))
      ∧ (dramUsable ≤ d →
        exec (.hostWindowCAccess (.write off data)) s = .next (signal s (s.setB aMemAper 31 true))
        ∧ ∃ t, exec (.hostWindowCAccess (.read off len)) s = .next t ∧ t.mem = s.mem
            ∧ t.bit aMemAper 31 = true ∧ RegsBut [aMemAper] s t ∧ .data 0 (List.replicate len 0) ∈ t.outbox))
  ∧ (∀ (off : Nat) (d : DWord) (s : State), s.f aPwrStatus 28 4 = 2 →
      (off % 4 = 0 → 0x40000 ≤ off → off + 4 ≤ 0x4000000 →
        exec (.registerWrite .pf off 32 d) s = .next (signal s { s with power := { s.power with
          waking := true, deferred := s.power.deferred ++ [.reg .pf off 32 (some d)] } }))
      ∧ (s.power.waking = true → s.power.deferred = [] → ∃ t, exec .dozeWakeComplete s = .next t
          ∧ t.f aPwrStatus 28 4 = 0 ∧ t.f aPwrCtl 0 4 = 0 ∧ t.bit aClkStatus 0 = true ∧ t.bit aClkStatus 1 = true
          ∧ t.power = { s.power with waking := false } ∧ RegsBut [aPwrStatus, aPwrCtl, aClkStatus] s t
          ∧ t.mem = s.mem ∧ t.tiles = s.tiles ∧ t.seqs = s.seqs ∧ t.streams = s.streams)
      ∧ (s.power.waking = true → ∀ w a, s.power.deferred = w ++ [a] → ∃ t u, exec .dozeWakeComplete s = .next t
          ∧ exec .dozeWakeComplete { s with power := { s.power with deferred := w } } = .next (signal s u)
          ∧ t = signal s (finishAccess u a)))

/-! ### Ingest and the ports (02) -/

/-- The host path rings of port p (R33). A head or tail index the ring has is stored, any other is dropped whole; a slot at TX
HEAD goes out whole and is marked DONE, one longer than 2,048 bytes is marked ERR as well and not sent; both advance HEAD.
The PCIe link (R37, R345): training shows width, rate and LINK_UP, and DEGRADED below x8 or 32 GT/s; what waited for the link
goes out in order. Loss of the link changes PCIE_LINK_STATUS and nothing else. -/
def Obligations.HostPathAndPcieLink : Prop :=
  (∀ (p : Fin 10) (ix : BitVec 12) (s : State),
      (Served s → exec (.hostpathRxHeadWrite p ix) s = .next (signal s (
          if onPath (s.hpSlots p.val) (s.f (aHostpathRx p.val) 0 12) (s.f (aHostpathRx p.val) 16 12) ix.toNat
          then s.setF (aHostpathRx p.val) 0 12 ix.toNat else reject none (aHostpathRx p.val) s)))
      ∧ (Served s → exec (.hostpathTxDoorbell p ix) s = .next (signal s (
          if ix.toNat < s.hpSlots p.val then s.setF (aHostpathTx p.val) 0 12 ix.toNat else reject none (aHostpathTx p.val) s)))
      ∧ (s.bit (aHostpathCtl p.val) 31 = true → s.f (aHostpathTx p.val) 16 12 ≠ s.f (aHostpathTx p.val) 0 12 →
          2 ≤ p.val → (∀ w, s.mem.basin.state w = .clean) →
          let a := s.hpTx p.val (s.f (aHostpathTx p.val) 16 12) % basinSize
          let len := (s.mem.basin.byte a).toNat + 256 * (s.mem.basin.byte (a + 1)).toNat
          let sent := Output.sent p.val ((List.range len).map (fun i => s.mem.basin.byte (a + 16 + i)))
          ∃ t, exec (.hostpathTxSend p) s = .next t
            ∧ t.f (aHostpathTx p.val) 16 12 = (s.f (aHostpathTx p.val) 16 12 + 1) % s.hpSlots p.val % 4096
            ∧ RegsBut [aHostpathTx p.val] s t
            ∧ (len ≤ 2048 → t = signal s { s with regs := t.regs, mem := t.mem, outbox := s.outbox ++ [sent] })
            ∧ (2048 < len → t = signal s { s with regs := t.regs, mem := t.mem })
            ∧ ∀ b, t.mem.basin.byte b = if a + 4 ≤ b ∧ b < a + 16
                then (if b = a + 4 then (if 2048 < len then 5 else 1) else 0) else s.mem.basin.byte b))
  ∧ (∀ (width : BitVec 4) (rate : BitVec 3) (s : State),
      (width = 1 ∨ width = 2 ∨ width = 4 ∨ width = 8 → 1 ≤ rate.toNat → rate.toNat ≤ 5 →
        (∀ p ∈ s.streams, p.2.held = [] ∧ p.2.waitq = [] ∧ p.2.ovf = 0 ∧ s.bit (aStreamStatus p.1) 7 = false) →
        ∃ t, exec (.pcieLinkTrained width rate) s = .next t ∧ RegsBut [aPcieLinkStatus] s t
          ∧ t.f aPcieLinkStatus 0 3 = rate.toNat ∧ t.f aPcieLinkStatus 4 4 = width.toNat ∧ t.bit aPcieLinkStatus 8 = true
          ∧ t.bit aPcieLinkStatus 9 = (s.bit aPcieLinkStatus 9 || decide (width.toNat < 8 ∨ rate.toNat < 5))
          ∧ (s.outbox ++ s.waiting) <+: t.outbox ∧ t.waiting = [])
      ∧ ∃ t, exec .pcieLinkDown s = .next t ∧ OnlyRegs s t ∧ RegsBut [aPcieLinkStatus] s t
          ∧ t.f aPcieLinkStatus 0 3 = 0 ∧ t.f aPcieLinkStatus 4 4 = 0 ∧ t.bit aPcieLinkStatus 8 = false
          ∧ t.bit aPcieLinkStatus 9 = s.bit aPcieLinkStatus 9)

/-- A flit as the link carries it holds every field and passes the CRC check (02, Lanes and framing): reading the fields of the
bits of a flit gives each field within its width. -/
def Obligations.FlitFieldsRoundTrip : Prop :=
  ∀ f : Flit,
    let w := f.bits
    let g := flitOf w
    g.type = f.type % 16 ∧ g.seq = f.seq % 256 ∧ g.chan = f.chan % 16 ∧ g.crChan = f.crChan % 16 ∧ g.crCount = f.crCount % 64
    ∧ g.grp = f.grp % 4 ∧ g.pay = f.pay ∧ g.side = f.side ∧ BitVec.ofNat 32 w.toNat = flitCrc w

/-- A causeway link (R39, R40, R42): training gives UP, the partner's values and an empty link with full credits; a flit that
fails its CRC is discarded and answered with a nak of the last good SEQ; a data flit takes the next SEQ, a credit and a place
in the replay buffer. -/
def Obligations.CausewayLink : Prop :=
  ∀ (l : Fin 4) (pos num : BitVec 2) (w : BitVec 352) (chan : Fin 16) (s : State),
    (s.bit (aCwyLinkStatus l.val) 0 = false → s.bit (aCwyLinkCtl l.val) 0 = true →
      ∃ t, exec (.cwyLinkTrained l pos num) s = .next t ∧ RegsBut [aCwyLinkStatus l.val] s t
        ∧ t.bit (aCwyLinkStatus l.val) 0 = true ∧ t.f (aCwyLinkStatus l.val) 4 2 = pos.toNat
        ∧ t.f (aCwyLinkStatus l.val) 6 2 = num.toNat ∧ t.bit (aCwyLinkStatus l.val) 3 = true
        ∧ t.link l.val = Cwy.init ∧ ∀ m, m ≠ l.val → t.link m = s.link m)
    ∧ (s.cwyUp l.val = true → (s.link l.val).rxq = [] → BitVec.ofNat 32 w.toNat ≠ flitCrc w →
      (s.link l.val).sentNaks < s.retryLimit l.val →
      ∃ t, exec (.causewayFlitReceive l w) s = .next t
        ∧ t.link l.val = { s.link l.val with sentNaks := (s.link l.val).sentNaks + 1 } ∧ t.regs = s.regs
        ∧ .flit l.val (Flit.bits ⟨4, ((s.link l.val).rxSeq + 255) % 256, 0, 0, 0, 0, 0, 0⟩) ∈ t.outbox)
    ∧ (∀ e es, s.cwyUp l.val = true → (s.link l.val).rxq = [] → (s.link l.val).resend = [] →
      (s.link l.val).replay.length < 128 → tget 0 (s.link l.val).spent chan.val < 64 →
      tget [] (s.link l.val).txq chan.val = e :: es → (s.chanCodec l.val chan.val).1 = 0 →
      ∃ t v, exec (.causewayFlitSend l chan) s = .next t ∧ .flit l.val v ∈ t.outbox ∧ BitVec.ofNat 32 v.toNat = flitCrc v
        ∧ (flitOf v).type = 1 ∧ (flitOf v).seq = (s.link l.val).txSeq % 256 ∧ (flitOf v).chan = chan.val
        ∧ (flitOf v).pay = e.pay ∧ (flitOf v).side = e.side
        ∧ (t.link l.val).txSeq = ((s.link l.val).txSeq + 1) % 256 ∧ (t.link l.val).replay = (s.link l.val).replay ++ [v]
        ∧ tget 0 (t.link l.val).spent chan.val = tget 0 (s.link l.val).spent chan.val + 1
        ∧ tget [] (t.link l.val).txq chan.val = es)

/-- The start of an ingest channel (R46): it runs only if its source is up, its stream is bound to a job and its geometry is
usable; otherwise START_ERR. A channel whose source or stream another one owns is dropped as a reserved encoding. The stop
(R49): EN clears, and RUNNING with it once no frame is in progress and none is held. Source links (02; R55): the links of a
locked source show LOCK and ALIGNED or LINK, those of one that is lost do not; the frame in progress of a channel on a lost
source is dropped, so the channel is between frames, and the channel stays enabled. A forwarded trigger edge leaves once, on
its master uplink (R28). -/
def Obligations.ChannelsAndSourceLinks : Prop :=
  (∀ (c : ChanIx) (s : State), Served s →
      (s.chRuns c.val = false → s.doubled c.val = true →
        exec (.ingestChannelStart c) s = .next (signal s (reject none (aIngestChCtl c.val) s)))
      ∧ (s.chRuns c.val = false → s.doubled c.val = false →
        ∃ t, exec (.ingestChannelStart c) s = .next t ∧ RegsBut [aIngestChCtl c.val, aIngestChStatus c.val] s t
          ∧ t.bit (aIngestChCtl c.val) 0 = true
          ∧ (∀ off ∈ [aIngestChFmt c.val, aIngestChGeom c.val, aIngestChSeg c.val, aIngestChPool c.val], t.act off = s.rd off)
          ∧ (let ok := s.sourceUp c.val && (s.stream (s.chStream c.val)).job.isSome && (geomOf (t.chCfg c.val)).ok (s.chLines c.val)
             t.bit (aIngestChStatus c.val) 0 = ok
             ∧ t.bit (aIngestChStatus c.val) 1 = (if ok then false else true)
             ∧ (ok = true → (t.chan c.val).frame = none) ∧ (t.chan c.val).pool = (s.chan c.val).pool))
      ∧ (s.chTrig c.val = none → ∃ t, exec (.ingestChannelStop c) s = .next t ∧ OnlyRegs s t
          ∧ RegsBut [aIngestChCtl c.val, aIngestChStatus c.val] s t ∧ t.bit (aIngestChCtl c.val) 0 = false
          ∧ t.bit (aIngestChStatus c.val) 0
              = (s.bit (aIngestChStatus c.val) 0 && ((s.chan c.val).frame.isSome || !(s.chan c.val).waits.isEmpty))))
  ∧ (∀ (l : Fin 8) (p : Fin 2) (s : State),
      (s.f (aCxpLinkCtl l.val) 0 4 ≠ 0 → s.f (aCxpLinkCtl l.val) 8 2 = 0 →
        exec (.sourceLinkUp (.cxp l)) s
          = .next (signal s ((s.setB (aCxpLinkStatus l.val) 0 true).setB (aCxpLinkStatus l.val) 1 true)))
      ∧ (s.f (aEthPortCtl p.val) 0 2 ≠ 0 →
        exec (.sourceLinkUp (.eth p)) s
          = .next (signal s ((s.setB (aEthPortStatus p.val) 0 true).setB (aEthPortStatus p.val) 1 (s.bit (aEthPortCtl p.val) 2))))
      ∧ (s.f (aCxpLinkCtl l.val) 8 2 = 0 → (∀ c < 32, s.chRuns c = true → s.chType c = 1 → s.chLink c ≠ l.val) →
        exec (.sourceLinkDown (.cxp l)) s
          = .next (signal s ((s.setB (aCxpLinkStatus l.val) 0 false).setB (aCxpLinkStatus l.val) 1 false)))
      ∧ (∀ (c : ChanIx) (f : Frame), s.chRuns c.val = true → s.chType c.val = 1 → s.chLink c.val = l.val →
        (s.chan c.val).frame = some f → f.held = false →
        ∃ t, exec (.sourceLinkDown (.cxp l)) s = .next t ∧ (t.chan c.val).frame = none
          ∧ t.bit (aIngestChCtl c.val) 0 = s.bit (aIngestChCtl c.val) 0)
      ∧ (l.val ∈ s.press.uplink → exec (.triggerPacketSend l) s
          = .next (signal s ({ s with press := { s.press with uplink := s.press.uplink.erase l.val } }.emit (.uplink l.val)))))

/-- Camera traffic (R29, R30, R33): a stream packet that no running channel owns sets OVERRUN; a CRC error counts; a frame that
no channel takes and that is not addressed to the port counts and is discarded; a packet of a block after the block is over
is discarded and counted (R32). Frames on their way in (R31, R48, R52): a held frame is admitted under the tag held for it
once the window takes it and counts as received; a row's payloads enter the fabric at its port, in order, as far as the port
has credits; a block whose missing packets do not come in time is over and drops its frame. -/
def Obligations.CameraFrames : Prop :=
  (∀ (l : Fin 8) (q : CxpPacket) (p : Fin 2) (f : EthFrame) (c : ChanIx) (s : State), s.bit aObsCtl 0 = false →
      (∀ bs, q.body = .line bs → s.bit (aCxpLinkStatus l.val) 0 = true → s.f (aCxpLinkCtl l.val) 4 3 = 0 →
        s.cxpOwned l.val = false → s.cxpIdle l.val q.streamId.toNat = none →
        ∃ t, exec (.cxpPacketReceive l q) s = .next t ∧ RegsBut [aCxpLinkStatus l.val] s t
          ∧ t.bit (aCxpLinkStatus l.val) 3 = true ∧ t.bit (aCxpLinkStatus l.val) 2 = (s.bit (aCxpLinkStatus l.val) 2 || !q.crcOk)
          ∧ t.cnt (cCxp l.val 0) = s.cnt (cCxp l.val 0) + 1
          ∧ t.cnt (cCxp l.val 1) = s.cnt (cCxp l.val 1) + (if q.crcOk then 0 else 1) ∧ t.chans = s.chans ∧ t.streams = s.streams)
      ∧ (s.bit (aEthPortStatus p.val) 0 = true → s.f (aEthPortCtl p.val) 3 3 = 0 → f.ipv4 = false → f.mac ≠ s.portMac p.val →
        f.mac.getLsbD 40 = false →
        ∃ t, exec (.ethFrameReceive p f) s = .next t ∧ t = signal s { s with counters := t.counters }
          ∧ t.cnt (cEth p.val 0) = s.cnt (cEth p.val 0) + 1 ∧ ∀ k, k ≠ cEth p.val 0 → t.cnt k = s.cnt k)
      ∧ (s.bit (aEthPortStatus p.val) 0 = true → s.f (aEthPortCtl p.val) 3 3 = 0 → s.gvspChan p.val f = some c.val →
        (f.ipv4 && f.frag) = false → s.chRuns c.val = true → (s.chan c.val).block = none → (∃ id line, f.gvsp = .data id line) →
        ∃ t, exec (.ethFrameReceive p f) s = .next t ∧ t = signal s { s with counters := t.counters }
          ∧ t.cnt (cChan c.val 4) = s.cnt (cChan c.val 4) + 1 ∧ t.cnt (cEth p.val 1) = s.cnt (cEth p.val 1) + 1))
  ∧ (∀ (c : ChanIx) (s : State),
      (∀ f fs, (s.chan c.val).waits = f :: fs → s.st (s.chStream c.val) = 1 → s.tagFits (s.chStream c.val) = true →
        s.chTrig c.val = none → (s.stream (s.chStream c.val)).pend = none → (s.stream (s.chStream c.val)).nextTag < 4096 →
        ∃ t, exec (.heldFrameAdmit c) s = .next t ∧ (t.chan c.val).waits = fs
          ∧ (t.stream (s.chStream c.val)).admitted = (s.stream (s.chStream c.val)).admitted ++ [(s.stream (s.chStream c.val)).nextTag]
          ∧ (t.stream (s.chStream c.val)).nextTag = ((s.stream (s.chStream c.val)).nextTag + 1) % 4096)
      ∧ (∀ (y : Fin 20) (e : Entry), (s.chan c.val).closeTo = [(y.val, e)] → (s.chan c.val).pool = [] → s.fabric.west = [] →
        tget 0 s.fabric.westUsed y.val < 16 → (∀ d < 32, d ≠ c.val → s.chan d = Chan.init) →
        s.gsr (regionOf (20 * y.val)) = false → s.purging (strOf e.side) = false → (s.lane (20 * y.val) 3 0).length < 16 →
        ∃ t, exec (.westEdgeRowSend c) s = .next t ∧ (t.chan c.val).closeTo = []
          ∧ t.lane (20 * y.val) 3 0 = s.lane (20 * y.val) 3 0 ++ [e]
          ∧ tget 0 t.fabric.westUsed y.val = tget 0 s.fabric.westUsed y.val + 1 ∧ t.regs = s.regs)
      ∧ (∀ b, (s.chan c.val).block = some b → b.missing ≠ [] → s.f (aEthPortCtl (s.chType c.val - 2)) 16 16 ≠ 0 →
        ∃ t, exec (.resendWaitExpiry c) s = .next t ∧ (t.chan c.val).block = none ∧ (t.chan c.val).lastBlock = some b.id))

/-! ### Streams (03, 04) -/

/-- A completion entry (R65, R66): the oldest thing of an idle path goes straight to the ring while it has a free place: 64 bytes
at the place of CQ_TAIL with SEQ, STREAM, KIND, PHASE and the words of a submission completion; CQ_TAIL then advances. Here
for a NOP entry (R63), which is read (SQ_HEAD advances) and completes DONE. Submission entries (R62 to R65): each is read
while the stream runs and no changeover or fence is open; a reserved value rejects it with REASON 1; a FENCE waits for the
last frame admitted, and completes when that frame's record is written; an EVENT outside the stream's tidemarks is rejected
with REASON 4, a valid one adds K and completes. That an event whose condition is not met changes nothing is the model's
choice (log entry 4). -/
def Obligations.SubmissionsAct : Prop :=
  (∀ (n : StreamIx) (e : SqEntry) (s : State), sqOp e = 0 → sqBits e = false → s.sqReads n.val = true →
      (s.stream n.val).held = [] → (s.stream n.val).waitq = [] → (s.stream n.val).ovf = 0 → s.cqRoom n.val = true →
      (s.stream n.val).cqSeq < 65536 →
      let x := s.stream n.val
      let w0 := x.cqSeq * 65536 + n.val * 256 + 16 + b2n x.phase
      let bytes := toBytes 4 w0 ++ toBytes 4 (sqCid e) ++ List.replicate 56 0
      let at_ := s.cqBase n.val + s.f (aCqTail n.val) 0 12 * 64
      ∃ t, exec (.sqNop n e) s = .next t
        ∧ (∀ a, tget 0 t.hostMem a = if at_ ≤ a ∧ a < at_ + 64 then (bytes[a - at_]?).getD 0 else tget 0 s.hostMem a)
        ∧ t.f (aCqTail n.val) 0 12 = (s.f (aCqTail n.val) 0 12 + 1) % s.cqSize n.val % 4096
        ∧ t.f (aSqHead n.val) 0 12 = (s.f (aSqHead n.val) 0 12 + 1) % s.sqSize n.val % 4096
        ∧ (t.stream n.val).cqSeq = (x.cqSeq + 1) % 65536 ∧ (t.stream n.val).held = [] ∧ t.mem = s.mem ∧ t.tiles = s.tiles)
  ∧ (∀ (n : StreamIx) (e : SqEntry) (s : State),
      let u := sqTake n.val s
      (s.sqReads n.val = true →
        u.f (aSqHead n.val) 0 12 = (s.f (aSqHead n.val) 0 12 + 1) % s.sqSize n.val % 4096 ∧ u.streams = s.streams
        ∧ (sqBits e = true → sqOp e ≠ 1 →
            exec (.sqReservedEntry n e) s = .next (signal s (complete n.val 1 (sqOp e) (sqCid e) 0 1 0 u)))
        ∧ (sqBits e = true → sqOp e = 1 →
            exec (.sqReservedEntry n e) s = .next (signal s ((complete n.val 1 1 (sqCid e) 0 1 0 u).cause n.val 3)))
        ∧ (sqBits e = false → sqOp e = 2 → exec (.fence n e) s
            = .next (signal s (u.setStream n.val { u.stream n.val with fence := some (sqCid e, ((s.stream n.val).lastAdmitted).getD 4096) })))
        ∧ (sqBits e = false → sqOp e = 3 → s.tmValid n.val (nbits e.w1.toNat 0 13) = false →
            exec (.event n e) s = .next (signal s (complete n.val 1 3 (sqCid e) 0 4 0 u)))
        ∧ (sqBits e = false → sqOp e = 3 → s.tmValid n.val (nbits e.w1.toNat 0 13) = true → nbits e.w2.toNat 0 24 ≠ 0 →
            exec (.event n e) s = .next (signal s (complete n.val 0 3 (sqCid e) 0 0 0
              (tmApply ⟨.host, nbits e.w1.toNat 0 13, n.val, some (nbits e.w2.toNat 0 24)⟩ (nbits e.w2.toNat 0 24) u)))))
      ∧ (∀ cid tag, (s.stream n.val).fence = some (cid, tag) → tag ∉ (s.stream n.val).admitted → tag < 4096 →
          exec (.fenceComplete n) s = .next (signal s (complete n.val 0 2 cid tag 0 0 (s.setStream n.val { s.stream n.val with fence := none }))))
      ∧ (∀ cid tag, (s.stream n.val).fence = some (cid, tag) → tag ∈ (s.stream n.val).admitted → exec (.fenceComplete n) s = .next s))

/-- A CHANGEOVER entry (R69 to R73): one whose job fails validation is rejected with its REASON and signalled; a valid one
becomes the stream's pending changeover, local and ready at once only if it keeps the layout and the patch set. A changeover
on its way (R73 to R76): the group is ready once all its pending changeovers agree, and asks for the barrier; it is committed
in every stream of its use once every region has added; it is in force when the patch set is applied, and the stream's job is
the new one. CO_CANCEL ends one that is not committed, in RUNNING, as REJECTED with REASON 6. -/
def Obligations.Changeovers : Prop :=
  (∀ (n : StreamIx) (e : SqEntry) (r : Nat) (j : JobCtx) (v s : State), sqOp e = 1 → sqBits e = false → s.sqReads n.val = true →
      validate n.val (nbits e.w1.toNat 0 10) (sqTake n.val s) = (r, j, v) →
      (r ≠ 0 → exec (.changeover n e) s
        = .next (signal s ((complete n.val 1 1 (sqCid e) 0 r (nbits e.w1.toNat 0 10) v).cause n.val 3)))
      ∧ (r = 0 → ∃ t p, exec (.changeover n e) s = .next t ∧ (t.stream n.val).pend = some p ∧ p.cid = sqCid e ∧ p.ctx = j
        ∧ p.applying = false ∧ p.inForce = false ∧ p.firstTag = none ∧ p.ready = p.isLocal
        ∧ p.atTag = (if nbit e.w1.toNat 31 then some (nbits e.w2.toNat 0 12) else none)
        ∧ (p.isLocal = true ↔ ∃ o, (s.stream n.val).job = some o ∧ o.layout = j.layout ∧ o.layoutId = j.layoutId ∧ o.patches = j.patches)
        ∧ t.bit (aStreamStatus n.val) 8 = true ∧ (t.stream n.val).job = (s.stream n.val).job))
  ∧ (∀ (n : StreamIx) (p : Pend) (s : State), (s.stream n.val).pend = some p →
      (p.applying = false → p.inForce = false → p.isLocal = false → p.ready = false → s.isExchange n.val p.ctx = false →
        (∀ m ∈ s.groupOf n.val p, ∃ q, s.waitingPend m = some q ∧ agree p q = true) →
        ∃ t, exec (.changeoverGroupReady n) s = .next t
          ∧ t.uses = s.uses ++ [⟨p.ctx.layout, true, s.groupOf n.val p, []⟩] ∧ t.regs = s.regs
          ∧ (∀ m ∈ s.groupOf n.val p, ∃ q, (s.stream m).pend = some q
              ∧ (t.stream m).pend = some { q with ready := true, isLocal := false }))
      ∧ (∀ u, p.applying = false → p.inForce = false → p.isLocal = false → p.ready = true →
          s.changeDone p.ctx.layout = some u → s.useExchange u = false → u.streams = [n.val] →
        ∃ t, exec (.changeoverApply n) s = .next t ∧ t.uses = s.uses.filter (fun v => v != u)
          ∧ (t.stream n.val).pend = some { p with applying := true, firstTag := some (p.firstTag.getD (s.stream n.val).nextTag) }
          ∧ t.f (aStreamStatus n.val) 8 2 = 0)
      ∧ (p.applying = true → p.inForce = false → s.patched p.ctx.layout = true →
        ∃ t, exec (.patchSetApplied n) s = .next t ∧ (t.stream n.val).job = some p.ctx
          ∧ t.f (aStreamStatus n.val) 10 10 = p.ctx.slot % 1024)
      ∧ (p.applying = false → p.inForce = false → p.ready = false → Served s → s.st n.val = 1 →
        ∃ t, exec (.coCancel n) s = .next t ∧ (t.stream n.val).pend = none ∧ t.bit (aStreamStatus n.val) 8 = false
          ∧ t.st n.val = 1 ∧ (t.stream n.val).job = (s.stream n.val).job))

/-- STREAM_CTL (R78 to R80): START runs a STOPPED stream on its validated job, and sets START_ERR where the job fails; STOP takes
a running stream to STOPPING and asks for the barrier, and STOP_COMPLETE to STOPPED; DRAIN and ABORT ask for the drain point,
ABORT with a journal entry; in other states they do nothing. Ring indices (R67, R68): a tail within the ring is stored and a
head on the path between the old head and the tail frees its entries; any other is dropped whole; the coalescing timer
signals what is unsignalled. A VF reaches its own rings. That an event whose condition is not met changes nothing is the
model's choice (log entry 4). -/
def Obligations.StreamControlAndRings : Prop :=
  (∀ (n : StreamIx) (r : Nat) (j : JobCtx) (im : Image) (s : State), Served s →
      (s.st n.val = 0 → validate n.val (s.f (aStreamJob n.val) 0 10) s = (r, j, s) → r ≠ 0 →
        exec (.start n) s = .next (signal s (s.setB (aStreamStatus n.val) 6 true)))
      ∧ (s.st n.val = 0 → validate n.val (s.f (aStreamJob n.val) 0 10) s = (0, j, s) → s.image j.layout = some im →
        im.active = im.regions → s.alteringOn j.layout = false →
        ∃ t, exec (.start n) s = .next t ∧ t.st n.val = 1 ∧ (t.stream n.val).job = some j ∧ (t.stream n.val).inspect = 0
          ∧ (t.stream n.val).loading = false ∧ t.bit (aStreamStatus n.val) 5 = false
          ∧ t.f (aStreamStatus n.val) 10 10 = s.f (aStreamJob n.val) 0 10 ∧ t.pressCtx n.val = j
          ∧ (t.stream n.val).nextTag = (if s.bit (aStreamCtl n.val) 10 then s.f (aStreamCtl n.val) 20 12 else (s.stream n.val).nextTag)
          ∧ t.tiles = s.tiles ∧ t.mem = s.mem)
      ∧ (s.st n.val ≠ 0 → exec (.start n) s = .next (signal s s))
      ∧ (s.st n.val = 1 → (s.stream n.val).pend = none → (s.stream n.val).job = some j → s.uses = [] →
        ∃ t, exec (.stop n) s = .next t ∧ t.st n.val = 2 ∧ t.uses = [⟨j.layout, false, [n.val], []⟩]
          ∧ RegsBut [aStreamStatus n.val] s t ∧ t.streams = s.streams)
      ∧ (s.st n.val = 2 → (s.stream n.val).drainReq = none → (s.stream n.val).admitted = [] → (s.stream n.val).pend = none →
        (s.stream n.val).fence = none → s.stopped n.val = true →
        ∃ t, exec (.stopComplete n) s = .next t ∧ t.st n.val = 0 ∧ (∀ u ∈ t.uses, u.change = true ∨ n.val ∉ u.streams))
      ∧ (s.st n.val = 1 ∨ s.st n.val = 2 → (s.stream n.val).drainReq = none →
        exec (.drain n) s = .next (signal s (s.setStream n.val { s.stream n.val with drainReq := some .drain }))
        ∧ ∃ t, exec (.abort n) s = .next t ∧ (t.stream n.val).drainReq = some .abort ∧ t.regs = s.regs
            ∧ t.journal.nextA = s.journal.nextA + 1 ∧ t.journal.seq = s.journal.seq + 1)
      ∧ (s.st n.val = 0 → exec (.drain n) s = .next (signal s s) ∧ exec (.abort n) s = .next (signal s s)
        ∧ exec (.stop n) s = .next (signal s s) ∧ exec (.coCancel n) s = .next (signal s s)))
  ∧ (∀ (fn : Fn) (n : StreamIx) (ix : BitVec 12) (s : State), fn.wellFormed = true → Served s →
      (fn = .pf ∨ fn = .vf n →
        exec (.sqDoorbell fn n ix) s = .next (signal s (
          if ix.toNat < s.sqSize n.val then s.setF (aSqTail n.val) 0 12 ix.toNat else reject (fnStream fn) (aSqTail n.val) s))
        ∧ (onPath (s.cqSize n.val) (s.f (aCqHead n.val) 0 12) (s.f (aCqTail n.val) 0 12) ix.toNat = false →
          exec (.cqHeadWrite fn n ix) s = .next (signal s (reject (fnStream fn) (aCqHead n.val) s)))
        ∧ (onPath (s.cqSize n.val) (s.f (aCqHead n.val) 0 12) (s.f (aCqTail n.val) 0 12) ix.toNat = true →
          (s.stream n.val).held = [] → (s.stream n.val).waitq = [] → (s.stream n.val).ovf = 0 →
          ∃ t, exec (.cqHeadWrite fn n ix) s = .next t ∧ t.f (aCqHead n.val) 0 12 = ix.toNat
            ∧ RegsBut [aCqHead n.val, aStreamStatus n.val] s t ∧ t.bit (aStreamStatus n.val) 7 = false ∧ t.hostMem = s.hostMem))
      ∧ ((∀ m, fn = .vf m → m ≠ n) → fn ≠ .pf → exec (.sqDoorbell fn n ix) s = .next s ∧ exec (.cqHeadWrite fn n ix) s = .next s)
      ∧ (0 < (s.stream n.val).unsig → s.f (aStreamIntCoal n.val) 8 16 ≠ 0 →
        ∃ t, exec (.cqCoalesceTimer n) s = .next t ∧ (t.stream n.val).unsig = 0 ∧ t.bit (aStreamIntCause n.val) 0 = true
          ∧ RegsBut [aStreamIntCause n.val] s t))

/-! ### The fabric (05 to 08) -/

/-- Sending on a link (R106, R107, R114): an OQ that owns the slot sends its oldest entry while it holds a credit, and spends
one; without a credit, or with nothing to send, no entry moves. Nothing but that OQ, its credits, the link and a count
changes. -/
def Obligations.OutputQueueSendsOnItsSlot : Prop :=
  ∀ (t : TileIx) (d : Fin 4) (k : Fin 15) (q : Fin 8) (s : State),
    s.sw t.val d.val k.val = (true, 4, q.val) → s.maySend t.val d.val = true →
    ∃ u, exec (.linkSend t d k) s = .next u
      ∧ u = signal s { s with tiles := u.tiles, fabric := u.fabric, counters := u.counters }
      ∧ (∀ e rest, s.oq t.val q.val = e :: rest → s.oqUsed t.val q.val < s.oqCredits t.val q.val →
          u.wire t.val d.val = s.wire t.val d.val ++ [(k.val, e)] ∧ u.oq t.val q.val = rest
          ∧ u.oqUsed t.val q.val = s.oqUsed t.val q.val + 1
          ∧ (∀ r, r ≠ q.val → u.oq t.val r = s.oq t.val r ∧ u.oqUsed t.val r = s.oqUsed t.val r)
          ∧ (∀ v, v ≠ t.val → u.tile v = s.tile v))
      ∧ (s.oq t.val q.val = [] ∨ s.oqCredits t.val q.val ≤ s.oqUsed t.val q.val → u.tiles = s.tiles ∧ u.fabric = s.fabric)

/-- An entry that arrives within its region on a slot bound to an IQ with room is appended to that IQ, and leaves the link (R104,
R108); a boundary lane bound to an IQ moves its head into it on one of the lane's 64 credits, and the sender of the lane gets
its credit back (R112, R114). A full IQ that takes one more entry raises QUEUE_PROTOCOL of class G against its tile, and the
entry is not appended (R93). -/
def Obligations.EntriesReachTheirQueue : Prop :=
  (∀ (t n : TileIx) (d : Fin 4) (k : Fin 15) (q : Fin 8) (e : Entry) (rest : List Entry) (wrest : List (Nat × Entry)) (s : State),
      s.live (regionOf t.val) = true → s.purging (strOf e.side) = false → (s.iq n.val q.val).length < 64 →
      s.ringOf n.val q.val = none → s.watcher n.val q.val = none →
      (s.wire t.val d.val = (k.val, e) :: wrest → neighbour t.val d.val = some n.val → regionOf n.val = regionOf t.val →
        s.iqFor n.val (opp d.val) k.val = some q.val →
        exec (.linkEntryArrive t d) s
          = .next (signal s ((s.setWire t.val d.val wrest).setIq n.val q.val (s.iq n.val q.val ++ [e]))))
      ∧ (n = t → boundary t.val d.val = true → s.iqFor t.val d.val k.val = some q.val → s.lane t.val d.val k.val = e :: rest →
        s.laneUsed t.val d.val k.val < 64 →
        ∃ u, exec (.boundaryLaneMove t d k) s = .next u ∧ u.iq t.val q.val = s.iq t.val q.val ++ [e]
          ∧ u.lane t.val d.val k.val = rest ∧ u.laneUsed t.val d.val k.val = s.laneUsed t.val d.val k.val + 1
          ∧ u.fabric.back = s.fabric.back ++ (match s.laneSender t.val d.val k.val with | some c => [(c, 1)] | none => [])
          ∧ u.regs = s.regs ∧ u.mem = s.mem))
  ∧ (∀ (t n : TileIx) (d : Fin 4) (k : Fin 15) (q : Fin 8) (e : Entry) (wrest : List (Nat × Entry)) (s : State),
      s.live (regionOf t.val) = true → s.purging (strOf e.side) = false → 64 ≤ (s.iq n.val q.val).length →
      s.ringOf n.val q.val = none → s.wire t.val d.val = (k.val, e) :: wrest → neighbour t.val d.val = some n.val →
      regionOf n.val = regionOf t.val → s.iqFor n.val (opp d.val) k.val = some q.val →
      let x : FaultAt := { cls := 2, code := 0x02, stream := some (strOf e.side), frame := some (frameOf e.side),
                           region := regionOf n.val, tile := n.val, unit := 8, detail := q.val }
      exec (.linkEntryArrive t d) s = .next (signal s (raiseG x (regionOf n.val) (s.setWire t.val d.val wrest))))

/-- Credits on their way (R114) reach the OQ that spent them, and nothing else changes; a management packet takes one hop toward
its destination, X first, the one of least rank ahead of the others, which lose a turn (R110). The undertow (R118 to R121): a
group found stuck whose one full IQ has room in its ring spills all but its oldest eight entries; the freed credits return
and SPILLS counts when the spill completes; an IQ with space takes the oldest entry of its ring. -/
def Obligations.CreditsPacketsAndUndertow : Prop :=
  (∀ (t n : TileIx) (d : Fin 4) (q : Fin 8) (k m i : Nat) (p : MPkt) (s : State),
      (s.fabric.back[k]? = some (sOq t.val q.val, m) →
        ∃ u, exec (.creditReturn k) s = .next u ∧ u.oqUsed t.val q.val = s.oqUsed t.val q.val - m
          ∧ u.fabric = { s.fabric with back := s.fabric.back.eraseIdx k } ∧ (∀ v, v ≠ t.val → u.tile v = s.tile v)
          ∧ u = signal s { s with tiles := u.tiles, fabric := u.fabric })
      ∧ (s.live (regionOf t.val) = true → neighbour t.val d.val = some n.val → grant t.val d.val s.fabric.pkts = some i →
        s.fabric.pkts[i]? = some p → n.val ≠ p.dst →
        ∃ u, exec (.managementPacketHop t d) s = .next u ∧ u.tiles = s.tiles ∧ u.regs = s.regs
          ∧ u.fabric = { s.fabric with pkts := u.fabric.pkts }
          ∧ u.fabric.pkts = (s.fabric.pkts.eraseIdx i).map (fun x =>
              if x.at_ = t.val ∧ nextHop t.val x.dst = some d.val then { x with lost := x.lost + 1 } else x)
            ++ [{ p with at_ := n.val, lost := 0 }]))
  ∧ (∀ (grp : Fin 16) (t : TileIx) (q : Fin 8) (s : State), s.bit aObsCtl 0 = false →
      (s.bit (aUndertowGrpCfg grp.val) 31 = true → s.stuck grp.val = true → (s.grp grp.val).spilling = false →
        (s.grp grp.val).rings = [] → s.fullIqs grp.val = [(t.val, q.val)] → (s.qbind t.val q.val).bound = true →
        (s.qbind t.val q.val).dyn = true → (s.qbind t.val q.val).group = grp.val → (s.iq t.val q.val).length = 64 →
        56 ≤ s.ringCap grp.val → (∀ w, s.mem.basin.state w = .clean) →
        ∃ u, exec (.undertowStuck grp) s = .next u ∧ u.iq t.val q.val = (s.iq t.val q.val).take 8
          ∧ (u.grp grp.val).rings = [(t.val, q.val, (s.iq t.val q.val).drop 8)] ∧ (u.grp grp.val).spilling = true
          ∧ (u.grp grp.val).moved = [(t.val, q.val, 56)] ∧ u.bit (aUndertowGrpStatus grp.val) 0 = true
          ∧ u.bit (aUndertowGrpStatus grp.val) 1 = true ∧ u.cnt (cUnder grp.val 0) = s.cnt (cUnder grp.val 0) + 56)
      ∧ ((s.grp grp.val).spilling = true → (s.grp grp.val).moved = [(t.val, q.val, 56)] →
        ∃ u, exec (.undertowSpillComplete grp) s = .next u ∧ (u.grp grp.val).spilling = false ∧ (u.grp grp.val).moved = []
          ∧ u.fabric.back = s.fabric.back ++ (match s.iqSender t.val q.val with | some c => [(c, 56)] | none => [])
          ∧ u.bit (aUndertowGrpStatus grp.val) 0 = false
          ∧ u.f (aUndertowGrpStatus grp.val) 16 16 = min (s.f (aUndertowGrpStatus grp.val) 16 16 + 1) 65535
          ∧ RegsBut [aUndertowGrpStatus grp.val] s u ∧ u.tiles = s.tiles)
      ∧ (∀ n i e es, s.ringOf t.val q.val = some (n, i, e :: es) → (s.iq t.val q.val).length < 64 →
        ∃ u, exec (.undertowRefill t q) s = .next u ∧ u.iq t.val q.val = s.iq t.val q.val ++ [e]
          ∧ (u.grp n).rings = (s.grp n).rings.set i (t.val, q.val, es) ∧ u.cnt (cUnder n 1) = s.cnt (cUnder n 1) + 1))

/-! ### Tiles and engines (04 to 09) -/

/-- The word sequencer (R90, R124 to R134, R223): a pending start begins once the replay before it is over; patches are applied
between replays; a word issues when each engine it names has an unbound command, binds the first of each, updates x and c as
its IDX slot says and goes on as its header says; one with a reserved encoding is ILLEGAL_WORD and stops the replay. That an
event whose condition is not met changes nothing is the model's choice (log entry 4). -/
def Obligations.TileWordsAndReplays : Prop :=
  ∀ (t : TileIx) (s : State),
    let x := s.tile t.val
    (s.runs t.val = true → x.replay = none →
      (∀ n pc, x.pendStart = some (n, pc, 0) → x.dead = false → ∃ u tr, exec (.replayStart t) s = .next u ∧ u.regs = s.regs
        ∧ u.tile t.val = { x with pendStart := none, replay := some (n, pc, x.replayNo), replayNo := x.replayNo + 1,
                                  open_ := x.open_ ++ [(x.replayNo, n, false)], trace := tr })
      ∧ (∀ r v no rest, x.patches = (r, v, no) :: rest → x.pendStart = none → ∃ u, exec (.tilePatchApply t) s = .next u
        ∧ u.regs = s.regs ∧ (u.tile t.val).patches = rest ∧ (u.tile t.val).queue = x.queue
        ∧ ∀ i, tget 0 (u.tile t.val).u i = if i = r then v else tget 0 x.u i))
    ∧ (x.replay ≠ none → exec (.replayStart t) s = .next s ∧ exec (.tilePatchApply t) s = .next s)
    ∧ (∀ n a no, x.replay = some (n, a, no) → s.runs t.val = true → x.dead = false → x.synWait = none → x.dhalt = false →
      s.bit (aTileDbgCtl t.val) 29 = false → x.wordLost a = false →
      let w := x.word a
      let h := wHeader w
      let i := wIdx w
      let dest := nbits h 1 9
      let c := tget false x.c (nbits h 10 3)
      let reads := fun (r : Nat) => tget 0 x.x r
      let go : Option Nat := if h / 2 ^ 13 = 0 then some (a + 1) else if h / 2 ^ 13 = 1 then some (if c then dest else a + 1)
        else if h / 2 ^ 13 = 2 then some (if c then a + 1 else dest) else if h / 2 ^ 13 = 3 then some dest else none
      let ready := ∀ e < 4, slotOp e (wSlot e w) ≠ 0 → ∃ q ∈ x.queue e, q.bound = none
      (∀ p, wordBad x.desc a w = some p → go ≠ some 496 → ∃ u, exec (.tileWordIssue t) s = .next u
        ∧ u = signal s (illegalWord t.val n a p s) ∧ (u.tile t.val).dead = true)
      ∧ (wordBad x.desc a w = none → go ≠ some 496 → ¬ ready → exec (.tileWordIssue t) s = .next s)
      ∧ (wordBad x.desc a w = none → go ≠ some 496 → ready → nbits (wSyn w) 20 4 ≠ 3 → ∃ u, exec (.tileWordIssue t) s = .next u
        ∧ u.regs = s.regs ∧ u.mem = s.mem ∧ (u.tile t.val).replay = go.map (fun b => (n, b, no))
        ∧ (∀ e < 4, ((u.tile t.val).queue e).map (·.cmd) = (x.queue e).map (·.cmd)
          ∧ (slotOp e (wSlot e w) = 0 → (u.tile t.val).queue e = x.queue e)
          ∧ (slotOp e (wSlot e w) ≠ 0 → ∀ q f r, x.queue e = q ++ f :: r → (∀ y ∈ q, y.bound ≠ none) → f.bound = none →
              ∃ f', (u.tile t.val).queue e = q ++ f' :: r ∧ f'.run = f.run
                ∧ f'.bound.map (fun b => (b.word, b.slot, b.stream, b.replay)) = some (a, wSlot e w, n, no)))
        ∧ (∀ p ∈ ([(1, reads (nbits i 20 4) + BitVec.ofNat 16 i), (2, reads (nbits i 20 4) + reads (nbits i 16 4)),
            (3, reads (nbits i 20 4) - reads (nbits i 16 4)), (4, reads (nbits i 20 4) * BitVec.ofNat 16 i),
            (5, (tget 0 x.u (nbits i 0 6)).setWidth 16), (6, BitVec.ofNat 16 i), (12, reads (nbits i 20 4) >>> nbits i 0 4),
            (13, reads (nbits i 20 4) &&& BitVec.ofNat 16 i)] : List (Nat × BitVec 16)), nbits i 28 4 = p.1 →
            ∀ r, tget 0 (u.tile t.val).x r = if r = nbits i 24 4 then p.2 else reads r)
        ∧ (∀ p ∈ ([(7, decide (reads (nbits i 20 4) < reads (nbits i 16 4))), (8, decide (reads (nbits i 20 4) = reads (nbits i 16 4))),
            (9, decide (reads (nbits i 20 4) < BitVec.ofNat 16 i)),
            (10, tget false x.c (nbits i 20 3) && tget false x.c (nbits i 16 3)), (11, !tget false x.c (nbits i 20 3))]
            : List (Nat × Bool)), nbits i 28 4 = p.1 →
            ∀ r, tget false (u.tile t.val).c r = if r = nbits i 24 4 % 8 then p.2 else tget false x.c r)))

/-- Every engine row (R96 to R98, R135 to R138, R142, R162, R168): the first command of its engine's queue that fires starts its
run with the key of its match set and makes its first step, which pops one entry from each IQ of the match set and from no
other; a command without steps pops nothing. -/
def Obligations.EngineRowsFire : Prop :=
  ∀ (t : TileIx) (c : QCmd) (b : Bound) (rest : List QCmd) (k : Word) (s : State),
    ∀ p ∈ ([(.ldLdq t, 2, 1), (.ldLdw t, 2, 2), (.ldLdt t, 2, 3), (.stStq t, 3, 1), (.stStl t, 3, 2), (.vecAdd t, 1, 1),
      (.vecSub t, 1, 2), (.vecMul t, 1, 3), (.vecMax t, 1, 4), (.vecMin t, 1, 5), (.vecCmpgt t, 1, 6), (.vecSel t, 1, 7),
      (.vecAbs t, 1, 8), (.vecShr t, 1, 9), (.vecRq t, 1, 10), (.vecAct t, 1, 11), (.vecRsum t, 1, 12), (.vecRmax t, 1, 13),
      (.vecCvt t, 1, 14), (.vecAnd t, 1, 15), (.vecOr t, 1, 16), (.vecXor t, 1, 17), (.vecMov t, 1, 18), (.matWload t, 0, 1),
      (.matMma t, 0, 2), (.matDmma t, 0, 3), (.matRead t, 0, 4), (.matClr t, 0, 5)] : List (Instr × Nat × Nat)),
    let e := p.2.1
    let n := totalSteps (s.win t.val) e c 1
    Fires t.val e c b rest k s → slotOp e b.slot = p.2.2 →
    ((e, p.2.2) = (2, 2) → ldwReady t.val k s = true) →
    ((e, p.2.2) = (3, 2) → (s.win t.val).en = true → (stlSlot (s.win t.val) (s.tile t.val).wins k).isSome = true) →
    ∃ u r, exec p.1 s = .next u ∧ (u.tile t.val).queue e = { c with run := some r } :: rest ∧ r.total = n
      ∧ (∀ f < 4, f ≠ e → (u.tile t.val).queue f = (s.tile t.val).queue f)
      ∧ (0 < n → r.key = k ∧ r.made = 1 ∧ ∀ q < 8, u.iq t.val q = if q ∈ c.mset e then (s.iq t.val q).drop 1 else s.iq t.val q)
      ∧ (n = 0 → r.key = c.key ∧ r.made = 0 ∧ ∀ q < 8, u.iq t.val q = s.iq t.val q)

/-- The vector rows (R139, R152 to R157): the result of the first step goes to v[VD] with WV and to its OQ with PUSH, under the
stream and frame of the firing key; A and B come from the lowest IQs of the match set or from v. The arithmetic of lanes and
accumulators (R147 to R149, R152, R154): integer ADD, SUB, MUL, ABS and RSUM saturate, SHR is an arithmetic shift, RQ
multiplies, rounds, adds, clamps and saturates, a multiply-accumulate clamps to 40 bits and says so, and a binary16 operation
on a NaN gives the one NaN 0x7E00. -/
def Obligations.VectorRowsCompute : Prop :=
  (∀ (t : TileIx) (c : QCmd) (b : Bound) (rest : List QCmd) (k : Word) (s : State),
      let v := b.slot
      let x := s.tile t.val
      let ms := c.mset 1
      let A := if nbit v 28 then headPay s t.val (ms.headD 0) else tget 0 x.v (nbits v 33 4)
      let B := if nbit v 27 then headPay s t.val ((ms.drop (b2n (nbit v 28))).headD 0) else tget 0 x.v (nbits v 29 4)
      let a := vlanes (nbits v 41 2) A
      let d := vlanes (nbits v 41 2) B
      let ty := nbits v 41 2
      let two := fun (o : Nat) => vpay ty (List.zipWith (vec2 o ty) a d)
      ∀ p ∈ ([(.vecAdd t, 1, two 1), (.vecSub t, 2, two 2), (.vecMul t, 3, two 3), (.vecMax t, 4, two 4), (.vecMin t, 5, two 5),
        (.vecCmpgt t, 6, two 6),
        (.vecSel t, 7, vpay ty ((List.range (laneCount ty)).map (fun i =>
          if nth (vlanes ty (tget 0 x.v (nbits v 37 4))) i 0 ≠ 0 then nth a i 0 else nth d i 0))),
        (.vecAbs t, 8, vpay ty (a.map (vecAbs1 ty))), (.vecShr t, 9, vpay ty (a.map (vecShr1 ty (nbits (nth b.us 0 0).toNat 0 5)))),
        (.vecRq t, 10, rqEntry x v 0 b.us), (.vecAct t, 11, vpay ty (a.map (act1 x.table ty))),
        (.vecRsum t, 12, vpay ty (vecRsum1 ty a)), (.vecRmax t, 13, vpay ty (vecRmax1 ty a)),
        (.vecCvt t, 14, vpay (nbits v 0 2) (vecCvt1 ty (nbits v 0 6) a)), (.vecAnd t, 15, A &&& B), (.vecOr t, 16, A ||| B),
        (.vecXor t, 17, A ^^^ B), (.vecMov t, 18, A)] : List (Instr × Nat × Pay)),
      Fires t.val 1 c b rest k s → slotOp 1 v = p.2.1 → 0 < c.steps → b2n (nbit v 28) + b2n (nbit v 27) ≤ ms.length →
      ∃ u side, exec p.1 s = .next u ∧ strOf side = strOf k ∧ frameOf side = frameOf k
        ∧ (∀ i, tget 0 (u.tile t.val).v i = if nbit v 26 = true ∧ i = nbits v 37 4 then p.2.2 else tget 0 x.v i)
        ∧ (∀ q, u.oq t.val q = s.oq t.val q ++ (if nbit v 16 = true ∧ q = nbits v 13 3 then [⟨p.2.2, side⟩] else []))
        ∧ u.regs = s.regs ∧ (u.tile t.val).store = x.store ∧ (u.tile t.val).acc = x.acc ∧ (u.tile t.val).act = x.act)
  ∧ (∀ (ty a b n : Nat) (ls : List Nat) (acc : Int) (xs ws : List Int) (m : Int) (p1 p2 p3 : Nat),
      let w := laneW ty
      let x := sgn w a
      let y := sgn w b
      let sat := fun (i : Int) => min (max i (-(2 ^ (w - 1)))) (2 ^ (w - 1) - 1)
      (ty < 3 →
        sgn w (vec2 1 ty a b) = sat (x + y) ∧ sgn w (vec2 2 ty a b) = sat (x - y) ∧ sgn w (vec2 3 ty a b) = sat (x * y)
        ∧ sgn w (vec2 4 ty a b) = max x y ∧ sgn w (vec2 5 ty a b) = min x y
        ∧ vec2 6 ty a b = (if y < x then 2 ^ w - 1 else 0) ∧ sgn w (vecAbs1 ty a) = sat (|x|)
        ∧ sgn w (vecShr1 ty n a) = x / 2 ^ n
        ∧ (vecRsum1 ty ls).map (sgn w) = sat ((ls.map (sgn w)).sum) :: List.replicate (laneCount ty - 1) 0)
      ∧ (ty = 3 → isNan16 a = true ∨ isNan16 b = true → vec2 1 ty a b = 0x7E00 ∧ vec2 2 ty a b = 0x7E00 ∧ vec2 3 ty a b = 0x7E00
        ∧ vec2 4 ty a b = 0x7E00 ∧ vec2 5 ty a b = 0x7E00 ∧ vec2 6 ty a b = 0)
      ∧ (macInt acc xs ws).1 = min (max (acc + (List.zipWith (· * ·) xs ws).sum) (-(2 ^ 39))) (2 ^ 39 - 1)
      ∧ ((macInt acc xs ws).2 = true ↔ (macInt acc xs ws).1 ≠ acc + (List.zipWith (· * ·) xs ws).sum)
      ∧ (nbits p1 0 6 = 0 → nbit p1 10 = false →
        sgn 8 (rqOne 0 acc m p1 p2 p3)
          = satS 8 (min (max (acc * m + sgn 16 (nbits p2 0 16)) (sgn 16 (nbits p3 0 16))) (sgn 16 (nbits p3 16 16)))))

/-- Memory and matrix rows (R135, R146, R147, R149, R448): LDQ pushes the unit its walk names, STQ stores the popped entry there
and changes no other byte, LDT loads 16 entries of the activation table, WLOAD appends a unit to the image, MMA of int8 adds
the products of two vectors to two rows, READ pushes eight lanes saturated to 32 bits, CLR zeroes its bank. -/
def Obligations.MemoryAndMatrixRowsCompute : Prop :=
  ∀ (t : TileIx) (c : QCmd) (b : Bound) (rest : List QCmd) (k : Word) (s : State),
    let v := b.slot
    let x := s.tile t.val
    let unit := (walkVal b.desc.toNat (c.offset + b.uoff) 0 % 8192).toNat
    let data := payOfBytes (x.store.read (32 * unit) 32)
    let clean := ∀ i < 4, x.store.state (4 * unit + i) = .clean
    let bank := nbits v 47 2
    let cell := fun (r j : Nat) => (bank * 64 + r) * 16 + j
    (Fires t.val 2 c b rest k s → 0 < totalSteps (s.win t.val) 2 c 1 → clean →
      (slotOp 2 v = 1 → nbit v 29 = true → ∃ u side, exec (.ldLdq t) s = .next u ∧ strOf side = strOf k ∧ frameOf side = frameOf k
        ∧ psnOf side = false ∧ govOf side = false ∧ RegsBut [] s u ∧ (u.tile t.val).store = x.store
        ∧ ∀ q, u.oq t.val q = s.oq t.val q ++ (if q = nbits v 26 3 then [⟨data, side⟩] else []))
      ∧ (slotOp 2 v = 3 → ∃ u, exec (.ldLdt t) s = .next u ∧ RegsBut [] s u ∧ (u.tile t.val).store = x.store
        ∧ ∀ i, tget 0 (u.tile t.val).act i = if i < 16 then BitVec.ofNat 16 (nbits data.toNat (16 * i) 16) else tget 0 x.act i))
    ∧ (Fires t.val 3 c b rest k s → 0 < totalSteps (s.win t.val) 3 c 1 → slotOp 3 v = 1 → (∃ q, c.mset 3 = [q]) →
      ∃ u, exec (.stStq t) s = .next u ∧ RegsBut [aTileCtl t.val] s u
        ∧ ∀ a, (u.tile t.val).store.byte a = if 32 * unit ≤ a ∧ a < 32 * unit + 32
            then nth (payBytes (headPay s t.val ((c.mset 3).headD 0))) (a - 32 * unit) 0 else x.store.byte a)
    ∧ (Fires t.val 0 c b rest k s → 0 < totalSteps (s.win t.val) 0 c 1 →
      (slotOp 0 v = 1 → clean → ∃ u r, exec (.matWload t) s = .next u ∧ (u.tile t.val).queue 0 = { c with run := some r } :: rest
        ∧ r.image = [data] ∧ r.psn = false ∧ RegsBut [] s u)
      ∧ (slotOp 0 v = 2 → nbits v 49 3 = 0 → nbit v 42 = false → nbit v 20 = false → c.mset 0 ≠ [] →
        let p := (headPay s t.val ((c.mset 0).headD 0)).toNat
        let weightAt := fun (i j : Nat) => sgn 8 (nbits (nth x.standby (i / 2) 0).toNat (128 * (i % 2) + 8 * j) 8)
        let old := fun (r j : Nat) => if nbit v 21 then (tget 0 x.acc (cell r j)).toInt else 0
        ∃ u, exec (.matMma t) s = .next u ∧ u.regs = s.regs ∧ (u.tile t.val).store = x.store
          ∧ (∀ r < 2, ∀ j < 16, (tget 0 (u.tile t.val).acc (cell r j)).toInt = (sat40 (old r j
              + ((List.range 16).map (fun i => sgn 8 (nbits p (128 * r + 8 * i) 8) * weightAt i j)).sum)).1)
          ∧ ∀ a, (∀ r < 2, ∀ j < 16, a ≠ cell r j) → tget 0 (u.tile t.val).acc a = tget 0 x.acc a)
      ∧ (slotOp 0 v = 4 → nbit v 32 = true → (tget Bank.init x.banks bank).fp ≠ some true →
        ∃ u side, exec (.matRead t) s = .next u ∧ strOf side = strOf k ∧ frameOf side = frameOf k ∧ u.regs = s.regs ∧ (u.tile t.val).acc = x.acc
          ∧ (∀ q, u.oq t.val q = s.oq t.val q ++ (if q = nbits v 29 3 then [⟨vpay 2 ((List.range 8).map (fun j =>
              pat 32 (satS 32 (tget 0 x.acc (cell 0 j)).toInt))), side⟩] else [])))
      ∧ (slotOp 0 v = 5 → ∃ u, exec (.matClr t) s = .next u ∧ u.regs = s.regs
        ∧ ∀ a, tget 0 (u.tile t.val).acc a = if bank * 1024 ≤ a ∧ a < bank * 1024 + 1024 then 0 else tget 0 x.acc a))

/-- Steps and completion (R97, R98, R127, R138, R142, R146): a running command makes its next step while its heads are of its
stream and frame, and a head of another one is QUEUE_PROTOCOL; a command that has made its steps leaves its queue, WLOAD's
image becomes the standby one, FULL marks a bank and READ or RQ frees it. -/
def Obligations.StepsAndCompletion : Prop :=
  ∀ (t : TileIx) (g : Eng) (wk : Fin 4) (c : QCmd) (b : Bound) (r : Run) (rest : List QCmd) (s : State),
    let e := engNum g
    let x := s.tile t.val
    let v := b.slot
    let bank := if e = 0 then nbits v 47 2 else nbits v 0 2
    x.queue e = c :: rest → c.bound = some b → c.run = some r → c.dead = false → c.spec = false → x.staged = [] →
    (2 ≤ e → slotWk v = wk.val) → s.runs t.val = true →
    (x.halos = [] → r.guardHit = false → r.made < r.total → stepRoom t.val e c s = true → s.present t.val (c.mset e) = true →
      ((∀ q ∈ c.mset e, ∀ en, s.headOf t.val q = some en → sfOf en.side = sfOf r.key) →
        ∃ u r', exec (.commandStep t g wk) s = .next u ∧ (u.tile t.val).queue e = { c with run := some r' } :: rest
          ∧ r'.made = r.made + 1 ∧ r'.key = r.key ∧ r'.total = r.total
          ∧ ∀ q < 8, u.iq t.val q = if q ∈ c.mset e then (s.iq t.val q).drop 1 else s.iq t.val q)
      ∧ ((∃ q ∈ c.mset e, ∃ en, s.headOf t.val q = some en ∧ sfOf en.side ≠ sfOf r.key) →
        ∃ u, exec (.commandStep t g wk) s = .next u ∧ (u.tile t.val).queue e = { c with dead := true } :: rest
          ∧ ∀ q < 8, u.iq t.val q = s.iq t.val q))
    ∧ (r.total ≤ r.made ∨ r.guardHit = true →
      ∃ u, exec (.engineCommandComplete t g wk) s = .next u ∧ (u.tile t.val).queue e = rest
        ∧ (e = 0 → slotOp 0 v = 1 → r.image ≠ [] → (u.tile t.val).standbyPsn = r.psn
            ∧ ∀ i, nth (u.tile t.val).standby i 0 = nth r.image i 0)
        ∧ (e = 0 → slotOp 0 v = 2 ∨ slotOp 0 v = 3 → nbit v 12 = true → (tget Bank.init (u.tile t.val).banks bank).full = true)
        ∧ ((e = 0 ∧ slotOp 0 v = 4) ∨ (e = 1 ∧ slotOp 1 v = 10) → tget Bank.init (u.tile t.val).banks bank = Bank.init))

/-- The dispatch unit (R181 to R197): a dispatch pops a token and its route entry, whose keys agree, else the unit stops with
QUEUE_PROTOCOL; threshold routing picks at most K_MAX experts at or above THR with capacity left; a spatial gather pops a
record, its residual and its experts' outputs and pushes their weighted sum; a loop item goes on while its decision says so
and trips remain; a new one enters while fewer than LIMIT are inside; a group table entry waits for the engines of GT_ENG.
That an event whose condition is not met changes nothing is the model's choice (log entry 4). -/
def Obligations.DispatchUnit : Prop :=
  ∀ (t : TileIx) (s : State),
    let c := s.dsp t.val
    let d := s.disp t.val
    let iqAfter := fun (u : State) (n : Nat → Nat) => ∀ q < 8, u.iq t.val q = (s.iq t.val q).drop (n q)
    (s.runs t.val = true → c.en = true → d.stuck = false → d.out = [] →
      (∀ a r, c.func = 0 → s.headOf t.val c.qa = some a → s.headOf t.val c.qb = some r → c.qa ≠ c.qb →
        (keyOf a.side ≠ keyOf r.side → ∃ u, exec (.dispatchToken t) s = .next u ∧ (u.disp t.val).stuck = true ∧ iqAfter u (fun _ => 0))
        ∧ (keyOf a.side = keyOf r.side → s.holds t.val c.qa c.tu = true → ∃ u, exec (.dispatchToken t) s = .next u
          ∧ (u.disp t.val).stuck = false ∧ iqAfter u (fun q => if q = c.qa then c.tu else if q = c.qb then 1 else 0)))
      ∧ (∀ r, c.func = 1 → c.grp = false → c.tu = 1 → s.headOf t.val c.qa = some r →
        let mask := nbits r.pay.toNat 0 8
        (∀ e < 8, nbit mask e = true → e < c.nexp ∧ (s.qbind t.val e).bound = true ∧ e ≠ c.qa ∧ s.holds t.val e 1 = true
          ∧ ∀ x, s.headOf t.val e = some x → keyOf x.side = keyOf r.side) →
        s.holds t.val c.qa 2 = true → (s.qbind t.val (8 + c.oa)).bound = true → (s.oq t.val c.oa).length < 64 →
        let res := nth (s.iq t.val c.qa) 1 ⟨0, 0⟩
        let lane := fun (p : Pay) (i : Nat) => sgn 8 (nbits p.toNat (8 * i) 8)
        let sums := (List.range 32).map (fun i => 256 * lane res.pay i + ((List.range 8).map (fun e =>
          if nbit mask e then (nbits r.pay.toNat (64 + 8 * e) 8 : Int) * lane (headPay s t.val e) i else 0)).sum)
        ∃ u side, exec (.gatherToken t) s = .next u
          ∧ u.oq t.val c.oa = s.oq t.val c.oa ++ [⟨vpay 0 (sums.map (fun x => pat 8 (satS 8 ((x + 128) / 256)))), side⟩]
          ∧ keyOf side = keyOf res.side
          ∧ iqAfter u (fun q => if q = c.qa then 2 else if nbit mask q then 1 else 0))
      ∧ (c.func = 2 → s.holds t.val c.qb (c.tu + 1) = true →
        let es := s.iq t.val c.qb
        let dec := nth es 0 ⟨0, 0⟩
        let key := keyOf (nth es 1 ⟨0, 0⟩).side
        let trips := ((d.items.find? (fun p => p.1 == key)).map (·.2)).getD 0
        let on := nbits dec.pay.toNat 0 16 ≠ 0 ∧ psnOf dec.side = false ∧ trips < c.maxTrip
        ∃ u, exec (.loopGateDecision t) s = .next u ∧ iqAfter u (fun q => if q = c.qb then c.tu + 1 else 0)
          ∧ (on → (u.disp t.val).items = d.items.map (fun p => if p.1 = key then (p.1, p.2 + 1) else p))
          ∧ (¬ on → (u.disp t.val).items = d.items.eraseP (fun p => p.1 == key))
          ∧ exec (.loopGateAdmit t) s = .next s)
      ∧ (c.func = 2 → s.holds t.val c.qb (c.tu + 1) = false → s.holds t.val c.qa c.tu = true → d.items.length < c.limit →
        ∃ u, exec (.loopGateAdmit t) s = .next u ∧ iqAfter u (fun q => if q = c.qa then c.tu else 0)
          ∧ (u.disp t.val).items = d.items ++ [(keyOf (nth (s.iq t.val c.qa) 0 ⟨0, 0⟩).side, 1)]
          ∧ exec (.loopGateDecision t) s = .next s))
    ∧ (∀ e, s.runs t.val = true → nbit (s.act (aTileGtCfg t.val)).toNat 31 = true →
      s.headOf t.val (nbits (s.act (aTileGtCfg t.val)).toNat 28 3) = some e → (s.tile t.val).gt.length < 16 → s.gtEngs t.val ≠ 0 →
      ∃ u, exec (.groupTablePop t) s = .next u ∧ (u.tile t.val).gt = (s.tile t.val).gt ++ [(e, [])]
        ∧ iqAfter u (fun q => if q = nbits (s.act (aTileGtCfg t.val)).toNat 28 3 then 1 else 0))
    ∧ (∀ (load : Tab Nat) (r : Entry) (e : Nat), nbit (routeOne c load r).1 e = true →
      e < c.nexp ∧ c.thr ≤ score r e ∧ tget 0 load e < c.cap ∧ psnOf r.side = false)
    ∧ (∀ (load : Tab Nat) (r : Entry), ((List.range 8).filter (fun e => nbit (routeOne c load r).1 e)).length ≤ c.kmax)

/-- Ferries (R280 to R295): a kick waits with at most 7 others; the next block of the list is read, checked and started; a read
enters staging and a write leaves it for the destination, byte for byte without a codec; a block whose writes are made ends,
goes on to the next or ends the list, and adds 1 to its tidemark with TMEN; the DRAM read port gives a tag. Edge port rings
(R267, R268): an out-port writes its oldest entry as the next record, payload then sideband; an in-port with a credit takes
the oldest record, and its entry enters lane 0 of the edge tile. -/
def Obligations.FerriesAndEdgePorts : Prop :=
  (∀ (f : FerryIx) (list : BitVec 21) (n : Nat) (b : Blk) (ws : List DWord) (s : State),
      let x := s.ferry f.val
      let clean := fun (a : Nat) => ∀ w, w * 8 < a + 64 → a < w * 8 + 8 → s.mem.basin.state w = .clean
      (Served s → s.ferryOwner f.val = some n →
        (s.bit (aFerryCtl f.val) 31 = true → x.kicks.length < 8 → ∃ t, exec (.ferryKick .pf f list) s = .next t ∧ t.regs = s.regs
          ∧ t.mem = s.mem ∧ t.ferry f.val = { x with kicks := x.kicks ++ [⟨list.toNat, none, none⟩] })
        ∧ (s.bit (aFerryCtl f.val) 31 = true → 8 ≤ x.kicks.length →
          exec (.ferryKick .pf f list) s = .next (signal s (ferryFault f.val 6 s)))
        ∧ (s.bit (aFerryCtl f.val) 31 = false → exec (.ferryKick .pf f list) s = .next (signal s s)))
      ∧ (∀ k ks, s.f (aFerryCtl f.val) 0 7 ≠ 0 → s.f (aFerryStatus f.val) 8 5 = 0 → x.block = none → x.cur = none →
        x.kicks = k :: ks →
        (inWin (s.ferryWin f.val 0) k.list 32 = false →
          exec (.ferryBlockStart f) s = .next (signal s (ferryFault f.val 1 (s.setFerry f.val { x with cur := some k, kicks := ks, at_ := k.list }))))
        ∧ (inWin (s.ferryWin f.val 0) k.list 32 = true → k.list % 32 = 0 → k.list + 32 ≤ basinSize → clean k.list →
          let four := (List.range 4).map (fun i => BitVec.ofNat 64 (ofBytes ((List.range 8).map (fun j => s.mem.basin.byte (k.list + 8 * i + j)))))
          let blk := blkOf four
          blkBad s blk k.key = false → sideIn s f.val blk.ss blk.saddr blk.len blk.count blk.sstr = true →
          sideIn s f.val blk.ds blk.daddr (blk.out blk.len) blk.count blk.dstr = true →
          ∃ t, exec (.ferryBlockStart f) s = .next t ∧ t.regs = s.regs ∧ t.mem = s.mem
            ∧ t.ferry f.val = { x with cur := some k, kicks := ks, at_ := k.list, block := some four, started := true, rd := 0,
                                       wr := 0, inflight := 0 }))
      ∧ (x.block = some ws → blkOf ws = b →
        (∀ p m, x.nextRead = some (b, p, m) → s.quota f.val ≠ 0 → b.ss = 0 → b.saddr + b.len ≤ basinSize → b.count = 1 →
          clean (rowAddr b.saddr b.len p b.sstr) →
          ∃ t, exec (.ferryReadComplete f .abort) s = .next t ∧ t.regs = s.regs ∧ t.mem = s.mem
            ∧ (let got := (List.range m).map (fun i => (s.mem.basin.byte (rowAddr b.saddr b.len p b.sstr + i), false))
               t.ferry f.val = { x with rd := x.rd + m, staged := x.staged ++ got }))
        ∧ (b.ds = 0 → b.codec = 0 → b.count = 1 → b.daddr + b.len ≤ basinSize → x.committed = true → x.wr < b.len →
          let k := min 64 (b.len - x.wr)
          k ≤ x.staged.length → (∀ p ∈ x.staged, p.2 = false) → clean (b.daddr + x.wr) →
          ∃ t, exec (.ferryWrite f (.ok [])) s = .next t ∧ t.regs = s.regs ∧ t.mem.dram = s.mem.dram ∧ t.hostMem = s.hostMem
            ∧ t.ferry f.val = { x with staged := x.staged.drop k, wr := x.wr + k }
            ∧ ∀ a, t.mem.basin.byte a = if b.daddr + x.wr ≤ a ∧ a < b.daddr + x.wr + k
                then (nth x.staged (a - (b.daddr + x.wr)) (0, false)).1 else s.mem.basin.byte a)
        ∧ (b.total ≤ x.wr → x.committed = true → (b.ds = 1 → s.mem.fills = []) → s.ferryOwner f.val = some n →
          ∃ t, exec (.ferryBlockComplete f) s = .next t ∧ t.regs = s.regs ∧ t.mem = s.mem
            ∧ t.ferry f.val = { x with block := none, started := false, rd := 0, wr := 0, inflight := 0,
                                       cur := if b.last then none else x.cur, at_ := if b.last then 0 else x.at_ + 32 }
            ∧ t.tmq = s.tmq ++ (if b.tmen then [⟨.ferry f.val, b.tmi, n, some 1⟩] else [])))
      ∧ (s.dramUp = true → s.dramPick = some f.val → ∃ t, exec .dramReadPortPick s = .next t ∧ t.regs = s.regs
        ∧ t.ferry f.val = { x with inflight := x.inflight + 1 }))
  ∧ (∀ (e : Fin 40) (k : Nat) (s : State),
      let x := s.edge e.val
      let r := s.inRing e.val
      let a := s.ringBase r + k * 64
      let t := edgeTile e.val
      (∀ en rest, x.inq = en :: rest → s.edgeMode e.val = 1 → s.ringSlot e.val = some k → s.ringBase e.val + k * 64 + 64 ≤ basinSize →
        ∃ u, exec (.outPortRecordWrite e) s = .next u ∧ (u.edge e.val).inq = rest ∧ (u.edge e.val).recs = x.recs ++ [k]
          ∧ u.mem.dram = s.mem.dram ∧ u.tiles = s.tiles
          ∧ ∀ b, u.mem.basin.byte b = if s.ringBase e.val + k * 64 ≤ b ∧ b < s.ringBase e.val + k * 64 + 64
              then nth (payBytes en.pay ++ toBytes 4 en.side.toNat ++ List.replicate 28 0) (b - (s.ringBase e.val + k * 64)) 0
              else s.mem.basin.byte b)
      ∧ (∀ rest, s.edgeMode e.val = 2 → s.gsr (regionOf t) = false → x.used < 64 → (s.edge r).recs = k :: rest →
        a + 64 ≤ basinSize → (∀ w, w * 8 < a + 64 → a < w * 8 + 8 → s.mem.basin.state w = .clean) →
        let side := BitVec.ofNat 32 (ofBytes ((List.range 4).map (fun i => s.mem.basin.byte (a + 32 + i))))
        s.purging (strOf side) = false → (s.lane t (edgeDir e.val) 0).length < 64 →
        ∃ u, exec (.inPortRecordSend e) s = .next u ∧ (u.edge e.val).used = x.used + 1 ∧ (u.edge r).recs = rest ∧ u.mem = s.mem
          ∧ u.lane t (edgeDir e.val) 0 = s.lane t (edgeDir e.val) 0
              ++ [⟨payOfBytes ((List.range 32).map (fun i => s.mem.basin.byte (a + i))), side⟩]))

/-- The image store (R299, R303, R426): install begins while BUSY = 0 and ends with DONE and the image in its slot, or with ERR
and the REASON of the check that failed; evict frees a slot not in use; an operation started while BUSY = 1 is rejected.
Staging and swaps (R254, R304 to R313): staging ends with the image STAGED; a quiet region adds its 1 to the barrier of its
layout; a direct load, a forced exchange and a slack-water swap leave the image active in its regions, which run again, each
sequencer at its SEQ_RESTART. -/
def Obligations.LayoutsAndSwaps : Prop :=
  (∀ (k : Fin 8) (p : Sections) (s : State), Served s →
      let bs := s.pkg
      let h := pkgHeader bs
      (s.bit aLayoutStatus 31 = true →
        ∀ c ∈ [Instr.layoutInstall k, .layoutEvict k, .forcedExchange k], exec c s = .next (signal s (reject none aLayoutCtl s)))
      ∧ (s.bit aLayoutStatus 31 = false →
        (∃ t, exec (.layoutInstall k) s = .next t ∧ t.layOp = some (1, k.val) ∧ t.bit aLayoutStatus 31 = true
          ∧ t.f aLayoutStatus 8 3 = k.val ∧ RegsBut [aLayoutCtl, aLayoutStatus] s t ∧ t.images = s.images)
        ∧ (s.slotUsed k.val = true → ∃ t, exec (.layoutEvict k) s = .next t ∧ t.f aLayoutStatus 29 3 = 1
          ∧ t.f aLayoutStatus 16 8 = 10 ∧ t.images = s.images ∧ RegsBut [aLayoutCtl, aLayoutStatus] s t)
        ∧ (s.slotUsed k.val = false → ∃ t, exec (.layoutEvict k) s = .next t ∧ t.f aLayoutStatus 29 3 = 2
          ∧ t.image k.val = none ∧ (∀ j, j ≠ k.val → t.image j = s.image j) ∧ RegsBut [aLayoutCtl, aLayoutStatus] s t)
        ∧ (s.readyGroup k.val = none → ∃ t, exec (.forcedExchange k) s = .next t
          ∧ t.f aLayoutStatus 29 3 = 1 ∧ t.f aLayoutStatus 16 8 = 10 ∧ t.images = s.images ∧ t.tiles = s.tiles))
      ∧ (s.layOp = some (1, k.val) →
        let fits := bs ≠ [] ∧ h.length ≤ bs.length ∧ 128 + 16 * h.sections ≤ h.length
        let ends := fun (c : Nat) => ∃ t, exec (.layoutInstallComplete p) s = .next t ∧ t.f aLayoutStatus 29 3 = (if c = 0 then 2 else 1)
          ∧ t.f aLayoutStatus 16 8 = c ∧ t.layOp = none ∧ RegsBut [aLayoutStatus] s t ∧ (c ≠ 0 → t.images = s.images)
          ∧ (c = 0 → ∃ im, t.image k.val = some im ∧ im.id = h.layoutId ∧ im.staged = false ∧ im.active = 0
              ∧ im.regions = h.regions % 2 ^ 25 ∧ im.body = (checkImage k.val h p s).2
              ∧ (t.tm (8184 + k.val)).target = popRegions h.regions ∧ (t.tm (8184 + k.val)).mode = 1)
        (¬ fits → ends 2)
        ∧ (fits → (checkImage k.val h p s).1 < 256 → ends (if s.signed h.keySlot bs h.length = false then 1
          else if (List.range h.sections).any (sectionBad bs h.length) then 2 else (checkImage k.val h p s).1))))
  ∧ (∀ (g : RegionIx) (k : Fin 8) (im : Image) (u : Use) (s : State),
      let runs := fun (t : State) => ∀ h, h ∈ s.slotRegions k.val →
        (t.seq h).pc = nbits (t.act (aSeqRestart h)).toNat 2 15 * 4 ∧ (t.seq h).keyOk = false ∧ (t.seq h).sids = []
        ∧ ∀ i < 16, (t.tile (tileOf h i)).gsr = false ∧ (t.tile (tileOf h i)).iq = []
      (s.image k.val = some im → k.val ∈ s.staging → ∃ t, exec (.stagingComplete k) s = .next t
        ∧ k.val ∉ t.staging ∧ t.image k.val = some { im with staged := true } ∧ t.streams = s.streams ∧ t.active = s.active
        ∧ ∀ h, h ∈ s.slotRegions k.val → ∀ i < 16, (t.tile (tileOf h i)).shadowValid = true
            ∧ (t.tile (tileOf h i)).imem = (s.tile (tileOf h i)).imem)
      ∧ (s.image k.val = some im → k.val ∈ s.loads → ∃ t, exec (.directLoadComplete k) s = .next t ∧ k.val ∉ t.loads
        ∧ t.image k.val = some { im with active := im.regions, staged := false } ∧ runs t)
      ∧ (s.changeDone k.val = some u → s.useExchange u = true → s.image k.val = some im → im.staged = true → k.val ∉ s.staging →
        ∃ t, exec (.slackWaterSwap k) s = .next t ∧ u ∉ t.uses
        ∧ t.image k.val = some { im with active := im.regions, staged := false } ∧ runs t)
      ∧ (∀ ns, Served s → s.bit aLayoutStatus 31 = false → s.readyGroup k.val = some ns → s.scanning k.val = false →
        s.image k.val = some im → ∃ t, exec (.forcedExchange k) s = .next t ∧ t.f aLayoutStatus 29 3 = 2 ∧ k.val ∉ t.staging
          ∧ t.image k.val = some { im with active := im.regions, staged := false } ∧ runs t)
      ∧ (s.useNow k.val = some u → g.val ∈ s.slotRegions k.val → g.val ∉ u.done → (∀ n ∈ u.streams, s.purging n = false ∧ s.oldFramesOut n = true) →
        s.quiet g.val u.streams u.change = true →
        (s.tm (8184 + k.val)).mode = 1 → (s.tm (8184 + k.val)).count + 1 < (s.tm (8184 + k.val)).target →
        (s.tm (8184 + k.val)).target < 2 ^ 24 →
        ∃ t, exec (.regionQuiescent g k) s = .next t ∧ { u with done := u.done ++ [g.val] } ∈ t.uses
          ∧ (t.tm (8184 + k.val)).count = (s.tm (8184 + k.val)).count + 1 ∧ t.regs = s.regs ∧ t.tiles = s.tiles))

/-! ### The sequencer (10) -/

/-- Value instructions (10, Instructions; R203 to R205, R215): each writes RD with the value its row gives and goes on, at the
next instruction or as its loop says; z reads zero and ignores writes; no other register changes. SEQ_NOP writes nothing.
Memory instructions (R201, R205, R225, R239): LW reads the active code plane, scratch and the trap save frame, SW writes
scratch; any other or misaligned address is SEQ_ADDRESS; BCW writes a tile word of 32 bytes into the shadow plane of every
tile of TMASK; the host reaches the rest through SEQ_MEM_DATA, whose address moves on. -/
def Obligations.SeqValuesAndMemory : Prop :=
  (∀ (g : RegionIx) (n : Word) (s : State), SeqAt g.val n s →
      let x := s.seq g.val
      let k := n.toNat
      let a := x.reg (raF k)
      let b := x.reg (rbF k)
      let imm : BitVec 16 := n.setWidth 16
      let go := fallThrough x.pc x.loops
      (∀ p ∈ ([(.seqAdd g, 0x01, legR k, a + b), (.seqSub g, 0x02, legR k, a - b), (.seqAnd g, 0x03, legR k, a &&& b),
          (.seqOr g, 0x04, legR k, a ||| b), (.seqXor g, 0x05, legR k, a ^^^ b), (.seqSll g, 0x06, legR k, a <<< (b.toNat % 32)),
          (.seqSrl g, 0x07, legR k, a >>> (b.toNat % 32)), (.seqSra g, 0x08, legR k, a.sshiftRight (b.toNat % 32)),
          (.seqMul g, 0x09, legR k, a * b), (.seqSlt g, 0x0A, legR k, if a.toInt < b.toInt then 1 else 0),
          (.seqSltu g, 0x0B, legR k, if a.toNat < b.toNat then 1 else 0), (.seqAddi g, 0x0C, legI k, a + imm.signExtend 32),
          (.seqAndi g, 0x0D, legI k, a &&& imm.setWidth 32), (.seqOri g, 0x0E, legI k, a ||| imm.setWidth 32),
          (.seqLui g, 0x0F, regOk (rdF k) && decide (raF k = 0), imm.setWidth 32 <<< 16),
          (.seqAff g, 0x1C, legR k && decide (rbF k = 0),
            (x.loops.map (fun l => BitVec.ofNat 32 l.2.1 * BitVec.ofNat 32 l.2.2.1)).foldl (· + ·) a),
          (.seqMfs g, 0x29, regOk (rdF k) && decide (raF k = 0 ∧ rbF k < 12 ∧ nbits k 0 11 = 0), (x.special (rbF k)).getD 0)]
          : List (Instr × Nat × Bool × Word)),
        nbits k 26 6 = p.2.1 → p.2.2.1 = true →
        ∃ t, exec p.1 s = .next t ∧ SeqGoes g.val { x.setReg (rdF k) p.2.2.2 with loops := go.2 } go.1 s t ∧ t.tiles = s.tiles
          ∧ ∀ m, (t.seq g.val).reg m = if m = rdF k ∧ m < 24 then p.2.2.2 else x.reg m)
      ∧ (k = 0 → ∃ t, exec (.seqNop g) s = .next t ∧ SeqGoes g.val { x with loops := go.2 } go.1 s t ∧ t.tiles = s.tiles))
  ∧ (∀ (g : RegionIx) (n v : Word) (s : State),
      let x := s.seq g.val
      let k := n.toNat
      let ea := (x.reg (raF k) + (n.setWidth 16 : BitVec 16).signExtend 32).toNat
      let go := fallThrough x.pc x.loops
      let readable := fun (a : Nat) => a % 4 = 0 ∧ (a < 0xC000 ∨ 0x18000 ≤ a ∧ a < 0x20000)
      let at_ := s.f (aSeqMemAddr g.val) 2 15
      (SeqAt g.val n s → legI k = true →
        (nbits k 26 6 = 0x10 → readable ea → tget .clean x.ecc (ea / 4) = .clean →
          ∃ t, exec (.seqLw g) s = .next t ∧ t.tiles = s.tiles
            ∧ SeqGoes g.val { x.setReg (rdF k) (tget 0 x.mem (ea / 4)) with loops := go.2 } go.1 s t)
        ∧ (nbits k 26 6 = 0x10 → ¬ readable ea → exec (.seqLw g) s = .next (signal s (seqFault g.val 0x06 0 n s)))
        ∧ (nbits k 26 6 = 0x11 → ea % 4 = 0 → 0x18000 ≤ ea → ea < 0x1FFC0 →
          ∃ t, exec (.seqSw g) s = .next t ∧ t.tiles = s.tiles ∧ (t.seq g.val).g = x.g ∧ (t.seq g.val).win = x.win
            ∧ (t.seq g.val).pc = go.1 % 0x20000 ∧ t.regs = s.regs ∧ t.mem = s.mem
            ∧ ∀ w, tget 0 (t.seq g.val).mem w = if w = ea / 4 then x.reg (rdF k) else tget 0 x.mem w)
        ∧ (nbits k 26 6 = 0x11 → ¬ (ea % 4 = 0 ∧ 0x18000 ≤ ea ∧ ea < 0x1FFC0) →
          exec (.seqSw g) s = .next (signal s (seqFault g.val 0x06 0 n s))))
      ∧ (SeqAt g.val n s → nbits k 26 6 = 0x21 → legRaRb k = true →
        let a := (x.reg (raF k)).toNat
        a % 32 = 0 → readable a → (∀ i < 8, tget .clean x.ecc (a / 4 + i) = .clean) →
          ∃ t, exec (.seqBcw g) s = .next t ∧ SeqGoes g.val { x with loops := go.2 } go.1 s t
            ∧ ∀ i < 16, ∀ h, tget 0 (t.tile (tileOf g.val i)).imemSh h =
                if nbit x.tmask i = true ∧ h = nbits (x.reg (rbF k)).toNat 0 9 then
                  BitVec.ofNat 256 (ofLanes 32 ((List.range 8).map (fun j => (tget 0 x.mem (a / 4 + j)).toNat)))
                else tget 0 (s.tile (tileOf g.val i)).imemSh h)
      ∧ (Served s →
        (∃ t, exec (.seqMemDataAccess g (some v)) s = .next t ∧ t.f (aSeqMemAddr g.val) 2 15 = (at_ + 1) % 2 ^ 15
          ∧ RegsBut [aSeqMemAddr g.val] s t ∧ t.tiles = s.tiles
          ∧ ∀ w, tget 0 (t.seq g.val).mem w = if w = at_ ∧ 0x3000 ≤ w ∧ w < 0x7FF0 then v else tget 0 x.mem w)
        ∧ (tget .clean x.ecc at_ = .clean →
          ∃ t, exec (.seqMemDataAccess g none) s = .next t ∧ t.f (aSeqMemAddr g.val) 2 15 = (at_ + 1) % 2 ^ 15
            ∧ RegsBut [aSeqMemAddr g.val] s t ∧ t.seqs = s.seqs ∧ .data 0 (toBytes 4 (tget 0 x.mem at_).toNat) ∈ t.outbox)))

/-- Branches, jumps and loops (10; R204, R205, R214, R215): offsets count words from the next instruction; LOOP with 0 trips
skips its body, else opens a level, of which there are 6; the last instruction of a body goes back to its first while trips
remain and leaves the level after the last. Calls and windows (R207 to R211): CALL enters the next window with its own
registers zero and the caller's q0 to q3 as p0 to p3, and RET returns to it; with six windows resident a CALL first writes
the oldest one's frame at SPILL_PTR, and a RET to a window not resident reads it back; a frame outside its area halts the
sequencer with SEQ_SPILL of class G. -/
def Obligations.SeqFlow : Prop :=
  (∀ (g : RegionIx) (n : Word) (s : State), SeqAt g.val n s →
      let x := s.seq g.val
      let k := n.toNat
      let a := x.reg (rdF k)
      let b := x.reg (raF k)
      let go := fallThrough x.pc x.loops
      let tgt := fun (off : Int) => (((x.pc : Int) + 4 + 4 * off) % 0x20000).toNat
      (∀ p ∈ ([(.seqBeq g, 0x12, decide (a = b)), (.seqBne g, 0x13, decide (a ≠ b)), (.seqBlt g, 0x14, decide (a.toInt < b.toInt)),
          (.seqBge g, 0x15, decide (b.toInt ≤ a.toInt))] : List (Instr × Nat × Bool)),
        nbits k 26 6 = p.2.1 → legI k = true → ∃ t, exec p.1 s = .next t ∧ t.tiles = s.tiles
          ∧ (p.2.2 = true → SeqGoes g.val x (tgt (n.setWidth 16 : BitVec 16).toInt) s t)
          ∧ (p.2.2 = false → SeqGoes g.val { x with loops := go.2 } go.1 s t))
      ∧ (nbits k 26 6 = 0x16 → ∃ t, exec (.seqJmp g) s = .next t ∧ t.tiles = s.tiles
          ∧ SeqGoes g.val x (tgt (n.setWidth 26 : BitVec 26).toInt) s t)
      ∧ (nbits k 26 6 = 0x18 → legRa k = true → ∃ t, exec (.seqJr g) s = .next t ∧ t.tiles = s.tiles
          ∧ SeqGoes g.val x (b.toNat / 4 * 4) s t)
      ∧ (nbits k 26 6 = 0x1A → legI k = true → n.setWidth 16 ≠ (0 : BitVec 16) →
        (a = 0 → ∃ t, exec (.seqLoop g) s = .next t ∧ t.tiles = s.tiles ∧ SeqGoes g.val x (x.pc + 4 + 4 * (k % 65536)) s t)
        ∧ (a ≠ 0 → x.loops.length < 6 → ∃ t, exec (.seqLoop g) s = .next t ∧ t.tiles = s.tiles
          ∧ SeqGoes g.val { x with loops := (a.toNat - 1, 0, b.toNat, x.pc + 4, x.pc + 4 * (k % 65536)) :: x.loops } (x.pc + 4) s t)
        ∧ (a ≠ 0 → 6 ≤ x.loops.length → exec (.seqLoop g) s = .next (signal s (seqFault g.val 0x06 0 n s))))
      ∧ (nbits k 26 6 = 0x1B → nbits k 0 26 = 0 →
        (∀ l ls, x.loops = l :: ls → ∃ t, exec (.seqLpop g) s = .next t ∧ t.tiles = s.tiles
          ∧ SeqGoes g.val { x with loops := (fallThrough x.pc ls).2 } (fallThrough x.pc ls).1 s t)
        ∧ (x.loops = [] → exec (.seqLpop g) s = .next (signal s (seqFault g.val 0x06 0 n s))))
      ∧ (∀ c i st first last ls, x.loops = (c, i, st, first, last) :: ls →
        (last ≠ x.pc → go = (x.pc + 4, x.loops))
        ∧ (last = x.pc → 0 < c → go = (first, (c - 1, i + 1, st, first, last) :: ls))
        ∧ (last = x.pc → c = 0 → go = fallThrough x.pc ls))
      ∧ (x.loops = [] → go = (x.pc + 4, [])))
  ∧ (∀ (g : RegionIx) (n : Word) (s : State), SeqAt g.val n s →
      let x := s.seq g.val
      let k := n.toNat
      let u := x.spill - 64
      let w := (x.cwp + 6) % 7
      let tgt := (((x.pc : Int) + 4 + 4 * (n.setWidth 26 : BitVec 26).toInt) % 0x20000).toNat
      let entered := fun (y : Seq) => y.pc = tgt ∧ y.cwp = (x.cwp + 1) % 7 ∧ y.depth = x.depth + 1 ∧ y.g = x.g
        ∧ tget 0 y.ra y.cwp = x.pc + 4 ∧ (∀ i < 12, y.reg (12 + i) = 0)
        ∧ ∀ i < 4, y.reg (8 + i) = tget 0 x.win (x.cwp % 7 * 16 + 8 + i)
      (nbits k 26 6 = 0x17 →
        (65535 ≤ x.depth → exec (.seqCall g) s = .next (signal s (seqFault g.val 0x06 0 n s)))
        ∧ (x.depth < 65535 → x.resident < 6 → ∃ t, exec (.seqCall g) s = .next t ∧ entered (t.seq g.val)
          ∧ (t.seq g.val).resident = x.resident + 1 ∧ (t.seq g.val).mem = x.mem ∧ t.regs = s.regs ∧ t.tiles = s.tiles)
        ∧ (x.depth < 65535 → 6 ≤ x.resident → s.frameOk g.val x.spill = true → ∃ t, exec (.seqCall g) s = .next t
          ∧ entered (t.seq g.val) ∧ (t.seq g.val).resident = x.resident ∧ (t.seq g.val).spill = x.spill + 64
          ∧ t.regs = s.regs ∧ t.tiles = s.tiles
          ∧ ∀ i < 16, tget 0 (t.seq g.val).mem (x.spill / 4 + i) = nth (x.frame ((x.cwp + 8 - x.resident) % 7)) i 0)
        ∧ (x.depth < 65535 → 6 ≤ x.resident → s.frameOk g.val x.spill = false →
          exec (.seqCall g) s = .next (signal s (seqFaultG g.val 0x08 true n (s.modSeq g.val (saveFrame 0 0 n))))))
      ∧ (k = 0x19 * 2 ^ 26 →
        (x.depth = 0 → exec (.seqRet g) s = .next (signal s (seqFault g.val 0x06 0 n s)))
        ∧ (x.depth ≠ 0 → 1 < x.resident → ∃ t, exec (.seqRet g) s = .next t ∧ t.tiles = s.tiles
          ∧ SeqGoes g.val { x with cwp := w, resident := x.resident - 1, depth := x.depth - 1 } (tget 0 x.ra x.cwp) s t)
        ∧ (x.depth ≠ 0 → x.resident ≤ 1 → 64 ≤ x.spill → s.frameOk g.val u = true →
          (∀ i < 13, tget .clean x.ecc (u / 4 + i) = .clean) → ∃ t, exec (.seqRet g) s = .next t
          ∧ (t.seq g.val).pc = tget 0 x.ra x.cwp % 0x20000 ∧ (t.seq g.val).cwp = w ∧ (t.seq g.val).spill = u
          ∧ (t.seq g.val).depth = x.depth - 1 ∧ (t.seq g.val).resident = x.resident ∧ t.regs = s.regs ∧ t.tiles = s.tiles
          ∧ (∀ i < 12, tget 0 (t.seq g.val).win (winIx w (8 + i)) = tget 0 x.mem (u / 4 + i))
          ∧ tget 0 (t.seq g.val).ra w = (tget 0 x.mem (u / 4 + 12)).toNat)
        ∧ (x.depth ≠ 0 → x.resident ≤ 1 → (x.spill < 64 ∨ s.frameOk g.val u = false) →
          exec (.seqRet g) s = .next (signal s (seqFaultG g.val 0x08 true n (s.modSeq g.val (saveFrame 0 1 n)))))))

/-- Commands and replays (R218 to R226, R281): under a valid KEY, CMD puts one command with its fields into every tile of TMASK,
or waits with WAIT 1; REPLAY starts one in each, or waits with WAIT 2; RWAIT waits until all are done; PATCH is under way to
each, or waits with WAIT 6 behind 16; TMINC and TMWAIT send their requests; FKICK kicks its stream's own ferry. -/
def Obligations.SeqCommandsAndReplays : Prop :=
  ∀ (g : RegionIx) (n : Word) (s : State), SeqAt g.val n s →
    let x := s.seq g.val
    let k := n.toNat
    let a := (x.reg (raF k)).toNat
    let b := (x.reg (rbF k)).toNat
    let go := fallThrough x.pc x.loops
    let str := nbits x.key.toNat 4 8
    (x.keyOk = true → nbits k 26 6 = 0x1D → regOk (raF k) = true → regOk (rbF k) = true → nbits k 0 11 = 0 →
      ((∀ i < 16, nbit x.tmask i = true → ((s.tile (tileOf g.val i)).queue (nbits k 24 2)).length < 256) →
        ∃ t c, exec (.seqCmd g) s = .next t ∧ SeqGoes g.val { x with loops := go.2, tag := (x.tag + 1) % 65536 } go.1 s t
          ∧ (∀ i < 16, ∀ e < 4, (t.tile (tileOf g.val i)).queue e = (s.tile (tileOf g.val i)).queue e
              ++ (if nbit x.tmask i = true ∧ e = nbits k 24 2 then [c] else []))
          ∧ c.tag = x.tag % 65536 ∧ nbits c.cmd.toNat 104 3 = nbits k 24 2 + 1 ∧ c.spec = false ∧ c.fence = nbit k 23
          ∧ c.last = (nbit k 22 && x.loops.all (fun l => l.1 == 0)) ∧ c.key = BitVec.ofNat 32 (x.key.toNat / 16 * 16)
          ∧ c.steps = a % 65536 ∧ c.offset = b % 8192 ∧ c.gtab = nbit k 21 ∧ c.bound = none ∧ c.run = none)
      ∧ ((∃ i < 16, nbit x.tmask i = true ∧ 256 ≤ ((s.tile (tileOf g.val i)).queue (nbits k 24 2)).length) →
        ∃ t, exec (.seqCmd g) s = .next t ∧ SeqHolds g.val 1 x s t))
    ∧ (x.keyOk = true → nbits k 26 6 = 0x1E → legRa k = true →
      (496 ≤ a % 512 → exec (.seqReplay g) s = .next (signal s (seqFault g.val 0x06 0 n s)))
      ∧ (a % 512 < 496 → x.patching = false → (∀ i < 16, nbit x.tmask i = true → (s.tile (tileOf g.val i)).pendStart = none) →
        ∃ t, exec (.seqReplay g) s = .next t ∧ (t.seq g.val).pc = go.1 % 0x20000 ∧ t.regs = s.regs
          ∧ ∀ i < 16, (t.tile (tileOf g.val i)).pendStart = if nbit x.tmask i = true
              then some (str, a % 512, (s.patchesFor (tileOf g.val i)).length) else (s.tile (tileOf g.val i)).pendStart)
      ∧ (a % 512 < 496 → x.patching = false → (∃ i < 16, nbit x.tmask i = true ∧ (s.tile (tileOf g.val i)).pendStart ≠ none) →
        ∃ t, exec (.seqReplay g) s = .next t ∧ SeqHolds g.val 2 x s t))
    ∧ (k = 0x1F * 2 ^ 26 →
      (x.started ≤ x.doneReplays → ∃ t, exec (.seqRwait g) s = .next t ∧ t.tiles = s.tiles
        ∧ SeqGoes g.val { x with loops := go.2 } go.1 s t)
      ∧ (x.doneReplays < x.started → ∃ t, exec (.seqRwait g) s = .next t ∧ SeqHolds g.val 0 x s t))
    ∧ (nbits k 26 6 = 0x20 → legRaRb k = true → x.patching = false →
      ((s.unapplied g.val).length < 16 → ∃ t, exec (.seqPatch g) s = .next t ∧ (t.seq g.val).pc = go.1 % 0x20000
        ∧ (t.seq g.val).patchNo = x.patchNo + 1 ∧ t.regs = s.regs
        ∧ ∀ i < 16, nbit x.tmask i = true → x.patchNo ∈ t.patchesFor (tileOf g.val i))
      ∧ (16 ≤ (s.unapplied g.val).length → ∃ t, exec (.seqPatch g) s = .next t ∧ SeqHolds g.val 6 x s t))
    ∧ (x.keyOk = true → nbits k 26 6 = 0x22 → legRaRb k = true → ∃ t, exec (.seqTminc g) s = .next t ∧ t.tiles = s.tiles
      ∧ SeqGoes g.val { x with loops := go.2 } go.1 s t
      ∧ t.tmq = s.tmq ++ (if b % 2 ^ 24 = 0 then [] else [⟨.seq g.val, a % 8192, str, some (b % 2 ^ 24)⟩]))
    ∧ (x.keyOk = true → nbits k 26 6 = 0x23 → legRa k = true →
      (x.waitIdx = none → ∃ t, exec (.seqTmwait g) s = .next t ∧ t.tmq = s.tmq ++ [⟨.seq g.val, a % 8192, str, none⟩]
        ∧ SeqHolds g.val 3 { x with waitIdx := some (a % 8192), granted := false } s t)
      ∧ (x.waitIdx ≠ none → x.granted = false → ∃ t, exec (.seqTmwait g) s = .next t ∧ t.tmq = s.tmq ∧ SeqHolds g.val 3 x s t)
      ∧ (x.waitIdx ≠ none → x.granted = true → ∃ t, exec (.seqTmwait g) s = .next t ∧ t.tmq = s.tmq ∧ t.tiles = s.tiles
        ∧ SeqGoes g.val { x with waitIdx := none, granted := false, loops := go.2 } go.1 s t))
    ∧ (x.keyOk = true → nbits k 26 6 = 0x28 → legRaRb k = true →
      (s.ferryOwner (a % 256) = some str → s.bit (aFerryCtl (a % 256)) 31 = true → (s.ferry (a % 256)).kicks.length < 8 →
        ∃ t, exec (.seqFkick g) s = .next t ∧ t.tiles = s.tiles ∧ SeqGoes g.val { x with loops := go.2 } go.1 s t
          ∧ t.ferry (a % 256) = { s.ferry (a % 256) with kicks := (s.ferry (a % 256)).kicks ++ [⟨b, some (keyOf x.key), none⟩] })
      ∧ (s.ferryOwner (a % 256) ≠ some str → ∃ t, exec (.seqFkick g) s = .next t ∧ t.ferries = s.ferries ∧ t.tiles = s.tiles
        ∧ (t.seq g.val).pc = go.1 % 0x20000
        ∧ t.cnt (cStream str 7) = if s.bit aObsCtl 0 then s.cnt (cStream str 7) else s.cnt (cStream str 7) + 1))

/-- Keys, special registers, speculation and notices (R204, R205, R216, R217, R227 to R232): KEYGET takes the oldest notice or
waits with WAIT 4; KEYI and SETKEY write KEY, MTS writes TMASK or SPILL_PTR; SPECBR opens a SID with a checkpoint; a commit
clears SPEC in its commands, a squash discards them and goes back to the checkpoint; a watched entry whose frame is not open
posts its key. -/
def Obligations.SeqKeysAndSpeculation : Prop :=
  ∀ (g : RegionIx) (n : Word) (sid : Fin 4) (d : Sid) (s : State),
    let x := s.seq g.val
    let k := n.toNat
    let a := x.reg (rdF k)
    let b := x.reg (raF k)
    let go := fallThrough x.pc x.loops
    let q := (s.act (aSeqWatch g.val)).toNat
    (SeqAt g.val n s →
      (nbits k 26 6 = 0x24 → regOk (rdF k) = true → nbits k 0 21 = 0 →
        (x.notices = [] → ∃ t, exec (.seqKeyget g) s = .next t ∧ SeqHolds g.val 4 x s t)
        ∧ (∀ c cs, x.notices = c :: cs → ∃ t, exec (.seqKeyget g) s = .next t ∧ t.tiles = s.tiles
          ∧ SeqGoes g.val { { x with notices := cs, key := c ||| 1 }.setReg (rdF k) c with loops := go.2 } go.1 s t))
      ∧ (x.keyOk = true → nbits k 26 6 = 0x25 → legRa k = true → ∃ t, exec (.seqKeyi g) s = .next t ∧ t.tiles = s.tiles
        ∧ SeqGoes g.val { x with key := x.key &&& 0xFFF00FFF ||| (b &&& 0xFF) <<< 12, loops := go.2 } go.1 s t)
      ∧ (nbits k 26 6 = 0x26 → legRa k = true → ∃ t, exec (.seqSetkey g) s = .next t ∧ t.tiles = s.tiles
        ∧ SeqGoes g.val { x with key := b &&& 0xFFFFFFF0 ||| 1, loops := go.2 } go.1 s t)
      ∧ (nbits k 26 6 = 0x2A → regOk (raF k) = true → rdF k = 0 → nbits k 0 11 = 0 →
        (rbF k = 0 → ∃ t, exec (.seqMts g) s = .next t ∧ t.tiles = s.tiles
          ∧ SeqGoes g.val { x with tmask := b.toNat % 65536, loops := go.2 } go.1 s t)
        ∧ (rbF k = 3 → ∃ t, exec (.seqMts g) s = .next t ∧ t.tiles = s.tiles
          ∧ SeqGoes g.val { x with spill := b.toNat % 2 ^ 17 / 64 * 64, loops := go.2 } go.1 s t))
      ∧ (nbits k 26 6 = 0x27 → legI k = true → ∃ t, exec (.seqSpecbr g) s = .next t ∧ t.tiles = s.tiles
        ∧ SeqGoes g.val { x with loops := go.2, sids := [
            { sid := nbits k 14 2, cIdx := nbits a.toNat 0 13, sIdx := nbits a.toNat 16 13, cTgt := b.toNat % 65536,
              sTgt := b.toNat / 65536, onSquash := (((x.pc : Int) + 4 + 4 * (n.setWidth 14 : BitVec 14).toInt) % 0x20000).toNat,
              committed := false, regs := (List.range 16).map (fun i => x.reg (8 + i)), g := x.g, loops := x.loops,
              key := x.key, tmask := x.tmask, spill := x.spill }] } go.1 s t))
    ∧ (x.sids = [d] → d.sid = sid.val → d.committed = false → s.live g.val = true → s.reaches d.cIdx d.cTgt = true →
      ∃ t, exec (.sidCommit g sid) s = .next t ∧ (t.seq g.val).sids = [] ∧ (t.seq g.val).pc = x.pc
        ∧ (∀ i < 16, ∀ e < 4, (t.tile (tileOf g.val i)).queue e = ((s.tile (tileOf g.val i)).queue e).map (fun c =>
            if c.spec && c.sid == sid.val then { c with cmd := c.cmd &&& ~~~(BitVec.ofNat 128 (2 ^ 103)) } else c))
        ∧ ∀ i < 16, ∀ p ∈ (t.tile (tileOf g.val i)).staged, p.1 ≠ sid.val)
    ∧ (x.sids = [d] → d.sid = sid.val → d.committed = false → s.live g.val = true → s.reaches d.cIdx d.cTgt = false →
      s.reaches d.sIdx d.sTgt = true →
      ∃ t, exec (.sidSquash g sid) s = .next t ∧ (t.seq g.val).sids = [] ∧ (t.seq g.val).pc = d.onSquash
        ∧ (t.seq g.val).g = d.g ∧ (t.seq g.val).loops = d.loops ∧ (t.seq g.val).key = d.key ∧ (t.seq g.val).tmask = d.tmask
        ∧ (t.seq g.val).spill = d.spill ∧ (t.seq g.val).wait = 0 ∧ (∀ i < 16, (t.seq g.val).reg (8 + i) = nth d.regs i 0)
        ∧ (∀ i < 16, ∀ e < 4, (t.tile (tileOf g.val i)).queue e
            = ((s.tile (tileOf g.val i)).queue e).filter (fun c => !(c.spec && c.sid == sid.val)))
        ∧ ∀ i < 16, ∀ p ∈ (t.tile (tileOf g.val i)).staged, p.1 ≠ sid.val)
    ∧ (∀ e es, nbit q 31 = true → s.live g.val = true → x.keys.length < 4 → x.notices.length < 16 →
      (s.iqAll (tileOf g.val (nbits q 3 4)) (nbits q 0 3)).drop x.seen = e :: es → nbit e.side.toNat 2 = false → es = [] →
      ∃ t, exec (.frameNoticePost g) s = .next t ∧ t.tiles = s.tiles ∧ t.regs = s.regs
        ∧ t.seq g.val = { x with notices := x.notices ++ [keyOf e.side], keys := x.keys ++ [sfWord e.side], seen := x.seen + 1 })

/-- Issue and faults of a sequencer (R203 to R206, R235): a row's command acts only where the instruction at PC has its opcode
and the sequencer may issue; a reserved encoding is ILLEGAL_WORD, a command without a valid KEY is SEQ_ADDRESS; a fault saves
the trap frame and, under a valid KEY, restarts at SEQ_RESTART; without one it halts the region; under speculation it waits.
That an event whose condition is not met changes nothing is the model's choice (log entry 4). -/
def Obligations.SeqIssueAndFaults : Prop :=
  ∀ (g : RegionIx) (n : Word) (s : State),
    let x := s.seq g.val
    let k := n.toNat
    let ra := regOk (raF k)
    let rows : List (Instr × Nat × Bool × Bool) :=
      [(.seqNop g, 0x00, legZero k, false), (.seqAdd g, 0x01, legR k, false), (.seqSub g, 0x02, legR k, false),
       (.seqAnd g, 0x03, legR k, false), (.seqOr g, 0x04, legR k, false), (.seqXor g, 0x05, legR k, false),
       (.seqSll g, 0x06, legR k, false), (.seqSrl g, 0x07, legR k, false), (.seqSra g, 0x08, legR k, false),
       (.seqMul g, 0x09, legR k, false), (.seqSlt g, 0x0A, legR k, false), (.seqSltu g, 0x0B, legR k, false),
       (.seqAddi g, 0x0C, legI k, false), (.seqAndi g, 0x0D, legI k, false), (.seqOri g, 0x0E, legI k, false),
       (.seqLui g, 0x0F, regOk (rdF k) && decide (raF k = 0), false), (.seqLw g, 0x10, legI k, false),
       (.seqSw g, 0x11, legI k, false), (.seqBeq g, 0x12, legI k, false), (.seqBne g, 0x13, legI k, false),
       (.seqBlt g, 0x14, legI k, false), (.seqBge g, 0x15, legI k, false), (.seqJmp g, 0x16, true, false),
       (.seqCall g, 0x17, true, false), (.seqJr g, 0x18, legRa k, false), (.seqRet g, 0x19, legZero k, false),
       (.seqLoop g, 0x1A, legI k && decide (immF k ≠ 0), false), (.seqLpop g, 0x1B, legZero k, false),
       (.seqAff g, 0x1C, legR k && decide (rbF k = 0), false),
       (.seqCmd g, 0x1D, ra && regOk (rbF k) && decide (nbits k 0 11 = 0), true), (.seqReplay g, 0x1E, legRa k, true),
       (.seqRwait g, 0x1F, legZero k, false), (.seqPatch g, 0x20, legRaRb k, false), (.seqBcw g, 0x21, legRaRb k, false),
       (.seqTminc g, 0x22, legRaRb k, true), (.seqTmwait g, 0x23, legRa k, true),
       (.seqKeyget g, 0x24, regOk (rdF k) && decide (nbits k 0 21 = 0), false), (.seqKeyi g, 0x25, legRa k, true),
       (.seqSetkey g, 0x26, legRa k, false), (.seqSpecbr g, 0x27, legI k, false), (.seqFkick g, 0x28, legRaRb k, true),
       (.seqMfs g, 0x29, regOk (rdF k) && decide (raF k = 0) && decide (rbF k < 12) && decide (nbits k 0 11 = 0), false),
       (.seqMts g, 0x2A, ra && decide (rdF k = 0) && decide (rbF k = 0 ∨ rbF k = 3) && decide (nbits k 0 11 = 0), false)]
    (∀ p ∈ rows, s.seqRuns g.val = false → exec p.1 s = .next s)
    ∧ (SeqAt g.val n s → ∀ p ∈ rows,
      (nbits k 26 6 ≠ p.2.1 → exec p.1 s = .next s)
      ∧ (nbits k 26 6 = p.2.1 → p.2.2.1 = false → exec p.1 s = .next (signal s (seqFault g.val 0x01 7 n s)))
      ∧ (nbits k 26 6 = p.2.1 → p.2.2.1 = true → p.2.2.2 = true → x.keyOk = false →
          exec p.1 s = .next (signal s (seqFault g.val 0x06 0 n s))))
    ∧ (SeqAt g.val n s → 0x2B ≤ nbits k 26 6 →
      (x.keyOk = true → ∃ t, exec (.seqReservedOpcode g) s = .next t
        ∧ (∀ i < 16, ∀ e < 4, (t.tile (tileOf g.val i)).queue e = (s.tile (tileOf g.val i)).queue e)
        ∧ (let y := t.seq g.val
          y.pc = nbits (s.act (aSeqRestart g.val)).toNat 2 15 * 4 ∧ y.loops = [] ∧ y.depth = 0 ∧ y.cwp = 0 ∧ y.resident = 1
          ∧ y.keyOk = false ∧ y.ldw 0x1FFC0 = BitVec.ofNat 32 x.pc ∧ y.ldw 0x1FFC4 = n ∧ y.ldw 0x1FFC8 = 0x102)
        ∧ (s.st (strOf x.key) = 1 → (s.stream (strOf x.key)).drainReq = none →
            (t.stream (strOf x.key)).drainReq = some .fault))
      ∧ (x.keyOk = false → (∀ m ∈ s.streamsIn g.val, m < 256) → s.phase g.val = 0 → s.bit (aRegionFctl g.val) 29 = false →
        ∃ t, exec (.seqReservedOpcode g) s = .next t ∧ t.phase g.val = 1 ∧ (t.seq g.val).halted = true
          ∧ (t.seq g.val).ldw 0x1FFC0 = BitVec.ofNat 32 x.pc ∧ ∀ i < 16, (t.tile (tileOf g.val i)).halted = true))
    ∧ (s.seqRuns g.val = true → s.seqBreak g.val = false → x.sids ≠ [] → x.pc < 0xC000 →
      tget .clean x.ecc (x.pc / 4) = .clean → tget 0 x.mem (x.pc / 4) = n → 0x2B ≤ nbits k 26 6 →
      ∃ t, exec (.seqReservedOpcode g) s = .next t ∧ SeqHolds g.val 5 x s t)

/-! ### Tidemarks (11) -/

/-- R241 and R242. In counter mode the oldest waits are satisfied in order while COUNT reaches TARGET, each taking TARGET from
it, and the first that is not satisfied holds back those behind it. In barrier and event mode PHASE advances by one, modulo
32, for every TARGET that COUNT holds, until COUNT lies below TARGET. Both hold of the unit's own step, and of the increments
and waits that reach it. -/
def Obligations.CountersServeWaitsAndBarriersAdvance : Prop :=
  (∀ x : Tm, x.mode = 0 → ∃ m, m ≤ x.waits.length ∧ m * x.target ≤ x.count
    ∧ (m < x.waits.length → x.count - m * x.target < x.target)
    ∧ x.serve = (x.waits.take m, { x with count := x.count - m * x.target, waits := x.waits.drop m }))
  ∧ (∀ x : Tm, x.mode ≠ 0 → 0 < x.target →
    x.settle = { x with count := x.count % x.target, phase := (x.phase + x.count / x.target) % 32 }
    ∧ x.settle.count < x.target ∧ x.settle.count + x.target * (x.count / x.target) = x.count)
  ∧ ∀ (k : Nat) (r : TmReq) (s : State), s.nextReq k = some r → s.st r.stream ≠ 3 → s.tmValid r.stream r.idx = true →
    let x := s.tm r.idx
    let leaves := fun (c : Instr) (y : Tm) =>
      let gs := s.granted ++ y.serve.1.map (fun w => (w.req, r.idx))
      exec c s = .next (signal s ({ s with tmq := s.tmq.eraseIdx k, granted := gs }.setTm r.idx y.serve.2))
    (x.mode = 0 →
      (∀ n, r.inc = some n →
        let o := x.ovf || decide (2 ^ 24 ≤ x.count + n)
        leaves (.tidemarkIncrement k) { x with count := (x.count + n) % 2 ^ 24, ovf := o, phase := x.phase % 32 })
      ∧ (r.inc = none → s.replies.any (fun p => p.1 == r.req && p.2.1 == r.idx) = false →
        leaves (.tidemarkWait k) { x with waits := x.waits ++ [⟨r.req, r.stream, x.phase⟩], phase := x.phase % 32 }))
    ∧ (x.mode ≠ 0 → 0 < x.target → ∀ n, r.inc = some n → ∃ t, exec (.tidemarkIncrement k) s = .next t
      ∧ (t.tm r.idx).count = (x.count + n) % 2 ^ 24 % x.target
      ∧ (t.tm r.idx).phase = (x.phase + (x.count + n) % 2 ^ 24 / x.target) % 32
      ∧ t.tmq = s.tmq.eraseIdx k ∧ ∀ i, i ≠ r.idx → t.tm i = s.tm i)

/-- Rejected requests (R249), answers (R243, R250) and host writes (R254, R260): an invalid request changes no tidemark, and the
first is recorded; a released sequencer that waits on the tidemark goes on, a phase reply becomes its record; a host write
sets COUNT and OWNER and the layout value, and the system tidemarks ignore it. -/
def Obligations.TidemarkAnswersAndHostWrites : Prop :=
  ∀ (k i p : Nat) (r : TmReq) (g : RegionIx) (ix : Fin 8192) (v : Word) (s : State),
    (s.nextReq k = some r → s.st r.stream ≠ 3 → s.tmValid r.stream r.idx = false → s.bit aTmStatus 31 = false → r.idx < 8192 →
      r.stream < 256 →
      let rejected := fun (c : Instr) (kind : Nat) => ∃ t, exec c s = .next t ∧ t.tms = s.tms ∧ t.tmq = s.tmq.eraseIdx k
        ∧ RegsBut [aTmStatus] s t ∧ t.bit aTmStatus 31 = true ∧ t.f aTmStatus 16 13 = r.idx ∧ t.f aTmStatus 8 8 = r.stream
        ∧ t.f aTmStatus 0 8 = 1 ∧ t.f aTmStatus 29 2 = kind
      (r.inc.isSome = true → rejected (.tidemarkIncrement k) (match r.req with | .ferry _ => 2 | _ => 0))
      ∧ (r.inc = none → s.replies.any (fun q => q.1 == r.req && q.2.1 == r.idx) = false → rejected (.tidemarkWait k) 1))
    ∧ (s.granted[k]? = some (.seq g.val, i) → (s.seq g.val).waitIdx = some i → (s.seq g.val).record = none →
      exec (.tidemarkWaiterRelease k) s
        = .next (signal s ({ s with granted := s.granted.eraseIdx k }.setSeq g.val { s.seq g.val with granted := true })))
    ∧ (s.replies[k]? = some (.seq g.val, i, p) →
      exec (.barrierPhaseReply k) s
        = .next (signal s ({ s with replies := s.replies.eraseIdx k }.setSeq g.val { s.seq g.val with record := some (i, p) })))
    ∧ (Served s → ix.val < 8184 → (s.tm ix.val).waits = [] → (s.tm ix.val).mode = 0 →
      exec (.tidemarkHostWrite ix false v) s = .next (signal s (s.setTm ix.val { s.tm ix.val with
        owner := nbits v.toNat 24 8, count := nbits v.toNat 0 24, phase := (s.tm ix.val).phase % 32,
        lay := (nbits v.toNat 0 24, (s.tm ix.val).target, nbits v.toNat 24 8, 0) })))
    ∧ (Served s → 8184 ≤ ix.val → ∀ cfg, exec (.tidemarkHostWrite ix cfg v) s = .next (signal s s))

/-! ### Memory (12, 04) -/

/-- Scrubs (R264, R275): a basin scrub visits its bank's next row, makes single-bit words clean and changes no byte; the forced
one waits for the threshold; a DRAM scrub visits the next 64-byte unit of a touched page. Tile store scrubs (R87): a patrol
scrub runs while SCRUB_EN = 1 and the region is clocked, a forced one while the corrected count exceeds a threshold that is
not 0; it visits its bank's next row, makes single-bit words clean, counts them, changes no byte. That an event whose
condition is not met changes nothing is the model's choice (log entry 4). -/
def Obligations.ScrubsChangeNoByte : Prop :=
  (∀ (b : Fin 16) (u : Nat) (s : State),
      (∃ t, exec (.basinPatrolScrub b) s = .next t ∧ t.mem.basin.cells = s.mem.basin.cells ∧ t.mem.dram = s.mem.dram
        ∧ tget 0 t.mem.scrub b.val = (tget 0 s.mem.scrub b.val + 1) % 131072 ∧ RegsBut [aBasinEccBank b.val] s t
        ∧ ∀ w, t.mem.basin.state w = if s.mem.basin.state w = .single
            ∧ basinRow b.val (tget 0 s.mem.scrub b.val) / 8 ≤ w ∧ w < basinRow b.val (tget 0 s.mem.scrub b.val) / 8 + 4
          then .clean else s.mem.basin.state w)
      ∧ (s.f aBasinEcc 0 16 ≠ 0 → s.f aBasinEcc 0 16 < s.f (aBasinEccBank b.val) 0 16 →
        exec (.basinForcedScrub b) s = exec (.basinPatrolScrub b) s)
      ∧ (s.f aBasinEcc 0 16 = 0 → exec (.basinForcedScrub b) s = .next s)
      ∧ (s.bit aMemScrub 0 = true → s.bit aMemDramStatus 0 = true → s.mem.retrain = false → s.scrubUnit = some u →
        ∃ t, exec .dramPatrolScrub s = .next t ∧ t.mem.dram.cells = s.mem.dram.cells ∧ t.mem.dscrub = u + 1
          ∧ t.mem.touched = s.mem.touched ∧ t.mem.basin = s.mem.basin))
  ∧ (∀ (n : TileIx) (b : Fin 8) (s : State), s.f (aRegionClk (regionOf n.val)) 16 4 ≠ 0 →
      let p := tget 0 (s.tile n.val).scrub b.val
      let scrubs := fun (c : Instr) => ∃ t, exec c s = .next t ∧ (∀ k, k ≠ n.val → t.tile k = s.tile k)
        ∧ (t.tile n.val).store.cells = (s.tile n.val).store.cells
        ∧ tget 0 (t.tile n.val).scrub b.val = (p + 1) % 1024
        ∧ RegsBut [aTileEccBank n.val b.val, aTileEccLast n.val] s t
        ∧ ∀ w, (t.tile n.val).store.state w = (if (s.tile n.val).store.state w = .single ∧ (p * 8 + b.val) * 4 ≤ w ∧ w < (p * 8 + b.val) * 4 + 4
            then .clean else (s.tile n.val).store.state w)
      (s.bit (aTileCtl n.val) 0 = true → scrubs (.tilePatrolScrub n b))
      ∧ (s.f (aTileEccThresh n.val) 0 16 ≠ 0 → s.f (aTileEccThresh n.val) 0 16 < s.f (aTileEccBank n.val b.val) 0 16 →
        scrubs (.tileForcedScrub n b))
      ∧ (s.bit (aTileCtl n.val) 0 = false → exec (.tilePatrolScrub n b) s = .next s)
      ∧ (s.f (aTileEccThresh n.val) 0 16 = 0 → exec (.tileForcedScrub n b) s = .next s))

/-- Refresh and retraining (R273, R274): a refresh changes only a counter, by a free value; a due retraining starts at a lull, a
forced one whatever is in flight, and shows FORCED; its end clears DUE and lets accesses go on. The touched map (R278, R279):
a zero-fill that ends makes its page touched and zero but for the writes that met during it, in their order; MEM_UNTOUCH
returns COUNT pages from PAGE to untouched, and GO reads 0 afterwards. That an event whose condition is not met changes
nothing is the model's choice (log entry 4). -/
def Obligations.DramUpkeep : Prop :=
  (∀ s : State, s.bit aMemDramStatus 0 = true → s.bit aObsCtl 0 = false →
      (let n := s.cnt (cMem 2) + BitVec.ofNat 64 (Config.freeWord s.free).toNat
       exec .dramRefresh s = .next (signal s { s with free := s.free + 1, counters := tset 0 s.counters (cMem 2) n }))
      ∧ exec .retrainingDue s = .next (signal s (s.setB aMemDramStatus 1 true))
      ∧ (s.bit aMemDramStatus 1 = true → s.mem.retrain = false →
        (s.lull = true → exec .dramRetrain s = .next (signal s { s with mem := { s.mem with retrain := true } }))
        ∧ (s.lull = false → exec .dramRetrain s = .next s)
        ∧ ∃ t, exec .forcedRetraining s = .next t ∧ t.mem = { s.mem with retrain := true, forced := true }
            ∧ t.bit aMemDramStatus 2 = true ∧ t.cnt (cMem 7) = s.cnt (cMem 7) + 1 ∧ RegsBut [aMemDramStatus] s t)
      ∧ (s.mem.retrain = true → ∃ t, exec .dramRetrainComplete s = .next t
          ∧ t.mem = { s.mem with retrain := false, forced := false } ∧ t.bit aMemDramStatus 1 = false
          ∧ RegsBut [aMemDramStatus] s t))
  ∧ (∀ (k : Nat) (v : Word) (s : State),
      (∀ f a bs, s.mem.fills[k]? = some f → f.writes = [(a, bs, false)] → f.page * 4096 ≤ a → a + bs.length ≤ f.page * 4096 + 4096 →
        s.bit aMemDramStatus 0 = true → s.mem.retrain = false →
        ∃ t, exec (.zeroFillComplete k) s = .next t ∧ f.page ∈ t.mem.touched ∧ t.regs = s.regs ∧ t.mem.basin = s.mem.basin
          ∧ (∀ p, p ∈ s.mem.touched → p ∈ t.mem.touched) ∧ t.mem.fills = s.mem.fills.filter (fun x => x.page != f.page)
          ∧ (∀ b, f.page * 4096 ≤ b → b < f.page * 4096 + 4096 →
              t.mem.dram.byte b = if a ≤ b ∧ b < a + bs.length then (bs[b - a]?).getD 0 else 0)
          ∧ (∀ b, b < f.page * 4096 ∨ f.page * 4096 + 4096 ≤ b → t.mem.dram.byte b = s.mem.dram.byte b))
      ∧ (Served s → nbit v.toNat 31 = true → nbits v.toNat 0 23 ≠ 0 → s.bit aMemUntouch 31 = false →
        ∃ t, exec (.memUntouch v) s = .next t ∧ t.mem = { s.mem with untouch := some (s.f aMemUntouchPage 0 23, nbits v.toNat 0 23) }
          ∧ t.bit aMemUntouch 31 = true ∧ t.f aMemUntouch 0 23 = nbits v.toNat 0 23 ∧ RegsBut [aMemUntouch] s t)
      ∧ (∀ p n, s.mem.untouch = some (p, n) → s.mem.fills = [] →
        ∃ t, exec .memUntouchDone s = .next t ∧ t.bit aMemUntouch 31 = false ∧ RegsBut [aMemUntouch] s t ∧ t.mem.dram = s.mem.dram
          ∧ t.mem.untouch = none ∧ ∀ q, q ∈ t.mem.touched ↔ q ∈ s.mem.touched ∧ ¬ (p ≤ q ∧ q < p + n)))

/-- R277: a read of untouched pages returns zero without an access to DRAM, and changes nothing but a count of such reads. -/
def Obligations.UntouchedPagesReadZero : Prop :=
  ∀ (a n : Nat) (s : State), 0 < n → (∀ p, a / 4096 ≤ p → p ≤ (a + n - 1) / 4096 → p ∉ s.mem.touched) →
    (s.dramRead a n).1 = ⟨List.replicate n 0, false, false⟩
    ∧ (∃ cs, (s.dramRead a n).2 = { s with counters := cs }) ∧ (s.dramRead a n).2.cnt (cMem 0) = s.cnt (cMem 0)
    ∧ ∀ off, s.bit aPwrStatus 25 = true → s.f aPwrStatus 28 4 ≠ 2 → a = s.f aMemAper 0 5 * 2 ^ 30 + off → off + n ≤ 2 ^ 34 →
      a + n ≤ dramUsable → (∀ f ∈ s.mem.fills, f.page < a / 4096 ∨ (a + n - 1) / 4096 < f.page) →
      ∃ t, exec (.hostWindowCAccess (.read off n)) s = .next t ∧ t.mem = s.mem ∧ t.regs = s.regs
        ∧ .data 0 (List.replicate n 0) ∈ t.outbox

/-- The memories stay in canonical form (addresses strictly rising, nothing listed that reads the same unlisted) under every
command that writes them for the host or for itself, so that equal memories are equal data. -/
def Obligations.MemoriesKeepTheirCanonicalForm : Prop :=
  ∀ (a : HostAccess) (b : Fin 16) (k : Nat) (s t : State), Memory.wf s = true →
    (exec (.hostWindowBAccess a) s = .next t ∨ exec (.hostWindowCAccess a) s = .next t ∨ exec (.basinPatrolScrub b) s = .next t
      ∨ exec (.basinForcedScrub b) s = .next t ∨ exec .dramPatrolScrub s = .next t ∨ exec (.zeroFillComplete k) s = .next t
      ∨ exec .memUntouchDone s = .next t ∨ exec .dramRefresh s = .next t ∨ exec .dramRetrainComplete s = .next t) →
    Memory.wf t = true

/-! ### The exit gate and the press interface (14) -/

/-- A final token (R317, R318): on an OPEN slot it fills it with its verdict (by VCODE in mode 0, by the crossed thresholds in
mode 1) and its fields; it leaves its port, takes a buffer place and counts. A token for a FREE slot raises FRAME_UNKNOWN of
class S, and one of a stream being purged is discarded. Records and LATE (R319, R323): the record of a stream's oldest
answered frame closes its slot and takes the frame out of those in flight; LATE fills a slot that is OPEN or whose verdict is
not yet released, and no other. -/
def Obligations.GateSlotsAndRecords : Prop :=
  (∀ (y : Fin 20) (e : Entry) (es : List Entry) (s : State), tget [] s.gate.ports y.val = e :: es → s.bit aObsCtl 0 = false →
      let n := strOf e.side
      let tag := frameOf e.side
      let sl := s.slot n tag
      (s.purging n = true → ∃ t, exec (.finalTokenPop y) s = .next t ∧ t.streams = s.streams ∧ t.regs = s.regs
        ∧ tget [] t.gate.ports y.val = es)
      ∧ (s.purging n = false → nbit e.side.toNat 2 = true → sl.st = .opened → psnOf e.side = false → 0 < s.gate.free →
        ∃ t, exec (.finalTokenPop y) s = .next t ∧ t.regs = s.regs ∧ tget [] t.gate.ports y.val = es
          ∧ t.gate.free = s.gate.free - 1 ∧ t.cnt (cGate 0) = s.cnt (cGate 0) + 1
          ∧ (t.slot n tag).st = .filled ∧ (t.slot n tag).byToken = true ∧ (t.slot n tag).cls = tokClass e.pay
          ∧ (t.slot n tag).user = tokUser e.pay ∧ (t.slot n tag).scores = tokScores e.pay
          ∧ (sl.job.mode = 0 → (t.slot n tag).outcome = (if tokVcode e.pay = 0 then 0 else 1) ∧ (t.slot n tag).tmask = 0)
          ∧ (sl.job.mode = 1 → (t.slot n tag).tmask = tmaskOf sl.job e.pay
              ∧ (t.slot n tag).outcome = (if tmaskOf sl.job e.pay = 0 then 0 else 1))
          ∧ ∀ m f, m ≠ n ∨ f ≠ tag → t.slot m f = s.slot m f)
      ∧ (s.purging n = false → nbit e.side.toNat 2 = true → sl.st = .free →
        ∃ t u, exec (.finalTokenPop y) s = .next t ∧ t = signal s (gateS 0x03 y.val e u)
          ∧ u.streams = s.streams ∧ u.regs = s.regs ∧ tget [] u.gate.ports y.val = es))
  ∧ (∀ (n : StreamIx) (tm : Fin 64) (r : Answer) (tag : Nat) (rest : List (Nat × Nat)) (s : State),
      (s.gate.answers.find? (fun a => a.stream == n.val) = some r → (s.stream n.val).pend = none → r.tag < 4096 →
        ∃ t, exec (.verdictRecordWrite n) s = .next t ∧ t.gate.answers = s.gate.answers.erase r
          ∧ (t.slot n.val r.tag).st = .closed ∧ t.f (aStreamStatus n.val) 20 12 = r.tag
          ∧ (t.stream n.val).admitted = (s.stream n.val).admitted.filter (fun u => u != r.tag))
      ∧ ((s.timer tm.val).busy = true → s.orphans tm.val = [] →
        ∃ t, exec (.deadlineReached tm) s = .next t ∧ t.gate = { s.gate with lates := s.gate.lates ++ s.lateFrames tm.val }
          ∧ t.regs = s.regs ∧ t.streams = s.streams ∧ t.press.timers = s.press.timers)
      ∧ (s.gate.lates = (n.val, tag) :: rest → (s.slot n.val tag).st = .opened →
        ∃ t, exec .lateReceive s = .next t ∧ t.gate = { s.gate with lates := rest }
          ∧ (t.slot n.val tag).st = .filled ∧ (t.slot n.val tag).outcome = 4)
      ∧ (s.gate.lates = (n.val, tag) :: rest → (s.slot n.val tag).st = .closed →
        ∃ t, exec .lateReceive s = .next t ∧ t.streams = s.streams ∧ t.gate = { s.gate with lates := rest }))

/-- Slots leave in the order of admission (R319, R321): a filled slot that is the oldest not yet released sends its action; one
behind a slot still OPEN waits. The oldest action reaches the keel, and one of an unbound frame is answered with its own
outcome and no firing (R322). R22, R322: a verdict that reaches the keel when the frame's deadline is reached is answered
LATE and does not stop the firing; a PASS in time, without slip and with an armed timer of its own, disarms it. That an event
whose condition is not met changes nothing is the model's choice (log entry 4). -/
def Obligations.ActionsAndDisarming : Prop :=
  (∀ (n : StreamIx) (tag : Nat) (s : State),
      (s.nextSlot n.val = some tag → (s.slot n.val tag).st = .filled → s.bit aObsCtl 0 = false →
        ∃ t, exec (.gateSlotRelease n) s = .next t
          ∧ t.gate = { s.gate with actions := s.gate.actions ++ [⟨n.val, tag, (s.slot n.val tag).outcome⟩] }
          ∧ t.streams = s.streams ∧ t.regs = s.regs
          ∧ t.cnt (cStream n.val (1 + (s.slot n.val tag).outcome)) = s.cnt (cStream n.val (1 + (s.slot n.val tag).outcome)) + 1)
      ∧ (s.nextSlot n.val = some tag → (s.slot n.val tag).st = .opened → exec (.gateSlotRelease n) s = .next s)
      ∧ (∀ a rest, s.gate.actions = a :: rest → (s.slot a.stream a.tag).edge = none →
        ∃ t r, exec .keelActionDecision s = .next t ∧ t.gate = { s.gate with actions := rest, answers := s.gate.answers ++ [r] }
          ∧ r.stream = a.stream ∧ r.tag = a.tag ∧ r.verdict = a.outcome ∧ r.fire = false ∧ r.ebb = s.bit aPwrStatus 24
          ∧ t.press = s.press ∧ t.regs = s.regs ∧ t.streams = s.streams))
  ∧ (∀ (a : Action) (rest : List Action) (e : Edge) (k : Fin 64) (s : State), s.gate.actions = a :: rest →
      (s.slot a.stream a.tag).edge = some e → a.outcome = 0 →
      ∃ t r, exec .keelActionDecision s = .next t ∧ t.gate.answers = s.gate.answers ++ [r] ∧ t.gate.actions = rest
        ∧ (s.frameLate (s.slot a.stream a.tag) e = true → r.verdict = 4 ∧ r.fire = true)
        ∧ (s.frameLate (s.slot a.stream a.tag) e = false → s.frameTimer a.stream a.tag e = some k.val → e.coal = false →
            e.slip = false → (s.timer k.val).coal = [] → (s.timer k.val).armed = true → (s.timer k.val).hot = false →
            (s.timer k.val).slip = false → s.bit (aTrigStatus (s.slot a.stream a.tag).trig) 23 = false →
            r.verdict = 0 ∧ r.fire = false ∧ t.timer k.val = Timer.init))

/-- Encoders (R324, R325): with EN = 1 a transition of one filtered level moves the position by one, up or down as the direction
bit shows (which way is forward is PRESUMED: log entry 10), one of both sets ERR and counts, one of none does nothing; with
EN = 0 nothing counts. A rising Z latches the position under ZMODE 1. R327: a write to ENC_CTL that clears EN or changes INV
while a timer that follows the encoder is not free is dropped whole, as is the reserved ZMODE; any other is stored without
its reserved bits. -/
def Obligations.Encoders : Prop :=
  (∀ (e : Fin 4) (a b : Bool) (s : State),
      let was := (s.pin (3 * e.val), s.pin (3 * e.val + 1))
      ∃ t, exec (.encoderTransition e a b) s = .next t ∧ t.pin (3 * e.val) = a ∧ t.pin (3 * e.val + 1) = b
        ∧ RegsBut [aEncPos e.val, aEncStatus e.val] s t
        ∧ (s.bit (aEncCtl e.val) 31 = false ∨ was = (a, b) → t.regs = s.regs)
        ∧ (s.bit (aEncCtl e.val) 31 = true → was.1 ≠ a → was.2 ≠ b →
            t.rd (aEncPos e.val) = s.rd (aEncPos e.val) ∧ t.bit (aEncStatus e.val) 2 = true)
        ∧ (s.bit (aEncCtl e.val) 31 = true → xor (was.1 != a) (was.2 != b) = true →
            t.rd (aEncPos e.val) = (if t.bit (aEncStatus e.val) 1 then s.rd (aEncPos e.val) - 1 else s.rd (aEncPos e.val) + 1))
        ∧ (s.f (aEncCtl e.val) 28 2 = 1 → ∃ z, exec (.encoderIndex e) s = .next z
            ∧ z.rd (aEncZpos e.val) = s.rd (aEncPos e.val) ∧ z.bit (aEncStatus e.val) 0 = true
            ∧ RegsBut [aEncZpos e.val, aEncStatus e.val] s z)
        ∧ (s.f (aEncCtl e.val) 28 2 = 0 → ∃ z, exec (.encoderIndex e) s = .next z ∧ z.regs = s.regs))
  ∧ (∀ (e : Fin 4) (v : Word) (s : State),
      let held := (List.range 64).any (fun k => (s.timer k).busy && !(s.timer k).tbase && (s.timer k).enc == e.val)
      let stops := (s.bit (aEncCtl e.val) 31 && !nbit v.toNat 31) || xor (s.bit (aEncCtl e.val) 30) (nbit v.toNat 30)
      exec (.encCtlWrite e v) s = .next (signal s (
        if 1 < nbits v.toNat 28 2 ∨ (held = true ∧ stops = true) then reject none (aEncCtl e.val) s
        else s.wr (aEncCtl e.val) (v &&& 0xF00000FF))))

/-- Trigger edges (R328 to R330, R340): while the press interface is disabled, or on an edge MODE does not select, only the level
follows; an accepted edge counts, and on an input no enabled channel binds it does nothing more. PRESS_CTL.EN is what
PRESS_ENABLE and PRESS_DISABLE set. -/
def Obligations.TriggerEdgesAreAccepted : Prop :=
  ∀ (i : Fin 16) (rising : Bool) (s : State),
    ((s.pressOn = false ∨ nbit (s.fa (aTrigCfg i.val) 30 2) (if rising then 0 else 1) = false) →
      exec (.triggerEdge i rising) s = .next (signal s (s.setPin (12 + i.val) rising)))
    ∧ (s.pressOn = true → nbit (s.fa (aTrigCfg i.val) 30 2) (if rising then 0 else 1) = true → s.boundChan i.val = none →
      s.bit aPwrWake (16 + i.val) = false →
      exec (.triggerEdge i rising) s
        = .next (signal s ((s.setPin (12 + i.val) rising).wr (aTrigCount i.val) (s.rd (aTrigCount i.val) + 1))))
    ∧ exec .pressEnable s = .next (signal s (s.setB aPressCtl 0 true))
    ∧ exec .pressDisable s = .next (signal s (s.setB aPressCtl 0 false))

/-- Distance and interval timers (R332, R334 to R336): an armed timer whose position is reached fires once and drives its output,
and is counted; it is free when its pulse and those of its coalesced edges are over; an interval timer at its period sets its
status bit (ACTION 0) or starts a pulse of WIDTH (ACTION 1), and begins the next period. -/
def Obligations.TimersFire : Prop :=
  ∀ (tm : Fin 64) (k : Fin 32) (s : State),
    ((s.timer tm.val).armed = true → s.timerDue tm.val = true → s.pressOn = true → s.bit aJournalCtl 0 = false →
      s.bit aObsCtl 0 = false →
      ∃ t, exec (.distanceTimerFire tm) s = .next t ∧ t.timer tm.val = { s.timer tm.val with st := 4 }
        ∧ t.regs = s.regs ∧ t.journal = s.journal
        ∧ t.cnt (cPress (20 + (s.timer tm.val).act)) = s.cnt (cPress (20 + (s.timer tm.val).act)) + 1
        ∧ ∀ j, j ≠ tm.val → t.timer j = s.timer j)
    ∧ ((s.timer tm.val).st = 4 → (s.timer tm.val).coal.all (fun p => reachedAt (s.position (s.timer tm.val).tbase (s.timer tm.val).enc) p) = true →
      exec (.pulseEnd tm) s = .next (signal s (s.setTimer tm.val Timer.init)))
    ∧ (s.bit (aItCfg k.val) 31 = true → (s.rd (aItPeriod k.val)).toNat ≠ 0 →
      (s.rd (aItPeriod k.val)).toNat ≤ tget 0 s.press.ticks k.val →
      (s.bit (aItCfg k.val) 30 = true ∨ s.bit (aEncCtl (s.f (aItCfg k.val) 0 2)) 31 = true) →
      (s.f (aItCfg k.val) 28 2 = 0 → ∃ t, exec (.intervalTimerExpiry k) s = .next t ∧ t.bit aItStatus k.val = true
        ∧ RegsBut [aItStatus] s t ∧ tget 0 t.press.ticks k.val = tget 0 s.press.ticks k.val - (s.rd (aItPeriod k.val)).toNat)
      ∧ (s.f (aItCfg k.val) 28 2 = 1 → ∃ t, exec (.intervalTimerExpiry k) s = .next t ∧ t.regs = s.regs
        ∧ tget 0 t.press.pulses k.val = (s.rd (aItWidth k.val)).toNat
        ∧ tget 0 t.press.ticks k.val = tget 0 s.press.ticks k.val - (s.rd (aItPeriod k.val)).toNat))

/-! ### Faults and recovery (15) -/

/-- The drain (R347, R349): at the drain point the stream is DRAINING, what was asked for is under way, and a drain by ABORT or a
fault leaves no slot of a frame in flight OPEN; when it completes the stream is STOPPED and DRAINED, or RUNNING again after a
fault with AUTO_RESUME, and vector 4 has its cause. -/
def Obligations.DrainOfAStream : Prop :=
  ∀ (n : StreamIx) (k : DrainKind) (s : State),
    ((s.stream n.val).drainReq = some k → s.st n.val = 1 ∨ s.st n.val = 2 →
      ∃ t, exec (.drainPoint n) s = .next t ∧ t.st n.val = 3 ∧ (t.stream n.val).drainReq = none
        ∧ (t.stream n.val).drainKind = some k
        ∧ (k ≠ .drain → ∀ f ∈ (s.stream n.val).admitted, (t.slot n.val f).st ≠ .opened))
    ∧ (s.st n.val = 3 → (s.stream n.val).admitted = [] → s.stopped n.val = true → (s.stream n.val).drainKind = some k →
      ∃ t, exec (.drainComplete n) s = .next t ∧ t.bit (aStreamIntCause n.val) 4 = true
        ∧ (t.stream n.val).drainKind = none
        ∧ (k = .fault ∧ s.bit (aStreamCtl n.val) 8 = true → t.st n.val = 1 ∧ t.bit (aStreamStatus n.val) 5 = false)
        ∧ (k ≠ .fault ∨ s.bit (aStreamCtl n.val) 8 = false → t.st n.val = 0 ∧ t.bit (aStreamStatus n.val) 5 = true))

/-- Recovery of a region (R352, R358): the scan-out leaves it under GSR in PHASE 3, the scan-in releases it, and a step that
takes too long raises RECOVERY_FAILED of class F: PHASE 5, and the device is FATAL. RECOVER (15, Registers; R352, R353, R355,
R358): a halted region enters its recovery at once, by scan-out where the scan area has room and straight to PHASE 3
otherwise, at the clock of divider 1 and counted in RETRIES; after a class F fault it does nothing. -/
def Obligations.RegionRecovery : Prop :=
  (∀ (g : RegionIx) (s : State),
      (s.phase g.val = 2 → ∃ t, exec (.scanOutComplete g) s = .next t ∧ t.phase g.val = 3
        ∧ ∀ k < 16, (t.tile (tileOf g.val k)).gsr = true ∧ (t.tile (tileOf g.val k)).iq = [] ∧ (t.tile (tileOf g.val k)).cq = [])
      ∧ (s.phase g.val = 3 → s.layOp = none → ∃ t, exec (.scanInComplete g) s = .next t
        ∧ (t.phase g.val = 0 ∨ t.phase g.val = 4)
        ∧ ∀ k < 16, (t.tile (tileOf g.val k)).gsr = false ∧ (t.tile (tileOf g.val k)).halted = false)
      ∧ (s.phase g.val = 2 ∨ s.phase g.val = 3 → ∃ t, exec (.recoveryStepTimeout g) s = .next t
        ∧ t.phase g.val = 5 ∧ t.bit aGlobalStatus 28 = true))
  ∧ (∀ (g : RegionIx) (s : State), Served s →
      (s.bit aGlobalStatus 28 = true → exec (.regionRecover g) s = .next (signal s s))
      ∧ (s.bit aGlobalStatus 28 = false → s.phase g.val = 1 → (s.seq g.val).recTimes = [] →
        ∃ t, exec (.regionRecover g) s = .next t ∧ t.phase g.val = (if scanRoom s g.val then 2 else 3)
          ∧ t.bit (aRegionFstatus g.val) 24 = (s.bit (aRegionFstatus g.val) 24 || !scanRoom s g.val)
          ∧ t.f (aRegionClk g.val) 16 4 = 1 ∧ t.f (aRegionFstatus g.val) 16 8 = 1
          ∧ RegsBut [aRegionFstatus g.val, aRegionClk g.val] s t ∧ t.tiles = s.tiles ∧ t.streams = s.streams))

/-- The classes of faults (R341, R343, R347): class C counts and is kept as the last one, and nothing else changes; class S puts
a record in the ring of its stream and in the device log and asks for the stream's drain; class F stops the device. The read
side (15, Registers): a new FAULT_HEAD is stored and clears LOST (15 is reserved), as FLOG_HEAD does; FCLR clears the fatal
record, CCLR every class C count; a read of JOURNAL_DATA returns the word at ADDR, and ADDR moves on. -/
def Obligations.FaultClassesAndRings : Prop :=
  (∀ (x : FaultAt) (n : StreamIx) (s : State), x.code < 256 →
      (x.cls = 0 → OnlyRegs s (raise x s) ∧ RegsBut [aFaultCCount x.code, 0x12400, 0x12404, 0x12408, 0x1240C] s (raise x s)
        ∧ ((raise x s).rd (aFaultCCount x.code)).toNat = min ((s.rd (aFaultCCount x.code)).toNat + 1) (2 ^ 32 - 1)
        ∧ (List.range 4).map (fun i => (raise x s).rd (0x12400 + 4 * i)) = x.words s.now)
      ∧ (x.cls = 1 → x.stream = some n.val → s.st n.val = 1 ∨ s.st n.val = 2 → (s.stream n.val).drainReq = none →
        s.f (aFaultHead n.val) 0 4 = 0 → s.f (aFaultTail n.val) 0 4 = 0 → s.f aFlogHead 0 6 = 0 → s.f aFlogTail 0 6 = 0 →
        let t := raise x s
        (t.stream n.val).drainReq = some .fault ∧ t.f (aFaultTail n.val) 0 4 = 1 ∧ t.f aFlogTail 0 6 = 1
        ∧ t.bit (aStreamIntCause n.val) 2 = true ∧ t.st n.val = s.st n.val ∧ t.tiles = s.tiles
        ∧ (List.range 4).map (fun i => t.rd (streamPage n.val + 0x100 + 4 * i)) = x.words s.now
        ∧ (List.range 4).map (fun i => t.rd (0x12000 + 4 * i)) = x.words s.now)
      ∧ (x.cls = 3 → s.streams = [] → let t := raise x s
        t.bit aGlobalStatus 28 = true ∧ (∀ g < 25, t.phase g = 1 ∧ (t.seq g).halted = true)
        ∧ t.journal.nextA = s.journal.nextA + 1))
  ∧ (∀ (n : StreamIx) (v : Word) (s : State),
      (Served s → exec (.faultHeadWrite .pf n v) s = .next (signal s (
          if nbits v.toNat 0 4 = 15 then reject none (aFaultHead n.val) s
          else (s.setF (aFaultHead n.val) 0 4 (nbits v.toNat 0 4)).setF (aFaultTail n.val) 24 8 0)))
      ∧ (∃ t, exec (.flogHeadWrite v) s = .next t ∧ OnlyRegs s t ∧ RegsBut [aFlogHead, aFlogTail] s t
        ∧ t.f aFlogHead 0 6 = nbits v.toNat 0 6 ∧ t.f aFlogTail 24 8 = 0 ∧ t.f aFlogTail 0 6 = s.f aFlogTail 0 6)
      ∧ (∃ t, exec .fclr s = .next t ∧ OnlyRegs s t ∧ RegsBut [0x12410, 0x12414, 0x12418, 0x1241C] s t
        ∧ ∀ i < 4, t.rd (0x12410 + 4 * i) = 0)
      ∧ (∃ t, exec .cclr s = .next t ∧ OnlyRegs s t ∧ RegsBut ((List.range 256).map aFaultCCount) s t
        ∧ ∀ c < 256, t.rd (aFaultCCount c) = 0)
      ∧ (∃ t, exec .journalDataRead s = .next t ∧ RegsBut [aJournalAddr] s t
        ∧ t.f aJournalAddr 2 21 = (s.f aJournalAddr 2 21 + 1) % 2 ^ 21
        ∧ .data 0 ((List.range 4).map (fun k => s.mramByte (4 * s.f aJournalAddr 2 21 + k))) ∈ t.outbox))

/-! ### Power, boot, clocks, resets, keys (16) -/

/-- Supplies (R363 to R368, R418, R438, R439): a switch-over journals, shows BACKUP and starts the ebb hold of a powered fabric;
the hold's end starts the shutdown with SUPPLY_EBB of class F; the rails go and with them the pipeline and shoreline dies;
the return to VAON_MAIN journals and shows RESTORED; VBAK low is shown, VBAK exhausted is OFF. -/
def Obligations.Supplies : Prop :=
  ∀ (mv : BitVec 16) (k : Fin 4) (r : Fin 3) (s : State),
    let dies := fun (t : State) => t.streams = [] ∧ t.chans = [] ∧ t.tiles = [] ∧ t.seqs = [] ∧ t.tms = [] ∧ t.images = []
      ∧ t.mem = State.reset.mem ∧ t.fabric = State.reset.fabric ∧ t.uses = []
    let ebbs := fun (c : Instr) => ∃ t, exec c s = .next t ∧ t.power.shutdown = true ∧ t.power.hold = false ∧ t.bit aGlobalStatus 28 = true
      ∧ ∀ g < 25, (t.seq g).halted = true
    let switches := fun (c : Instr) => ∃ t, exec c s = .next t ∧ t.bit aPwrStatus 24 = true ∧ t.f aPwrStatus 28 4 = 4
      ∧ t.bit (aSupplyMon 7) 31 = true ∧ t.f (aSupplyMon 7) 0 16 = mv.toNat ∧ t.power.hold = s.bit aPwrStatus 25
      ∧ t.power.before = s.f aPwrStatus 28 4 ∧ t.power.ebbPin = false ∧ t.journal.nextA = s.journal.nextA + 1
      ∧ t.streams = s.streams ∧ t.tiles = s.tiles ∧ t.mem = s.mem
    (mv.toNat < 1620 → s.bit aPwrStatus 24 = false → s.f aPwrEbb 0 8 ≠ 0 →
      switches (.supplySwitchOver mv) ∧ switches (.trayInputLoss mv)
      ∧ ∃ t, exec (.trayInputLoss mv) s = .next t ∧ t.tray.in12 = false ∧ nbits (t.trayRd 1).toNat 28 4 = 2)
    ∧ (s.power.hold = true → (∀ p ∈ s.streams, p.1 < 256) →
      ebbs (.ebbHoldEnd .timeout) ∧ (mv.toNat < (holdRail r).2 → ebbs (.ebbHoldEnd (.undervoltage r mv)))
      ∧ (s.power.trip = true → ebbs (.ebbHoldEnd .trip)) ∧ (nbit s.power.railEn k.val = true → ebbs (.ebbHoldEnd (.railPg k))))
    ∧ (nbit s.power.railEn k.val = true → s.power.shutdown = false → s.bit aPwrStatus 24 = false ∨ s.power.hold = true →
      (∀ p ∈ s.streams, p.1 < 256) → ebbs (.railPgLoss k))
    ∧ (s.power.shutdown = true → ∃ t, exec .railRemoval s = .next t ∧ dies t ∧ t.bit aPwrStatus 25 = false
      ∧ t.f aPwrStatus 28 4 = (if s.bit aPwrStatus 24 then 4 else 3) ∧ t.power.railEn = 0 ∧ t.power.shutdown = false
      ∧ t.journal = s.journal ∧ t.press = s.press ∧ t.hostMem = s.hostMem
      ∧ ∀ off, off < 0x20000 → off ≠ aPwrStatus → off ≠ aClkStatus → off ≠ aGlobalStatus → t.rd off = s.rd off)
    ∧ (s.bit aPwrStatus 24 = true → (s.bit aPwrStatus 25 = true ∨ s.bit aPwrCtl 8 = false) → ∃ t, exec .returnToMain s = .next t
      ∧ t.bit aPwrStatus 24 = false ∧ t.bit aPwrStatus 21 = true ∧ t.bit (aSupplyMon 7) 31 = false ∧ t.power.hold = false
      ∧ t.power.ebbPin = true ∧ t.journal.nextA = s.journal.nextA + 1 ∧ RegsBut [aPwrStatus, aSupplyMon 7] s t
      ∧ t.f aPwrStatus 28 4 = (if s.power.before ≠ 3 ∧ s.bit aPwrStatus 25 = false then 3 else s.power.before % 16))
    ∧ (mv.toNat < 3000 → ∃ t, exec (.vbakLow mv) s = .next t ∧ t.bit aPwrStatus 23 = true ∧ t.bit (aSupplyMon 8) 31 = true
      ∧ t.f (aSupplyMon 8) 0 16 = mv.toNat ∧ RegsBut [aPwrStatus, aSupplyMon 8] s t)
    ∧ (s.bit aPwrStatus 24 = true → ∃ t, exec .vbakExhausted s = .next t ∧ dies t ∧ t.regs = [] ∧ t.journal = s.journal
      ∧ t.hostMem = s.hostMem)
    ∧ (10 * mv.toNat < 9 * s.vpress → ∃ t, exec (.vpressUndervoltage mv) s = .next t ∧ t.bit (aSupplyMon 6) 31 = true
      ∧ t.f (aSupplyMon 6) 0 16 = mv.toNat ∧ RegsBut [aSupplyMon 6] s t)

/-- Boot (R362, R374, R382 to R385, R432, R441): POR samples SMB_ADDR and starts step 1; the firmware image that verifies runs,
or the boot fails with code 1; RST_N held low holds step 2; the rails rise in order, or fail with code 2; the PLLs lock with
N; the scrub leaves zero; DRAM training and the boot policy end in RUN. That an event whose condition is not met changes
nothing is the model's choice (log entry 4). -/
def Obligations.Boot : Prop :=
  ∀ (smb : BitVec 2) (okA okB : Bool) (fw : Word) (k : Fin 4) (pol : BootPolicy) (s : State),
    let stage := fun (c : Instr) (n : Nat) => ∃ t, exec c s = .next t ∧ t.f aBootStatus 28 4 = n ∧ t.power.boot = n
    let fails := fun (c : Instr) (n : Nat) => ∃ t, exec c s = .next t ∧ t.f aBootStatus 28 4 = 10 ∧ t.f aBootStatus 16 8 = n
      ∧ t.power.boot = 0 ∧ t.bit aPwrStatus 25 = false ∧ t.tiles = [] ∧ t.f aPwrStatus 28 4 = (if s.bit aPwrStatus 24 then 4 else 3)
    (∃ t, exec (.porRelease smb) s = .next t ∧ t.power.smb = smb.toNat ∧ t.power.boot = 1 ∧ t.f aBootStatus 28 4 = 1
      ∧ t.f aPwrStatus 28 4 = 3 ∧ t.bit aPwrStatus 25 = false ∧ t.bit aClkStatus 5 = true ∧ t.bit aClkStatus 4 = true
      ∧ t.streams = [] ∧ t.tiles = [] ∧ t.images = [] ∧ t.journal.nextA = s.journal.nextA + 1)
    ∧ (s.power.boot = 1 →
      (okA = false → okB = false → fails (.firmwareVerified okA okB fw) 1)
      ∧ (okA = true ∨ okB = true → s.power.rstHeld = false → stage (.firmwareVerified okA okB fw) 2
        ∧ ∃ t, exec (.firmwareVerified okA okB fw) s = .next t ∧ t.power.fw = fw ∧ t.bit aBootStatus 8 = !okA))
    ∧ (s.power.boot = 2 → s.power.rstHeld = true → stage .rstNRise 2 ∧ exec .keelFirmwareReady s = .next s)
    ∧ (s.power.boot = 2 → s.power.rstHeld = false → s.bit aPwrStatus 25 = false → stage .keelFirmwareReady 3
      ∧ ∃ t, exec .keelFirmwareReady s = .next t ∧ t.power.railEn = 1 ∧ t.power.rail = 0 ∧ t.journal.nextA = s.journal.nextA + 1)
    ∧ (s.power.boot = 3 → s.power.rail = k.val →
      (k.val < 3 → ∃ t, exec (.railPowerGood k) s = .next t ∧ t.power.rail = k.val + 1
        ∧ t.power.railEn = s.power.railEn + 2 ^ (k.val + 1) ∧ t.regs = s.regs)
      ∧ (k.val = 3 → stage (.railPowerGood k) 4 ∧ ∃ t, exec (.railPowerGood k) s = .next t ∧ t.bit aPwrStatus 25 = true)
      ∧ fails (.railPgTimeout k) 2)
    ∧ (s.power.boot = 4 → stage .pllLock 5 ∧ ∃ t, exec .pllLock s = .next t ∧ t.bit aClkStatus 0 = true ∧ t.bit aClkStatus 1 = true
      ∧ t.f aClkFcPll 16 6 = s.f aClkFcPll 0 6)
    ∧ (s.power.boot = 5 → stage .bootScrubComplete 6 ∧ ∃ t, exec .bootScrubComplete s = .next t ∧ t.mem.basin = Ram.init
      ∧ (∀ i, (t.tile i).store = Ram.init) ∧ ∀ g, (t.seq g).mem = [] ∧ (t.seq g).ecc = [])
    ∧ (s.power.boot = 6 → ∃ t, exec (.dramTrainingComplete pol) s = .next t ∧ t.f aBootStatus 28 4 = 9 ∧ t.power.boot = 0
      ∧ t.bit aMemDramStatus 0 = true ∧ t.mem.touched = [] ∧ t.mem.dram = Ram.init
      ∧ (s.bit aPwrStatus 24 = false → t.f aPwrStatus 28 4 = 0))

/-- Power states and wakes (R369 to R373, 16 PWR_CTL): DOZE and KEEL are accepted only under R371's conditions, else REFUSED; the
state reached keeps everything with the PLLs off, or loses the pipeline and shoreline dies; TARGET = RUN withdraws a request
and wakes from DOZE; an enabled wake source in KEEL begins the boot at step 3; an idle region is ARMED. That an event whose
condition is not met changes nothing is the model's choice (log entry 4). -/
def Obligations.PowerStates : Prop :=
  ∀ (g : RegionIx) (s : State),
    let wakes := fun (c : Instr) => (∃ t, exec c s = .next t ∧ t.f aBootStatus 28 4 = 3 ∧ t.power.boot = 3 ∧ t.power.rail = 0
      ∧ t.power.railEn = 1 ∧ t.tiles = s.tiles ∧ t.streams = s.streams)
    (s.mayRest = true → ∀ p ∈ [(Instr.pwrTargetDoze, 1), (.pwrTargetKeel, 2)],
      exec p.1 s = .next (signal s { s.setF aPwrCtl 0 4 p.2 with power := { s.power with target := some p.2 } }))
    ∧ (s.mayRest = false → ∀ c ∈ [Instr.pwrTargetDoze, .pwrTargetKeel], exec c s = .next (signal s (s.setB aPwrStatus 22 true)))
    ∧ (∃ t, exec .pwrTargetRun s = .next t ∧ t.f aPwrCtl 0 4 = 0 ∧ t.power.target = none ∧ RegsBut [aPwrCtl] s t
      ∧ t.power.waking = (s.power.waking || decide (s.f aPwrStatus 28 4 = 2)))
    ∧ (s.power.target = some 1 → ∃ t, exec .powerStateReached s = .next t ∧ t.f aPwrStatus 28 4 = 2 ∧ t.power.target = none
      ∧ t.bit aClkStatus 0 = false ∧ t.bit aClkStatus 1 = false ∧ RegsBut [aPwrStatus, aClkStatus] s t ∧ t.tiles = s.tiles
      ∧ t.mem = s.mem ∧ t.images = s.images)
    ∧ (s.power.target = some 2 → ∃ t, exec .powerStateReached s = .next t ∧ t.f aPwrStatus 28 4 = 3 ∧ t.power.target = none
      ∧ t.bit aPwrStatus 25 = false ∧ t.tiles = [] ∧ t.mem = State.reset.mem ∧ t.images = [] ∧ t.journal = s.journal)
    ∧ (s.mayBoot = true → (s.bit aPwrWake 0 = true → wakes .wakePin) ∧ (s.bit aPwrWake 1 = true → wakes .smbusWake)
      ∧ (s.bit aPwrWake 2 = true → wakes .rtcAlarm))
    ∧ (s.bit aPwrWake 0 = false → exec .wakePin s = .next s) ∧ (s.bit aPwrWake 1 = false → exec .smbusWake s = .next s)
    ∧ (s.bit aPwrWake 2 = false → exec .rtcAlarm s = .next (signal s (s.wr aRtcSec (s.rd aRtcAlarm))))
    ∧ (s.live g.val = true → s.f (aRegionPwr g.val) 0 24 ≠ 0 → s.regionIdle g.val = true →
      exec (.regionArmedEntry g) s = .next (signal s (s.setF (aRegionPwr g.val) 24 2 1)))

/-- Clocks, time and temperature (R375 to R380): a loss of REFCLK clears the locks and starts the shutdown of a powered fabric;
housekeeping falls back and is restored; KTIME takes a step as one signed change; a reading at WARN sets WARN, a pipeline one
at THROTTLE throttles, and 115 °C trips; readings below THROTTLE end the throttling; a calibration holds the readings. -/
def Obligations.ClocksAndTemperature : Prop :=
  ∀ (v : Word) (i : Fin 27) (x : BitVec 10) (cool : List (BitVec 10)) (s : State),
    let warn : Int := s.f aThermCfg 0 8
    let thr : Int := s.f aThermCfg 8 8
    (s.power.refLost = false → s.bit aPwrStatus 25 = false → s.power.boot ≠ 4 → ∃ t, exec .refclkLoss s = .next t
      ∧ t.power = { s.power with refLost := true } ∧ t.bit aClkStatus 0 = false ∧ t.bit aClkStatus 1 = false
      ∧ t.bit aClkStatus 5 = false ∧ RegsBut [aClkStatus] s t)
    ∧ (s.power.refLost = false → s.bit aPwrStatus 25 = true → s.power.shutdown = false → s.power.boot ≠ 4 →
      (∀ p ∈ s.streams, p.1 < 256) →
      ∃ t, exec .refclkLoss s = .next t ∧ t.power.shutdown = true ∧ t.power.refLost = true ∧ t.bit aGlobalStatus 28 = true)
    ∧ (s.power.refLost = true → (∃ t, exec .hkFallback s = .next t ∧ t.bit aClkStatus 3 = true ∧ t.bit aClkStatus 8 = true
        ∧ RegsBut [aClkStatus] s t)
      ∧ ∃ t, exec .hkRestore s = .next t ∧ t.bit aClkStatus 3 = false ∧ t.bit aClkStatus 5 = true
        ∧ t.power = { s.power with refLost := false } ∧ RegsBut [aClkStatus] s t)
    ∧ exec (.ktimeStep v) s = .next (signal s { s with time := { s.time with ktime := s.time.ktime + v.signExtend 64 } })
    ∧ (s.bit aThermStatus 10 = false → (x.toInt < 460 ∨ i.val = 26) → ∀ c ∈ [Instr.thermalWarn i x, .thermalThrottle i x, .thermalTrip i x],
      ∃ t, exec c s = .next t ∧ t.f (aThermTemp i.val) 0 10 = x.toNat ∧ RegsBut [aThermTemp i.val, aThermStatus] s t
        ∧ t.bit aThermStatus 8 = (s.bit aThermStatus 8 || decide (4 * warn ≤ x.toInt))
        ∧ t.bit aThermStatus 9 = (s.bit aThermStatus 9 || (decide (i.val < 25 ∧ 4 * thr ≤ x.toInt) && s.bit aThermCfg 31))
        ∧ t.power.trip = s.power.trip ∧ t.tiles = s.tiles)
    ∧ (460 ≤ x.toInt → i.val < 26 → s.power.shutdown = false → (∀ p ∈ s.streams, p.1 < 256) → ∃ t, exec (.thermalTrip i x) s = .next t
      ∧ t.power.trip = true ∧ t.power.coolAt = none ∧ t.bit aPwrStatus 20 = true
      ∧ (s.bit aPwrStatus 25 = true → t.power.shutdown = true ∧ t.bit aGlobalStatus 28 = true))
    ∧ (cool.length = 25 → (∀ y ∈ cool, y.toInt < 4 * thr ∧ y.toInt < 460) → ∃ t, exec (.throttleEnd cool) s = .next t
      ∧ t.bit aThermStatus 9 = false ∧ t.tiles = s.tiles)
    ∧ exec .thermalCalibration s = .next (signal s (s.setB aThermStatus 10 (!s.bit aThermStatus 10)))
    ∧ (s.bit aThermStatus 10 = true → x.toInt < 460 → exec (.thermalWarn i x) s = .next (signal s s))

/-- Resets (R355, R361, R381, R382, R396, R428, R429, R441, R442): a fabric reset ends every stream with ABORT, stops the region
clocks and leaves no layout ACTIVE, and ends with every stream STOPPED and FATAL clear; a warm reset keeps journal, power and
press and locks debug; a region reset is refused under a running stream, else starts its sequencer at SEQ_RESTART. -/
def Obligations.Resets : Prop :=
  ∀ (g : RegionIx) (s : State),
    let kept := fun (t : State) => t.press = s.press ∧ t.journal.nextA = s.journal.nextA + 1 ∧ t.hostMem = s.hostMem
      ∧ t.time = s.time ∧ t.keys = s.keys ∧ t.rd aPwrCtl = s.rd aPwrCtl ∧ t.rd aPressCtl = s.rd aPressCtl
      ∧ t.streams = [] ∧ t.tiles = [] ∧ t.seqs = [] ∧ t.images = [] ∧ t.mem = State.reset.mem ∧ t.bit aDbgLock 0 = true
    (s.bit aGlobalStatus 27 = true → exec .fabricReset s = .next (signal s (reject none aGlobalReset s)))
    ∧ (s.bit aGlobalStatus 27 = false → (∀ p ∈ s.streams, p.1 < 256 ∧ s.st p.1 = 0) → s.bit aLayoutStatus 31 = false →
      ∃ t, exec .fabricReset s = .next t ∧ t.bit aGlobalStatus 27 = true ∧ (∀ h < 25, t.f (aRegionClk h) 16 4 = 0 ∧ t.phase h = 0)
        ∧ (∀ p ∈ t.images, p.2.active = 0 ∧ p.2.staged = false) ∧ t.uses = [] ∧ t.under = [] ∧ t.fabric = State.reset.fabric
        ∧ (∀ k, (t.tile k).iq = [] ∧ (t.tile k).cq = [] ∧ (t.tile k).halted = false) ∧ t.mem = s.mem
        ∧ t.journal.nextA = s.journal.nextA + 1)
    ∧ (s.bit aGlobalStatus 27 = true → (∀ p ∈ s.streams, p.1 < 256 ∧ s.st p.1 = 0) → ∃ t, exec .fabricResetComplete s = .next t
      ∧ t.bit aGlobalStatus 27 = false ∧ t.bit aGlobalStatus 28 = false ∧ (∀ n < 256, t.bit (aStreamStatus n) 5 = true ∧ t.st n = s.st n)
      ∧ t.f aClkFcPll 16 6 = s.f aClkFcPll 0 6)
    ∧ (s.bit aPwrStatus 25 = true → s.tray.pend = [] →
      (∃ t, exec .warmReset s = .next t ∧ kept t ∧ t.f aBootStatus 28 4 = 2 ∧ t.power.boot = 2)
      ∧ (s.f aBootStatus 28 4 ≠ 0 → s.power.boot ≠ 1 → ∃ t, exec .warmResetPin s = .next t ∧ kept t ∧ t.power.rstHeld = true))
    ∧ (s.f aBootStatus 28 4 = 0 ∨ s.power.boot = 1 →
      exec .warmResetPin s = .next (signal s { s with power := { s.power with rstHeld := true } }))
    ∧ (s.bit aPwrStatus 24 = true → s.bit aPwrStatus 25 = false → s.tray.pend = [] → ∃ t, exec .warmReset s = .next t
      ∧ RegsBut [aDbgLock] s t ∧ t.bit aDbgLock 0 = true ∧ t.power = s.power ∧ t.journal.nextA = s.journal.nextA + 1)
    ∧ (∃ t, exec .perstN s = .next t ∧ t.bit aPcieLinkStatus 8 = false ∧ t.f aPcieLinkStatus 0 3 = 0 ∧ t.f aPcieLinkStatus 4 4 = 0
      ∧ RegsBut [aPcieLinkStatus] s t ∧ t.streams = s.streams)
    ∧ (Served s → s.streamsIn g.val ≠ [] →
      exec (.regionReset g) s = .next (signal s (s.setB (aRegionPwr g.val) 26 true)))
    ∧ (Served s → s.streamsIn g.val = [] → s.bit aGlobalStatus 28 = false → ∃ t, exec (.regionReset g) s = .next t
      ∧ t.phase g.val = 0 ∧ RegsBut [aRegionFstatus g.val] s t ∧ t.journal.nextA = s.journal.nextA + 1
      ∧ (t.seq g.val).pc = nbits (s.act (aSeqRestart g.val)).toNat 2 15 * 4 ∧ (t.seq g.val).keyOk = false
      ∧ (t.seq g.val).halted = false
      ∧ ∀ i < 16, (t.tile (tileOf g.val i)).iq = [] ∧ (t.tile (tileOf g.val i)).cq = [] ∧ (t.tile (tileOf g.val i)).halted = false)

/-- The key store (R385): slots 0 to 3 are fused, so a write that names one is rejected; CLEAR empties a slot, LOAD takes the 64
bytes at BASE if they are a point of the curve and else leaves the slot empty with ERR; LOCK = 1 stays and stops both. -/
def Obligations.KeyStore : Prop :=
  ∀ (v : Word) (s : State),
    let k := nbits v.toNat 16 4
    let base := nbits v.toNat 0 14
    let slot := fun (t : State) (j : Nat) => tget 0 t.keys.slots j
    let point : BitVec 512 := BitVec.ofNat 512 (ofBytes ((List.range 64).map (fun i => s.mem.basin.byte (base * 4096 + i))).reverse)
    (k < 4 → ∀ c ∈ [Instr.keystoreLoad v, .keystoreClear v, .keystoreLock v], exec c s = .next (signal s (reject none aKeystoreCtl s)))
    ∧ (4 ≤ k → nbit v.toNat 31 = false → nbit v.toNat 30 = false → s.bit aKeystoreStatus 16 = false →
      (∃ t, exec (.keystoreClear v) s = .next t ∧ slot t k = 0 ∧ (∀ j, j ≠ k → slot t j = slot s j) ∧ RegsBut [aKeystoreCtl] s t))
    ∧ (4 ≤ k → nbit v.toNat 31 = false → nbit v.toNat 29 = false → s.bit aKeystoreStatus 16 = false →
      base * 4096 + 64 ≤ basinSize →
      (∀ w, w * 8 < base * 4096 + 64 → base * 4096 < w * 8 + 8 → s.mem.basin.state w = .clean) →
      (∃ t, exec (.keystoreLoad v) s = .next t ∧ (∀ j, j ≠ k → slot t j = slot s j) ∧ RegsBut [aKeystoreCtl, aKeystoreStatus] s t
        ∧ slot t k = (if point ≠ 0 ∧ Config.onCurve point = true then point else 0)
        ∧ (¬ (point ≠ 0 ∧ Config.onCurve point = true) → t.bit aKeystoreStatus 17 = true)))
    ∧ (4 ≤ k → nbit v.toNat 30 = false → nbit v.toNat 29 = false → ∃ t, exec (.keystoreLock v) s = .next t
      ∧ t.bit aKeystoreStatus 16 = true ∧ t.keys = s.keys ∧ RegsBut [aKeystoreCtl, aKeystoreStatus] s t)
    ∧ (4 ≤ k → s.bit aKeystoreStatus 16 = true → ∀ c ∈ [Instr.keystoreLoad v, .keystoreClear v],
      ∃ t, exec c s = .next t ∧ t.keys = s.keys ∧ t.bit aKeystoreStatus 16 = true)

/-! ### Observation, debug, test access (17), the tray (19) -/

/-- Counters, trace and telemetry (R386, R388, R391 to R393): CLR zeroes every counter and latch, FREEZE is set and cleared, a
locked debug block ignores them; the oldest trace record of a unit goes to the ring, which wraps or stops full; a sample
writes 32 bytes and the counters of SET for each tile of REGIONS, and is skipped under a scan. That an event whose condition
is not met changes nothing is the model's choice (log entry 4). -/
def Obligations.CountersTraceAndTelemetry : Prop :=
  ∀ (u : Nat) (b : List Byte) (bs : List (List Byte)) (s : State),
    let cap := s.f aTraceRing 16 14 * 128
    let at_ := s.f aTraceRing 0 14 * 4096 + s.f aTraceStatus 0 24 % cap * 32
    let ring := fun (t : State) => (if s.bit aTraceCtl 30
        then t.f aTraceStatus 0 24 = (s.f aTraceStatus 0 24 + 1) % 2 ^ 24 ∧ t.bit aTraceStatus 31 = decide (cap ≤ s.f aTraceStatus 0 24 + 1)
        else t.f aTraceStatus 0 24 = (s.f aTraceStatus 0 24 + 1) % cap ∧ t.bit aTraceStatus 31 = false)
      ∧ (at_ + b.length ≤ basinSize → ∀ i < b.length, t.mem.basin.byte (at_ + i) = nth b i 0)
    let gs := (List.range 25).filter (fun g => s.bit aTelemFilt g)
    let tcap := s.f aTelemRing 16 14 * 4096
    let n := 16 * gs.length * (32 + 8 * (match s.f aTelemCtl 24 2 with | 0 => 20 | 1 => 48 | 2 => 20 | _ => 109))
    (Served s → s.bit aDbgLock 0 = false →
      exec .obsClr s = .next (signal s { s with counters := [], latches := [] })
      ∧ exec .obsFreeze s = .next (signal s (s.setB aObsCtl 0 true)) ∧ exec .obsUnfreeze s = .next (signal s (s.setB aObsCtl 0 false)))
    ∧ (Served s → s.bit aDbgLock 0 = true → ∀ c ∈ [Instr.obsClr, .obsFreeze, .obsUnfreeze], exec c s = .next (signal s s))
    ∧ (cap ≠ 0 → s.bit aTraceStatus 31 = false →
      (u < 400 → (s.tile u).trace = b :: bs → ∃ t, exec (.traceRecordWrite u) s = .next t ∧ ring t ∧ t.streams = s.streams
        ∧ ∀ v, t.tile v = (if v = u then { s.tile u with trace := bs } else s.tile v))
      ∧ (u < 25 → (s.seq u).trace = b :: bs → ∃ t, exec (.traceRecordWrite (400 + u)) s = .next t ∧ ring t ∧ t.streams = s.streams
        ∧ ∀ g, t.seq g = (if g = u then { s.seq u with trace := bs } else s.seq g)))
    ∧ (u < 400 → (s.tile u).trace = [] → exec (.traceRecordWrite u) s = .next s)
    ∧ (s.bit aTelemCtl 31 = true → s.f aTelemCtl 0 16 ≠ 0 →
      ((∀ g ∈ gs, s.scanShift g = false) → ∃ t, exec .telemetrySample s = .next t ∧ t.test.sampleNo = s.test.sampleNo + 1
        ∧ t.tiles = s.tiles ∧ t.seqs = s.seqs ∧ t.streams = s.streams ∧ t.mem.dram = s.mem.dram
        ∧ (gs ≠ [] → tcap ≠ 0 → t.test.telemAt = (s.test.telemAt + n) % tcap))
      ∧ ((∃ g ∈ gs, s.scanShift g = true) → exec .telemetrySample s = .next (signal s (s.count cTelemSkipped 1))))
    ∧ (s.bit aTelemCtl 31 = false → exec .telemetrySample s = .next s)

/-- Debug halts and scan-out (R394 to R396): HALT stops a tile or a sequencer, STEP lets a halted one issue once; a scan-out of a
region that is not halted is rejected, one for which the scan area has no place writes nothing; locked, all are ignored. The
TAP (R396, R402 to R404): each instruction takes effect with what it drives and what it returns; the EXTEST kind needs every
rail powered; a locked device answers EXTEST, its kinds, CLAMP and HIGHZ as BYPASS. The cells of inputs are their levels. -/
def Obligations.DebugHaltsAndTap : Prop :=
  (∀ (t : TileIx) (g : RegionIx) (s : State), Served s →
      let base := s.partBase 4 + g.val * 0x22000
      let u := s.setF aScanCtl 0 5 g.val
      (s.bit aDbgLock 0 = true → ∀ c ∈ [Instr.tileDebugHalt t, .tileDebugStep t, .seqDebugHalt g, .seqDebugStep g, .scanOut g],
        exec c s = .next (signal s s))
      ∧ (s.bit aDbgLock 0 = false →
        (∃ w, exec (.tileDebugHalt t) s = .next w ∧ RegsBut [aTileDbgCtl t.val] s w ∧ w.bit (aTileDbgCtl t.val) 31 = true
          ∧ ∀ k, w.tile k = (if k = t.val then { s.tile k with dhalt := true } else s.tile k))
        ∧ (∃ w, exec (.tileDebugStep t) s = .next w ∧ RegsBut [] s w
          ∧ ∀ k, w.tile k = (if k = t.val then { s.tile k with step := (s.tile k).dhalt } else s.tile k))
        ∧ (∃ w, exec (.seqDebugHalt g) s = .next w ∧ RegsBut [aSeqDbgCtl g.val] s w ∧ w.bit (aSeqDbgCtl g.val) 31 = true
          ∧ ∀ k, w.seq k = (if k = g.val then { s.seq k with dhalt := true } else s.seq k))
        ∧ (∃ w, exec (.seqDebugStep g) s = .next w ∧ RegsBut [] s w
          ∧ ∀ k, w.seq k = (if k = g.val then { s.seq k with step := (s.seq k).dhalt } else s.seq k))
        ∧ (s.scanMay g.val = false → exec (.scanOut g) s = .next (signal s (reject none aScanCtl s)))
        ∧ (s.scanMay g.val = true → scanRoom s g.val = false → exec (.scanOut g) s = .next (signal s u))
        ∧ (s.scanMay g.val = true → scanRoom s g.val = true → ∃ w, exec (.scanOut g) s = .next w ∧ w.f aScanCtl 0 5 = g.val
          ∧ w.tiles = s.tiles ∧ w.seqs = s.seqs ∧ w.streams = s.streams ∧ w.mem.dram = s.mem.dram
          ∧ (base + 0x22000 ≤ basinSize → ∀ i < 0x2000, w.mem.basin.byte (base + 0x20000 + i) = nth (layBytes 0x2000 (seqImage u g.val)) i 0))))
  ∧ (∀ (load : BitVec 44) (s : State),
      let goes := fun (c : Instr) (k : Nat) (drive : Bool) (out latch : BitVec 44) => exec c s = .next (signal s { s with
        test := { s.test with tap := k, drive := drive, latch := latch }, outbox := s.outbox ++ [.tdo out] })
      let off := !s.bit aPressCtl 0
      let rails := s.bit aPwrStatus 25 = true ∧ s.power.railEn = 15
      let old := s.test.latch
      goes .tapBypass 0 false 0 old ∧ goes .tapIdcode 1 false 0x14020A5F#44 old ∧ goes (.tapSamplePreload load) 2 false s.cells load
      ∧ (s.bit aDbgLock 0 = false → rails →
        goes .tapExtest 3 off s.cells old ∧ goes .tapExtestPulse 6 off s.cells old ∧ goes .tapExtestTrain 7 off s.cells old)
      ∧ (s.bit aDbgLock 0 = false → goes .tapClamp 4 off 0 old ∧ goes .tapHighz (if off then 5 else 0) false 0 old)
      ∧ (s.bit aDbgLock 0 = true ∨ ¬ rails → ∀ c ∈ [Instr.tapExtest, .tapExtestPulse, .tapExtestTrain], goes c 0 false 0 old)
      ∧ (s.bit aDbgLock 0 = true → ∀ c ∈ [Instr.tapClamp, .tapHighz], goes c 0 false 0 old)
      ∧ (∀ p < 28, s.cells.getLsbD p = tget false s.press.levels p)
      ∧ (s.test.drive = true → ∀ p < 44, 28 ≤ p → s.cells.getLsbD p = old.getLsbD p))

/-- The debug lock and self-test (R397 to R401): a valid signature of the nonce unlocks, a failure counts and draws a new nonce,
after 8 nothing unlocks, RELOCK locks; a self-test starts only at rest with no layout ACTIVE, and its end leaves the tested
memories zero and shows what failed; a loop-back starts only where it may and runs the region at ÷1. That an event whose
condition is not met changes nothing is the model's choice (log entry 4). -/
def Obligations.LockSelfTestAndLoopback : Prop :=
  ∀ (n : BitVec 3) (m : Nat) (regions : BitVec 25) (banks : BitVec 16) (t : TileIx) (dir depth : BitVec 2) (s : State), Served s →
    let good := match s.key (s.f aDbgLock 16 4) with
      | some k => Config.ecdsaValid k (toBytes 8 s.chal.toNat) s.resp
      | none => false
    let g := regionOf t.val
    let free := fun (h : Nat) => decide (s.streamsIn h = [])
    let legal := depth ≠ 0 ∧ free g = true ∧ (depth = 2 → ∃ k, neighbour t.val dir.toNat = some k ∧ free (regionOf k) = true)
      ∧ (depth = 3 → (edgeAt t.val dir.toNat).isSome = true)
    (s.f aDbgLock 8 4 < 8 → ∃ w, exec .debugUnlock s = .next w ∧ RegsBut [aDbgLock] s w
      ∧ w.bit aDbgLock 0 = (if good then false else s.bit aDbgLock 0)
      ∧ w.f aDbgLock 8 4 = s.f aDbgLock 8 4 + (if good then 0 else 1)
      ∧ w.chal = Config.nonce (s.test.noncePos + (if good then 0 else 1))
      ∧ (w.test = if good then s.test else { s.test with noncePos := s.test.noncePos + 1 }))
    ∧ (8 ≤ s.f aDbgLock 8 4 → exec .debugUnlock s = .next (signal s s))
    ∧ exec .debugRelock s = .next (signal s (s.setB aDbgLock 0 true))
    ∧ (s.bit aDbgLock 0 = false → s.mayRest = true → (∀ p ∈ s.images, p.2.active = 0) → s.test.bist = none →
      ∃ w, exec (.bistStart n) s = .next w ∧ w.bit aBistCtl 31 = true ∧ w.f aBistCtl 0 3 = n.toNat
        ∧ w.test = { s.test with bist := some n.toNat } ∧ RegsBut [aBistCtl] s w ∧ w.tiles = s.tiles ∧ w.mem = s.mem)
    ∧ (s.bit aDbgLock 0 = false → s.mayRest = false ∨ (∃ p ∈ s.images, p.2.active ≠ 0) →
      exec (.bistStart n) s = .next (signal s (reject none aBistCtl s)))
    ∧ (s.bit aDbgLock 0 = true → exec (.bistStart n) s = .next (signal s s)
      ∧ exec (.fabricLoopback t dir depth) s = .next (signal s s))
    ∧ (s.test.bist = some m → ∃ w, exec (.bistComplete regions banks) s = .next w ∧ w.test.bist = none ∧ w.bit aBistCtl 31 = false
      ∧ w.f aBistStatus 0 25 = regions.toNat ∧ w.f aBistBasin 0 16 = banks.toNat ∧ w.test.failing = regions.toNat
      ∧ (nbit m 0 = true → w.tiles = []) ∧ (nbit m 1 = true → ∀ h, (w.seq h).mem = [] ∧ (w.seq h).ecc = [])
      ∧ (nbit m 2 = true → w.mem.basin = Ram.init ∧ w.images = [])
      ∧ (nbit m 0 = false → RegsBut [aBistCtl, aBistStatus, aBistBasin] s w ∧ w.tiles = s.tiles))
    ∧ (s.test.bist = none → exec (.bistComplete regions banks) s = .next s)
    ∧ (s.bit aDbgLock 0 = false → ¬ legal → exec (.fabricLoopback t dir depth) s = .next (signal s (reject none (aTileDbgLoop t.val) s)))
    ∧ (s.bit aDbgLock 0 = false → legal → ∃ w, exec (.fabricLoopback t dir depth) s = .next w
      ∧ w.bit (aTileDbgLoop t.val) 31 = true ∧ w.f (aTileDbgLoop t.val) 2 2 = dir.toNat ∧ w.f (aTileDbgLoop t.val) 0 2 = depth.toNat
      ∧ RegsBut [aTileDbgLoop t.val, aRegionClk g] s w
      ∧ (s.looping g = false → w.f (aRegionClk g) 16 4 = 1 ∧ (w.seq g).savedDiv = s.f (aRegionClk g) 16 4)
      ∧ (s.looping g = true → w.rd (aRegionClk g) = s.rd (aRegionClk g)))

/-- The tray's BMC (R418 to R421): a poll takes every keel's reading into TRAY_STATUS; new firmware waits for ACTIVATE, which
resets each package named under UPD_OK; a low bank holds the packages in KEEL, a recharged one releases them. -/
def Obligations.Tray : Prop :=
  ∀ (ps : List PackageStatus) (d : Fin 4) (im : FwImage) (v : Word) (mv energy : BitVec 16) (s : State),
    let own : PackageStatus := ⟨true, s.rd aPwrStatus, s.rd aBootStatus⟩
    let qs := ps.set s.power.smb own
    let both := fun (k : Nat) => nbit v.toNat k && nbit v.toNat (4 + k)
    let st := fun (t : State) (lo len : Nat) => nbits (t.trayRd 1).toNat lo len
    let banked := fun (t : State) => nbits (t.trayRd 4).toNat 0 16 = mv.toNat ∧ nbits (t.trayRd 4).toNat 16 16 = energy.toNat
    (ps.length = 4 → s.power.smb < 4 → ∃ t, exec (.bmcPoll ps) s = .next t ∧ RegsBut [] s t ∧ t.tray.last = qs
      ∧ st t 28 4 = trayState s.tray.in12 qs (st s 28 4) ∧ t.tray.faultPin = decide (st t 12 4 ≠ 0)
      ∧ (∀ k < 4, nbit (t.trayRd 1).toNat (16 + k) = (nth qs k own).present
        ∧ nbit (t.trayRd 1).toNat (8 + k) = ((nth qs k own).present && nbit (nth qs k own).pwr.toNat 24)
        ∧ (pkgFails (nth qs k own) = true → nbit (t.trayRd 1).toNat (12 + k) = true))
      ∧ nbit (t.trayRd 1).toNat s.power.smb = s.bit (aCwyLinkStatus 0) 0
      ∧ nbit (t.trayRd 1).toNat ((s.power.smb + 3) % 4) = s.bit (aCwyLinkStatus 1) 0
      ∧ nbit (t.trayRd 1).toNat (4 + s.power.smb % 2) = s.bit (aCwyLinkStatus 2) 0)
    ∧ (∃ t, exec (.bmcFirmwareWrite d im) s = .next t ∧ RegsBut [] s t ∧ t.tray.pend.find? (fun p => p.1 == d.val) = some (d.val, im)
      ∧ ∀ k, k ≠ d.val → t.tray.pend.find? (fun p => p.1 == k) = s.tray.pend.find? (fun p => p.1 == k))
    ∧ (both s.power.smb = false ∨ 4 ≤ s.power.smb → ∃ t, exec (.trayActivate v) s = .next t ∧ RegsBut [] s t
      ∧ nbits (t.trayRd 2).toNat 0 4 = nbits v.toNat 0 4
      ∧ ∀ k < 4, both k = true → .trayReset k ∈ t.outbox ∧ t.tray.pend.find? (fun p => p.1 == k) = none)
    ∧ (s.power.smb < 4 → both s.power.smb = true → (∀ k < 4, k ≠ s.power.smb → both k = false) →
      exec (.trayActivate v) s = .next (signal s (warmReset false (traySet 2 0 4 (nbits v.toNat 0 4) s))))
    ∧ (mv.toNat < 4000 → ∃ t, exec (.bankLow mv energy) s = .next t ∧ banked t ∧ st t 25 1 = 1 ∧ t.tray.holds = true
      ∧ (s.f aPwrStatus 28 4 = 3 ∨ s.bit aPwrStatus 24 = true → RegsBut [] s t)
      ∧ (s.f aPwrStatus 28 4 ≠ 3 → s.bit aPwrStatus 24 = false →
        (s.mayRest = true → t.f aPwrCtl 0 4 = 2 ∧ t.power.target = some 2) ∧ (s.mayRest = false → t.bit aPwrStatus 22 = true)))
    ∧ (4000 ≤ mv.toNat → ∃ t, exec (.bankRecharged mv energy) s = .next t ∧ banked t ∧ st t 25 1 = 0 ∧ t.tray.holds = false
      ∧ RegsBut [] s t)
end

