-- ==== Sys2Proof/Laws/Tab.lean ====
section
/-! SUPPORT. Tables: what a read sees after a write, and that writes keep the canonical form. -/
namespace Sys2Proof.Machine
variable {α : Type}

theorem tget_tdel_same (d : α) (t : Tab α) (k : Nat) : tget d (tdel k t) k = d := by
  induction t with
  | nil => rfl
  | cons p t ih => obtain ⟨a, x⟩ := p; by_cases h : k = a <;> simp [tdel, tget, h, ih]; exact h ▸ ih

theorem tget_tdel_ne (d : α) (t : Tab α) {k j : Nat} (h : j ≠ k) : tget d (tdel k t) j = tget d t j := by
  induction t with
  | nil => rfl
  | cons p t ih =>
    obtain ⟨a, x⟩ := p
    by_cases hk : k = a
    · subst hk; simp [tdel, tget, h, ih]
    · by_cases hj : j = a <;> simp [tdel, tget, hk, hj, ih]

theorem tget_tins_same (d : α) (t : Tab α) (k : Nat) (v : α)
    (hn : ∀ p ∈ t, p.1 ≠ k) : tget d (tins k v t) k = v := by
  induction t with
  | nil => simp [tins, tget]
  | cons p t ih =>
    obtain ⟨a, x⟩ := p
    have ha : k ≠ a := fun e => hn (a, x) (by simp) e.symm
    by_cases hk : k < a
    · simp [tins, tget, hk]
    · simp [tins, tget, hk, ha, ih (fun p hp => hn p (by simp [hp]))]

theorem tget_tins_ne (d : α) (t : Tab α) {k j : Nat} (v : α) (h : j ≠ k) :
    tget d (tins k v t) j = tget d t j := by
  induction t with
  | nil => simp [tins, tget, h]
  | cons p t ih =>
    obtain ⟨a, x⟩ := p
    by_cases hk : k < a
    · simp [tins, tget, hk, h]
    · by_cases hj : j = a <;> simp [tins, tget, hk, hj, ih]

theorem tdel_no (t : Tab α) (k : Nat) : ∀ p ∈ tdel k t, p.1 ≠ k := by
  induction t with
  | nil => simp [tdel]
  | cons p t ih =>
    obtain ⟨a, x⟩ := p
    by_cases hk : k = a
    · simp only [tdel, hk, if_true]; exact hk ▸ ih
    · intro q hq
      simp only [tdel, hk, if_false, List.mem_cons] at hq
      rcases hq with rfl | hq
      · exact fun e => hk e.symm
      · exact ih q hq

variable [DecidableEq α]

/-- A read of the key written gives the value written. -/
@[simp] theorem tget_tset_same (d : α) (t : Tab α) (k : Nat) (v : α) : tget d (tset d t k v) k = v := by
  unfold tset
  split
  · next h => rw [h]; exact tget_tdel_same d t k
  · exact tget_tins_same d _ k v (tdel_no t k)

/-- A write leaves every other key alone, whatever it reads as when unlisted. -/
@[simp] theorem tget_tset_ne (d e : α) (t : Tab α) {k j : Nat} (v : α) (h : j ≠ k) :
    tget e (tset d t k v) j = tget e t j := by
  unfold tset
  split
  · exact tget_tdel_ne e t h
  · rw [tget_tins_ne e _ v h, tget_tdel_ne e t h]

/-- Both in one. -/
theorem tget_tset (d : α) (t : Tab α) (k j : Nat) (v : α) :
    tget d (tset d t k v) j = if j = k then v else tget d t j := by
  by_cases h : j = k
  · subst h; simp
  · simp [h]

/-! ### The canonical form -/

theorem twfFrom_mono (d : α) {lo lo' : Nat} (h : lo' ≤ lo) (t : Tab α) (w : twfFrom d lo t = true) : twfFrom d lo' t = true := by
  cases t with
  | nil => rfl
  | cons p t =>
    obtain ⟨a, x⟩ := p
    simp only [twfFrom, Bool.and_eq_true, decide_eq_true_eq] at w ⊢
    exact ⟨⟨by omega, w.1.2⟩, w.2⟩

theorem twfFrom_tdel (d : α) (k : Nat) (t : Tab α) (lo : Nat) (w : twfFrom d lo t = true) : twfFrom d lo (tdel k t) = true := by
  induction t generalizing lo with
  | nil => rfl
  | cons p t ih =>
    obtain ⟨a, x⟩ := p
    simp only [twfFrom, Bool.and_eq_true, decide_eq_true_eq] at w
    by_cases hk : k = a
    · simp only [tdel, hk, if_true]
      exact hk ▸ twfFrom_mono d (by omega) _ (ih (a + 1) w.2)
    · simp only [tdel, hk, if_false, twfFrom, Bool.and_eq_true, decide_eq_true_eq]
      exact ⟨w.1, ih (a + 1) w.2⟩

theorem twfFrom_tins (d : α) (k : Nat) (v : α) (hv : v ≠ d) (t : Tab α) (lo : Nat) (hk : lo ≤ k)
    (hn : ∀ p ∈ t, p.1 ≠ k) (w : twfFrom d lo t = true) : twfFrom d lo (tins k v t) = true := by
  induction t generalizing lo with
  | nil => simp [tins, twfFrom, hv, hk]
  | cons p t ih =>
    obtain ⟨a, x⟩ := p
    have ha : a ≠ k := hn (a, x) (by simp)
    simp only [twfFrom, Bool.and_eq_true, decide_eq_true_eq] at w
    by_cases h : k < a
    · simp only [tins, h, if_true, twfFrom, Bool.and_eq_true, decide_eq_true_eq]
      exact ⟨⟨hk, hv⟩, ⟨⟨by omega, w.1.2⟩, w.2⟩⟩
    · simp only [tins, h, if_false, twfFrom, Bool.and_eq_true, decide_eq_true_eq]
      exact ⟨w.1, ih (a + 1) (by omega) (fun p hp => hn p (by simp [hp])) w.2⟩

/-- Writing keeps the canonical form. -/
theorem twf_tset (d : α) (t : Tab α) (k : Nat) (v : α) (w : twf d t = true) : twf d (tset d t k v) = true := by
  unfold twf tset at *
  split
  · exact twfFrom_tdel d k t 0 w
  · next h => exact twfFrom_tins d k v h _ 0 (Nat.zero_le k) (tdel_no t k) (twfFrom_tdel d k t 0 w)

end Sys2Proof.Machine
end

