-- ==== Sys2Proof/Laws/State.lean ====
section
/-! SUPPORT. One lemma per field per update of State, true by rfl, and what a read sees after a write. -/
namespace Sys2Proof.Machine

/-! ### wr -/

@[simp] theorem State.wr_pending (s : State) (off : Nat) (w : Word) : (s.wr off w).pending = s.pending := rfl
@[simp] theorem State.wr_active (s : State) (off : Nat) (w : Word) : (s.wr off w).active = s.active := rfl
@[simp] theorem State.wr_latches (s : State) (off : Nat) (w : Word) : (s.wr off w).latches = s.latches := rfl
@[simp] theorem State.wr_src (s : State) (off : Nat) (w : Word) : (s.wr off w).src = s.src := rfl
@[simp] theorem State.wr_counters (s : State) (off : Nat) (w : Word) : (s.wr off w).counters = s.counters := rfl
@[simp] theorem State.wr_msixTab (s : State) (off : Nat) (w : Word) : (s.wr off w).msixTab = s.msixTab := rfl
@[simp] theorem State.wr_streams (s : State) (off : Nat) (w : Word) : (s.wr off w).streams = s.streams := rfl
@[simp] theorem State.wr_chans (s : State) (off : Nat) (w : Word) : (s.wr off w).chans = s.chans := rfl
@[simp] theorem State.wr_press (s : State) (off : Nat) (w : Word) : (s.wr off w).press = s.press := rfl
@[simp] theorem State.wr_gate (s : State) (off : Nat) (w : Word) : (s.wr off w).gate = s.gate := rfl
@[simp] theorem State.wr_tiles (s : State) (off : Nat) (w : Word) : (s.wr off w).tiles = s.tiles := rfl
@[simp] theorem State.wr_seqs (s : State) (off : Nat) (w : Word) : (s.wr off w).seqs = s.seqs := rfl
@[simp] theorem State.wr_tms (s : State) (off : Nat) (w : Word) : (s.wr off w).tms = s.tms := rfl
@[simp] theorem State.wr_tmq (s : State) (off : Nat) (w : Word) : (s.wr off w).tmq = s.tmq := rfl
@[simp] theorem State.wr_granted (s : State) (off : Nat) (w : Word) : (s.wr off w).granted = s.granted := rfl
@[simp] theorem State.wr_replies (s : State) (off : Nat) (w : Word) : (s.wr off w).replies = s.replies := rfl
@[simp] theorem State.wr_uses (s : State) (off : Nat) (w : Word) : (s.wr off w).uses = s.uses := rfl
@[simp] theorem State.wr_images (s : State) (off : Nat) (w : Word) : (s.wr off w).images = s.images := rfl
@[simp] theorem State.wr_layOp (s : State) (off : Nat) (w : Word) : (s.wr off w).layOp = s.layOp := rfl
@[simp] theorem State.wr_staging (s : State) (off : Nat) (w : Word) : (s.wr off w).staging = s.staging := rfl
@[simp] theorem State.wr_loads (s : State) (off : Nat) (w : Word) : (s.wr off w).loads = s.loads := rfl
@[simp] theorem State.wr_ferries (s : State) (off : Nat) (w : Word) : (s.wr off w).ferries = s.ferries := rfl
@[simp] theorem State.wr_mem (s : State) (off : Nat) (w : Word) : (s.wr off w).mem = s.mem := rfl
@[simp] theorem State.wr_edges (s : State) (off : Nat) (w : Word) : (s.wr off w).edges = s.edges := rfl
@[simp] theorem State.wr_cwy (s : State) (off : Nat) (w : Word) : (s.wr off w).cwy = s.cwy := rfl
@[simp] theorem State.wr_fabric (s : State) (off : Nat) (w : Word) : (s.wr off w).fabric = s.fabric := rfl
@[simp] theorem State.wr_under (s : State) (off : Nat) (w : Word) : (s.wr off w).under = s.under := rfl
@[simp] theorem State.wr_power (s : State) (off : Nat) (w : Word) : (s.wr off w).power = s.power := rfl
@[simp] theorem State.wr_journal (s : State) (off : Nat) (w : Word) : (s.wr off w).journal = s.journal := rfl
@[simp] theorem State.wr_keys (s : State) (off : Nat) (w : Word) : (s.wr off w).keys = s.keys := rfl
@[simp] theorem State.wr_test (s : State) (off : Nat) (w : Word) : (s.wr off w).test = s.test := rfl
@[simp] theorem State.wr_tray (s : State) (off : Nat) (w : Word) : (s.wr off w).tray = s.tray := rfl
@[simp] theorem State.wr_time (s : State) (off : Nat) (w : Word) : (s.wr off w).time = s.time := rfl
@[simp] theorem State.wr_hostMem (s : State) (off : Nat) (w : Word) : (s.wr off w).hostMem = s.hostMem := rfl
@[simp] theorem State.wr_outbox (s : State) (off : Nat) (w : Word) : (s.wr off w).outbox = s.outbox := rfl
@[simp] theorem State.wr_waiting (s : State) (off : Nat) (w : Word) : (s.wr off w).waiting = s.waiting := rfl
@[simp] theorem State.wr_free (s : State) (off : Nat) (w : Word) : (s.wr off w).free = s.free := rfl

/-! ### wrAct -/

@[simp] theorem State.wrAct_pending (s : State) (off : Nat) (w : Word) : (s.wrAct off w).pending = s.pending := rfl
@[simp] theorem State.wrAct_regs (s : State) (off : Nat) (w : Word) : (s.wrAct off w).regs = s.regs := rfl
@[simp] theorem State.wrAct_latches (s : State) (off : Nat) (w : Word) : (s.wrAct off w).latches = s.latches := rfl
@[simp] theorem State.wrAct_src (s : State) (off : Nat) (w : Word) : (s.wrAct off w).src = s.src := rfl
@[simp] theorem State.wrAct_counters (s : State) (off : Nat) (w : Word) : (s.wrAct off w).counters = s.counters := rfl
@[simp] theorem State.wrAct_msixTab (s : State) (off : Nat) (w : Word) : (s.wrAct off w).msixTab = s.msixTab := rfl
@[simp] theorem State.wrAct_streams (s : State) (off : Nat) (w : Word) : (s.wrAct off w).streams = s.streams := rfl
@[simp] theorem State.wrAct_chans (s : State) (off : Nat) (w : Word) : (s.wrAct off w).chans = s.chans := rfl
@[simp] theorem State.wrAct_press (s : State) (off : Nat) (w : Word) : (s.wrAct off w).press = s.press := rfl
@[simp] theorem State.wrAct_gate (s : State) (off : Nat) (w : Word) : (s.wrAct off w).gate = s.gate := rfl
@[simp] theorem State.wrAct_tiles (s : State) (off : Nat) (w : Word) : (s.wrAct off w).tiles = s.tiles := rfl
@[simp] theorem State.wrAct_seqs (s : State) (off : Nat) (w : Word) : (s.wrAct off w).seqs = s.seqs := rfl
@[simp] theorem State.wrAct_tms (s : State) (off : Nat) (w : Word) : (s.wrAct off w).tms = s.tms := rfl
@[simp] theorem State.wrAct_tmq (s : State) (off : Nat) (w : Word) : (s.wrAct off w).tmq = s.tmq := rfl
@[simp] theorem State.wrAct_granted (s : State) (off : Nat) (w : Word) : (s.wrAct off w).granted = s.granted := rfl
@[simp] theorem State.wrAct_replies (s : State) (off : Nat) (w : Word) : (s.wrAct off w).replies = s.replies := rfl
@[simp] theorem State.wrAct_uses (s : State) (off : Nat) (w : Word) : (s.wrAct off w).uses = s.uses := rfl
@[simp] theorem State.wrAct_images (s : State) (off : Nat) (w : Word) : (s.wrAct off w).images = s.images := rfl
@[simp] theorem State.wrAct_layOp (s : State) (off : Nat) (w : Word) : (s.wrAct off w).layOp = s.layOp := rfl
@[simp] theorem State.wrAct_staging (s : State) (off : Nat) (w : Word) : (s.wrAct off w).staging = s.staging := rfl
@[simp] theorem State.wrAct_loads (s : State) (off : Nat) (w : Word) : (s.wrAct off w).loads = s.loads := rfl
@[simp] theorem State.wrAct_ferries (s : State) (off : Nat) (w : Word) : (s.wrAct off w).ferries = s.ferries := rfl
@[simp] theorem State.wrAct_mem (s : State) (off : Nat) (w : Word) : (s.wrAct off w).mem = s.mem := rfl
@[simp] theorem State.wrAct_edges (s : State) (off : Nat) (w : Word) : (s.wrAct off w).edges = s.edges := rfl
@[simp] theorem State.wrAct_cwy (s : State) (off : Nat) (w : Word) : (s.wrAct off w).cwy = s.cwy := rfl
@[simp] theorem State.wrAct_fabric (s : State) (off : Nat) (w : Word) : (s.wrAct off w).fabric = s.fabric := rfl
@[simp] theorem State.wrAct_under (s : State) (off : Nat) (w : Word) : (s.wrAct off w).under = s.under := rfl
@[simp] theorem State.wrAct_power (s : State) (off : Nat) (w : Word) : (s.wrAct off w).power = s.power := rfl
@[simp] theorem State.wrAct_journal (s : State) (off : Nat) (w : Word) : (s.wrAct off w).journal = s.journal := rfl
@[simp] theorem State.wrAct_keys (s : State) (off : Nat) (w : Word) : (s.wrAct off w).keys = s.keys := rfl
@[simp] theorem State.wrAct_test (s : State) (off : Nat) (w : Word) : (s.wrAct off w).test = s.test := rfl
@[simp] theorem State.wrAct_tray (s : State) (off : Nat) (w : Word) : (s.wrAct off w).tray = s.tray := rfl
@[simp] theorem State.wrAct_time (s : State) (off : Nat) (w : Word) : (s.wrAct off w).time = s.time := rfl
@[simp] theorem State.wrAct_hostMem (s : State) (off : Nat) (w : Word) : (s.wrAct off w).hostMem = s.hostMem := rfl
@[simp] theorem State.wrAct_outbox (s : State) (off : Nat) (w : Word) : (s.wrAct off w).outbox = s.outbox := rfl
@[simp] theorem State.wrAct_waiting (s : State) (off : Nat) (w : Word) : (s.wrAct off w).waiting = s.waiting := rfl
@[simp] theorem State.wrAct_free (s : State) (off : Nat) (w : Word) : (s.wrAct off w).free = s.free := rfl

/-! ### setTile -/

@[simp] theorem State.setTile_pending (s : State) (t : Nat) (x : Tile) : (s.setTile t x).pending = s.pending := rfl
@[simp] theorem State.setTile_regs (s : State) (t : Nat) (x : Tile) : (s.setTile t x).regs = s.regs := rfl
@[simp] theorem State.setTile_active (s : State) (t : Nat) (x : Tile) : (s.setTile t x).active = s.active := rfl
@[simp] theorem State.setTile_latches (s : State) (t : Nat) (x : Tile) : (s.setTile t x).latches = s.latches := rfl
@[simp] theorem State.setTile_src (s : State) (t : Nat) (x : Tile) : (s.setTile t x).src = s.src := rfl
@[simp] theorem State.setTile_counters (s : State) (t : Nat) (x : Tile) : (s.setTile t x).counters = s.counters := rfl
@[simp] theorem State.setTile_msixTab (s : State) (t : Nat) (x : Tile) : (s.setTile t x).msixTab = s.msixTab := rfl
@[simp] theorem State.setTile_streams (s : State) (t : Nat) (x : Tile) : (s.setTile t x).streams = s.streams := rfl
@[simp] theorem State.setTile_chans (s : State) (t : Nat) (x : Tile) : (s.setTile t x).chans = s.chans := rfl
@[simp] theorem State.setTile_press (s : State) (t : Nat) (x : Tile) : (s.setTile t x).press = s.press := rfl
@[simp] theorem State.setTile_gate (s : State) (t : Nat) (x : Tile) : (s.setTile t x).gate = s.gate := rfl
@[simp] theorem State.setTile_seqs (s : State) (t : Nat) (x : Tile) : (s.setTile t x).seqs = s.seqs := rfl
@[simp] theorem State.setTile_tms (s : State) (t : Nat) (x : Tile) : (s.setTile t x).tms = s.tms := rfl
@[simp] theorem State.setTile_tmq (s : State) (t : Nat) (x : Tile) : (s.setTile t x).tmq = s.tmq := rfl
@[simp] theorem State.setTile_granted (s : State) (t : Nat) (x : Tile) : (s.setTile t x).granted = s.granted := rfl
@[simp] theorem State.setTile_replies (s : State) (t : Nat) (x : Tile) : (s.setTile t x).replies = s.replies := rfl
@[simp] theorem State.setTile_uses (s : State) (t : Nat) (x : Tile) : (s.setTile t x).uses = s.uses := rfl
@[simp] theorem State.setTile_images (s : State) (t : Nat) (x : Tile) : (s.setTile t x).images = s.images := rfl
@[simp] theorem State.setTile_layOp (s : State) (t : Nat) (x : Tile) : (s.setTile t x).layOp = s.layOp := rfl
@[simp] theorem State.setTile_staging (s : State) (t : Nat) (x : Tile) : (s.setTile t x).staging = s.staging := rfl
@[simp] theorem State.setTile_loads (s : State) (t : Nat) (x : Tile) : (s.setTile t x).loads = s.loads := rfl
@[simp] theorem State.setTile_ferries (s : State) (t : Nat) (x : Tile) : (s.setTile t x).ferries = s.ferries := rfl
@[simp] theorem State.setTile_mem (s : State) (t : Nat) (x : Tile) : (s.setTile t x).mem = s.mem := rfl
@[simp] theorem State.setTile_edges (s : State) (t : Nat) (x : Tile) : (s.setTile t x).edges = s.edges := rfl
@[simp] theorem State.setTile_cwy (s : State) (t : Nat) (x : Tile) : (s.setTile t x).cwy = s.cwy := rfl
@[simp] theorem State.setTile_fabric (s : State) (t : Nat) (x : Tile) : (s.setTile t x).fabric = s.fabric := rfl
@[simp] theorem State.setTile_under (s : State) (t : Nat) (x : Tile) : (s.setTile t x).under = s.under := rfl
@[simp] theorem State.setTile_power (s : State) (t : Nat) (x : Tile) : (s.setTile t x).power = s.power := rfl
@[simp] theorem State.setTile_journal (s : State) (t : Nat) (x : Tile) : (s.setTile t x).journal = s.journal := rfl
@[simp] theorem State.setTile_keys (s : State) (t : Nat) (x : Tile) : (s.setTile t x).keys = s.keys := rfl
@[simp] theorem State.setTile_test (s : State) (t : Nat) (x : Tile) : (s.setTile t x).test = s.test := rfl
@[simp] theorem State.setTile_tray (s : State) (t : Nat) (x : Tile) : (s.setTile t x).tray = s.tray := rfl
@[simp] theorem State.setTile_time (s : State) (t : Nat) (x : Tile) : (s.setTile t x).time = s.time := rfl
@[simp] theorem State.setTile_hostMem (s : State) (t : Nat) (x : Tile) : (s.setTile t x).hostMem = s.hostMem := rfl
@[simp] theorem State.setTile_outbox (s : State) (t : Nat) (x : Tile) : (s.setTile t x).outbox = s.outbox := rfl
@[simp] theorem State.setTile_waiting (s : State) (t : Nat) (x : Tile) : (s.setTile t x).waiting = s.waiting := rfl
@[simp] theorem State.setTile_free (s : State) (t : Nat) (x : Tile) : (s.setTile t x).free = s.free := rfl

/-! ### setSeq -/

@[simp] theorem State.setSeq_pending (s : State) (g : Nat) (x : Seq) : (s.setSeq g x).pending = s.pending := rfl
@[simp] theorem State.setSeq_regs (s : State) (g : Nat) (x : Seq) : (s.setSeq g x).regs = s.regs := rfl
@[simp] theorem State.setSeq_active (s : State) (g : Nat) (x : Seq) : (s.setSeq g x).active = s.active := rfl
@[simp] theorem State.setSeq_latches (s : State) (g : Nat) (x : Seq) : (s.setSeq g x).latches = s.latches := rfl
@[simp] theorem State.setSeq_src (s : State) (g : Nat) (x : Seq) : (s.setSeq g x).src = s.src := rfl
@[simp] theorem State.setSeq_counters (s : State) (g : Nat) (x : Seq) : (s.setSeq g x).counters = s.counters := rfl
@[simp] theorem State.setSeq_msixTab (s : State) (g : Nat) (x : Seq) : (s.setSeq g x).msixTab = s.msixTab := rfl
@[simp] theorem State.setSeq_streams (s : State) (g : Nat) (x : Seq) : (s.setSeq g x).streams = s.streams := rfl
@[simp] theorem State.setSeq_chans (s : State) (g : Nat) (x : Seq) : (s.setSeq g x).chans = s.chans := rfl
@[simp] theorem State.setSeq_press (s : State) (g : Nat) (x : Seq) : (s.setSeq g x).press = s.press := rfl
@[simp] theorem State.setSeq_gate (s : State) (g : Nat) (x : Seq) : (s.setSeq g x).gate = s.gate := rfl
@[simp] theorem State.setSeq_tiles (s : State) (g : Nat) (x : Seq) : (s.setSeq g x).tiles = s.tiles := rfl
@[simp] theorem State.setSeq_tms (s : State) (g : Nat) (x : Seq) : (s.setSeq g x).tms = s.tms := rfl
@[simp] theorem State.setSeq_tmq (s : State) (g : Nat) (x : Seq) : (s.setSeq g x).tmq = s.tmq := rfl
@[simp] theorem State.setSeq_granted (s : State) (g : Nat) (x : Seq) : (s.setSeq g x).granted = s.granted := rfl
@[simp] theorem State.setSeq_replies (s : State) (g : Nat) (x : Seq) : (s.setSeq g x).replies = s.replies := rfl
@[simp] theorem State.setSeq_uses (s : State) (g : Nat) (x : Seq) : (s.setSeq g x).uses = s.uses := rfl
@[simp] theorem State.setSeq_images (s : State) (g : Nat) (x : Seq) : (s.setSeq g x).images = s.images := rfl
@[simp] theorem State.setSeq_layOp (s : State) (g : Nat) (x : Seq) : (s.setSeq g x).layOp = s.layOp := rfl
@[simp] theorem State.setSeq_staging (s : State) (g : Nat) (x : Seq) : (s.setSeq g x).staging = s.staging := rfl
@[simp] theorem State.setSeq_loads (s : State) (g : Nat) (x : Seq) : (s.setSeq g x).loads = s.loads := rfl
@[simp] theorem State.setSeq_ferries (s : State) (g : Nat) (x : Seq) : (s.setSeq g x).ferries = s.ferries := rfl
@[simp] theorem State.setSeq_mem (s : State) (g : Nat) (x : Seq) : (s.setSeq g x).mem = s.mem := rfl
@[simp] theorem State.setSeq_edges (s : State) (g : Nat) (x : Seq) : (s.setSeq g x).edges = s.edges := rfl
@[simp] theorem State.setSeq_cwy (s : State) (g : Nat) (x : Seq) : (s.setSeq g x).cwy = s.cwy := rfl
@[simp] theorem State.setSeq_fabric (s : State) (g : Nat) (x : Seq) : (s.setSeq g x).fabric = s.fabric := rfl
@[simp] theorem State.setSeq_under (s : State) (g : Nat) (x : Seq) : (s.setSeq g x).under = s.under := rfl
@[simp] theorem State.setSeq_power (s : State) (g : Nat) (x : Seq) : (s.setSeq g x).power = s.power := rfl
@[simp] theorem State.setSeq_journal (s : State) (g : Nat) (x : Seq) : (s.setSeq g x).journal = s.journal := rfl
@[simp] theorem State.setSeq_keys (s : State) (g : Nat) (x : Seq) : (s.setSeq g x).keys = s.keys := rfl
@[simp] theorem State.setSeq_test (s : State) (g : Nat) (x : Seq) : (s.setSeq g x).test = s.test := rfl
@[simp] theorem State.setSeq_tray (s : State) (g : Nat) (x : Seq) : (s.setSeq g x).tray = s.tray := rfl
@[simp] theorem State.setSeq_time (s : State) (g : Nat) (x : Seq) : (s.setSeq g x).time = s.time := rfl
@[simp] theorem State.setSeq_hostMem (s : State) (g : Nat) (x : Seq) : (s.setSeq g x).hostMem = s.hostMem := rfl
@[simp] theorem State.setSeq_outbox (s : State) (g : Nat) (x : Seq) : (s.setSeq g x).outbox = s.outbox := rfl
@[simp] theorem State.setSeq_waiting (s : State) (g : Nat) (x : Seq) : (s.setSeq g x).waiting = s.waiting := rfl
@[simp] theorem State.setSeq_free (s : State) (g : Nat) (x : Seq) : (s.setSeq g x).free = s.free := rfl

/-! ### setStream -/

@[simp] theorem State.setStream_pending (s : State) (n : Nat) (x : Stream) : (s.setStream n x).pending = s.pending := rfl
@[simp] theorem State.setStream_regs (s : State) (n : Nat) (x : Stream) : (s.setStream n x).regs = s.regs := rfl
@[simp] theorem State.setStream_active (s : State) (n : Nat) (x : Stream) : (s.setStream n x).active = s.active := rfl
@[simp] theorem State.setStream_latches (s : State) (n : Nat) (x : Stream) : (s.setStream n x).latches = s.latches := rfl
@[simp] theorem State.setStream_src (s : State) (n : Nat) (x : Stream) : (s.setStream n x).src = s.src := rfl
@[simp] theorem State.setStream_counters (s : State) (n : Nat) (x : Stream) : (s.setStream n x).counters = s.counters := rfl
@[simp] theorem State.setStream_msixTab (s : State) (n : Nat) (x : Stream) : (s.setStream n x).msixTab = s.msixTab := rfl
@[simp] theorem State.setStream_chans (s : State) (n : Nat) (x : Stream) : (s.setStream n x).chans = s.chans := rfl
@[simp] theorem State.setStream_press (s : State) (n : Nat) (x : Stream) : (s.setStream n x).press = s.press := rfl
@[simp] theorem State.setStream_gate (s : State) (n : Nat) (x : Stream) : (s.setStream n x).gate = s.gate := rfl
@[simp] theorem State.setStream_tiles (s : State) (n : Nat) (x : Stream) : (s.setStream n x).tiles = s.tiles := rfl
@[simp] theorem State.setStream_seqs (s : State) (n : Nat) (x : Stream) : (s.setStream n x).seqs = s.seqs := rfl
@[simp] theorem State.setStream_tms (s : State) (n : Nat) (x : Stream) : (s.setStream n x).tms = s.tms := rfl
@[simp] theorem State.setStream_tmq (s : State) (n : Nat) (x : Stream) : (s.setStream n x).tmq = s.tmq := rfl
@[simp] theorem State.setStream_granted (s : State) (n : Nat) (x : Stream) : (s.setStream n x).granted = s.granted := rfl
@[simp] theorem State.setStream_replies (s : State) (n : Nat) (x : Stream) : (s.setStream n x).replies = s.replies := rfl
@[simp] theorem State.setStream_uses (s : State) (n : Nat) (x : Stream) : (s.setStream n x).uses = s.uses := rfl
@[simp] theorem State.setStream_images (s : State) (n : Nat) (x : Stream) : (s.setStream n x).images = s.images := rfl
@[simp] theorem State.setStream_layOp (s : State) (n : Nat) (x : Stream) : (s.setStream n x).layOp = s.layOp := rfl
@[simp] theorem State.setStream_staging (s : State) (n : Nat) (x : Stream) : (s.setStream n x).staging = s.staging := rfl
@[simp] theorem State.setStream_loads (s : State) (n : Nat) (x : Stream) : (s.setStream n x).loads = s.loads := rfl
@[simp] theorem State.setStream_ferries (s : State) (n : Nat) (x : Stream) : (s.setStream n x).ferries = s.ferries := rfl
@[simp] theorem State.setStream_mem (s : State) (n : Nat) (x : Stream) : (s.setStream n x).mem = s.mem := rfl
@[simp] theorem State.setStream_edges (s : State) (n : Nat) (x : Stream) : (s.setStream n x).edges = s.edges := rfl
@[simp] theorem State.setStream_cwy (s : State) (n : Nat) (x : Stream) : (s.setStream n x).cwy = s.cwy := rfl
@[simp] theorem State.setStream_fabric (s : State) (n : Nat) (x : Stream) : (s.setStream n x).fabric = s.fabric := rfl
@[simp] theorem State.setStream_under (s : State) (n : Nat) (x : Stream) : (s.setStream n x).under = s.under := rfl
@[simp] theorem State.setStream_power (s : State) (n : Nat) (x : Stream) : (s.setStream n x).power = s.power := rfl
@[simp] theorem State.setStream_journal (s : State) (n : Nat) (x : Stream) : (s.setStream n x).journal = s.journal := rfl
@[simp] theorem State.setStream_keys (s : State) (n : Nat) (x : Stream) : (s.setStream n x).keys = s.keys := rfl
@[simp] theorem State.setStream_test (s : State) (n : Nat) (x : Stream) : (s.setStream n x).test = s.test := rfl
@[simp] theorem State.setStream_tray (s : State) (n : Nat) (x : Stream) : (s.setStream n x).tray = s.tray := rfl
@[simp] theorem State.setStream_time (s : State) (n : Nat) (x : Stream) : (s.setStream n x).time = s.time := rfl
@[simp] theorem State.setStream_hostMem (s : State) (n : Nat) (x : Stream) : (s.setStream n x).hostMem = s.hostMem := rfl
@[simp] theorem State.setStream_outbox (s : State) (n : Nat) (x : Stream) : (s.setStream n x).outbox = s.outbox := rfl
@[simp] theorem State.setStream_waiting (s : State) (n : Nat) (x : Stream) : (s.setStream n x).waiting = s.waiting := rfl
@[simp] theorem State.setStream_free (s : State) (n : Nat) (x : Stream) : (s.setStream n x).free = s.free := rfl

/-! ### setChan -/

@[simp] theorem State.setChan_pending (s : State) (c : Nat) (x : Chan) : (s.setChan c x).pending = s.pending := rfl
@[simp] theorem State.setChan_regs (s : State) (c : Nat) (x : Chan) : (s.setChan c x).regs = s.regs := rfl
@[simp] theorem State.setChan_active (s : State) (c : Nat) (x : Chan) : (s.setChan c x).active = s.active := rfl
@[simp] theorem State.setChan_latches (s : State) (c : Nat) (x : Chan) : (s.setChan c x).latches = s.latches := rfl
@[simp] theorem State.setChan_src (s : State) (c : Nat) (x : Chan) : (s.setChan c x).src = s.src := rfl
@[simp] theorem State.setChan_counters (s : State) (c : Nat) (x : Chan) : (s.setChan c x).counters = s.counters := rfl
@[simp] theorem State.setChan_msixTab (s : State) (c : Nat) (x : Chan) : (s.setChan c x).msixTab = s.msixTab := rfl
@[simp] theorem State.setChan_streams (s : State) (c : Nat) (x : Chan) : (s.setChan c x).streams = s.streams := rfl
@[simp] theorem State.setChan_press (s : State) (c : Nat) (x : Chan) : (s.setChan c x).press = s.press := rfl
@[simp] theorem State.setChan_gate (s : State) (c : Nat) (x : Chan) : (s.setChan c x).gate = s.gate := rfl
@[simp] theorem State.setChan_tiles (s : State) (c : Nat) (x : Chan) : (s.setChan c x).tiles = s.tiles := rfl
@[simp] theorem State.setChan_seqs (s : State) (c : Nat) (x : Chan) : (s.setChan c x).seqs = s.seqs := rfl
@[simp] theorem State.setChan_tms (s : State) (c : Nat) (x : Chan) : (s.setChan c x).tms = s.tms := rfl
@[simp] theorem State.setChan_tmq (s : State) (c : Nat) (x : Chan) : (s.setChan c x).tmq = s.tmq := rfl
@[simp] theorem State.setChan_granted (s : State) (c : Nat) (x : Chan) : (s.setChan c x).granted = s.granted := rfl
@[simp] theorem State.setChan_replies (s : State) (c : Nat) (x : Chan) : (s.setChan c x).replies = s.replies := rfl
@[simp] theorem State.setChan_uses (s : State) (c : Nat) (x : Chan) : (s.setChan c x).uses = s.uses := rfl
@[simp] theorem State.setChan_images (s : State) (c : Nat) (x : Chan) : (s.setChan c x).images = s.images := rfl
@[simp] theorem State.setChan_layOp (s : State) (c : Nat) (x : Chan) : (s.setChan c x).layOp = s.layOp := rfl
@[simp] theorem State.setChan_staging (s : State) (c : Nat) (x : Chan) : (s.setChan c x).staging = s.staging := rfl
@[simp] theorem State.setChan_loads (s : State) (c : Nat) (x : Chan) : (s.setChan c x).loads = s.loads := rfl
@[simp] theorem State.setChan_ferries (s : State) (c : Nat) (x : Chan) : (s.setChan c x).ferries = s.ferries := rfl
@[simp] theorem State.setChan_mem (s : State) (c : Nat) (x : Chan) : (s.setChan c x).mem = s.mem := rfl
@[simp] theorem State.setChan_edges (s : State) (c : Nat) (x : Chan) : (s.setChan c x).edges = s.edges := rfl
@[simp] theorem State.setChan_cwy (s : State) (c : Nat) (x : Chan) : (s.setChan c x).cwy = s.cwy := rfl
@[simp] theorem State.setChan_fabric (s : State) (c : Nat) (x : Chan) : (s.setChan c x).fabric = s.fabric := rfl
@[simp] theorem State.setChan_under (s : State) (c : Nat) (x : Chan) : (s.setChan c x).under = s.under := rfl
@[simp] theorem State.setChan_power (s : State) (c : Nat) (x : Chan) : (s.setChan c x).power = s.power := rfl
@[simp] theorem State.setChan_journal (s : State) (c : Nat) (x : Chan) : (s.setChan c x).journal = s.journal := rfl
@[simp] theorem State.setChan_keys (s : State) (c : Nat) (x : Chan) : (s.setChan c x).keys = s.keys := rfl
@[simp] theorem State.setChan_test (s : State) (c : Nat) (x : Chan) : (s.setChan c x).test = s.test := rfl
@[simp] theorem State.setChan_tray (s : State) (c : Nat) (x : Chan) : (s.setChan c x).tray = s.tray := rfl
@[simp] theorem State.setChan_time (s : State) (c : Nat) (x : Chan) : (s.setChan c x).time = s.time := rfl
@[simp] theorem State.setChan_hostMem (s : State) (c : Nat) (x : Chan) : (s.setChan c x).hostMem = s.hostMem := rfl
@[simp] theorem State.setChan_outbox (s : State) (c : Nat) (x : Chan) : (s.setChan c x).outbox = s.outbox := rfl
@[simp] theorem State.setChan_waiting (s : State) (c : Nat) (x : Chan) : (s.setChan c x).waiting = s.waiting := rfl
@[simp] theorem State.setChan_free (s : State) (c : Nat) (x : Chan) : (s.setChan c x).free = s.free := rfl

/-! ### setTm -/

@[simp] theorem State.setTm_pending (s : State) (i : Nat) (x : Tm) : (s.setTm i x).pending = s.pending := rfl
@[simp] theorem State.setTm_regs (s : State) (i : Nat) (x : Tm) : (s.setTm i x).regs = s.regs := rfl
@[simp] theorem State.setTm_active (s : State) (i : Nat) (x : Tm) : (s.setTm i x).active = s.active := rfl
@[simp] theorem State.setTm_latches (s : State) (i : Nat) (x : Tm) : (s.setTm i x).latches = s.latches := rfl
@[simp] theorem State.setTm_src (s : State) (i : Nat) (x : Tm) : (s.setTm i x).src = s.src := rfl
@[simp] theorem State.setTm_counters (s : State) (i : Nat) (x : Tm) : (s.setTm i x).counters = s.counters := rfl
@[simp] theorem State.setTm_msixTab (s : State) (i : Nat) (x : Tm) : (s.setTm i x).msixTab = s.msixTab := rfl
@[simp] theorem State.setTm_streams (s : State) (i : Nat) (x : Tm) : (s.setTm i x).streams = s.streams := rfl
@[simp] theorem State.setTm_chans (s : State) (i : Nat) (x : Tm) : (s.setTm i x).chans = s.chans := rfl
@[simp] theorem State.setTm_press (s : State) (i : Nat) (x : Tm) : (s.setTm i x).press = s.press := rfl
@[simp] theorem State.setTm_gate (s : State) (i : Nat) (x : Tm) : (s.setTm i x).gate = s.gate := rfl
@[simp] theorem State.setTm_tiles (s : State) (i : Nat) (x : Tm) : (s.setTm i x).tiles = s.tiles := rfl
@[simp] theorem State.setTm_seqs (s : State) (i : Nat) (x : Tm) : (s.setTm i x).seqs = s.seqs := rfl
@[simp] theorem State.setTm_tmq (s : State) (i : Nat) (x : Tm) : (s.setTm i x).tmq = s.tmq := rfl
@[simp] theorem State.setTm_granted (s : State) (i : Nat) (x : Tm) : (s.setTm i x).granted = s.granted := rfl
@[simp] theorem State.setTm_replies (s : State) (i : Nat) (x : Tm) : (s.setTm i x).replies = s.replies := rfl
@[simp] theorem State.setTm_uses (s : State) (i : Nat) (x : Tm) : (s.setTm i x).uses = s.uses := rfl
@[simp] theorem State.setTm_images (s : State) (i : Nat) (x : Tm) : (s.setTm i x).images = s.images := rfl
@[simp] theorem State.setTm_layOp (s : State) (i : Nat) (x : Tm) : (s.setTm i x).layOp = s.layOp := rfl
@[simp] theorem State.setTm_staging (s : State) (i : Nat) (x : Tm) : (s.setTm i x).staging = s.staging := rfl
@[simp] theorem State.setTm_loads (s : State) (i : Nat) (x : Tm) : (s.setTm i x).loads = s.loads := rfl
@[simp] theorem State.setTm_ferries (s : State) (i : Nat) (x : Tm) : (s.setTm i x).ferries = s.ferries := rfl
@[simp] theorem State.setTm_mem (s : State) (i : Nat) (x : Tm) : (s.setTm i x).mem = s.mem := rfl
@[simp] theorem State.setTm_edges (s : State) (i : Nat) (x : Tm) : (s.setTm i x).edges = s.edges := rfl
@[simp] theorem State.setTm_cwy (s : State) (i : Nat) (x : Tm) : (s.setTm i x).cwy = s.cwy := rfl
@[simp] theorem State.setTm_fabric (s : State) (i : Nat) (x : Tm) : (s.setTm i x).fabric = s.fabric := rfl
@[simp] theorem State.setTm_under (s : State) (i : Nat) (x : Tm) : (s.setTm i x).under = s.under := rfl
@[simp] theorem State.setTm_power (s : State) (i : Nat) (x : Tm) : (s.setTm i x).power = s.power := rfl
@[simp] theorem State.setTm_journal (s : State) (i : Nat) (x : Tm) : (s.setTm i x).journal = s.journal := rfl
@[simp] theorem State.setTm_keys (s : State) (i : Nat) (x : Tm) : (s.setTm i x).keys = s.keys := rfl
@[simp] theorem State.setTm_test (s : State) (i : Nat) (x : Tm) : (s.setTm i x).test = s.test := rfl
@[simp] theorem State.setTm_tray (s : State) (i : Nat) (x : Tm) : (s.setTm i x).tray = s.tray := rfl
@[simp] theorem State.setTm_time (s : State) (i : Nat) (x : Tm) : (s.setTm i x).time = s.time := rfl
@[simp] theorem State.setTm_hostMem (s : State) (i : Nat) (x : Tm) : (s.setTm i x).hostMem = s.hostMem := rfl
@[simp] theorem State.setTm_outbox (s : State) (i : Nat) (x : Tm) : (s.setTm i x).outbox = s.outbox := rfl
@[simp] theorem State.setTm_waiting (s : State) (i : Nat) (x : Tm) : (s.setTm i x).waiting = s.waiting := rfl
@[simp] theorem State.setTm_free (s : State) (i : Nat) (x : Tm) : (s.setTm i x).free = s.free := rfl

/-! ### setFerry -/

@[simp] theorem State.setFerry_pending (s : State) (f : Nat) (x : Ferry) : (s.setFerry f x).pending = s.pending := rfl
@[simp] theorem State.setFerry_regs (s : State) (f : Nat) (x : Ferry) : (s.setFerry f x).regs = s.regs := rfl
@[simp] theorem State.setFerry_active (s : State) (f : Nat) (x : Ferry) : (s.setFerry f x).active = s.active := rfl
@[simp] theorem State.setFerry_latches (s : State) (f : Nat) (x : Ferry) : (s.setFerry f x).latches = s.latches := rfl
@[simp] theorem State.setFerry_src (s : State) (f : Nat) (x : Ferry) : (s.setFerry f x).src = s.src := rfl
@[simp] theorem State.setFerry_counters (s : State) (f : Nat) (x : Ferry) : (s.setFerry f x).counters = s.counters := rfl
@[simp] theorem State.setFerry_msixTab (s : State) (f : Nat) (x : Ferry) : (s.setFerry f x).msixTab = s.msixTab := rfl
@[simp] theorem State.setFerry_streams (s : State) (f : Nat) (x : Ferry) : (s.setFerry f x).streams = s.streams := rfl
@[simp] theorem State.setFerry_chans (s : State) (f : Nat) (x : Ferry) : (s.setFerry f x).chans = s.chans := rfl
@[simp] theorem State.setFerry_press (s : State) (f : Nat) (x : Ferry) : (s.setFerry f x).press = s.press := rfl
@[simp] theorem State.setFerry_gate (s : State) (f : Nat) (x : Ferry) : (s.setFerry f x).gate = s.gate := rfl
@[simp] theorem State.setFerry_tiles (s : State) (f : Nat) (x : Ferry) : (s.setFerry f x).tiles = s.tiles := rfl
@[simp] theorem State.setFerry_seqs (s : State) (f : Nat) (x : Ferry) : (s.setFerry f x).seqs = s.seqs := rfl
@[simp] theorem State.setFerry_tms (s : State) (f : Nat) (x : Ferry) : (s.setFerry f x).tms = s.tms := rfl
@[simp] theorem State.setFerry_tmq (s : State) (f : Nat) (x : Ferry) : (s.setFerry f x).tmq = s.tmq := rfl
@[simp] theorem State.setFerry_granted (s : State) (f : Nat) (x : Ferry) : (s.setFerry f x).granted = s.granted := rfl
@[simp] theorem State.setFerry_replies (s : State) (f : Nat) (x : Ferry) : (s.setFerry f x).replies = s.replies := rfl
@[simp] theorem State.setFerry_uses (s : State) (f : Nat) (x : Ferry) : (s.setFerry f x).uses = s.uses := rfl
@[simp] theorem State.setFerry_images (s : State) (f : Nat) (x : Ferry) : (s.setFerry f x).images = s.images := rfl
@[simp] theorem State.setFerry_layOp (s : State) (f : Nat) (x : Ferry) : (s.setFerry f x).layOp = s.layOp := rfl
@[simp] theorem State.setFerry_staging (s : State) (f : Nat) (x : Ferry) : (s.setFerry f x).staging = s.staging := rfl
@[simp] theorem State.setFerry_loads (s : State) (f : Nat) (x : Ferry) : (s.setFerry f x).loads = s.loads := rfl
@[simp] theorem State.setFerry_mem (s : State) (f : Nat) (x : Ferry) : (s.setFerry f x).mem = s.mem := rfl
@[simp] theorem State.setFerry_edges (s : State) (f : Nat) (x : Ferry) : (s.setFerry f x).edges = s.edges := rfl
@[simp] theorem State.setFerry_cwy (s : State) (f : Nat) (x : Ferry) : (s.setFerry f x).cwy = s.cwy := rfl
@[simp] theorem State.setFerry_fabric (s : State) (f : Nat) (x : Ferry) : (s.setFerry f x).fabric = s.fabric := rfl
@[simp] theorem State.setFerry_under (s : State) (f : Nat) (x : Ferry) : (s.setFerry f x).under = s.under := rfl
@[simp] theorem State.setFerry_power (s : State) (f : Nat) (x : Ferry) : (s.setFerry f x).power = s.power := rfl
@[simp] theorem State.setFerry_journal (s : State) (f : Nat) (x : Ferry) : (s.setFerry f x).journal = s.journal := rfl
@[simp] theorem State.setFerry_keys (s : State) (f : Nat) (x : Ferry) : (s.setFerry f x).keys = s.keys := rfl
@[simp] theorem State.setFerry_test (s : State) (f : Nat) (x : Ferry) : (s.setFerry f x).test = s.test := rfl
@[simp] theorem State.setFerry_tray (s : State) (f : Nat) (x : Ferry) : (s.setFerry f x).tray = s.tray := rfl
@[simp] theorem State.setFerry_time (s : State) (f : Nat) (x : Ferry) : (s.setFerry f x).time = s.time := rfl
@[simp] theorem State.setFerry_hostMem (s : State) (f : Nat) (x : Ferry) : (s.setFerry f x).hostMem = s.hostMem := rfl
@[simp] theorem State.setFerry_outbox (s : State) (f : Nat) (x : Ferry) : (s.setFerry f x).outbox = s.outbox := rfl
@[simp] theorem State.setFerry_waiting (s : State) (f : Nat) (x : Ferry) : (s.setFerry f x).waiting = s.waiting := rfl
@[simp] theorem State.setFerry_free (s : State) (f : Nat) (x : Ferry) : (s.setFerry f x).free = s.free := rfl

/-! ### setEdge -/

@[simp] theorem State.setEdge_pending (s : State) (e : Nat) (x : EdgePort) : (s.setEdge e x).pending = s.pending := rfl
@[simp] theorem State.setEdge_regs (s : State) (e : Nat) (x : EdgePort) : (s.setEdge e x).regs = s.regs := rfl
@[simp] theorem State.setEdge_active (s : State) (e : Nat) (x : EdgePort) : (s.setEdge e x).active = s.active := rfl
@[simp] theorem State.setEdge_latches (s : State) (e : Nat) (x : EdgePort) : (s.setEdge e x).latches = s.latches := rfl
@[simp] theorem State.setEdge_src (s : State) (e : Nat) (x : EdgePort) : (s.setEdge e x).src = s.src := rfl
@[simp] theorem State.setEdge_counters (s : State) (e : Nat) (x : EdgePort) : (s.setEdge e x).counters = s.counters := rfl
@[simp] theorem State.setEdge_msixTab (s : State) (e : Nat) (x : EdgePort) : (s.setEdge e x).msixTab = s.msixTab := rfl
@[simp] theorem State.setEdge_streams (s : State) (e : Nat) (x : EdgePort) : (s.setEdge e x).streams = s.streams := rfl
@[simp] theorem State.setEdge_chans (s : State) (e : Nat) (x : EdgePort) : (s.setEdge e x).chans = s.chans := rfl
@[simp] theorem State.setEdge_press (s : State) (e : Nat) (x : EdgePort) : (s.setEdge e x).press = s.press := rfl
@[simp] theorem State.setEdge_gate (s : State) (e : Nat) (x : EdgePort) : (s.setEdge e x).gate = s.gate := rfl
@[simp] theorem State.setEdge_tiles (s : State) (e : Nat) (x : EdgePort) : (s.setEdge e x).tiles = s.tiles := rfl
@[simp] theorem State.setEdge_seqs (s : State) (e : Nat) (x : EdgePort) : (s.setEdge e x).seqs = s.seqs := rfl
@[simp] theorem State.setEdge_tms (s : State) (e : Nat) (x : EdgePort) : (s.setEdge e x).tms = s.tms := rfl
@[simp] theorem State.setEdge_tmq (s : State) (e : Nat) (x : EdgePort) : (s.setEdge e x).tmq = s.tmq := rfl
@[simp] theorem State.setEdge_granted (s : State) (e : Nat) (x : EdgePort) : (s.setEdge e x).granted = s.granted := rfl
@[simp] theorem State.setEdge_replies (s : State) (e : Nat) (x : EdgePort) : (s.setEdge e x).replies = s.replies := rfl
@[simp] theorem State.setEdge_uses (s : State) (e : Nat) (x : EdgePort) : (s.setEdge e x).uses = s.uses := rfl
@[simp] theorem State.setEdge_images (s : State) (e : Nat) (x : EdgePort) : (s.setEdge e x).images = s.images := rfl
@[simp] theorem State.setEdge_layOp (s : State) (e : Nat) (x : EdgePort) : (s.setEdge e x).layOp = s.layOp := rfl
@[simp] theorem State.setEdge_staging (s : State) (e : Nat) (x : EdgePort) : (s.setEdge e x).staging = s.staging := rfl
@[simp] theorem State.setEdge_loads (s : State) (e : Nat) (x : EdgePort) : (s.setEdge e x).loads = s.loads := rfl
@[simp] theorem State.setEdge_ferries (s : State) (e : Nat) (x : EdgePort) : (s.setEdge e x).ferries = s.ferries := rfl
@[simp] theorem State.setEdge_mem (s : State) (e : Nat) (x : EdgePort) : (s.setEdge e x).mem = s.mem := rfl
@[simp] theorem State.setEdge_cwy (s : State) (e : Nat) (x : EdgePort) : (s.setEdge e x).cwy = s.cwy := rfl
@[simp] theorem State.setEdge_fabric (s : State) (e : Nat) (x : EdgePort) : (s.setEdge e x).fabric = s.fabric := rfl
@[simp] theorem State.setEdge_under (s : State) (e : Nat) (x : EdgePort) : (s.setEdge e x).under = s.under := rfl
@[simp] theorem State.setEdge_power (s : State) (e : Nat) (x : EdgePort) : (s.setEdge e x).power = s.power := rfl
@[simp] theorem State.setEdge_journal (s : State) (e : Nat) (x : EdgePort) : (s.setEdge e x).journal = s.journal := rfl
@[simp] theorem State.setEdge_keys (s : State) (e : Nat) (x : EdgePort) : (s.setEdge e x).keys = s.keys := rfl
@[simp] theorem State.setEdge_test (s : State) (e : Nat) (x : EdgePort) : (s.setEdge e x).test = s.test := rfl
@[simp] theorem State.setEdge_tray (s : State) (e : Nat) (x : EdgePort) : (s.setEdge e x).tray = s.tray := rfl
@[simp] theorem State.setEdge_time (s : State) (e : Nat) (x : EdgePort) : (s.setEdge e x).time = s.time := rfl
@[simp] theorem State.setEdge_hostMem (s : State) (e : Nat) (x : EdgePort) : (s.setEdge e x).hostMem = s.hostMem := rfl
@[simp] theorem State.setEdge_outbox (s : State) (e : Nat) (x : EdgePort) : (s.setEdge e x).outbox = s.outbox := rfl
@[simp] theorem State.setEdge_waiting (s : State) (e : Nat) (x : EdgePort) : (s.setEdge e x).waiting = s.waiting := rfl
@[simp] theorem State.setEdge_free (s : State) (e : Nat) (x : EdgePort) : (s.setEdge e x).free = s.free := rfl

/-! ### setLink -/

@[simp] theorem State.setLink_pending (s : State) (l : Nat) (x : Cwy) : (s.setLink l x).pending = s.pending := rfl
@[simp] theorem State.setLink_regs (s : State) (l : Nat) (x : Cwy) : (s.setLink l x).regs = s.regs := rfl
@[simp] theorem State.setLink_active (s : State) (l : Nat) (x : Cwy) : (s.setLink l x).active = s.active := rfl
@[simp] theorem State.setLink_latches (s : State) (l : Nat) (x : Cwy) : (s.setLink l x).latches = s.latches := rfl
@[simp] theorem State.setLink_src (s : State) (l : Nat) (x : Cwy) : (s.setLink l x).src = s.src := rfl
@[simp] theorem State.setLink_counters (s : State) (l : Nat) (x : Cwy) : (s.setLink l x).counters = s.counters := rfl
@[simp] theorem State.setLink_msixTab (s : State) (l : Nat) (x : Cwy) : (s.setLink l x).msixTab = s.msixTab := rfl
@[simp] theorem State.setLink_streams (s : State) (l : Nat) (x : Cwy) : (s.setLink l x).streams = s.streams := rfl
@[simp] theorem State.setLink_chans (s : State) (l : Nat) (x : Cwy) : (s.setLink l x).chans = s.chans := rfl
@[simp] theorem State.setLink_press (s : State) (l : Nat) (x : Cwy) : (s.setLink l x).press = s.press := rfl
@[simp] theorem State.setLink_gate (s : State) (l : Nat) (x : Cwy) : (s.setLink l x).gate = s.gate := rfl
@[simp] theorem State.setLink_tiles (s : State) (l : Nat) (x : Cwy) : (s.setLink l x).tiles = s.tiles := rfl
@[simp] theorem State.setLink_seqs (s : State) (l : Nat) (x : Cwy) : (s.setLink l x).seqs = s.seqs := rfl
@[simp] theorem State.setLink_tms (s : State) (l : Nat) (x : Cwy) : (s.setLink l x).tms = s.tms := rfl
@[simp] theorem State.setLink_tmq (s : State) (l : Nat) (x : Cwy) : (s.setLink l x).tmq = s.tmq := rfl
@[simp] theorem State.setLink_granted (s : State) (l : Nat) (x : Cwy) : (s.setLink l x).granted = s.granted := rfl
@[simp] theorem State.setLink_replies (s : State) (l : Nat) (x : Cwy) : (s.setLink l x).replies = s.replies := rfl
@[simp] theorem State.setLink_uses (s : State) (l : Nat) (x : Cwy) : (s.setLink l x).uses = s.uses := rfl
@[simp] theorem State.setLink_images (s : State) (l : Nat) (x : Cwy) : (s.setLink l x).images = s.images := rfl
@[simp] theorem State.setLink_layOp (s : State) (l : Nat) (x : Cwy) : (s.setLink l x).layOp = s.layOp := rfl
@[simp] theorem State.setLink_staging (s : State) (l : Nat) (x : Cwy) : (s.setLink l x).staging = s.staging := rfl
@[simp] theorem State.setLink_loads (s : State) (l : Nat) (x : Cwy) : (s.setLink l x).loads = s.loads := rfl
@[simp] theorem State.setLink_ferries (s : State) (l : Nat) (x : Cwy) : (s.setLink l x).ferries = s.ferries := rfl
@[simp] theorem State.setLink_mem (s : State) (l : Nat) (x : Cwy) : (s.setLink l x).mem = s.mem := rfl
@[simp] theorem State.setLink_edges (s : State) (l : Nat) (x : Cwy) : (s.setLink l x).edges = s.edges := rfl
@[simp] theorem State.setLink_fabric (s : State) (l : Nat) (x : Cwy) : (s.setLink l x).fabric = s.fabric := rfl
@[simp] theorem State.setLink_under (s : State) (l : Nat) (x : Cwy) : (s.setLink l x).under = s.under := rfl
@[simp] theorem State.setLink_power (s : State) (l : Nat) (x : Cwy) : (s.setLink l x).power = s.power := rfl
@[simp] theorem State.setLink_journal (s : State) (l : Nat) (x : Cwy) : (s.setLink l x).journal = s.journal := rfl
@[simp] theorem State.setLink_keys (s : State) (l : Nat) (x : Cwy) : (s.setLink l x).keys = s.keys := rfl
@[simp] theorem State.setLink_test (s : State) (l : Nat) (x : Cwy) : (s.setLink l x).test = s.test := rfl
@[simp] theorem State.setLink_tray (s : State) (l : Nat) (x : Cwy) : (s.setLink l x).tray = s.tray := rfl
@[simp] theorem State.setLink_time (s : State) (l : Nat) (x : Cwy) : (s.setLink l x).time = s.time := rfl
@[simp] theorem State.setLink_hostMem (s : State) (l : Nat) (x : Cwy) : (s.setLink l x).hostMem = s.hostMem := rfl
@[simp] theorem State.setLink_outbox (s : State) (l : Nat) (x : Cwy) : (s.setLink l x).outbox = s.outbox := rfl
@[simp] theorem State.setLink_waiting (s : State) (l : Nat) (x : Cwy) : (s.setLink l x).waiting = s.waiting := rfl
@[simp] theorem State.setLink_free (s : State) (l : Nat) (x : Cwy) : (s.setLink l x).free = s.free := rfl

/-! ### setGrp -/

@[simp] theorem State.setGrp_pending (s : State) (k : Nat) (x : Under) : (s.setGrp k x).pending = s.pending := rfl
@[simp] theorem State.setGrp_regs (s : State) (k : Nat) (x : Under) : (s.setGrp k x).regs = s.regs := rfl
@[simp] theorem State.setGrp_active (s : State) (k : Nat) (x : Under) : (s.setGrp k x).active = s.active := rfl
@[simp] theorem State.setGrp_latches (s : State) (k : Nat) (x : Under) : (s.setGrp k x).latches = s.latches := rfl
@[simp] theorem State.setGrp_src (s : State) (k : Nat) (x : Under) : (s.setGrp k x).src = s.src := rfl
@[simp] theorem State.setGrp_counters (s : State) (k : Nat) (x : Under) : (s.setGrp k x).counters = s.counters := rfl
@[simp] theorem State.setGrp_msixTab (s : State) (k : Nat) (x : Under) : (s.setGrp k x).msixTab = s.msixTab := rfl
@[simp] theorem State.setGrp_streams (s : State) (k : Nat) (x : Under) : (s.setGrp k x).streams = s.streams := rfl
@[simp] theorem State.setGrp_chans (s : State) (k : Nat) (x : Under) : (s.setGrp k x).chans = s.chans := rfl
@[simp] theorem State.setGrp_press (s : State) (k : Nat) (x : Under) : (s.setGrp k x).press = s.press := rfl
@[simp] theorem State.setGrp_gate (s : State) (k : Nat) (x : Under) : (s.setGrp k x).gate = s.gate := rfl
@[simp] theorem State.setGrp_tiles (s : State) (k : Nat) (x : Under) : (s.setGrp k x).tiles = s.tiles := rfl
@[simp] theorem State.setGrp_seqs (s : State) (k : Nat) (x : Under) : (s.setGrp k x).seqs = s.seqs := rfl
@[simp] theorem State.setGrp_tms (s : State) (k : Nat) (x : Under) : (s.setGrp k x).tms = s.tms := rfl
@[simp] theorem State.setGrp_tmq (s : State) (k : Nat) (x : Under) : (s.setGrp k x).tmq = s.tmq := rfl
@[simp] theorem State.setGrp_granted (s : State) (k : Nat) (x : Under) : (s.setGrp k x).granted = s.granted := rfl
@[simp] theorem State.setGrp_replies (s : State) (k : Nat) (x : Under) : (s.setGrp k x).replies = s.replies := rfl
@[simp] theorem State.setGrp_uses (s : State) (k : Nat) (x : Under) : (s.setGrp k x).uses = s.uses := rfl
@[simp] theorem State.setGrp_images (s : State) (k : Nat) (x : Under) : (s.setGrp k x).images = s.images := rfl
@[simp] theorem State.setGrp_layOp (s : State) (k : Nat) (x : Under) : (s.setGrp k x).layOp = s.layOp := rfl
@[simp] theorem State.setGrp_staging (s : State) (k : Nat) (x : Under) : (s.setGrp k x).staging = s.staging := rfl
@[simp] theorem State.setGrp_loads (s : State) (k : Nat) (x : Under) : (s.setGrp k x).loads = s.loads := rfl
@[simp] theorem State.setGrp_ferries (s : State) (k : Nat) (x : Under) : (s.setGrp k x).ferries = s.ferries := rfl
@[simp] theorem State.setGrp_mem (s : State) (k : Nat) (x : Under) : (s.setGrp k x).mem = s.mem := rfl
@[simp] theorem State.setGrp_edges (s : State) (k : Nat) (x : Under) : (s.setGrp k x).edges = s.edges := rfl
@[simp] theorem State.setGrp_cwy (s : State) (k : Nat) (x : Under) : (s.setGrp k x).cwy = s.cwy := rfl
@[simp] theorem State.setGrp_fabric (s : State) (k : Nat) (x : Under) : (s.setGrp k x).fabric = s.fabric := rfl
@[simp] theorem State.setGrp_power (s : State) (k : Nat) (x : Under) : (s.setGrp k x).power = s.power := rfl
@[simp] theorem State.setGrp_journal (s : State) (k : Nat) (x : Under) : (s.setGrp k x).journal = s.journal := rfl
@[simp] theorem State.setGrp_keys (s : State) (k : Nat) (x : Under) : (s.setGrp k x).keys = s.keys := rfl
@[simp] theorem State.setGrp_test (s : State) (k : Nat) (x : Under) : (s.setGrp k x).test = s.test := rfl
@[simp] theorem State.setGrp_tray (s : State) (k : Nat) (x : Under) : (s.setGrp k x).tray = s.tray := rfl
@[simp] theorem State.setGrp_time (s : State) (k : Nat) (x : Under) : (s.setGrp k x).time = s.time := rfl
@[simp] theorem State.setGrp_hostMem (s : State) (k : Nat) (x : Under) : (s.setGrp k x).hostMem = s.hostMem := rfl
@[simp] theorem State.setGrp_outbox (s : State) (k : Nat) (x : Under) : (s.setGrp k x).outbox = s.outbox := rfl
@[simp] theorem State.setGrp_waiting (s : State) (k : Nat) (x : Under) : (s.setGrp k x).waiting = s.waiting := rfl
@[simp] theorem State.setGrp_free (s : State) (k : Nat) (x : Under) : (s.setGrp k x).free = s.free := rfl

/-! ### setTimer -/

@[simp] theorem State.setTimer_pending (s : State) (k : Nat) (x : Timer) : (s.setTimer k x).pending = s.pending := rfl
@[simp] theorem State.setTimer_regs (s : State) (k : Nat) (x : Timer) : (s.setTimer k x).regs = s.regs := rfl
@[simp] theorem State.setTimer_active (s : State) (k : Nat) (x : Timer) : (s.setTimer k x).active = s.active := rfl
@[simp] theorem State.setTimer_latches (s : State) (k : Nat) (x : Timer) : (s.setTimer k x).latches = s.latches := rfl
@[simp] theorem State.setTimer_src (s : State) (k : Nat) (x : Timer) : (s.setTimer k x).src = s.src := rfl
@[simp] theorem State.setTimer_counters (s : State) (k : Nat) (x : Timer) : (s.setTimer k x).counters = s.counters := rfl
@[simp] theorem State.setTimer_msixTab (s : State) (k : Nat) (x : Timer) : (s.setTimer k x).msixTab = s.msixTab := rfl
@[simp] theorem State.setTimer_streams (s : State) (k : Nat) (x : Timer) : (s.setTimer k x).streams = s.streams := rfl
@[simp] theorem State.setTimer_chans (s : State) (k : Nat) (x : Timer) : (s.setTimer k x).chans = s.chans := rfl
@[simp] theorem State.setTimer_gate (s : State) (k : Nat) (x : Timer) : (s.setTimer k x).gate = s.gate := rfl
@[simp] theorem State.setTimer_tiles (s : State) (k : Nat) (x : Timer) : (s.setTimer k x).tiles = s.tiles := rfl
@[simp] theorem State.setTimer_seqs (s : State) (k : Nat) (x : Timer) : (s.setTimer k x).seqs = s.seqs := rfl
@[simp] theorem State.setTimer_tms (s : State) (k : Nat) (x : Timer) : (s.setTimer k x).tms = s.tms := rfl
@[simp] theorem State.setTimer_tmq (s : State) (k : Nat) (x : Timer) : (s.setTimer k x).tmq = s.tmq := rfl
@[simp] theorem State.setTimer_granted (s : State) (k : Nat) (x : Timer) : (s.setTimer k x).granted = s.granted := rfl
@[simp] theorem State.setTimer_replies (s : State) (k : Nat) (x : Timer) : (s.setTimer k x).replies = s.replies := rfl
@[simp] theorem State.setTimer_uses (s : State) (k : Nat) (x : Timer) : (s.setTimer k x).uses = s.uses := rfl
@[simp] theorem State.setTimer_images (s : State) (k : Nat) (x : Timer) : (s.setTimer k x).images = s.images := rfl
@[simp] theorem State.setTimer_layOp (s : State) (k : Nat) (x : Timer) : (s.setTimer k x).layOp = s.layOp := rfl
@[simp] theorem State.setTimer_staging (s : State) (k : Nat) (x : Timer) : (s.setTimer k x).staging = s.staging := rfl
@[simp] theorem State.setTimer_loads (s : State) (k : Nat) (x : Timer) : (s.setTimer k x).loads = s.loads := rfl
@[simp] theorem State.setTimer_ferries (s : State) (k : Nat) (x : Timer) : (s.setTimer k x).ferries = s.ferries := rfl
@[simp] theorem State.setTimer_mem (s : State) (k : Nat) (x : Timer) : (s.setTimer k x).mem = s.mem := rfl
@[simp] theorem State.setTimer_edges (s : State) (k : Nat) (x : Timer) : (s.setTimer k x).edges = s.edges := rfl
@[simp] theorem State.setTimer_cwy (s : State) (k : Nat) (x : Timer) : (s.setTimer k x).cwy = s.cwy := rfl
@[simp] theorem State.setTimer_fabric (s : State) (k : Nat) (x : Timer) : (s.setTimer k x).fabric = s.fabric := rfl
@[simp] theorem State.setTimer_under (s : State) (k : Nat) (x : Timer) : (s.setTimer k x).under = s.under := rfl
@[simp] theorem State.setTimer_power (s : State) (k : Nat) (x : Timer) : (s.setTimer k x).power = s.power := rfl
@[simp] theorem State.setTimer_journal (s : State) (k : Nat) (x : Timer) : (s.setTimer k x).journal = s.journal := rfl
@[simp] theorem State.setTimer_keys (s : State) (k : Nat) (x : Timer) : (s.setTimer k x).keys = s.keys := rfl
@[simp] theorem State.setTimer_test (s : State) (k : Nat) (x : Timer) : (s.setTimer k x).test = s.test := rfl
@[simp] theorem State.setTimer_tray (s : State) (k : Nat) (x : Timer) : (s.setTimer k x).tray = s.tray := rfl
@[simp] theorem State.setTimer_time (s : State) (k : Nat) (x : Timer) : (s.setTimer k x).time = s.time := rfl
@[simp] theorem State.setTimer_hostMem (s : State) (k : Nat) (x : Timer) : (s.setTimer k x).hostMem = s.hostMem := rfl
@[simp] theorem State.setTimer_outbox (s : State) (k : Nat) (x : Timer) : (s.setTimer k x).outbox = s.outbox := rfl
@[simp] theorem State.setTimer_waiting (s : State) (k : Nat) (x : Timer) : (s.setTimer k x).waiting = s.waiting := rfl
@[simp] theorem State.setTimer_free (s : State) (k : Nat) (x : Timer) : (s.setTimer k x).free = s.free := rfl

/-! ### emit -/

@[simp] theorem State.emit_pending (s : State) (o : Output) : (s.emit o).pending = s.pending := rfl
@[simp] theorem State.emit_regs (s : State) (o : Output) : (s.emit o).regs = s.regs := rfl
@[simp] theorem State.emit_active (s : State) (o : Output) : (s.emit o).active = s.active := rfl
@[simp] theorem State.emit_latches (s : State) (o : Output) : (s.emit o).latches = s.latches := rfl
@[simp] theorem State.emit_src (s : State) (o : Output) : (s.emit o).src = s.src := rfl
@[simp] theorem State.emit_counters (s : State) (o : Output) : (s.emit o).counters = s.counters := rfl
@[simp] theorem State.emit_msixTab (s : State) (o : Output) : (s.emit o).msixTab = s.msixTab := rfl
@[simp] theorem State.emit_streams (s : State) (o : Output) : (s.emit o).streams = s.streams := rfl
@[simp] theorem State.emit_chans (s : State) (o : Output) : (s.emit o).chans = s.chans := rfl
@[simp] theorem State.emit_press (s : State) (o : Output) : (s.emit o).press = s.press := rfl
@[simp] theorem State.emit_gate (s : State) (o : Output) : (s.emit o).gate = s.gate := rfl
@[simp] theorem State.emit_tiles (s : State) (o : Output) : (s.emit o).tiles = s.tiles := rfl
@[simp] theorem State.emit_seqs (s : State) (o : Output) : (s.emit o).seqs = s.seqs := rfl
@[simp] theorem State.emit_tms (s : State) (o : Output) : (s.emit o).tms = s.tms := rfl
@[simp] theorem State.emit_tmq (s : State) (o : Output) : (s.emit o).tmq = s.tmq := rfl
@[simp] theorem State.emit_granted (s : State) (o : Output) : (s.emit o).granted = s.granted := rfl
@[simp] theorem State.emit_replies (s : State) (o : Output) : (s.emit o).replies = s.replies := rfl
@[simp] theorem State.emit_uses (s : State) (o : Output) : (s.emit o).uses = s.uses := rfl
@[simp] theorem State.emit_images (s : State) (o : Output) : (s.emit o).images = s.images := rfl
@[simp] theorem State.emit_layOp (s : State) (o : Output) : (s.emit o).layOp = s.layOp := rfl
@[simp] theorem State.emit_staging (s : State) (o : Output) : (s.emit o).staging = s.staging := rfl
@[simp] theorem State.emit_loads (s : State) (o : Output) : (s.emit o).loads = s.loads := rfl
@[simp] theorem State.emit_ferries (s : State) (o : Output) : (s.emit o).ferries = s.ferries := rfl
@[simp] theorem State.emit_mem (s : State) (o : Output) : (s.emit o).mem = s.mem := rfl
@[simp] theorem State.emit_edges (s : State) (o : Output) : (s.emit o).edges = s.edges := rfl
@[simp] theorem State.emit_cwy (s : State) (o : Output) : (s.emit o).cwy = s.cwy := rfl
@[simp] theorem State.emit_fabric (s : State) (o : Output) : (s.emit o).fabric = s.fabric := rfl
@[simp] theorem State.emit_under (s : State) (o : Output) : (s.emit o).under = s.under := rfl
@[simp] theorem State.emit_power (s : State) (o : Output) : (s.emit o).power = s.power := rfl
@[simp] theorem State.emit_journal (s : State) (o : Output) : (s.emit o).journal = s.journal := rfl
@[simp] theorem State.emit_keys (s : State) (o : Output) : (s.emit o).keys = s.keys := rfl
@[simp] theorem State.emit_test (s : State) (o : Output) : (s.emit o).test = s.test := rfl
@[simp] theorem State.emit_tray (s : State) (o : Output) : (s.emit o).tray = s.tray := rfl
@[simp] theorem State.emit_time (s : State) (o : Output) : (s.emit o).time = s.time := rfl
@[simp] theorem State.emit_hostMem (s : State) (o : Output) : (s.emit o).hostMem = s.hostMem := rfl
@[simp] theorem State.emit_waiting (s : State) (o : Output) : (s.emit o).waiting = s.waiting := rfl
@[simp] theorem State.emit_free (s : State) (o : Output) : (s.emit o).free = s.free := rfl

/-! ### Reads after writes -/

@[simp] theorem State.rd_wr_same (s : State) (off : Nat) (w : Word) : (s.wr off w).rd off = w := by simp [State.rd, State.wr]
theorem State.rd_wr_ne (s : State) {off j : Nat} (w : Word) (h : j ≠ off) : (s.wr off w).rd j = s.rd j :=
  tget_tset_ne _ _ _ _ h
theorem State.rd_wr (s : State) (off j : Nat) (w : Word) : (s.wr off w).rd j = if j = off then w else s.rd j := by
  by_cases h : j = off
  · subst h; simp
  · simp [State.rd_wr_ne, h]
@[simp] theorem State.act_wr (s : State) (off j : Nat) (w : Word) : (s.wr off w).act j = s.act j := rfl
@[simp] theorem State.rd_wrAct (s : State) (off j : Nat) (w : Word) : (s.wrAct off w).rd j = s.rd j := rfl
theorem State.act_wrAct (s : State) (off j : Nat) (w : Word) : (s.wrAct off w).act j = if j = off then w else s.act j := by
  by_cases h : j = off
  · subst h; simp [State.act, State.wrAct]
  · simp only [h, if_false]; exact tget_tset_ne _ _ _ _ h
theorem State.tile_setTile (s : State) (t j : Nat) (x : Tile) : (s.setTile t x).tile j = if j = t then x else s.tile j := by
  simp [State.tile, State.setTile, tget_tset]
theorem State.seq_setSeq (s : State) (g j : Nat) (x : Seq) : (s.setSeq g x).seq j = if j = g then x else s.seq j := by
  simp [State.seq, State.setSeq, tget_tset]
theorem State.stream_setStream (s : State) (n j : Nat) (x : Stream) : (s.setStream n x).stream j = if j = n then x else s.stream j := by
  simp [State.stream, State.setStream, tget_tset]
theorem State.chan_setChan (s : State) (c j : Nat) (x : Chan) : (s.setChan c x).chan j = if j = c then x else s.chan j := by
  simp [State.chan, State.setChan, tget_tset]
theorem State.tm_setTm (s : State) (i j : Nat) (x : Tm) : (s.setTm i x).tm j = if j = i then x else s.tm j := by
  simp [State.tm, State.setTm, tget_tset]
theorem State.ferry_setFerry (s : State) (f j : Nat) (x : Ferry) : (s.setFerry f x).ferry j = if j = f then x else s.ferry j := by
  simp [State.ferry, State.setFerry, tget_tset]
theorem State.edge_setEdge (s : State) (e j : Nat) (x : EdgePort) : (s.setEdge e x).edge j = if j = e then x else s.edge j := by
  simp [State.edge, State.setEdge, tget_tset]
theorem State.link_setLink (s : State) (l j : Nat) (x : Cwy) : (s.setLink l x).link j = if j = l then x else s.link j := by
  simp [State.link, State.setLink, tget_tset]
theorem State.timer_setTimer (s : State) (k j : Nat) (x : Timer) : (s.setTimer k x).timer j = if j = k then x else s.timer j := by
  simp [State.timer, State.setTimer, tget_tset]
@[simp] theorem State.rd_setTile (s : State) (t j : Nat) (x : Tile) : (s.setTile t x).rd j = s.rd j := rfl
@[simp] theorem State.rd_setSeq (s : State) (t j : Nat) (x : Seq) : (s.setSeq t x).rd j = s.rd j := rfl
@[simp] theorem State.rd_setStream (s : State) (t j : Nat) (x : Stream) : (s.setStream t x).rd j = s.rd j := rfl
@[simp] theorem State.rd_setTm (s : State) (t j : Nat) (x : Tm) : (s.setTm t x).rd j = s.rd j := rfl
@[simp] theorem State.rd_setTimer (s : State) (t j : Nat) (x : Timer) : (s.setTimer t x).rd j = s.rd j := rfl
@[simp] theorem State.rd_emit (s : State) (o : Output) (j : Nat) : (s.emit o).rd j = s.rd j := rfl

/-! ### Fields -/

theorem nbits_lt (n lo len : Nat) : nbits n lo len < 2 ^ len := Nat.mod_lt _ (Nat.two_pow_pos len)

/-- A field put reads back. -/
theorem nbits_nput (n lo len v : Nat) : nbits (nput n lo len v) lo len = v % 2 ^ len := by
  have hp : 0 < 2 ^ lo := Nat.two_pow_pos lo
  have hl : 0 < 2 ^ len := Nat.two_pow_pos len
  unfold nput nbits
  set q := n / 2 ^ lo with hq
  have hle : q % 2 ^ len * 2 ^ lo ≤ n := by
    calc q % 2 ^ len * 2 ^ lo ≤ q * 2 ^ lo := Nat.mul_le_mul_right _ (Nat.mod_le _ _)
      _ ≤ n := Nat.div_mul_le_self _ _
  have hn : n - q % 2 ^ len * 2 ^ lo = (q / 2 ^ len * 2 ^ len) * 2 ^ lo + n % 2 ^ lo := by
    have h1 := Nat.div_add_mod n (2 ^ lo)
    have h2 := Nat.div_add_mod q (2 ^ len)
    rw [← hq] at h1
    have h3 : q * 2 ^ lo = (2 ^ len * (q / 2 ^ len)) * 2 ^ lo + q % 2 ^ len * 2 ^ lo := by
      rw [← Nat.add_mul, h2]
    have h4 : 2 ^ lo * q = q * 2 ^ lo := Nat.mul_comm _ _
    have h5 : q / 2 ^ len * 2 ^ len = 2 ^ len * (q / 2 ^ len) := Nat.mul_comm _ _
    rw [h5]; omega
  rw [hn]
  have h6 : (q / 2 ^ len * 2 ^ len * 2 ^ lo + n % 2 ^ lo + v % 2 ^ len * 2 ^ lo) / 2 ^ lo
      = q / 2 ^ len * 2 ^ len + v % 2 ^ len := by
    have : q / 2 ^ len * 2 ^ len * 2 ^ lo + n % 2 ^ lo + v % 2 ^ len * 2 ^ lo
        = n % 2 ^ lo + (q / 2 ^ len * 2 ^ len + v % 2 ^ len) * 2 ^ lo := by ring
    rw [this, Nat.add_mul_div_right _ _ hp, Nat.div_eq_of_lt (Nat.mod_lt _ hp), Nat.zero_add]
  rw [h6, Nat.add_comm, Nat.add_mul_mod_self_right, Nat.mod_mod]

end Sys2Proof.Machine
end

