-- ==== Sys2Proof/Laws/Memory.lean ====
section
/-! SUPPORT. Memories: what a read sees after a write, and that every memory operation keeps the canonical form. -/
namespace Sys2Proof.Machine

/-! ### Filters and tables -/

theorem twfFrom_filter {α : Type} [DecidableEq α] (d : α) (p : Nat × α → Bool) (t : Tab α) (lo : Nat)
    (w : twfFrom d lo t = true) : twfFrom d lo (t.filter p) = true := by
  induction t generalizing lo with
  | nil => rfl
  | cons q t ih =>
    obtain ⟨a, x⟩ := q
    simp only [twfFrom, Bool.and_eq_true, decide_eq_true_eq] at w
    by_cases hp : p (a, x) = true
    · simp only [List.filter_cons, hp, if_true, twfFrom, Bool.and_eq_true, decide_eq_true_eq]
      exact ⟨w.1, ih _ w.2⟩
    · simp only [List.filter_cons, hp]
      exact twfFrom_mono d (by omega) _ (ih (a + 1) w.2)

theorem each_keep {α σ : Type} (P : σ → Prop) (f : σ → α → σ) (hf : ∀ s x, P s → P (f s x)) (l : List α) (s : σ) (h : P s) :
    P (each l s f) := by
  unfold each
  induction l generalizing s with
  | nil => exact h
  | cons x l ih => exact ih _ (hf s x h)

theorem each_eq {α σ β : Type} (g : σ → β) (f : σ → α → σ) (hf : ∀ s x, g (f s x) = g s) (l : List α) (s : σ) :
    g (each l s f) = g s := by
  unfold each
  induction l generalizing s with
  | nil => rfl
  | cons x l ih => exact (ih _).trans (hf s x)

/-! ### Ram -/

theorem Ram.init_wf : Ram.init.wf = true := rfl

/-- A byte after a write: the byte written inside the range, the byte it held outside. -/
theorem Ram.byte_put (bs : List Byte) (r : Ram) (a b : Nat) :
    (r.put a bs).byte b = if a ≤ b ∧ b < a + bs.length then (bs[b - a]?).getD 0 else r.byte b := by
  induction bs generalizing r a with
  | nil =>
    rw [Ram.put, if_neg]
    simp only [List.length_nil]; omega
  | cons x bs ih =>
    rw [Ram.put, ih]
    simp only [Ram.byte, tget_tset, List.length_cons]
    by_cases h : b = a
    · subst h; simp
    · by_cases h1 : a + 1 ≤ b ∧ b < a + 1 + bs.length
      · have e : b - a = b - (a + 1) + 1 := by omega
        rw [if_pos h1, if_pos (by omega), e, List.getElem?_cons_succ]
      · rw [if_neg h1, if_neg h, if_neg (by omega)]

theorem Ram.put_wf (bs : List Byte) (r : Ram) (a : Nat) (h : r.wf = true) : (r.put a bs).wf = true := by
  induction bs generalizing r a with
  | nil => exact h
  | cons x bs ih =>
    refine ih _ _ ?_
    simp only [Ram.wf, Bool.and_eq_true] at h ⊢
    exact ⟨twf_tset _ _ _ _ h.1, h.2⟩

theorem Ram.mark_wf (r : Ram) (w : Nat) (e : Ecc) (h : r.wf = true) : (r.mark w e).wf = true := by
  simp only [Ram.wf, Ram.mark, Bool.and_eq_true] at h ⊢
  exact ⟨h.1, twf_tset _ _ _ _ h.2⟩

theorem Ram.byte_mark (r : Ram) (w : Nat) (e : Ecc) (b : Nat) : (r.mark w e).byte b = r.byte b := rfl

theorem Ram.write_wf (r : Ram) (a : Nat) (bs : List Byte) (psn : Bool) (h : r.wf = true) : (r.write a bs psn).wf = true := by
  unfold Ram.write
  exact each_keep (fun q => Ram.wf q = true) _ (fun q w hq => Ram.mark_wf q w _ hq) _ _ (Ram.put_wf bs r a h)

/-- A byte after a checked write: as after the plain write. -/
theorem Ram.byte_write (r : Ram) (a : Nat) (bs : List Byte) (psn : Bool) (b : Nat) :
    (r.write a bs psn).byte b = if a ≤ b ∧ b < a + bs.length then (bs[b - a]?).getD 0 else r.byte b := by
  unfold Ram.write
  exact (each_eq (fun q => Ram.byte q b) _ (fun q w => Ram.byte_mark q w _ b) _ _).trans (Ram.byte_put bs r a b)

/-! ### The three memories of the state -/

theorem reset_memory_wf : Memory.wf State.reset = true := rfl

/-- The canonical form looks at the two memories and host memory only. -/
theorem Memory.wf_congr {s t : State} (h1 : t.mem.basin = s.mem.basin) (h2 : t.mem.dram = s.mem.dram)
    (h3 : t.hostMem = s.hostMem) : Memory.wf t = Memory.wf s := by simp [Memory.wf, h1, h2, h3]

theorem count_mem (s : State) (off k : Nat) : (s.count off k).mem = s.mem := by unfold State.count; split <;> rfl
theorem count_hostMem (s : State) (off k : Nat) : (s.count off k).hostMem = s.hostMem := by unfold State.count; split <;> rfl
theorem setF_mem (s : State) (off lo len v : Nat) : (s.setF off lo len v).mem = s.mem := rfl
theorem setF_hostMem (s : State) (off lo len v : Nat) : (s.setF off lo len v).hostMem = s.hostMem := rfl

theorem count_memory_wf (s : State) (off k : Nat) : Memory.wf (s.count off k) = Memory.wf s :=
  Memory.wf_congr (by rw [count_mem]) (by rw [count_mem]) (count_hostMem s off k)

theorem addSat_mem (s : State) (off lo len k : Nat) : (s.addSat off lo len k).mem = s.mem := by unfold State.addSat; exact setF_mem _ _ _ _ _
theorem addSat_hostMem (s : State) (off lo len k : Nat) : (s.addSat off lo len k).hostMem = s.hostMem := by
  unfold State.addSat; exact setF_hostMem _ _ _ _ _
theorem basinErr_mem (s : State) (w : Nat) (ue : Bool) : (s.basinErr w ue).mem = s.mem := by unfold State.basinErr; exact addSat_mem _ _ _ _ _
theorem basinErr_hostMem (s : State) (w : Nat) (ue : Bool) : (s.basinErr w ue).hostMem = s.hostMem := by
  unfold State.basinErr; exact addSat_hostMem _ _ _ _ _
theorem dramErr_mem (s : State) (w : Nat) (ue : Bool) : (s.dramErr w ue).mem = s.mem := by
  unfold State.dramErr; exact (State.wr_mem _ _ _).trans (addSat_mem _ _ _ _ _)
theorem dramErr_hostMem (s : State) (w : Nat) (ue : Bool) : (s.dramErr w ue).hostMem = s.hostMem := by
  unfold State.dramErr; exact (State.wr_hostMem _ _ _).trans (addSat_hostMem _ _ _ _ _)

theorem basinErr_memory_wf (s : State) (w : Nat) (ue : Bool) : Memory.wf (s.basinErr w ue) = Memory.wf s :=
  Memory.wf_congr (by rw [basinErr_mem]) (by rw [basinErr_mem]) (basinErr_hostMem _ _ _)
theorem dramErr_memory_wf (s : State) (w : Nat) (ue : Bool) : Memory.wf (s.dramErr w ue) = Memory.wf s :=
  Memory.wf_congr (by rw [dramErr_mem]) (by rw [dramErr_mem]) (dramErr_hostMem _ _ _)

theorem basinSee_memory_wf (s : State) (a n : Nat) : Memory.wf (s.basinSee a n) = Memory.wf s := by
  unfold State.basinSee
  exact (each_eq (fun s => Memory.wf s) _ (fun s w => basinErr_memory_wf s w true) _ _).trans
    (each_eq (fun s => Memory.wf s) _ (fun s w => basinErr_memory_wf s w false) _ _)

theorem basinRead_memory_wf (s : State) (a n : Nat) : Memory.wf (s.basinRead a n).2 = Memory.wf s := by
  unfold State.basinRead State.basinRead1
  dsimp only
  split <;> simp [basinSee_memory_wf]

theorem basinWrite1_memory_wf (s : State) (a : Nat) (bs : List Byte) (psn : Bool) (h : Memory.wf s = true) :
    Memory.wf (s.basinWrite1 a bs psn).2 = true := by
  have hb : s.mem.basin.wf = true := by simp only [Memory.wf, Bool.and_eq_true] at h; exact h.1.1
  unfold State.basinWrite1
  dsimp only
  generalize hu : each (partWords a bs.length) s _ = u
  have hk : Memory.wf u = Memory.wf s := by
    rw [← hu]
    refine each_eq (fun s => Memory.wf s) _ (fun s w => ?_) _ _
    split
    · exact basinErr_memory_wf _ _ _
    · exact basinErr_memory_wf _ _ _
    · rfl
  have hw := Ram.write_wf s.mem.basin a bs psn hb
  rw [h] at hk
  simp only [Memory.wf, Bool.and_eq_true] at hk ⊢
  exact ⟨⟨hw, hk.1.2⟩, hk.2⟩

/-- A basin write keeps the canonical form. -/
theorem basinWrite_memory_wf (s : State) (a : Nat) (bs : List Byte) (psn : Bool) (h : Memory.wf s = true) :
    Memory.wf (s.basinWrite a bs psn).2 = true := by
  unfold State.basinWrite
  dsimp only
  split
  · exact basinWrite1_memory_wf _ _ _ _ h
  · exact basinWrite1_memory_wf _ _ _ _ (basinWrite1_memory_wf _ _ _ _ h)

/-- A host-memory write keeps the canonical form. -/
theorem hostWrite_memory_wf (s : State) (a : Nat) (bs : List Byte) (h : Memory.wf s = true) :
    Memory.wf (s.hostWrite a bs) = true := by
  simp only [Memory.wf, Bool.and_eq_true] at h ⊢
  have := Ram.put_wf bs ⟨s.hostMem, []⟩ a (by simp only [Ram.wf, h.2, Bool.true_and]; rfl)
  simp only [Ram.wf, Bool.and_eq_true] at this
  exact ⟨h.1, this.1⟩

/-- A zero-fill and the writes that met during it keep the canonical form. -/
theorem fillDone_memory_wf (f : Fill) (s : State) (h : Memory.wf s = true) : Memory.wf (fillDone f s) = true := by
  simp only [Memory.wf, Ram.wf, Bool.and_eq_true] at h
  unfold fillDone
  dsimp only
  generalize hu : each f.writes _ _ = u
  have hw : u.wf = true := by
    rw [← hu]
    refine each_keep (fun d => Ram.wf d = true) _ (fun d w hd => Ram.write_wf d _ _ _ hd) _ _ ?_
    simp only [Ram.wf, Bool.and_eq_true]
    exact ⟨twfFrom_filter _ _ _ _ h.1.2.1, twfFrom_filter _ _ _ _ h.1.2.2⟩
  simp only [Memory.wf, Ram.wf, Bool.and_eq_true] at hw ⊢
  exact ⟨⟨h.1.1, hw⟩, h.2⟩

theorem dramWritePage_memory_wf (a : Nat) (bs : List Byte) (psn : Bool) (s : State) (h : Memory.wf s = true) :
    Memory.wf (dramWritePage a bs psn s) = true := by
  have hc := count_memory_wf s (cMem 1) bs.length
  rw [h] at hc
  unfold dramWritePage
  dsimp only
  generalize s.count (cMem 1) bs.length = u at hc ⊢
  split
  · exact hc
  · split
    · have hd : u.mem.dram.wf = true := by simp only [Memory.wf, Bool.and_eq_true] at hc; exact hc.1.2
      have hw := Ram.write_wf u.mem.dram a bs psn hd
      simp only [Memory.wf, Bool.and_eq_true] at hc ⊢
      exact ⟨⟨hc.1.1, hw⟩, hc.2⟩
    · rw [← hc]
      exact Memory.wf_congr rfl rfl (count_hostMem u _ _)

/-- A DRAM write keeps the canonical form. -/
theorem dramWrite_memory_wf (s : State) (a : Nat) (bs : List Byte) (psn : Bool) (h : Memory.wf s = true) :
    Memory.wf (s.dramWrite a bs psn) = true := by
  unfold State.dramWrite
  exact each_keep (fun s => Memory.wf s = true) _ (fun s p hs => dramWritePage_memory_wf _ _ _ s hs) _ _ h

theorem dramReadPage_memory_wf (a n : Nat) (s : State) (h : Memory.wf s = true) :
    Memory.wf (dramReadPage a n s).2 = true := by
  unfold dramReadPage
  split
  · dsimp only
    generalize hu : each (s.mem.dram.marked .double a n) _ _ = u
    have hk : Memory.wf u = true := by
      rw [← hu]
      refine each_keep (fun s => Memory.wf s = true) _ (fun s w hs => (dramErr_memory_wf s w true).trans hs) _ _ ?_
      refine each_keep (fun s => Memory.wf s = true) _ (fun s w hs => (dramErr_memory_wf s w false).trans hs) _ _ ?_
      rw [count_memory_wf]; exact h
    have hd : u.mem.dram.wf = true := by simp only [Memory.wf, Bool.and_eq_true] at hk; exact hk.1.2
    have hw := each_keep (fun d => Ram.wf d = true) (fun d w => Ram.mark d w .clean) (fun d w hd => Ram.mark_wf d w _ hd)
      (s.mem.dram.marked .single a n) _ hd
    simp only [Memory.wf, Bool.and_eq_true] at hk ⊢
    exact ⟨⟨hk.1.1, hw⟩, hk.2⟩
  · rw [count_memory_wf]; exact h

/-- A DRAM read (which rewrites corrected words) keeps the canonical form. -/
theorem dramRead_memory_wf (s : State) (a n : Nat) (h : Memory.wf s = true) : Memory.wf (s.dramRead a n).2 = true := by
  unfold State.dramRead
  refine each_keep (fun (gs : Got × State) => Memory.wf gs.2 = true) _ ?_ _ _ h
  intro gs p hs
  have hp := dramReadPage_memory_wf p.1 p.2 gs.2 hs
  generalize dramReadPage p.1 p.2 gs.2 = r at hp ⊢
  exact hp

end Sys2Proof.Machine
end

