-- ==== Sys2Proof/Laws/Shape.lean ====
section
/-! SUPPORT. Every command answers by `done`, by `idle`, or with a stop: one lemma per meaning, and for exec. -/
namespace Sys2Proof.Machine

/-- A next state is `s` itself or what `signal` leaves. -/
def Shaped (s : State) (o : Host.Outcome State Fault Refusal) : Prop := ∀ t, o = .next t → t = s ∨ ∃ u, t = signal s u

theorem Shaped.done (s u : State) : Shaped s (done s u) := fun t h => Or.inr ⟨u, by cases h; rfl⟩
theorem Shaped.idle (s : State) : Shaped s (idle s) := fun t h => Or.inl (by cases h; rfl)
theorem Shaped.refused (s : State) (r : Refusal) : Shaped s (.refused r) := fun _ h => nomatch h
theorem Shaped.fault (s : State) (r : Fault) : Shaped s (.fault r) := fun _ h => nomatch h
theorem Shaped.ite {s : State} {c : Prop} [Decidable c] {a b : Host.Outcome State Fault Refusal} (ha : Shaped s a) (hb : Shaped s b) :
    Shaped s (if c then a else b) := by split <;> assumption
theorem Shaped.when_ (c : Bool) (s t : State) : Shaped s (when_ c s t) := Shaped.ite (Shaped.done s t) (Shaped.idle s)
theorem Shaped.hostRow (fn : Fn) (off v : Nat) (s t : State) : Shaped s (hostRow fn off v s t) :=
  Shaped.ite (Shaped.done _ _) (Shaped.ite (Shaped.idle _) (Shaped.done _ _))

theorem dspEvent_shape (t func : Nat) (s : State) (work : Dsp → State → Option State) : Shaped s (dspEvent t func s work) := by
  unfold dspEvent
  repeat' first
    | with_reducible exact Shaped.done _ _ | with_reducible exact Shaped.idle _
    | split | dsimp only

theorem fireOp_shape (t e op : Nat) (s : State) : Shaped s (fireOp t e op s) := by
  unfold fireOp
  repeat' first
    | with_reducible exact Shaped.done _ _ | with_reducible exact Shaped.idle _
    | split | dsimp only

theorem seqIssue_shape (g op : Nat) (legal : Nat → Bool) (key : Bool) (cp : Nat → Bool) (body : Nat → State → SeqRes) (s : State) : Shaped s (seqIssue g op legal key cp body s) := by
  unfold seqIssue
  repeat' first
    | with_reducible exact Shaped.done _ _ | with_reducible exact Shaped.idle _
    | split | dsimp only

theorem seqValue_shape (g op : Nat) (legal : Nat → Bool) (v : Nat → Seq → Word) (s : State) : Shaped s (seqValue g op legal v s) := seqIssue_shape _ _ _ _ _ _ _

theorem seqAlu_shape (g op : Nat) (f : Word → Word → Word) (s : State) : Shaped s (seqAlu g op f s) := seqValue_shape _ _ _ _ _

theorem seqBranch_shape (g op : Nat) (p : Word → Word → Bool) (s : State) : Shaped s (seqBranch g op p s) := by
  unfold seqBranch
  repeat' first
    | with_reducible exact seqIssue_shape _ _ _ _ _ _ _
    | split | dsimp only

theorem sqEntry_shape (n : Nat) (e : SqEntry) (s : State) : Shaped s (sqEntry n e s) := by
  unfold sqEntry
  repeat' first
    | with_reducible exact Shaped.when_ _ _ _
    | split | dsimp only

theorem execCqCoalesceTimer_shape (n : StreamIx) (s : State) : Shaped s (execCqCoalesceTimer n s) := Shaped.when_ _ _ _

theorem execCqHeadWrite_shape (fn : Fn) (n : StreamIx) (i : BitVec 12) (s : State) : Shaped s (execCqHeadWrite fn n i s) := by
  unfold execCqHeadWrite
  repeat' first
    | with_reducible exact Shaped.idle _ | with_reducible exact Shaped.refused _ _ | with_reducible exact Shaped.hostRow _ _ _ _ _
    | split | dsimp only

theorem execSqDoorbell_shape (fn : Fn) (n : StreamIx) (i : BitVec 12) (s : State) : Shaped s (execSqDoorbell fn n i s) := by
  unfold execSqDoorbell
  repeat' first
    | with_reducible exact Shaped.idle _ | with_reducible exact Shaped.refused _ _ | with_reducible exact Shaped.hostRow _ _ _ _ _
    | split | dsimp only

theorem execDispatchToken_shape (t : TileIx) (s : State) : Shaped s (execDispatchToken t s) := by
  unfold execDispatchToken
  repeat' first
    | with_reducible exact dspEvent_shape _ _ _ _
    | split | dsimp only

theorem execGatherToken_shape (t : TileIx) (s : State) : Shaped s (execGatherToken t s) := by
  unfold execGatherToken
  repeat' first
    | with_reducible exact dspEvent_shape _ _ _ _
    | split | dsimp only

theorem execLoopGateDecision_shape (t : TileIx) (s : State) : Shaped s (execLoopGateDecision t s) := by
  unfold execLoopGateDecision
  repeat' first
    | with_reducible exact dspEvent_shape _ _ _ _
    | split | dsimp only

theorem execLoopGateAdmit_shape (t : TileIx) (s : State) : Shaped s (execLoopGateAdmit t s) := by
  unfold execLoopGateAdmit
  repeat' first
    | with_reducible exact dspEvent_shape _ _ _ _
    | split | dsimp only

theorem execGroupTablePop_shape (t : TileIx) (s : State) : Shaped s (execGroupTablePop t s) := by
  unfold execGroupTablePop
  repeat' first
    | with_reducible exact Shaped.done _ _ | with_reducible exact Shaped.idle _
    | split | dsimp only

theorem execCommandStep_shape (t : TileIx) (e : Eng) (wk : Fin 4) (s : State) : Shaped s (execCommandStep t e wk s) := by
  unfold execCommandStep
  repeat' first
    | with_reducible exact Shaped.done _ _ | with_reducible exact Shaped.idle _
    | split | dsimp only

theorem execEngineCommandComplete_shape (t : TileIx) (e : Eng) (wk : Fin 4) (s : State) : Shaped s (execEngineCommandComplete t e wk s) := by
  unfold execEngineCommandComplete
  repeat' first
    | with_reducible exact Shaped.idle _ | with_reducible exact Shaped.when_ _ _ _
    | split | dsimp only

theorem execLdLdq_shape (t : TileIx) (s : State) : Shaped s (execLdLdq t s) := fireOp_shape _ _ _ _

theorem execLdLdw_shape (t : TileIx) (s : State) : Shaped s (execLdLdw t s) := fireOp_shape _ _ _ _

theorem execLdLdt_shape (t : TileIx) (s : State) : Shaped s (execLdLdt t s) := fireOp_shape _ _ _ _

theorem execStStq_shape (t : TileIx) (s : State) : Shaped s (execStStq t s) := fireOp_shape _ _ _ _

theorem execStStl_shape (t : TileIx) (s : State) : Shaped s (execStStl t s) := fireOp_shape _ _ _ _

theorem execVecAdd_shape (t : TileIx) (s : State) : Shaped s (execVecAdd t s) := fireOp_shape _ _ _ _

theorem execVecSub_shape (t : TileIx) (s : State) : Shaped s (execVecSub t s) := fireOp_shape _ _ _ _

theorem execVecMul_shape (t : TileIx) (s : State) : Shaped s (execVecMul t s) := fireOp_shape _ _ _ _

theorem execVecMax_shape (t : TileIx) (s : State) : Shaped s (execVecMax t s) := fireOp_shape _ _ _ _

theorem execVecMin_shape (t : TileIx) (s : State) : Shaped s (execVecMin t s) := fireOp_shape _ _ _ _

theorem execVecCmpgt_shape (t : TileIx) (s : State) : Shaped s (execVecCmpgt t s) := fireOp_shape _ _ _ _

theorem execVecSel_shape (t : TileIx) (s : State) : Shaped s (execVecSel t s) := fireOp_shape _ _ _ _

theorem execVecAbs_shape (t : TileIx) (s : State) : Shaped s (execVecAbs t s) := fireOp_shape _ _ _ _

theorem execVecShr_shape (t : TileIx) (s : State) : Shaped s (execVecShr t s) := fireOp_shape _ _ _ _

theorem execVecRq_shape (t : TileIx) (s : State) : Shaped s (execVecRq t s) := fireOp_shape _ _ _ _

theorem execVecAct_shape (t : TileIx) (s : State) : Shaped s (execVecAct t s) := fireOp_shape _ _ _ _

theorem execVecRsum_shape (t : TileIx) (s : State) : Shaped s (execVecRsum t s) := fireOp_shape _ _ _ _

theorem execVecRmax_shape (t : TileIx) (s : State) : Shaped s (execVecRmax t s) := fireOp_shape _ _ _ _

theorem execVecCvt_shape (t : TileIx) (s : State) : Shaped s (execVecCvt t s) := fireOp_shape _ _ _ _

theorem execVecAnd_shape (t : TileIx) (s : State) : Shaped s (execVecAnd t s) := fireOp_shape _ _ _ _

theorem execVecOr_shape (t : TileIx) (s : State) : Shaped s (execVecOr t s) := fireOp_shape _ _ _ _

theorem execVecXor_shape (t : TileIx) (s : State) : Shaped s (execVecXor t s) := fireOp_shape _ _ _ _

theorem execVecMov_shape (t : TileIx) (s : State) : Shaped s (execVecMov t s) := fireOp_shape _ _ _ _

theorem execMatWload_shape (t : TileIx) (s : State) : Shaped s (execMatWload t s) := fireOp_shape _ _ _ _

theorem execMatMma_shape (t : TileIx) (s : State) : Shaped s (execMatMma t s) := fireOp_shape _ _ _ _

theorem execMatDmma_shape (t : TileIx) (s : State) : Shaped s (execMatDmma t s) := fireOp_shape _ _ _ _

theorem execMatRead_shape (t : TileIx) (s : State) : Shaped s (execMatRead t s) := fireOp_shape _ _ _ _

theorem execMatClr_shape (t : TileIx) (s : State) : Shaped s (execMatClr t s) := fireOp_shape _ _ _ _

theorem execCreditReturn_shape (k : Nat) (s : State) : Shaped s (execCreditReturn k s) := by
  unfold execCreditReturn
  repeat' first
    | with_reducible exact Shaped.done _ _ | with_reducible exact Shaped.idle _
    | split | dsimp only

theorem execLinkEntryArrive_shape (t : TileIx) (d : Fin 4) (s : State) : Shaped s (execLinkEntryArrive t d s) := by
  unfold execLinkEntryArrive
  repeat' first
    | with_reducible exact Shaped.idle _ | with_reducible exact Shaped.when_ _ _ _
    | split | dsimp only

theorem execLinkSend_shape (t : TileIx) (d : Fin 4) (k : Fin 15) (s : State) : Shaped s (execLinkSend t d k s) := Shaped.done _ _

theorem execBoundaryLaneMove_shape (t : TileIx) (d : Fin 4) (lane : Fin 15) (s : State) : Shaped s (execBoundaryLaneMove t d lane s) := by
  unfold execBoundaryLaneMove
  repeat' first
    | with_reducible exact Shaped.idle _ | with_reducible exact Shaped.when_ _ _ _
    | split | dsimp only

theorem execManagementPacketHop_shape (t : TileIx) (d : Fin 4) (s : State) : Shaped s (execManagementPacketHop t d s) := by
  unfold execManagementPacketHop
  repeat' first
    | with_reducible exact Shaped.done _ _ | with_reducible exact Shaped.idle _
    | split | dsimp only

theorem execUndertowStuck_shape (grp : Fin 16) (s : State) : Shaped s (execUndertowStuck grp s) := by
  unfold execUndertowStuck
  repeat' first
    | with_reducible exact Shaped.done _ _ | with_reducible exact Shaped.idle _
    | split | dsimp only

theorem execUndertowSpillComplete_shape (grp : Fin 16) (s : State) : Shaped s (execUndertowSpillComplete grp s) := by
  unfold execUndertowSpillComplete
  repeat' first
    | with_reducible exact Shaped.when_ _ _ _
    | split | dsimp only

theorem execUndertowRefill_shape (t : TileIx) (q : Fin 8) (s : State) : Shaped s (execUndertowRefill t q s) := by
  unfold execUndertowRefill
  repeat' first
    | with_reducible exact Shaped.done _ _ | with_reducible exact Shaped.idle _
    | split | dsimp only

theorem execOutPortRecordWrite_shape (e : Fin 40) (s : State) : Shaped s (execOutPortRecordWrite e s) := by
  unfold execOutPortRecordWrite
  repeat' first
    | with_reducible exact Shaped.done _ _ | with_reducible exact Shaped.idle _
    | split | dsimp only

theorem execInPortRecordSend_shape (e : Fin 40) (s : State) : Shaped s (execInPortRecordSend e s) := by
  unfold execInPortRecordSend
  repeat' first
    | with_reducible exact Shaped.done _ _ | with_reducible exact Shaped.idle _
    | split | dsimp only

theorem execSeqFkick_shape (g : RegionIx) (s : State) : Shaped s (execSeqFkick g s) := by
  unfold execSeqFkick
  repeat' first
    | with_reducible exact seqIssue_shape _ _ _ _ _ _ _
    | split | dsimp only

theorem execFerryBlockStart_shape (f : FerryIx) (s : State) : Shaped s (execFerryBlockStart f s) := by
  unfold execFerryBlockStart
  repeat' first
    | with_reducible exact Shaped.done _ _ | with_reducible exact Shaped.idle _
    | split | dsimp only

theorem execDramReadPortPick_shape (s : State) : Shaped s (execDramReadPortPick s) := by
  unfold execDramReadPortPick
  repeat' first
    | with_reducible exact Shaped.done _ _ | with_reducible exact Shaped.idle _
    | split | dsimp only

theorem execFerryReadComplete_shape (f : FerryIx) (host : HostReply) (s : State) : Shaped s (execFerryReadComplete f host s) := by
  unfold execFerryReadComplete
  repeat' first
    | with_reducible exact Shaped.done _ _ | with_reducible exact Shaped.idle _ | with_reducible exact Shaped.refused _ _
    | split | dsimp only

theorem execFerryWrite_shape (f : FerryIx) (host : HostReply) (s : State) : Shaped s (execFerryWrite f host s) := by
  unfold execFerryWrite
  repeat' first
    | with_reducible exact Shaped.done _ _ | with_reducible exact Shaped.idle _
    | split | dsimp only

theorem execFerryBlockComplete_shape (f : FerryIx) (s : State) : Shaped s (execFerryBlockComplete f s) := by
  unfold execFerryBlockComplete
  repeat' first
    | with_reducible exact Shaped.done _ _ | with_reducible exact Shaped.idle _
    | split | dsimp only

theorem execFinalTokenPop_shape (y : Fin 20) (s : State) : Shaped s (execFinalTokenPop y s) := by
  unfold execFinalTokenPop
  repeat' first
    | with_reducible exact Shaped.done _ _ | with_reducible exact Shaped.idle _
    | split | dsimp only

theorem execGateSlotRelease_shape (n : StreamIx) (s : State) : Shaped s (execGateSlotRelease n s) := by
  unfold execGateSlotRelease
  repeat' first
    | with_reducible exact Shaped.idle _ | with_reducible exact Shaped.when_ _ _ _
    | split | dsimp only

theorem execKeelActionDecision_shape (s : State) : Shaped s (execKeelActionDecision s) := by
  unfold execKeelActionDecision
  repeat' first
    | with_reducible exact Shaped.done _ _ | with_reducible exact Shaped.idle _
    | split | dsimp only

theorem execVerdictRecordWrite_shape (n : StreamIx) (s : State) : Shaped s (execVerdictRecordWrite n s) := by
  unfold execVerdictRecordWrite
  repeat' first
    | with_reducible exact Shaped.done _ _ | with_reducible exact Shaped.idle _
    | split | dsimp only

theorem execDeadlineReached_shape (tm : Fin 64) (s : State) : Shaped s (execDeadlineReached tm s) := by
  unfold execDeadlineReached
  repeat' first
    | with_reducible exact Shaped.done _ _ | with_reducible exact Shaped.idle _
    | split | dsimp only

theorem execLateReceive_shape (s : State) : Shaped s (execLateReceive s) := by
  unfold execLateReceive
  repeat' first
    | with_reducible exact Shaped.done _ _ | with_reducible exact Shaped.idle _
    | split | dsimp only

theorem execRegisterWrite_shape (fn : Fn) (off width : Nat) (data : DWord) (s : State) : Shaped s (execRegisterWrite fn off width data s) := by
  unfold execRegisterWrite
  repeat' first
    | with_reducible exact Shaped.done _ _ | with_reducible exact Shaped.refused _ _ | with_reducible exact Shaped.fault _ _
    | split | dsimp only

theorem execCounterLowRead_shape (fn : Fn) (off : Nat) (s : State) : Shaped s (execCounterLowRead fn off s) := by
  unfold execCounterLowRead
  repeat' first
    | with_reducible exact Shaped.done _ _ | with_reducible exact Shaped.refused _ _ | with_reducible exact Shaped.fault _ _
    | split | dsimp only

theorem execAccessTimeout_shape (fn : Fn) (off : Nat) (s : State) : Shaped s (execAccessTimeout fn off s) := by
  unfold execAccessTimeout
  repeat' first
    | with_reducible exact Shaped.refused _ _ | with_reducible exact Shaped.fault _ _ | with_reducible exact Shaped.when_ _ _ _
    | split | dsimp only

theorem execGlobalStatusClear_shape (v : Word) (s : State) : Shaped s (execGlobalStatusClear v s) := Shaped.done _ _

theorem execGlobalIntMaskWrite_shape (v : Word) (s : State) : Shaped s (execGlobalIntMaskWrite v s) := Shaped.done _ _

theorem execHostWindowBAccess_shape (a : HostAccess) (s : State) : Shaped s (execHostWindowBAccess a s) := by
  unfold execHostWindowBAccess
  repeat' first
    | with_reducible exact Shaped.done _ _ | with_reducible exact Shaped.refused _ _ | with_reducible exact Shaped.fault _ _ | with_reducible exact Shaped.when_ _ _ _
    | split | dsimp only

theorem execHostWindowCAccess_shape (a : HostAccess) (s : State) : Shaped s (execHostWindowCAccess a s) := by
  unfold execHostWindowCAccess
  repeat' first
    | with_reducible exact Shaped.done _ _ | with_reducible exact Shaped.refused _ _ | with_reducible exact Shaped.fault _ _ | with_reducible exact Shaped.when_ _ _ _
    | split | dsimp only

theorem execFerryKick_shape (fn : Fn) (f : FerryIx) (list : BitVec 21) (s : State) : Shaped s (execFerryKick fn f list s) := by
  unfold execFerryKick
  repeat' first
    | with_reducible exact Shaped.idle _ | with_reducible exact Shaped.refused _ _ | with_reducible exact Shaped.hostRow _ _ _ _ _
    | split | dsimp only

theorem execDozeWakeComplete_shape (s : State) : Shaped s (execDozeWakeComplete s) := by
  unfold execDozeWakeComplete
  repeat' first
    | with_reducible exact Shaped.done _ _ | with_reducible exact Shaped.idle _
    | split | dsimp only

theorem execSmbusKeelWrite_shape (off : Nat) (v : Word) (s : State) : Shaped s (execSmbusKeelWrite off v s) := Shaped.when_ _ _ _

theorem execHeldFrameAdmit_shape (c : ChanIx) (s : State) : Shaped s (execHeldFrameAdmit c s) := by
  unfold execHeldFrameAdmit
  repeat' first
    | with_reducible exact Shaped.done _ _ | with_reducible exact Shaped.idle _
    | split | dsimp only

theorem execWestEdgeRowSend_shape (c : ChanIx) (s : State) : Shaped s (execWestEdgeRowSend c s) := Shaped.when_ _ _ _

theorem execIngestChannelStart_shape (c : ChanIx) (s : State) : Shaped s (execIngestChannelStart c s) := Shaped.hostRow _ _ _ _ _

theorem execIngestChannelStop_shape (c : ChanIx) (s : State) : Shaped s (execIngestChannelStop c s) := Shaped.hostRow _ _ _ _ _

theorem execHostpathRxHeadWrite_shape (p : Fin 10) (i : BitVec 12) (s : State) : Shaped s (execHostpathRxHeadWrite p i s) := Shaped.hostRow _ _ _ _ _

theorem execHostpathTxDoorbell_shape (p : Fin 10) (i : BitVec 12) (s : State) : Shaped s (execHostpathTxDoorbell p i s) := Shaped.hostRow _ _ _ _ _

theorem execHostpathTxSend_shape (p : Fin 10) (s : State) : Shaped s (execHostpathTxSend p s) := by
  unfold execHostpathTxSend
  repeat' first
    | with_reducible exact Shaped.done _ _ | with_reducible exact Shaped.idle _
    | split | dsimp only

theorem execCxpPacketReceive_shape (l : Fin 8) (p : CxpPacket) (s : State) : Shaped s (execCxpPacketReceive l p s) := by
  unfold execCxpPacketReceive
  repeat' first
    | with_reducible exact Shaped.done _ _ | with_reducible exact Shaped.idle _
    | split | dsimp only

theorem execEthFrameReceive_shape (p : Fin 2) (f : EthFrame) (s : State) : Shaped s (execEthFrameReceive p f s) := by
  unfold execEthFrameReceive
  repeat' first
    | with_reducible exact Shaped.done _ _ | with_reducible exact Shaped.when_ _ _ _
    | split | dsimp only

theorem execResendWaitExpiry_shape (c : ChanIx) (s : State) : Shaped s (execResendWaitExpiry c s) := by
  unfold execResendWaitExpiry
  repeat' first
    | with_reducible exact Shaped.idle _ | with_reducible exact Shaped.when_ _ _ _
    | split | dsimp only

theorem execSourceLinkUp_shape (src : Source) (s : State) : Shaped s (execSourceLinkUp src s) := by
  unfold execSourceLinkUp
  repeat' first
    | with_reducible exact Shaped.when_ _ _ _
    | split | dsimp only

theorem execSourceLinkDown_shape (src : Source) (s : State) : Shaped s (execSourceLinkDown src s) := by
  unfold execSourceLinkDown
  repeat' first
    | with_reducible exact Shaped.done _ _
    | split | dsimp only

theorem execLayoutInstall_shape (k : Fin 8) (s : State) : Shaped s (execLayoutInstall k s) := by
  unfold execLayoutInstall
  repeat' first
    | with_reducible exact Shaped.hostRow _ _ _ _ _
    | split | dsimp only

theorem execLayoutEvict_shape (k : Fin 8) (s : State) : Shaped s (execLayoutEvict k s) := by
  unfold execLayoutEvict
  repeat' first
    | with_reducible exact Shaped.hostRow _ _ _ _ _
    | split | dsimp only

theorem execLayoutInstallComplete_shape (p : Sections) (s : State) : Shaped s (execLayoutInstallComplete p s) := by
  unfold execLayoutInstallComplete
  repeat' first
    | with_reducible exact Shaped.done _ _ | with_reducible exact Shaped.idle _
    | split | dsimp only

theorem execStagingComplete_shape (k : Fin 8) (s : State) : Shaped s (execStagingComplete k s) := Shaped.when_ _ _ _

theorem execBasinPatrolScrub_shape (bank : Fin 16) (s : State) : Shaped s (execBasinPatrolScrub bank s) := Shaped.done _ _

theorem execBasinForcedScrub_shape (bank : Fin 16) (s : State) : Shaped s (execBasinForcedScrub bank s) := by
  unfold execBasinForcedScrub
  repeat' first
    | with_reducible exact Shaped.when_ _ _ _
    | split | dsimp only

theorem execDramRefresh_shape (s : State) : Shaped s (execDramRefresh s) := by
  unfold execDramRefresh
  repeat' first
    | with_reducible exact Shaped.when_ _ _ _
    | split | dsimp only

theorem execRetrainingDue_shape (s : State) : Shaped s (execRetrainingDue s) := Shaped.when_ _ _ _

theorem execDramRetrain_shape (s : State) : Shaped s (execDramRetrain s) := Shaped.when_ _ _ _

theorem execForcedRetraining_shape (s : State) : Shaped s (execForcedRetraining s) := Shaped.when_ _ _ _

theorem execDramRetrainComplete_shape (s : State) : Shaped s (execDramRetrainComplete s) := by
  unfold execDramRetrainComplete
  repeat' first
    | with_reducible exact Shaped.when_ _ _ _
    | split | dsimp only

theorem execDramPatrolScrub_shape (s : State) : Shaped s (execDramPatrolScrub s) := by
  unfold execDramPatrolScrub
  repeat' first
    | with_reducible exact Shaped.done _ _ | with_reducible exact Shaped.idle _
    | split | dsimp only

theorem execZeroFillComplete_shape (k : Nat) (s : State) : Shaped s (execZeroFillComplete k s) := by
  unfold execZeroFillComplete
  repeat' first
    | with_reducible exact Shaped.idle _ | with_reducible exact Shaped.when_ _ _ _
    | split | dsimp only

theorem execMemUntouch_shape (v : Word) (s : State) : Shaped s (execMemUntouch v s) := Shaped.hostRow _ _ _ _ _

theorem execMemUntouchDone_shape (s : State) : Shaped s (execMemUntouchDone s) := by
  unfold execMemUntouchDone
  repeat' first
    | with_reducible exact Shaped.done _ _ | with_reducible exact Shaped.idle _
    | split | dsimp only

theorem execObsClr_shape (s : State) : Shaped s (execObsClr s) := by
  unfold execObsClr
  repeat' first
    | with_reducible exact Shaped.hostRow _ _ _ _ _
    | split | dsimp only

theorem execObsFreeze_shape (s : State) : Shaped s (execObsFreeze s) := by
  unfold execObsFreeze
  repeat' first
    | with_reducible exact Shaped.hostRow _ _ _ _ _
    | split | dsimp only

theorem execObsUnfreeze_shape (s : State) : Shaped s (execObsUnfreeze s) := by
  unfold execObsUnfreeze
  repeat' first
    | with_reducible exact Shaped.hostRow _ _ _ _ _
    | split | dsimp only

theorem execTelemetrySample_shape (s : State) : Shaped s (execTelemetrySample s) := by
  unfold execTelemetrySample
  repeat' first
    | with_reducible exact Shaped.done _ _ | with_reducible exact Shaped.idle _
    | split | dsimp only

theorem execScanOut_shape (g : RegionIx) (s : State) : Shaped s (execScanOut g s) := Shaped.hostRow _ _ _ _ _

theorem execTileDebugHalt_shape (t : TileIx) (s : State) : Shaped s (execTileDebugHalt t s) := by
  unfold execTileDebugHalt
  repeat' first
    | with_reducible exact Shaped.hostRow _ _ _ _ _
    | split | dsimp only

theorem execTileDebugStep_shape (t : TileIx) (s : State) : Shaped s (execTileDebugStep t s) := by
  unfold execTileDebugStep
  repeat' first
    | with_reducible exact Shaped.hostRow _ _ _ _ _
    | split | dsimp only

theorem execSeqDebugHalt_shape (g : RegionIx) (s : State) : Shaped s (execSeqDebugHalt g s) := by
  unfold execSeqDebugHalt
  repeat' first
    | with_reducible exact Shaped.hostRow _ _ _ _ _
    | split | dsimp only

theorem execSeqDebugStep_shape (g : RegionIx) (s : State) : Shaped s (execSeqDebugStep g s) := by
  unfold execSeqDebugStep
  repeat' first
    | with_reducible exact Shaped.hostRow _ _ _ _ _
    | split | dsimp only

theorem execDebugUnlock_shape (s : State) : Shaped s (execDebugUnlock s) := Shaped.hostRow _ _ _ _ _

theorem execDebugRelock_shape (s : State) : Shaped s (execDebugRelock s) := Shaped.hostRow _ _ _ _ _

theorem execBistStart_shape (targets : BitVec 3) (s : State) : Shaped s (execBistStart targets s) := Shaped.hostRow _ _ _ _ _

theorem execBistComplete_shape (regions : BitVec 25) (banks : BitVec 16) (s : State) : Shaped s (execBistComplete regions banks s) := by
  unfold execBistComplete
  repeat' first
    | with_reducible exact Shaped.done _ _ | with_reducible exact Shaped.idle _
    | split | dsimp only

theorem execFabricLoopback_shape (t : TileIx) (dir depth : BitVec 2) (s : State) : Shaped s (execFabricLoopback t dir depth s) := Shaped.hostRow _ _ _ _ _

theorem execTapBypass_shape (s : State) : Shaped s (execTapBypass s) := Shaped.done _ _

theorem execTapIdcode_shape (s : State) : Shaped s (execTapIdcode s) := Shaped.done _ _

theorem execTapSamplePreload_shape (load : BitVec 44) (s : State) : Shaped s (execTapSamplePreload load s) := by
  unfold execTapSamplePreload
  repeat' first
    | with_reducible exact Shaped.done _ _
    | split | dsimp only

theorem execTapExtest_shape (s : State) : Shaped s (execTapExtest s) := Shaped.done _ _

theorem execTapClamp_shape (s : State) : Shaped s (execTapClamp s) := by
  unfold execTapClamp
  repeat' first
    | with_reducible exact Shaped.done _ _
    | split | dsimp only

theorem execTapHighz_shape (s : State) : Shaped s (execTapHighz s) := by
  unfold execTapHighz
  repeat' first
    | with_reducible exact Shaped.done _ _
    | split | dsimp only

theorem execTapExtestPulse_shape (s : State) : Shaped s (execTapExtestPulse s) := Shaped.done _ _

theorem execTapExtestTrain_shape (s : State) : Shaped s (execTapExtestTrain s) := Shaped.done _ _

theorem execSupplySwitchOver_shape (mv : BitVec 16) (s : State) : Shaped s (execSupplySwitchOver mv s) := Shaped.when_ _ _ _

theorem execEbbHoldEnd_shape (why : EbbEnd) (s : State) : Shaped s (execEbbHoldEnd why s) := by
  unfold execEbbHoldEnd
  repeat' first
    | with_reducible exact Shaped.done _ _ | with_reducible exact Shaped.idle _ | with_reducible exact Shaped.when_ _ _ _
    | split | dsimp only

theorem execRailRemoval_shape (s : State) : Shaped s (execRailRemoval s) := by
  unfold execRailRemoval
  repeat' first
    | with_reducible exact Shaped.when_ _ _ _
    | split | dsimp only

theorem execReturnToMain_shape (s : State) : Shaped s (execReturnToMain s) := Shaped.when_ _ _ _

theorem execVbakLow_shape (mv : BitVec 16) (s : State) : Shaped s (execVbakLow mv s) := Shaped.when_ _ _ _

theorem execVbakExhausted_shape (s : State) : Shaped s (execVbakExhausted s) := Shaped.when_ _ _ _

theorem execRailPgLoss_shape (k : Fin 4) (s : State) : Shaped s (execRailPgLoss k s) := Shaped.when_ _ _ _

theorem execVpressUndervoltage_shape (mv : BitVec 16) (s : State) : Shaped s (execVpressUndervoltage mv s) := Shaped.when_ _ _ _

theorem execPorRelease_shape (smb : BitVec 2) (s : State) : Shaped s (execPorRelease smb s) := by
  unfold execPorRelease
  repeat' first
    | with_reducible exact Shaped.done _ _
    | split | dsimp only

theorem execFirmwareVerified_shape (okA okB : Bool) (fw : Word) (s : State) : Shaped s (execFirmwareVerified okA okB fw s) := by
  unfold execFirmwareVerified
  repeat' first
    | with_reducible exact Shaped.done _ _ | with_reducible exact Shaped.idle _
    | split | dsimp only

theorem execRstNRise_shape (s : State) : Shaped s (execRstNRise s) := by
  unfold execRstNRise
  repeat' first
    | with_reducible exact Shaped.when_ _ _ _
    | split | dsimp only

theorem execKeelFirmwareReady_shape (s : State) : Shaped s (execKeelFirmwareReady s) := by
  unfold execKeelFirmwareReady
  repeat' first
    | with_reducible exact Shaped.done _ _ | with_reducible exact Shaped.idle _
    | split | dsimp only

theorem execRailPowerGood_shape (k : Fin 4) (s : State) : Shaped s (execRailPowerGood k s) := by
  unfold execRailPowerGood
  repeat' first
    | with_reducible exact Shaped.done _ _ | with_reducible exact Shaped.idle _
    | split | dsimp only

theorem execRailPgTimeout_shape (k : Fin 4) (s : State) : Shaped s (execRailPgTimeout k s) := Shaped.when_ _ _ _

theorem execPllLock_shape (s : State) : Shaped s (execPllLock s) := Shaped.when_ _ _ _

theorem execBootScrubComplete_shape (s : State) : Shaped s (execBootScrubComplete s) := Shaped.when_ _ _ _

theorem execDramTrainingComplete_shape (pol : BootPolicy) (s : State) : Shaped s (execDramTrainingComplete pol s) := by
  unfold execDramTrainingComplete
  repeat' first
    | with_reducible exact Shaped.done _ _ | with_reducible exact Shaped.idle _
    | split | dsimp only

theorem execPwrTargetDoze_shape (s : State) : Shaped s (execPwrTargetDoze s) := Shaped.done _ _

theorem execPwrTargetKeel_shape (s : State) : Shaped s (execPwrTargetKeel s) := Shaped.done _ _

theorem execPwrTargetRun_shape (s : State) : Shaped s (execPwrTargetRun s) := Shaped.done _ _

theorem execPowerStateReached_shape (s : State) : Shaped s (execPowerStateReached s) := by
  unfold execPowerStateReached
  repeat' first
    | with_reducible exact Shaped.done _ _ | with_reducible exact Shaped.idle _
    | split | dsimp only

theorem execWakePin_shape (s : State) : Shaped s (execWakePin s) := Shaped.when_ _ _ _

theorem execSmbusWake_shape (s : State) : Shaped s (execSmbusWake s) := Shaped.when_ _ _ _

theorem execRtcAlarm_shape (s : State) : Shaped s (execRtcAlarm s) := by
  unfold execRtcAlarm
  repeat' first
    | with_reducible exact Shaped.done _ _
    | split | dsimp only

theorem execRegionArmedEntry_shape (g : RegionIx) (s : State) : Shaped s (execRegionArmedEntry g s) := by
  unfold execRegionArmedEntry
  repeat' first
    | with_reducible exact Shaped.when_ _ _ _
    | split | dsimp only

theorem execRefclkLoss_shape (s : State) : Shaped s (execRefclkLoss s) := by
  unfold execRefclkLoss
  repeat' first
    | with_reducible exact Shaped.done _ _ | with_reducible exact Shaped.idle _
    | split | dsimp only

theorem execHkFallback_shape (s : State) : Shaped s (execHkFallback s) := Shaped.when_ _ _ _

theorem execHkRestore_shape (s : State) : Shaped s (execHkRestore s) := Shaped.when_ _ _ _

theorem execKtimeStep_shape (v : Word) (s : State) : Shaped s (execKtimeStep v s) := Shaped.done _ _

theorem execThermalWarn_shape (sensor : Fin 27) (temp : BitVec 10) (s : State) : Shaped s (execThermalWarn sensor temp s) := Shaped.done _ _

theorem execThermalThrottle_shape (sensor : Fin 27) (temp : BitVec 10) (s : State) : Shaped s (execThermalThrottle sensor temp s) := Shaped.done _ _

theorem execThermalTrip_shape (sensor : Fin 27) (temp : BitVec 10) (s : State) : Shaped s (execThermalTrip sensor temp s) := Shaped.done _ _

theorem execThrottleEnd_shape (cool : List (BitVec 10)) (s : State) : Shaped s (execThrottleEnd cool s) := by
  unfold execThrottleEnd
  repeat' first
    | with_reducible exact Shaped.done _ _ | with_reducible exact Shaped.refused _ _
    | split | dsimp only

theorem execThermalCalibration_shape (s : State) : Shaped s (execThermalCalibration s) := Shaped.done _ _

theorem execWarmReset_shape (s : State) : Shaped s (execWarmReset s) := Shaped.done _ _

theorem execWarmResetPin_shape (s : State) : Shaped s (execWarmResetPin s) := by
  unfold execWarmResetPin
  repeat' first
    | with_reducible exact Shaped.done _ _
    | split | dsimp only

theorem execPerstN_shape (s : State) : Shaped s (execPerstN s) := Shaped.done _ _

theorem execFabricReset_shape (s : State) : Shaped s (execFabricReset s) := Shaped.done _ _

theorem execFabricResetComplete_shape (s : State) : Shaped s (execFabricResetComplete s) := by
  unfold execFabricResetComplete
  repeat' first
    | with_reducible exact Shaped.done _ _ | with_reducible exact Shaped.idle _
    | split | dsimp only

theorem execRegionReset_shape (g : RegionIx) (s : State) : Shaped s (execRegionReset g s) := Shaped.hostRow _ _ _ _ _

theorem execKeystoreLoad_shape (v : Word) (s : State) : Shaped s (execKeystoreLoad v s) := Shaped.done _ _

theorem execKeystoreClear_shape (v : Word) (s : State) : Shaped s (execKeystoreClear v s) := Shaped.done _ _

theorem execKeystoreLock_shape (v : Word) (s : State) : Shaped s (execKeystoreLock v s) := Shaped.done _ _

theorem execTriggerEdge_shape (i : Fin 16) (rising : Bool) (s : State) : Shaped s (execTriggerEdge i rising s) := by
  unfold execTriggerEdge
  repeat' first
    | with_reducible exact Shaped.done _ _
    | split | dsimp only

theorem execEncoderTransition_shape (e : Fin 4) (a b : Bool) (s : State) : Shaped s (execEncoderTransition e a b s) := by
  unfold execEncoderTransition
  repeat' first
    | with_reducible exact Shaped.done _ _
    | split | dsimp only

theorem execEncoderIndex_shape (e : Fin 4) (s : State) : Shaped s (execEncoderIndex e s) := by
  unfold execEncoderIndex
  repeat' first
    | with_reducible exact Shaped.done _ _
    | split | dsimp only

theorem execEncCtlWrite_shape (e : Fin 4) (v : Word) (s : State) : Shaped s (execEncCtlWrite e v s) := Shaped.done _ _

theorem execDistanceTimerFire_shape (tm : Fin 64) (s : State) : Shaped s (execDistanceTimerFire tm s) := Shaped.when_ _ _ _

theorem execPulseEnd_shape (tm : Fin 64) (s : State) : Shaped s (execPulseEnd tm s) := by
  unfold execPulseEnd
  repeat' first
    | with_reducible exact Shaped.when_ _ _ _
    | split | dsimp only

theorem execIntervalTimerExpiry_shape (k : Fin 32) (s : State) : Shaped s (execIntervalTimerExpiry k s) := by
  unfold execIntervalTimerExpiry
  repeat' first
    | with_reducible exact Shaped.done _ _ | with_reducible exact Shaped.idle _
    | split | dsimp only

theorem execPressEnable_shape (s : State) : Shaped s (execPressEnable s) := Shaped.done _ _

theorem execPressDisable_shape (s : State) : Shaped s (execPressDisable s) := Shaped.done _ _

theorem execTriggerPacketSend_shape (l : Fin 8) (s : State) : Shaped s (execTriggerPacketSend l s) := Shaped.when_ _ _ _

theorem execDrainPoint_shape (n : StreamIx) (s : State) : Shaped s (execDrainPoint n s) := by
  unfold execDrainPoint
  repeat' first
    | with_reducible exact Shaped.idle _ | with_reducible exact Shaped.when_ _ _ _
    | split | dsimp only

theorem execDrainComplete_shape (n : StreamIx) (s : State) : Shaped s (execDrainComplete n s) := Shaped.when_ _ _ _

theorem execScanOutComplete_shape (g : RegionIx) (s : State) : Shaped s (execScanOutComplete g s) := by
  unfold execScanOutComplete
  repeat' first
    | with_reducible exact Shaped.when_ _ _ _
    | split | dsimp only

theorem execScanInComplete_shape (g : RegionIx) (s : State) : Shaped s (execScanInComplete g s) := Shaped.when_ _ _ _

theorem execRegionRecover_shape (g : RegionIx) (s : State) : Shaped s (execRegionRecover g s) := Shaped.hostRow _ _ _ _ _

theorem execRecoveryStepTimeout_shape (g : RegionIx) (s : State) : Shaped s (execRecoveryStepTimeout g s) := by
  unfold execRecoveryStepTimeout
  repeat' first
    | with_reducible exact Shaped.when_ _ _ _
    | split | dsimp only

theorem execFaultHeadWrite_shape (fn : Fn) (n : StreamIx) (v : Word) (s : State) : Shaped s (execFaultHeadWrite fn n v s) := by
  unfold execFaultHeadWrite
  repeat' first
    | with_reducible exact Shaped.idle _ | with_reducible exact Shaped.refused _ _ | with_reducible exact Shaped.hostRow _ _ _ _ _
    | split | dsimp only

theorem execFlogHeadWrite_shape (v : Word) (s : State) : Shaped s (execFlogHeadWrite v s) := Shaped.done _ _

theorem execFclr_shape (s : State) : Shaped s (execFclr s) := Shaped.done _ _

theorem execCclr_shape (s : State) : Shaped s (execCclr s) := Shaped.done _ _

theorem execJournalDataRead_shape (s : State) : Shaped s (execJournalDataRead s) := by
  unfold execJournalDataRead
  repeat' first
    | with_reducible exact Shaped.done _ _
    | split | dsimp only

theorem execRegionQuiescent_shape (g : RegionIx) (k : Fin 8) (s : State) : Shaped s (execRegionQuiescent g k s) := by
  unfold execRegionQuiescent
  repeat' first
    | with_reducible exact Shaped.idle _ | with_reducible exact Shaped.when_ _ _ _
    | split | dsimp only

theorem execSidCommit_shape (g : RegionIx) (sid : Fin 4) (s : State) : Shaped s (execSidCommit g sid s) := by
  unfold execSidCommit
  repeat' first
    | with_reducible exact Shaped.done _ _ | with_reducible exact Shaped.idle _
    | split | dsimp only

theorem execSidSquash_shape (g : RegionIx) (sid : Fin 4) (s : State) : Shaped s (execSidSquash g sid s) := by
  unfold execSidSquash
  repeat' first
    | with_reducible exact Shaped.idle _ | with_reducible exact Shaped.when_ _ _ _
    | split | dsimp only

theorem execSeqNop_shape (g : RegionIx) (s : State) : Shaped s (execSeqNop g s) := seqIssue_shape _ _ _ _ _ _ _

theorem execSeqAdd_shape (g : RegionIx) (s : State) : Shaped s (execSeqAdd g s) := seqAlu_shape _ _ _ _

theorem execSeqSub_shape (g : RegionIx) (s : State) : Shaped s (execSeqSub g s) := seqAlu_shape _ _ _ _

theorem execSeqAnd_shape (g : RegionIx) (s : State) : Shaped s (execSeqAnd g s) := seqAlu_shape _ _ _ _

theorem execSeqOr_shape (g : RegionIx) (s : State) : Shaped s (execSeqOr g s) := seqAlu_shape _ _ _ _

theorem execSeqXor_shape (g : RegionIx) (s : State) : Shaped s (execSeqXor g s) := seqAlu_shape _ _ _ _

theorem execSeqSll_shape (g : RegionIx) (s : State) : Shaped s (execSeqSll g s) := seqAlu_shape _ _ _ _

theorem execSeqSrl_shape (g : RegionIx) (s : State) : Shaped s (execSeqSrl g s) := seqAlu_shape _ _ _ _

theorem execSeqSra_shape (g : RegionIx) (s : State) : Shaped s (execSeqSra g s) := seqAlu_shape _ _ _ _

theorem execSeqMul_shape (g : RegionIx) (s : State) : Shaped s (execSeqMul g s) := seqAlu_shape _ _ _ _

theorem execSeqSlt_shape (g : RegionIx) (s : State) : Shaped s (execSeqSlt g s) := by
  unfold execSeqSlt
  repeat' first
    | with_reducible exact seqAlu_shape _ _ _ _
    | split | dsimp only

theorem execSeqSltu_shape (g : RegionIx) (s : State) : Shaped s (execSeqSltu g s) := by
  unfold execSeqSltu
  repeat' first
    | with_reducible exact seqAlu_shape _ _ _ _
    | split | dsimp only

theorem execSeqAddi_shape (g : RegionIx) (s : State) : Shaped s (execSeqAddi g s) := seqValue_shape _ _ _ _ _

theorem execSeqAndi_shape (g : RegionIx) (s : State) : Shaped s (execSeqAndi g s) := seqValue_shape _ _ _ _ _

theorem execSeqOri_shape (g : RegionIx) (s : State) : Shaped s (execSeqOri g s) := seqValue_shape _ _ _ _ _

theorem execSeqLui_shape (g : RegionIx) (s : State) : Shaped s (execSeqLui g s) := seqValue_shape _ _ _ _ _

theorem execSeqLw_shape (g : RegionIx) (s : State) : Shaped s (execSeqLw g s) := by
  unfold execSeqLw
  repeat' first
    | with_reducible exact seqIssue_shape _ _ _ _ _ _ _
    | split | dsimp only

theorem execSeqSw_shape (g : RegionIx) (s : State) : Shaped s (execSeqSw g s) := by
  unfold execSeqSw
  repeat' first
    | with_reducible exact seqIssue_shape _ _ _ _ _ _ _
    | split | dsimp only

theorem execSeqBeq_shape (g : RegionIx) (s : State) : Shaped s (execSeqBeq g s) := seqBranch_shape _ _ _ _

theorem execSeqBne_shape (g : RegionIx) (s : State) : Shaped s (execSeqBne g s) := seqBranch_shape _ _ _ _

theorem execSeqBlt_shape (g : RegionIx) (s : State) : Shaped s (execSeqBlt g s) := seqBranch_shape _ _ _ _

theorem execSeqBge_shape (g : RegionIx) (s : State) : Shaped s (execSeqBge g s) := seqBranch_shape _ _ _ _

theorem execSeqJmp_shape (g : RegionIx) (s : State) : Shaped s (execSeqJmp g s) := seqIssue_shape _ _ _ _ _ _ _

theorem execSeqCall_shape (g : RegionIx) (s : State) : Shaped s (execSeqCall g s) := by
  unfold execSeqCall
  repeat' first
    | with_reducible exact seqIssue_shape _ _ _ _ _ _ _
    | split | dsimp only

theorem execSeqJr_shape (g : RegionIx) (s : State) : Shaped s (execSeqJr g s) := seqIssue_shape _ _ _ _ _ _ _

theorem execSeqRet_shape (g : RegionIx) (s : State) : Shaped s (execSeqRet g s) := by
  unfold execSeqRet
  repeat' first
    | with_reducible exact seqIssue_shape _ _ _ _ _ _ _
    | split | dsimp only

theorem execSeqLoop_shape (g : RegionIx) (s : State) : Shaped s (execSeqLoop g s) := by
  unfold execSeqLoop
  repeat' first
    | with_reducible exact seqIssue_shape _ _ _ _ _ _ _
    | split | dsimp only

theorem execSeqLpop_shape (g : RegionIx) (s : State) : Shaped s (execSeqLpop g s) := by
  unfold execSeqLpop
  repeat' first
    | with_reducible exact seqIssue_shape _ _ _ _ _ _ _
    | split | dsimp only

theorem execSeqAff_shape (g : RegionIx) (s : State) : Shaped s (execSeqAff g s) := seqValue_shape _ _ _ _ _

theorem execSeqCmd_shape (g : RegionIx) (s : State) : Shaped s (execSeqCmd g s) := by
  unfold execSeqCmd
  repeat' first
    | with_reducible exact seqIssue_shape _ _ _ _ _ _ _
    | split | dsimp only

theorem execSeqReplay_shape (g : RegionIx) (s : State) : Shaped s (execSeqReplay g s) := by
  unfold execSeqReplay
  repeat' first
    | with_reducible exact seqIssue_shape _ _ _ _ _ _ _
    | split | dsimp only

theorem execSeqRwait_shape (g : RegionIx) (s : State) : Shaped s (execSeqRwait g s) := by
  unfold execSeqRwait
  repeat' first
    | with_reducible exact seqIssue_shape _ _ _ _ _ _ _
    | split | dsimp only

theorem execSeqPatch_shape (g : RegionIx) (s : State) : Shaped s (execSeqPatch g s) := by
  unfold execSeqPatch
  repeat' first
    | with_reducible exact seqIssue_shape _ _ _ _ _ _ _
    | split | dsimp only

theorem execSeqBcw_shape (g : RegionIx) (s : State) : Shaped s (execSeqBcw g s) := by
  unfold execSeqBcw
  repeat' first
    | with_reducible exact seqIssue_shape _ _ _ _ _ _ _
    | split | dsimp only

theorem execSeqTminc_shape (g : RegionIx) (s : State) : Shaped s (execSeqTminc g s) := by
  unfold execSeqTminc
  repeat' first
    | with_reducible exact seqIssue_shape _ _ _ _ _ _ _
    | split | dsimp only

theorem execSeqTmwait_shape (g : RegionIx) (s : State) : Shaped s (execSeqTmwait g s) := by
  unfold execSeqTmwait
  repeat' first
    | with_reducible exact seqIssue_shape _ _ _ _ _ _ _
    | split | dsimp only

theorem execSeqKeyget_shape (g : RegionIx) (s : State) : Shaped s (execSeqKeyget g s) := by
  unfold execSeqKeyget
  repeat' first
    | with_reducible exact seqIssue_shape _ _ _ _ _ _ _
    | split | dsimp only

theorem execSeqKeyi_shape (g : RegionIx) (s : State) : Shaped s (execSeqKeyi g s) := by
  unfold execSeqKeyi
  repeat' first
    | with_reducible exact seqIssue_shape _ _ _ _ _ _ _
    | split | dsimp only

theorem execSeqSetkey_shape (g : RegionIx) (s : State) : Shaped s (execSeqSetkey g s) := by
  unfold execSeqSetkey
  repeat' first
    | with_reducible exact seqIssue_shape _ _ _ _ _ _ _
    | split | dsimp only

theorem execSeqSpecbr_shape (g : RegionIx) (s : State) : Shaped s (execSeqSpecbr g s) := by
  unfold execSeqSpecbr
  repeat' first
    | with_reducible exact seqIssue_shape _ _ _ _ _ _ _
    | split | dsimp only

theorem execSeqMfs_shape (g : RegionIx) (s : State) : Shaped s (execSeqMfs g s) := seqValue_shape _ _ _ _ _

theorem execSeqMts_shape (g : RegionIx) (s : State) : Shaped s (execSeqMts g s) := by
  unfold execSeqMts
  repeat' first
    | with_reducible exact seqIssue_shape _ _ _ _ _ _ _
    | split | dsimp only

theorem execSeqReservedOpcode_shape (g : RegionIx) (s : State) : Shaped s (execSeqReservedOpcode g s) := by
  unfold execSeqReservedOpcode
  repeat' first
    | with_reducible exact Shaped.idle _ | with_reducible exact seqIssue_shape _ _ _ _ _ _ _
    | split | dsimp only

theorem execFrameNoticePost_shape (g : RegionIx) (s : State) : Shaped s (execFrameNoticePost g s) := by
  unfold execFrameNoticePost
  repeat' first
    | with_reducible exact Shaped.done _ _ | with_reducible exact Shaped.idle _
    | split | dsimp only

theorem execSeqMemDataAccess_shape (g : RegionIx) (wr : Option Word) (s : State) : Shaped s (execSeqMemDataAccess g wr s) := by
  unfold execSeqMemDataAccess
  repeat' first
    | with_reducible exact Shaped.done _ _
    | split | dsimp only

theorem execPcieLinkTrained_shape (width : BitVec 4) (rate : BitVec 3) (s : State) : Shaped s (execPcieLinkTrained width rate s) := by
  unfold execPcieLinkTrained
  repeat' first
    | with_reducible exact Shaped.done _ _ | with_reducible exact Shaped.refused _ _
    | split | dsimp only

theorem execPcieLinkDown_shape (s : State) : Shaped s (execPcieLinkDown s) := Shaped.done _ _

theorem execCwyLinkTrained_shape (l : Fin 4) (pos link : BitVec 2) (s : State) : Shaped s (execCwyLinkTrained l pos link s) := by
  unfold execCwyLinkTrained
  repeat' first
    | with_reducible exact Shaped.when_ _ _ _
    | split | dsimp only

theorem execCausewayFlitReceive_shape (l : Fin 4) (flit : BitVec 352) (s : State) : Shaped s (execCausewayFlitReceive l flit s) := by
  unfold execCausewayFlitReceive
  repeat' first
    | with_reducible exact Shaped.done _ _ | with_reducible exact Shaped.when_ _ _ _
    | split | dsimp only

theorem execCausewayFlitSend_shape (l : Fin 4) (chan : Fin 16) (s : State) : Shaped s (execCausewayFlitSend l chan s) := by
  unfold execCausewayFlitSend
  repeat' first
    | with_reducible exact Shaped.done _ _ | with_reducible exact Shaped.idle _
    | split | dsimp only

theorem execSqNop_shape (n : StreamIx) (e : SqEntry) (s : State) : Shaped s (execSqNop n e s) := by
  unfold execSqNop
  repeat' first
    | with_reducible exact Shaped.refused _ _ | with_reducible exact sqEntry_shape _ _ _
    | split | dsimp only

theorem execChangeover_shape (n : StreamIx) (e : SqEntry) (s : State) : Shaped s (execChangeover n e s) := by
  unfold execChangeover
  repeat' first
    | with_reducible exact Shaped.refused _ _ | with_reducible exact sqEntry_shape _ _ _
    | split | dsimp only

theorem execFence_shape (n : StreamIx) (e : SqEntry) (s : State) : Shaped s (execFence n e s) := by
  unfold execFence
  repeat' first
    | with_reducible exact Shaped.refused _ _ | with_reducible exact sqEntry_shape _ _ _
    | split | dsimp only

theorem execEvent_shape (n : StreamIx) (e : SqEntry) (s : State) : Shaped s (execEvent n e s) := by
  unfold execEvent
  repeat' first
    | with_reducible exact Shaped.refused _ _ | with_reducible exact sqEntry_shape _ _ _
    | split | dsimp only

theorem execSqReservedEntry_shape (n : StreamIx) (e : SqEntry) (s : State) : Shaped s (execSqReservedEntry n e s) := by
  unfold execSqReservedEntry
  repeat' first
    | with_reducible exact Shaped.refused _ _ | with_reducible exact sqEntry_shape _ _ _
    | split | dsimp only

theorem execFenceComplete_shape (n : StreamIx) (s : State) : Shaped s (execFenceComplete n s) := by
  unfold execFenceComplete
  repeat' first
    | with_reducible exact Shaped.idle _ | with_reducible exact Shaped.when_ _ _ _
    | split | dsimp only

theorem execChangeoverGroupReady_shape (n : StreamIx) (s : State) : Shaped s (execChangeoverGroupReady n s) := by
  unfold execChangeoverGroupReady
  repeat' first
    | with_reducible exact Shaped.idle _ | with_reducible exact Shaped.when_ _ _ _
    | split | dsimp only

theorem execChangeoverApply_shape (n : StreamIx) (s : State) : Shaped s (execChangeoverApply n s) := by
  unfold execChangeoverApply
  repeat' first
    | with_reducible exact Shaped.done _ _ | with_reducible exact Shaped.idle _
    | split | dsimp only

theorem execSlackWaterSwap_shape (k : Fin 8) (s : State) : Shaped s (execSlackWaterSwap k s) := by
  unfold execSlackWaterSwap
  repeat' first
    | with_reducible exact Shaped.done _ _ | with_reducible exact Shaped.idle _
    | split | dsimp only

theorem execPatchSetApplied_shape (n : StreamIx) (s : State) : Shaped s (execPatchSetApplied n s) := by
  unfold execPatchSetApplied
  repeat' first
    | with_reducible exact Shaped.done _ _ | with_reducible exact Shaped.idle _
    | split | dsimp only

theorem execForcedExchange_shape (k : Fin 8) (s : State) : Shaped s (execForcedExchange k s) := by
  unfold execForcedExchange
  repeat' first
    | with_reducible exact Shaped.hostRow _ _ _ _ _
    | split | dsimp only

theorem execStart_shape (n : StreamIx) (s : State) : Shaped s (execStart n s) := Shaped.hostRow _ _ _ _ _

theorem execDirectLoadComplete_shape (k : Fin 8) (s : State) : Shaped s (execDirectLoadComplete k s) := by
  unfold execDirectLoadComplete
  repeat' first
    | with_reducible exact Shaped.when_ _ _ _
    | split | dsimp only

theorem execStop_shape (n : StreamIx) (s : State) : Shaped s (execStop n s) := Shaped.hostRow _ _ _ _ _

theorem execStopComplete_shape (n : StreamIx) (s : State) : Shaped s (execStopComplete n s) := by
  unfold execStopComplete
  repeat' first
    | with_reducible exact Shaped.when_ _ _ _
    | split | dsimp only

theorem execDrain_shape (n : StreamIx) (s : State) : Shaped s (execDrain n s) := Shaped.hostRow _ _ _ _ _

theorem execAbort_shape (n : StreamIx) (s : State) : Shaped s (execAbort n s) := Shaped.hostRow _ _ _ _ _

theorem execCoCancel_shape (n : StreamIx) (s : State) : Shaped s (execCoCancel n s) := Shaped.hostRow _ _ _ _ _

theorem execTidemarkIncrement_shape (k : Nat) (s : State) : Shaped s (execTidemarkIncrement k s) := by
  unfold execTidemarkIncrement
  repeat' first
    | with_reducible exact Shaped.done _ _ | with_reducible exact Shaped.idle _
    | split | dsimp only

theorem execTidemarkWait_shape (k : Nat) (s : State) : Shaped s (execTidemarkWait k s) := by
  unfold execTidemarkWait
  repeat' first
    | with_reducible exact Shaped.done _ _ | with_reducible exact Shaped.idle _
    | split | dsimp only

theorem execTidemarkWaiterRelease_shape (k : Nat) (s : State) : Shaped s (execTidemarkWaiterRelease k s) := by
  unfold execTidemarkWaiterRelease
  repeat' first
    | with_reducible exact Shaped.done _ _ | with_reducible exact Shaped.idle _
    | split | dsimp only

theorem execBarrierPhaseReply_shape (k : Nat) (s : State) : Shaped s (execBarrierPhaseReply k s) := by
  unfold execBarrierPhaseReply
  repeat' first
    | with_reducible exact Shaped.done _ _ | with_reducible exact Shaped.idle _
    | split | dsimp only

theorem execTidemarkHostWrite_shape (i : Fin 8192) (cfg : Bool) (v : Word) (s : State) : Shaped s (execTidemarkHostWrite i cfg v s) := Shaped.hostRow _ _ _ _ _

theorem execTilePatrolScrub_shape (t : TileIx) (bank : Fin 8) (s : State) : Shaped s (execTilePatrolScrub t bank s) := Shaped.when_ _ _ _

theorem execTileForcedScrub_shape (t : TileIx) (bank : Fin 8) (s : State) : Shaped s (execTileForcedScrub t bank s) := by
  unfold execTileForcedScrub
  repeat' first
    | with_reducible exact Shaped.when_ _ _ _
    | split | dsimp only

theorem execReplayStart_shape (t : TileIx) (s : State) : Shaped s (execReplayStart t s) := by
  unfold execReplayStart
  repeat' first
    | with_reducible exact Shaped.idle _ | with_reducible exact Shaped.when_ _ _ _
    | split | dsimp only

theorem execTilePatchApply_shape (t : TileIx) (s : State) : Shaped s (execTilePatchApply t s) := by
  unfold execTilePatchApply
  repeat' first
    | with_reducible exact Shaped.done _ _ | with_reducible exact Shaped.idle _
    | split | dsimp only

theorem execTileWordIssue_shape (t : TileIx) (s : State) : Shaped s (execTileWordIssue t s) := by
  unfold execTileWordIssue
  repeat' first
    | with_reducible exact Shaped.done _ _ | with_reducible exact Shaped.idle _ | with_reducible exact Shaped.when_ _ _ _
    | split | dsimp only

theorem execTraceRecordWrite_shape (u : Nat) (s : State) : Shaped s (execTraceRecordWrite u s) := by
  unfold execTraceRecordWrite
  repeat' first
    | with_reducible exact Shaped.done _ _ | with_reducible exact Shaped.idle _ | with_reducible exact Shaped.refused _ _
    | split | dsimp only

theorem execBmcPoll_shape (ps : List PackageStatus) (s : State) : Shaped s (execBmcPoll ps s) := by
  unfold execBmcPoll
  repeat' first
    | with_reducible exact Shaped.done _ _ | with_reducible exact Shaped.refused _ _
    | split | dsimp only

theorem execBmcFirmwareWrite_shape (d : Fin 4) (image : FwImage) (s : State) : Shaped s (execBmcFirmwareWrite d image s) := by
  unfold execBmcFirmwareWrite
  repeat' first
    | with_reducible exact Shaped.done _ _
    | split | dsimp only

theorem execTrayActivate_shape (v : Word) (s : State) : Shaped s (execTrayActivate v s) := by
  unfold execTrayActivate
  repeat' first
    | with_reducible exact Shaped.done _ _
    | split | dsimp only

theorem execBankLow_shape (mv energy : BitVec 16) (s : State) : Shaped s (execBankLow mv energy s) := by
  unfold execBankLow
  repeat' first
    | with_reducible exact Shaped.done _ _ | with_reducible exact Shaped.idle _
    | split | dsimp only

theorem execBankRecharged_shape (mv energy : BitVec 16) (s : State) : Shaped s (execBankRecharged mv energy s) := by
  unfold execBankRecharged
  repeat' first
    | with_reducible exact Shaped.done _ _ | with_reducible exact Shaped.idle _
    | split | dsimp only

theorem execTrayInputLoss_shape (mv : BitVec 16) (s : State) : Shaped s (execTrayInputLoss mv s) := by
  unfold execTrayInputLoss
  repeat' first
    | with_reducible exact Shaped.done _ _ | with_reducible exact Shaped.idle _
    | split | dsimp only

/-- Every command's next state is the state it met or what `signal` leaves. -/
theorem exec_shape (i : Instr) (s : State) : Shaped s (exec i s) :=
  match i with
  | .registerWrite fn off width data => execRegisterWrite_shape fn off width data s
  | .counterLowRead fn off => execCounterLowRead_shape fn off s
  | .accessTimeout fn off => execAccessTimeout_shape fn off s
  | .globalStatusClear v => execGlobalStatusClear_shape v s
  | .globalIntMaskWrite v => execGlobalIntMaskWrite_shape v s
  | .fabricReset => execFabricReset_shape s
  | .fabricResetComplete => execFabricResetComplete_shape s
  | .warmReset => execWarmReset_shape s
  | .warmResetPin => execWarmResetPin_shape s
  | .perstN => execPerstN_shape s
  | .hostWindowBAccess a => execHostWindowBAccess_shape a s
  | .hostWindowCAccess a => execHostWindowCAccess_shape a s
  | .cxpPacketReceive l p => execCxpPacketReceive_shape l p s
  | .ethFrameReceive p f => execEthFrameReceive_shape p f s
  | .heldFrameAdmit c => execHeldFrameAdmit_shape c s
  | .westEdgeRowSend c => execWestEdgeRowSend_shape c s
  | .sourceLinkDown src => execSourceLinkDown_shape src s
  | .triggerPacketSend l => execTriggerPacketSend_shape l s
  | .resendWaitExpiry c => execResendWaitExpiry_shape c s
  | .hostpathRxHeadWrite p ix => execHostpathRxHeadWrite_shape p ix s
  | .hostpathTxDoorbell p ix => execHostpathTxDoorbell_shape p ix s
  | .hostpathTxSend p => execHostpathTxSend_shape p s
  | .pcieLinkTrained width rate => execPcieLinkTrained_shape width rate s
  | .pcieLinkDown => execPcieLinkDown_shape s
  | .cwyLinkTrained l pos link => execCwyLinkTrained_shape l pos link s
  | .causewayFlitReceive l flit => execCausewayFlitReceive_shape l flit s
  | .causewayFlitSend l chan => execCausewayFlitSend_shape l chan s
  | .ingestChannelStart c => execIngestChannelStart_shape c s
  | .ingestChannelStop c => execIngestChannelStop_shape c s
  | .sqDoorbell fn n ix => execSqDoorbell_shape fn n ix s
  | .sqNop n e => execSqNop_shape n e s
  | .changeover n e => execChangeover_shape n e s
  | .fence n e => execFence_shape n e s
  | .fenceComplete n => execFenceComplete_shape n s
  | .event n e => execEvent_shape n e s
  | .sqReservedEntry n e => execSqReservedEntry_shape n e s
  | .changeoverGroupReady n => execChangeoverGroupReady_shape n s
  | .changeoverApply n => execChangeoverApply_shape n s
  | .patchSetApplied n => execPatchSetApplied_shape n s
  | .cqHeadWrite fn n ix => execCqHeadWrite_shape fn n ix s
  | .cqCoalesceTimer n => execCqCoalesceTimer_shape n s
  | .start n => execStart_shape n s
  | .directLoadComplete k => execDirectLoadComplete_shape k s
  | .stop n => execStop_shape n s
  | .stopComplete n => execStopComplete_shape n s
  | .drain n => execDrain_shape n s
  | .abort n => execAbort_shape n s
  | .coCancel n => execCoCancel_shape n s
  | .tileWordIssue t => execTileWordIssue_shape t s
  | .replayStart t => execReplayStart_shape t s
  | .ldLdq t => execLdLdq_shape t s
  | .ldLdw t => execLdLdw_shape t s
  | .ldLdt t => execLdLdt_shape t s
  | .stStq t => execStStq_shape t s
  | .stStl t => execStStl_shape t s
  | .vecAdd t => execVecAdd_shape t s
  | .vecSub t => execVecSub_shape t s
  | .vecMul t => execVecMul_shape t s
  | .vecMax t => execVecMax_shape t s
  | .vecMin t => execVecMin_shape t s
  | .vecCmpgt t => execVecCmpgt_shape t s
  | .vecSel t => execVecSel_shape t s
  | .vecAbs t => execVecAbs_shape t s
  | .vecShr t => execVecShr_shape t s
  | .vecRq t => execVecRq_shape t s
  | .vecAct t => execVecAct_shape t s
  | .vecRsum t => execVecRsum_shape t s
  | .vecRmax t => execVecRmax_shape t s
  | .vecCvt t => execVecCvt_shape t s
  | .vecAnd t => execVecAnd_shape t s
  | .vecOr t => execVecOr_shape t s
  | .vecXor t => execVecXor_shape t s
  | .vecMov t => execVecMov_shape t s
  | .matWload t => execMatWload_shape t s
  | .matMma t => execMatMma_shape t s
  | .matDmma t => execMatDmma_shape t s
  | .matRead t => execMatRead_shape t s
  | .matClr t => execMatClr_shape t s
  | .commandStep t e wk => execCommandStep_shape t e wk s
  | .engineCommandComplete t e wk => execEngineCommandComplete_shape t e wk s
  | .tilePatrolScrub t bank => execTilePatrolScrub_shape t bank s
  | .tileForcedScrub t bank => execTileForcedScrub_shape t bank s
  | .tilePatchApply t => execTilePatchApply_shape t s
  | .linkSend t d k => execLinkSend_shape t d k s
  | .linkEntryArrive t d => execLinkEntryArrive_shape t d s
  | .boundaryLaneMove t d lane => execBoundaryLaneMove_shape t d lane s
  | .creditReturn k => execCreditReturn_shape k s
  | .managementPacketHop t d => execManagementPacketHop_shape t d s
  | .undertowStuck grp => execUndertowStuck_shape grp s
  | .undertowSpillComplete grp => execUndertowSpillComplete_shape grp s
  | .undertowRefill t q => execUndertowRefill_shape t q s
  | .dispatchToken t => execDispatchToken_shape t s
  | .gatherToken t => execGatherToken_shape t s
  | .loopGateDecision t => execLoopGateDecision_shape t s
  | .loopGateAdmit t => execLoopGateAdmit_shape t s
  | .groupTablePop t => execGroupTablePop_shape t s
  | .seqNop g => execSeqNop_shape g s
  | .seqAdd g => execSeqAdd_shape g s
  | .seqSub g => execSeqSub_shape g s
  | .seqAnd g => execSeqAnd_shape g s
  | .seqOr g => execSeqOr_shape g s
  | .seqXor g => execSeqXor_shape g s
  | .seqSll g => execSeqSll_shape g s
  | .seqSrl g => execSeqSrl_shape g s
  | .seqSra g => execSeqSra_shape g s
  | .seqMul g => execSeqMul_shape g s
  | .seqSlt g => execSeqSlt_shape g s
  | .seqSltu g => execSeqSltu_shape g s
  | .seqAddi g => execSeqAddi_shape g s
  | .seqAndi g => execSeqAndi_shape g s
  | .seqOri g => execSeqOri_shape g s
  | .seqLui g => execSeqLui_shape g s
  | .seqLw g => execSeqLw_shape g s
  | .seqSw g => execSeqSw_shape g s
  | .seqBeq g => execSeqBeq_shape g s
  | .seqBne g => execSeqBne_shape g s
  | .seqBlt g => execSeqBlt_shape g s
  | .seqBge g => execSeqBge_shape g s
  | .seqJmp g => execSeqJmp_shape g s
  | .seqCall g => execSeqCall_shape g s
  | .seqJr g => execSeqJr_shape g s
  | .seqRet g => execSeqRet_shape g s
  | .seqLoop g => execSeqLoop_shape g s
  | .seqLpop g => execSeqLpop_shape g s
  | .seqAff g => execSeqAff_shape g s
  | .seqCmd g => execSeqCmd_shape g s
  | .seqReplay g => execSeqReplay_shape g s
  | .seqRwait g => execSeqRwait_shape g s
  | .seqPatch g => execSeqPatch_shape g s
  | .seqBcw g => execSeqBcw_shape g s
  | .seqTminc g => execSeqTminc_shape g s
  | .seqTmwait g => execSeqTmwait_shape g s
  | .seqKeyget g => execSeqKeyget_shape g s
  | .seqKeyi g => execSeqKeyi_shape g s
  | .seqSetkey g => execSeqSetkey_shape g s
  | .seqSpecbr g => execSeqSpecbr_shape g s
  | .seqFkick g => execSeqFkick_shape g s
  | .seqMfs g => execSeqMfs_shape g s
  | .seqMts g => execSeqMts_shape g s
  | .frameNoticePost g => execFrameNoticePost_shape g s
  | .sidCommit g sid => execSidCommit_shape g sid s
  | .sidSquash g sid => execSidSquash_shape g sid s
  | .seqMemDataAccess g wr => execSeqMemDataAccess_shape g wr s
  | .tidemarkIncrement k => execTidemarkIncrement_shape k s
  | .tidemarkWait k => execTidemarkWait_shape k s
  | .tidemarkWaiterRelease k => execTidemarkWaiterRelease_shape k s
  | .barrierPhaseReply k => execBarrierPhaseReply_shape k s
  | .tidemarkHostWrite ix cfg v => execTidemarkHostWrite_shape ix cfg v s
  | .regionQuiescent g k => execRegionQuiescent_shape g k s
  | .basinPatrolScrub bank => execBasinPatrolScrub_shape bank s
  | .basinForcedScrub bank => execBasinForcedScrub_shape bank s
  | .outPortRecordWrite e => execOutPortRecordWrite_shape e s
  | .inPortRecordSend e => execInPortRecordSend_shape e s
  | .dramRefresh => execDramRefresh_shape s
  | .retrainingDue => execRetrainingDue_shape s
  | .dramRetrain => execDramRetrain_shape s
  | .forcedRetraining => execForcedRetraining_shape s
  | .dramPatrolScrub => execDramPatrolScrub_shape s
  | .zeroFillComplete k => execZeroFillComplete_shape k s
  | .memUntouch v => execMemUntouch_shape v s
  | .memUntouchDone => execMemUntouchDone_shape s
  | .ferryKick fn f list => execFerryKick_shape fn f list s
  | .ferryBlockStart f => execFerryBlockStart_shape f s
  | .dramReadPortPick => execDramReadPortPick_shape s
  | .ferryReadComplete f host => execFerryReadComplete_shape f host s
  | .ferryWrite f host => execFerryWrite_shape f host s
  | .ferryBlockComplete f => execFerryBlockComplete_shape f s
  | .layoutInstall k => execLayoutInstall_shape k s
  | .layoutEvict k => execLayoutEvict_shape k s
  | .forcedExchange k => execForcedExchange_shape k s
  | .layoutInstallComplete p => execLayoutInstallComplete_shape p s
  | .stagingComplete k => execStagingComplete_shape k s
  | .slackWaterSwap k => execSlackWaterSwap_shape k s
  | .finalTokenPop y => execFinalTokenPop_shape y s
  | .gateSlotRelease n => execGateSlotRelease_shape n s
  | .keelActionDecision => execKeelActionDecision_shape s
  | .verdictRecordWrite n => execVerdictRecordWrite_shape n s
  | .deadlineReached tm => execDeadlineReached_shape tm s
  | .lateReceive => execLateReceive_shape s
  | .encoderTransition e a b => execEncoderTransition_shape e a b s
  | .encoderIndex e => execEncoderIndex_shape e s
  | .triggerEdge ix rising => execTriggerEdge_shape ix rising s
  | .distanceTimerFire tm => execDistanceTimerFire_shape tm s
  | .pulseEnd tm => execPulseEnd_shape tm s
  | .intervalTimerExpiry k => execIntervalTimerExpiry_shape k s
  | .pressEnable => execPressEnable_shape s
  | .pressDisable => execPressDisable_shape s
  | .encCtlWrite e v => execEncCtlWrite_shape e v s
  | .drainPoint n => execDrainPoint_shape n s
  | .drainComplete n => execDrainComplete_shape n s
  | .scanOutComplete g => execScanOutComplete_shape g s
  | .scanInComplete g => execScanInComplete_shape g s
  | .regionRecover g => execRegionRecover_shape g s
  | .recoveryStepTimeout g => execRecoveryStepTimeout_shape g s
  | .faultHeadWrite fn n v => execFaultHeadWrite_shape fn n v s
  | .flogHeadWrite v => execFlogHeadWrite_shape v s
  | .fclr => execFclr_shape s
  | .cclr => execCclr_shape s
  | .journalDataRead => execJournalDataRead_shape s
  | .supplySwitchOver mv => execSupplySwitchOver_shape mv s
  | .trayInputLoss mv => execTrayInputLoss_shape mv s
  | .ebbHoldEnd why => execEbbHoldEnd_shape why s
  | .railRemoval => execRailRemoval_shape s
  | .returnToMain => execReturnToMain_shape s
  | .vbakLow mv => execVbakLow_shape mv s
  | .vbakExhausted => execVbakExhausted_shape s
  | .porRelease smb => execPorRelease_shape smb s
  | .railPowerGood k => execRailPowerGood_shape k s
  | .railPgTimeout k => execRailPgTimeout_shape k s
  | .railPgLoss k => execRailPgLoss_shape k s
  | .vpressUndervoltage mv => execVpressUndervoltage_shape mv s
  | .pllLock => execPllLock_shape s
  | .bootScrubComplete => execBootScrubComplete_shape s
  | .dramTrainingComplete pol => execDramTrainingComplete_shape pol s
  | .pwrTargetDoze => execPwrTargetDoze_shape s
  | .pwrTargetKeel => execPwrTargetKeel_shape s
  | .pwrTargetRun => execPwrTargetRun_shape s
  | .powerStateReached => execPowerStateReached_shape s
  | .wakePin => execWakePin_shape s
  | .smbusWake => execSmbusWake_shape s
  | .rtcAlarm => execRtcAlarm_shape s
  | .regionArmedEntry g => execRegionArmedEntry_shape g s
  | .refclkLoss => execRefclkLoss_shape s
  | .hkFallback => execHkFallback_shape s
  | .hkRestore => execHkRestore_shape s
  | .ktimeStep v => execKtimeStep_shape v s
  | .thermalWarn sensor temp => execThermalWarn_shape sensor temp s
  | .thermalThrottle sensor temp => execThermalThrottle_shape sensor temp s
  | .thermalTrip sensor temp => execThermalTrip_shape sensor temp s
  | .thermalCalibration => execThermalCalibration_shape s
  | .regionReset g => execRegionReset_shape g s
  | .keystoreLoad v => execKeystoreLoad_shape v s
  | .keystoreClear v => execKeystoreClear_shape v s
  | .keystoreLock v => execKeystoreLock_shape v s
  | .obsClr => execObsClr_shape s
  | .obsFreeze => execObsFreeze_shape s
  | .obsUnfreeze => execObsUnfreeze_shape s
  | .traceRecordWrite u => execTraceRecordWrite_shape u s
  | .telemetrySample => execTelemetrySample_shape s
  | .scanOut g => execScanOut_shape g s
  | .tileDebugHalt t => execTileDebugHalt_shape t s
  | .tileDebugStep t => execTileDebugStep_shape t s
  | .seqDebugHalt g => execSeqDebugHalt_shape g s
  | .seqDebugStep g => execSeqDebugStep_shape g s
  | .debugUnlock => execDebugUnlock_shape s
  | .debugRelock => execDebugRelock_shape s
  | .bistStart targets => execBistStart_shape targets s
  | .bistComplete regions banks => execBistComplete_shape regions banks s
  | .fabricLoopback t dir depth => execFabricLoopback_shape t dir depth s
  | .tapBypass => execTapBypass_shape s
  | .tapIdcode => execTapIdcode_shape s
  | .tapSamplePreload load => execTapSamplePreload_shape load s
  | .tapExtest => execTapExtest_shape s
  | .tapClamp => execTapClamp_shape s
  | .tapHighz => execTapHighz_shape s
  | .tapExtestPulse => execTapExtestPulse_shape s
  | .tapExtestTrain => execTapExtestTrain_shape s
  | .bmcPoll k => execBmcPoll_shape k s
  | .bmcFirmwareWrite d image => execBmcFirmwareWrite_shape d image s
  | .trayActivate d => execTrayActivate_shape d s
  | .bankLow mv energy => execBankLow_shape mv energy s
  | .sourceLinkUp src => execSourceLinkUp_shape src s
  | .seqReservedOpcode g => execSeqReservedOpcode_shape g s
  | .throttleEnd cool => execThrottleEnd_shape cool s
  | .rstNRise => execRstNRise_shape s
  | .firmwareVerified okA okB fw => execFirmwareVerified_shape okA okB fw s
  | .keelFirmwareReady => execKeelFirmwareReady_shape s
  | .dozeWakeComplete => execDozeWakeComplete_shape s
  | .dramRetrainComplete => execDramRetrainComplete_shape s
  | .bankRecharged mv energy => execBankRecharged_shape mv energy s
  | .smbusKeelWrite off v => execSmbusKeelWrite_shape off v s

/-- `signal` shows the summary of what it was given, and leaves the queue as it was. -/
theorem signal_src (s u : State) : (signal s u).src = intSum u := by
  unfold signal State.msix
  dsimp only
  repeat' first | rfl | split

theorem signal_pending (s u : State) : (signal s u).pending = s.pending := by
  unfold signal State.msix
  dsimp only
  repeat' first | rfl | split

/-- Registers are as it was given them. -/
theorem signal_regs (s u : State) : (signal s u).regs = u.regs := by
  unfold signal State.msix
  dsimp only
  repeat' first | rfl | split

@[simp] theorem signal_rd (s u : State) (off : Nat) : (signal s u).rd off = u.rd off := by
  simp only [State.rd, signal_regs]

theorem intSum_congr {s t : State} (h : t.regs = s.regs) : intSum t = intSum s := by
  cases s; cases t; cases h; rfl

end Sys2Proof.Machine
end

section
/-! The tidemark unit (R241, R242): what serving, settling and updating a tidemark do, and what a request that reaches the
unit leaves. -/
namespace Sys2Proof.Machine

/-! ### Messages leave the tidemarks and the requests on their way alone -/

@[simp] theorem State.msix_tms (s : State) (fn vector : Nat) : (s.msix fn vector).tms = s.tms := by
  unfold State.msix; split <;> rfl

@[simp] theorem State.msix_tmq (s : State) (fn vector : Nat) : (s.msix fn vector).tmq = s.tmq := by
  unfold State.msix; split <;> rfl

@[simp] theorem State.cause_tms (s : State) (n k : Nat) : (s.cause n k).tms = s.tms := by
  unfold State.cause; dsimp only; split
  · rfl
  · exact State.msix_tms _ _ _

@[simp] theorem State.cause_tmq (s : State) (n k : Nat) : (s.cause n k).tmq = s.tmq := by
  unfold State.cause; dsimp only; split
  · rfl
  · exact State.msix_tmq _ _ _

@[simp] theorem signal_tms (s u : State) : (signal s u).tms = u.tms := by
  unfold signal; dsimp only; split <;> split <;> simp only [State.msix_tms]

@[simp] theorem signal_tmq (s u : State) : (signal s u).tmq = u.tmq := by
  unfold signal; dsimp only; split <;> split <;> simp only [State.msix_tmq]

@[simp] theorem signal_tm (s u : State) (i : Nat) : (signal s u).tm i = u.tm i := by
  simp only [State.tm, signal_tms]

/-! ### Counter mode: waits served in order (R241) -/

/-- The waits served are the first `m`, each for TARGET; the next one, if any, finds too little. -/
theorem serveCounter_eq_take_drop (ws : List Waiter) (x : Tm) : ∃ m, m ≤ ws.length ∧ m * x.target ≤ x.count
    ∧ (m < ws.length → x.count - m * x.target < x.target)
    ∧ serveCounter ws x = (ws.take m, { x with count := x.count - m * x.target, waits := ws.drop m }) := by
  induction ws generalizing x with
  | nil => exact ⟨0, by simp [serveCounter]⟩
  | cons w ws ih =>
    by_cases h : x.target ≤ x.count
    · obtain ⟨m, hlen, hcount, hnext, hserve⟩ := ih { x with count := x.count - x.target }
      have hsub : x.count - x.target - m * x.target = x.count - (m + 1) * x.target := by
        rw [Nat.succ_mul, Nat.sub_sub, Nat.add_comm]
      refine ⟨m + 1, Nat.succ_le_succ hlen, ?_, fun hm => ?_, ?_⟩
      · rw [Nat.succ_mul]; exact Nat.add_le_of_le_sub h hcount
      · rw [← hsub]; exact hnext (Nat.lt_of_succ_lt_succ hm)
      · simp [serveCounter, h, hserve, hsub]
    · exact ⟨0, by simp, by simp, fun _ => by simpa using h, by simp [serveCounter, h]⟩

theorem Tm.serve_of_counter {x : Tm} (h : x.mode = 0) : x.serve = serveCounter x.waits x := if_pos h

/-! ### Phases (R242) -/

theorem Tm.phases_of_counter {x : Tm} (h : x.mode = 0) : x.phases = (0, x.count) := if_pos (.inl h)

theorem Tm.phases_of_barrier {x : Tm} (h : x.mode ≠ 0) (ht : 0 < x.target) :
    x.phases = (x.count / x.target, x.count % x.target) := if_neg (by omega)

theorem Tm.settle_of_counter {x : Tm} (h : x.mode = 0) : x.settle = { x with phase := x.phase % 32 } := by
  simp only [Tm.settle, Tm.phases_of_counter h, Nat.add_zero]

theorem Tm.settle_of_barrier {x : Tm} (h : x.mode ≠ 0) (ht : 0 < x.target) :
    x.settle = { x with count := x.count % x.target, phase := (x.phase + x.count / x.target) % 32 } := by
  simp only [Tm.settle, Tm.phases_of_barrier h ht]

/-- Outside counter mode a satisfied wait takes nothing from COUNT and leaves PHASE. -/
theorem Tm.serve_of_barrier {x : Tm} (h : x.mode ≠ 0) :
    x.serve.2 = { x with waits := x.waits.filter (fun w => !x.sat w) } := by
  unfold Tm.serve; rw [if_neg h]

/-! ### An update of a tidemark -/

theorem tmUpdate_of_counter {x : Tm} (h : x.mode = 0) (i : Nat) (s : State) :
    let y : Tm := { x with phase := x.phase % 32 }
    tmUpdate i x s = { s with granted := s.granted ++ y.serve.1.map (fun w : Waiter => (w.req, i)) }.setTm i y.serve.2 := by
  simp only [tmUpdate, Tm.settle_of_counter h, h]
  rfl

/-- OWNER's event aside, an update stores the tidemark settled and served. -/
theorem tm_tmUpdate (i j : Nat) (x : Tm) (s : State) :
    (tmUpdate i x s).tm j = if j = i then x.settle.serve.2 else s.tm j := by
  rw [← State.tm_setTm]
  unfold tmUpdate; dsimp only; split
  · simp only [State.tm, State.cause_tms]
  · rfl

@[simp] theorem tmUpdate_tmq (i : Nat) (x : Tm) (s : State) : (tmUpdate i x s).tmq = s.tmq := by
  unfold tmUpdate; dsimp only; split
  · rw [State.cause_tmq]; rfl
  · rfl

/-! ### Requests that reach the unit (R241 to R243) -/

section
variable {k n : Nat} {r : TmReq} {s : State}

@[simp] theorem State.dropReq_tm (s : State) (k i : Nat) : (s.dropReq k).tm i = s.tm i := rfl

theorem exec_tidemarkIncrement (hr : s.nextReq k = some r) (hn : r.inc = some n) :
    exec (.tidemarkIncrement k) s = .next (signal s (tmApply r n (s.dropReq k))) := by
  change execTidemarkIncrement k s = _
  simp only [execTidemarkIncrement, hr, hn, done]

theorem exec_tidemarkWait (hr : s.nextReq k = some r) (hn : r.inc = none)
    (hp : s.replies.any (fun p => p.1 == r.req && p.2.1 == r.idx) = false) :
    exec (.tidemarkWait k) s = .next (signal s (tmWait r (s.dropReq k))) := by
  change execTidemarkWait k s = _
  simp [execTidemarkWait, hr, hn, hp, done]

/-- A valid increment for a stream that is not draining updates its tidemark; at most a phase reply goes out besides. -/
theorem tmApply_of_valid (hst : s.st r.stream ≠ 3) (hv : s.tmValid r.stream r.idx = true) :
    ∃ q, tmApply r n s = tmUpdate r.idx ((s.tm r.idx).add n) { s with replies := q } := by
  simp only [tmApply, hst, hv, if_false, Bool.not_true, Bool.false_eq_true]
  split
  · exact ⟨_, rfl⟩
  · exact ⟨s.replies, rfl⟩

/-- In counter mode no phase reply goes out. -/
theorem tmApply_of_counter (hst : s.st r.stream ≠ 3) (hv : s.tmValid r.stream r.idx = true) (hm : (s.tm r.idx).mode = 0) :
    tmApply r n s = tmUpdate r.idx ((s.tm r.idx).add n) s := by
  simp [tmApply, hst, hv, hm]

/-- In counter mode a wait joins behind the others, whatever its requester recorded. -/
theorem tmWait_of_counter (hst : s.st r.stream ≠ 3) (hv : s.tmValid r.stream r.idx = true) (hm : (s.tm r.idx).mode = 0) :
    let x := s.tm r.idx
    tmWait r s = tmUpdate r.idx { x with waits := x.waits ++ [⟨r.req, r.stream, x.phase⟩] } s := by
  simp [tmWait, hst, hv, hm]

theorem Tm.add_of_counter {x : Tm} (h : x.mode = 0) (n : Nat) :
    x.add n = { x with count := (x.count + n) % 2 ^ 24, ovf := x.ovf || decide (2 ^ 24 ≤ x.count + n) } := by
  simp only [Tm.add, h, decide_true, Bool.true_and]

/-- What an increment leaves of a barrier or event tidemark, before its waits are served and after (R242, R246). -/
theorem Tm.serve_settle_add_of_barrier {x : Tm} (h : x.mode ≠ 0) (ht : 0 < x.target) (n : Nat) :
    let y := (x.add n).settle.serve.2
    y.count = (x.count + n) % 2 ^ 24 % x.target ∧ y.phase = (x.phase + (x.count + n) % 2 ^ 24 / x.target) % 32 := by
  have hadd : (x.add n).mode ≠ 0 := h
  have hset : (x.add n).settle.mode ≠ 0 := h
  dsimp only
  rw [Tm.serve_of_barrier hset, Tm.settle_of_barrier hadd ht]
  exact ⟨rfl, rfl⟩

/-- An increment of a barrier or event tidemark advances its phases and leaves every other tidemark alone. -/
theorem exec_tidemarkIncrement_of_barrier (hr : s.nextReq k = some r) (hst : s.st r.stream ≠ 3)
    (hv : s.tmValid r.stream r.idx = true) (hm : (s.tm r.idx).mode ≠ 0) (ht : 0 < (s.tm r.idx).target)
    (hn : r.inc = some n) :
    let x := s.tm r.idx
    ∃ t, exec (.tidemarkIncrement k) s = .next t
      ∧ (t.tm r.idx).count = (x.count + n) % 2 ^ 24 % x.target
      ∧ (t.tm r.idx).phase = (x.phase + (x.count + n) % 2 ^ 24 / x.target) % 32
      ∧ t.tmq = s.tmq.eraseIdx k ∧ ∀ i, i ≠ r.idx → t.tm i = s.tm i := by
  obtain ⟨q, hq⟩ := tmApply_of_valid (s := s.dropReq k) (n := n) hst hv
  obtain ⟨hcount, hphase⟩ := Tm.serve_settle_add_of_barrier hm ht n
  refine ⟨_, exec_tidemarkIncrement hr hn, ?_⟩
  rw [hq, signal_tmq, tmUpdate_tmq]
  simp only [signal_tm, tm_tmUpdate, if_true]
  exact ⟨hcount, hphase, rfl, fun i hi => if_neg hi⟩

end

/-- Settles O37: the counter's waits by induction on their list, the phases by division with remainder. -/
theorem countersServeWaitsAndBarriersAdvance : Obligations.CountersServeWaitsAndBarriersAdvance := by
  refine ⟨fun x hm => ?_, fun x hm ht => ?_, fun k r s hr hst hv => ⟨fun hm => ⟨fun n hn => ?_, fun hn hp => ?_⟩,
    fun hm ht n hn => exec_tidemarkIncrement_of_barrier hr hst hv hm ht hn⟩⟩
  · rw [Tm.serve_of_counter hm]
    exact serveCounter_eq_take_drop x.waits x
  · rw [Tm.settle_of_barrier hm ht]
    exact ⟨rfl, Nat.mod_lt _ ht, Nat.mod_add_div _ _⟩
  · dsimp only
    rw [exec_tidemarkIncrement hr hn, tmApply_of_counter (s := s.dropReq k) hst hv hm, State.dropReq_tm,
      Tm.add_of_counter hm, tmUpdate_of_counter]
    · rfl
    · exact hm
  · dsimp only
    rw [exec_tidemarkWait hr hn hp, tmWait_of_counter (s := s.dropReq k) hst hv hm, tmUpdate_of_counter]
    · rfl
    · exact hm

end Sys2Proof.Machine
end

section
/-! Reads of untouched DRAM pages (R277): an access cut into its pages, what the controller's read answers and counts, and the
host's read through window C. -/
namespace Sys2Proof.Machine

/-! ### Messages leave the memories alone and take nothing back from the outside -/

@[simp] theorem State.msix_mem (s : State) (fn vector : Nat) : (s.msix fn vector).mem = s.mem := by
  unfold State.msix; split <;> rfl

@[simp] theorem signal_mem (s u : State) : (signal s u).mem = u.mem := by
  unfold signal; dsimp only; split <;> split <;> simp only [State.msix_mem]

theorem State.mem_outbox_msix {s : State} {o : Output} (h : o ∈ s.outbox) (fn vector : Nat) :
    o ∈ (s.msix fn vector).outbox := by
  unfold State.msix; split
  · exact List.mem_append_left _ h
  · exact h

theorem mem_outbox_signal {u : State} {o : Output} (h : o ∈ u.outbox) (s : State) : o ∈ (signal s u).outbox := by
  unfold signal; dsimp only; split <;> split
  · refine State.mem_outbox_msix (State.mem_outbox_msix ?_ _ _) _ _; exact h
  · refine State.mem_outbox_msix ?_ _ _; exact h
  · refine State.mem_outbox_msix ?_ _ _; exact h
  · exact h

/-! ### The pages of an access -/

/-- A page's part of an access is not empty and lies within the access. -/
theorem bounds_of_mem_pageParts {f a n : Nat} {p : Nat × Nat} (h : p ∈ pageParts f a n) :
    a ≤ p.1 ∧ 0 < p.2 ∧ p.1 + p.2 ≤ a + n := by
  induction f generalizing a n with
  | zero => cases h
  | succ f ih =>
    have hroom : 0 < 4096 - a % 4096 := by omega
    simp only [pageParts] at h
    split at h
    · cases h
    · rcases List.mem_cons.mp h with rfl | h
      · dsimp only; omega
      · have := ih h
        omega

theorem page_of_mem_pageParts {f a n : Nat} {p : Nat × Nat} (h : p ∈ pageParts f a n) :
    a / 4096 ≤ p.1 / 4096 ∧ p.1 / 4096 ≤ (a + n - 1) / 4096 := by
  obtain ⟨hlo, hpos, hhi⟩ := bounds_of_mem_pageParts h
  exact ⟨Nat.div_le_div_right hlo, Nat.div_le_div_right (by omega)⟩

/-- The parts cover the access: fuel above its length does not run out. -/
theorem sum_pageParts {f a n : Nat} (h : n < f) : ((pageParts f a n).map Prod.snd).sum = n := by
  induction f generalizing a n with
  | zero => omega
  | succ f ih =>
    simp only [pageParts]
    split
    · next hn => simp [hn]
    · have hrest : n - min n (4096 - a % 4096) < f := by omega
      simp only [List.map_cons, List.sum_cons, ih hrest]
      omega

/-! ### What a read of untouched pages counts -/

/-- Nothing differs but counters, and the bytes read from DRAM (cMem 0) are not among them. -/
def CountsNoDramRead (s t : State) : Prop := (∃ cs, t = { s with counters := cs }) ∧ t.cnt (cMem 0) = s.cnt (cMem 0)

theorem CountsNoDramRead.refl (s : State) : CountsNoDramRead s s := ⟨⟨s.counters, rfl⟩, rfl⟩

theorem CountsNoDramRead.trans {s t u : State} (hst : CountsNoDramRead s t) (htu : CountsNoDramRead t u) :
    CountsNoDramRead s u := by
  obtain ⟨⟨_, rfl⟩, hs⟩ := hst
  obtain ⟨⟨ds, rfl⟩, ht⟩ := htu
  exact ⟨⟨ds, rfl⟩, ht.trans hs⟩

theorem State.cnt_count_ne (s : State) {off j : Nat} (k : Nat) (h : j ≠ off) : (s.count off k).cnt j = s.cnt j := by
  unfold State.count; split
  · rfl
  · exact tget_tset_ne _ _ _ _ h

theorem CountsNoDramRead.count (s : State) {off : Nat} (k : Nat) (h : cMem 0 ≠ off) : CountsNoDramRead s (s.count off k) := by
  refine ⟨?_, s.cnt_count_ne k h⟩
  unfold State.count; split
  · exact ⟨s.counters, rfl⟩
  · exact ⟨_, rfl⟩

theorem CountsNoDramRead.mem_eq {s t : State} (h : CountsNoDramRead s t) : t.mem = s.mem := by
  obtain ⟨⟨_, rfl⟩, _⟩ := h; rfl

theorem CountsNoDramRead.regs_eq {s t : State} (h : CountsNoDramRead s t) : t.regs = s.regs := by
  obtain ⟨⟨_, rfl⟩, _⟩ := h; rfl

/-! ### The controller's read -/

/-- What a read answers where no access to DRAM is made: zeros, neither poisoned nor bad. -/
def Got.zeros (n : Nat) : Got := ⟨List.replicate n 0, false, false⟩

theorem dramReadPage_of_untouched {s : State} {a : Nat} (h : a / 4096 ∉ s.mem.touched) (n : Nat) :
    dramReadPage a n s = (Got.zeros n, s.count (cMem 5) 1) := by
  simp [dramReadPage, Got.zeros, h]

/-- One page of a read, behind what the pages before it gave. -/
def readNextPage (gs : Got × State) (p : Nat × Nat) : Got × State :=
  let r := dramReadPage p.1 p.2 gs.2
  (⟨gs.1.bytes ++ r.1.bytes, gs.1.psn || r.1.psn, gs.1.bad || r.1.bad⟩, r.2)

theorem State.dramRead_eq (s : State) (a n : Nat) :
    s.dramRead a n = each (pageParts (n + 1) a n) (Got.zeros 0, s) readNextPage := rfl

theorem readNextPage_of_untouched {s : State} {p : Nat × Nat} (h : p.1 / 4096 ∉ s.mem.touched) (m : Nat) :
    readNextPage (Got.zeros m, s) p = (Got.zeros (m + p.2), s.count (cMem 5) 1) := by
  simp [readNextPage, dramReadPage_of_untouched h, Got.zeros]

/-- Each part adds its zeros to those before it and counts once. -/
theorem each_readNextPage_of_untouched (ps : List (Nat × Nat)) {s : State} (h : ∀ p ∈ ps, p.1 / 4096 ∉ s.mem.touched)
    (m : Nat) : ∃ t, each ps (Got.zeros m, s) readNextPage = (Got.zeros (m + (ps.map Prod.snd).sum), t)
      ∧ CountsNoDramRead s t := by
  induction ps generalizing s m with
  | nil => exact ⟨s, rfl, CountsNoDramRead.refl s⟩
  | cons p ps ih =>
    have hcount : CountsNoDramRead s (s.count (cMem 5) 1) := CountsNoDramRead.count s 1 (by decide)
    have hrest : ∀ q ∈ ps, q.1 / 4096 ∉ (s.count (cMem 5) 1).mem.touched := fun q hq => by
      rw [count_mem]; exact h q (List.mem_cons_of_mem p hq)
    obtain ⟨t, hread, ht⟩ := ih hrest (m + p.2)
    refine ⟨t, ?_, hcount.trans ht⟩
    rw [List.map_cons, List.sum_cons, ← Nat.add_assoc, ← hread,
      ← readNextPage_of_untouched (h p List.mem_cons_self) m]
    rfl

section
variable {a n : Nat} {s : State} (h : ∀ p, a / 4096 ≤ p → p ≤ (a + n - 1) / 4096 → p ∉ s.mem.touched)
include h

theorem State.dramRead_of_untouched : ∃ t, s.dramRead a n = (Got.zeros n, t) ∧ CountsNoDramRead s t := by
  have hparts : ∀ p ∈ pageParts (n + 1) a n, p.1 / 4096 ∉ s.mem.touched := fun p hp =>
    h _ (page_of_mem_pageParts hp).1 (page_of_mem_pageParts hp).2
  obtain ⟨t, hread, ht⟩ := each_readNextPage_of_untouched _ hparts 0
  rw [sum_pageParts (Nat.lt_succ_self n), Nat.zero_add] at hread
  exact ⟨t, hread, ht⟩

/-! ### The host's read through window C -/

/-- No zero-fill under way is one of the access's pages, so the read waits for none. -/
theorem winC_read_of_untouched {off : Nat} (hn : 0 < n) (ha : a = s.aper off) (hcap : a + n ≤ dramUsable)
    (hfill : ∀ f ∈ s.mem.fills, f.page < a / 4096 ∨ (a + n - 1) / 4096 < f.page) :
    ∃ t, winC (.read off n) s = t.emit (.data 0 (List.replicate n 0)) ∧ CountsNoDramRead s t := by
  obtain ⟨t, hread, ht⟩ := State.dramRead_of_untouched h
  have hk : min n (dramUsable - a) = n := Nat.min_eq_left (by omega)
  have hnone : s.mem.fills.filter (fun f => decide (0 < n ∧ f.page * 4096 < a + n ∧ a < f.page * 4096 + 4096)) = [] :=
    List.filter_eq_nil_iff.mpr fun f hf => by have := hfill f hf; simp only [decide_eq_true_eq]; omega
  refine ⟨t, ?_, ht⟩
  simp only [winC, ← ha, hk, Nat.lt_irrefl, if_false, hnone, each, List.foldl_nil, hread]
  simp [answer, Got.zeros]

end

/-- A read of window C within its size, the dies powered and the device not in DOZE, is served at once (R372, R422). -/
theorem exec_hostWindowCAccess_read {off n : Nat} {s : State} (hn : 0 < n) (hon : s.bit aPwrStatus 25 = true)
    (hrun : s.f aPwrStatus 28 4 ≠ 2) (hoff : off + n ≤ 2 ^ 34) :
    exec (.hostWindowCAccess (.read off n)) s = .next (signal s (winC (.read off n) s)) := by
  have hwf : (HostAccess.read off n).wellFormed = true := decide_eq_true hn
  change execHostWindowCAccess (.read off n) s = _
  simp only [execHostWindowCAccess, hwf, Bool.not_true, Bool.false_eq_true, if_false, Nat.not_lt.mpr hoff,
    State.pwrState, hrun, State.fabricOn, hon, when_, if_true, done]

/-- Settles O41: page by page, each untouched page gives zeros and counts once in cMem 5; the host's read is the
controller's. -/
theorem untouchedPagesReadZero : Obligations.UntouchedPagesReadZero := by
  intro a n s hn h
  obtain ⟨t, hread, ht⟩ := State.dramRead_of_untouched h
  refine ⟨by rw [hread]; rfl, by rw [hread]; exact ht.1, by rw [hread]; exact ht.2, ?_⟩
  intro off hon hrun ha hoff hcap hfill
  obtain ⟨u, hwin, hu⟩ := winC_read_of_untouched h hn ha hcap hfill
  refine ⟨_, exec_hostWindowCAccess_read hn hon hrun hoff, ?_, ?_, ?_⟩
  · rw [signal_mem, hwin]; exact hu.mem_eq
  · rw [signal_regs, hwin]; exact hu.regs_eq
  · rw [hwin]; exact mem_outbox_signal (List.mem_append_right _ List.mem_cons_self) s

end Sys2Proof.Machine
end

section
/-! The high-word latches of the counters (R387): what leaves them alone, what a served read of a counter latches and answers,
and what clears them. -/
namespace Sys2Proof.Machine

/-! ### What leaves the latches alone -/

@[simp] theorem State.msix_latches (s : State) (fn vector : Nat) : (s.msix fn vector).latches = s.latches := by
  unfold State.msix; split <;> rfl

@[simp] theorem signal_latches (s u : State) : (signal s u).latches = u.latches := by
  unfold signal; dsimp only; split <;> split <;> simp only [State.msix_latches]

@[simp] theorem State.setF_latches (s : State) (off lo len v : Nat) : (s.setF off lo len v).latches = s.latches := rfl

@[simp] theorem State.setB_latches (s : State) (off i : Nat) (b : Bool) : (s.setB off i b).latches = s.latches := rfl

@[simp] theorem State.count_latches (s : State) (off k : Nat) : (s.count off k).latches = s.latches := by
  unfold State.count; split <;> rfl

@[simp] theorem State.journalPut_latches (s : State) (type : Nat) (body : List Word) :
    (s.journalPut type body).latches = s.latches := by
  unfold State.journalPut; dsimp only; split <;> rfl

@[simp] theorem setPwr_latches (v : Nat) (s : State) : (setPwr v s).latches = s.latches :=
  State.setF_latches _ _ _ _ _

theorem State.withPower_latches (s : State) (p : Power) : { s with power := p }.latches = s.latches := rfl

@[simp] theorem bootStage_latches (n : Nat) (s : State) : (bootStage n s).latches = s.latches :=
  (State.withPower_latches (s.setF aBootStatus 28 4 n) _).trans (State.setF_latches s aBootStatus 28 4 n)

@[simp] theorem wakeRegion_latches (off : Nat) (s : State) : (wakeRegion off s).latches = s.latches := by
  unfold wakeRegion; dsimp only; split
  · split
    · rw [State.count_latches, State.setF_latches]
    · rfl
  · rfl

@[simp] theorem State.cntNow_latches (s : State) (c : Nat) : (s.cntNow c).2.latches = s.latches := by
  unfold State.cntNow; split <;> rfl

/-! ### A served access -/

theorem Served.deaf_eq {s : State} (h : Served s) (off : Nat) : s.deaf off = false := by
  obtain ⟨hon, hrst, -⟩ := h
  simp [State.deaf, hon, hrst]

theorem Served.dozing_eq {s : State} (h : Served s) (off : Nat) : s.dozing off = false := by
  obtain ⟨-, -, hdoze⟩ := h
  simp [State.dozing, hdoze]

theorem hostRow_of_served {s : State} (h : Served s) (fn : Fn) (off v : Nat) (t : State) : hostRow fn off v s t = done s t := by
  simp [hostRow, h.dozing_eq, h.deaf_eq]

/-! ### A read of a counter -/

section
variable {fn : Fn} {c off : Nat} {s : State}

/-- Both words of a counter lie in the pages of one region. -/
theorem wakeRegion_add_four (hc : c % 8 = 0) (s : State) : wakeRegion (c + 4) s = wakeRegion c s := by
  have hlo : 0x200000 ≤ c + 4 ↔ 0x200000 ≤ c := by omega
  have hhi : c + 4 < 0x390000 ↔ c < 0x390000 := by omega
  have hreg : (c + 4 - 0x200000) / 0x10000 = (c - 0x200000) / 0x10000 := by omega
  simp only [wakeRegion, hlo, hhi, hreg]

theorem isMsix_add_four (hc : c % 8 = 0) : isMsix (c + 4) = isMsix c := by
  have htab : (0x8000 ≤ c + 4 ∧ c + 4 < 0x8080) ↔ (0x8000 ≤ c ∧ c < 0x8080) := by omega
  have hpba : (0x9000 ≤ c + 4 ∧ c + 4 < 0x9008) ↔ (0x9000 ≤ c ∧ c < 0x9008) := by omega
  simp only [isMsix, htab, hpba]

/-- A served 32-bit read emits what `regRead` answers. -/
theorem exec_counterLowRead_of_served (hs : Served s) (hfn : fn.wellFormed = true) (hal : off % 4 = 0)
    (hoff : off + 4 ≤ 0x4000000) : exec (.counterLowRead fn off) s
      = .next (signal s ((regRead fn off s).2.emit (.data (fnNum fn) (toBytes 4 (regRead fn off s).1.toNat)))) := by
  change execCounterLowRead fn off s = _
  simp only [execCounterLowRead, hfn, hal, Nat.not_lt.mpr hoff, hs.dozing_eq, decide_true, Bool.and_true, Bool.and_false,
    Bool.not_true, Bool.false_eq_true, if_false]
  rfl

theorem regRead_of_counter (hs : Served s) (hsee : s.seesReg fn off = true) (hmsix : isMsix off = false)
    (hc : counterAt off = some c) :
    regRead fn off s = counterRead (fnNum fn) c (off % 8 == 4) (wakeRegion off s) := by
  simp only [regRead, hsee, hmsix, hs.deaf_eq, hc, Bool.not_true, Bool.false_eq_true, if_false]

theorem regRead_counter_low (hs : Served s) (hsee : s.seesReg fn c = true) (hmsix : isMsix c = false) (hal : c % 8 = 0)
    (hc : counterAt c = some c) :
    regRead fn c s = counterRead (fnNum fn) c false (wakeRegion c s) := by
  rw [regRead_of_counter hs hsee hmsix hc, hal]; rfl

theorem regRead_counter_high (hs : Served s) (hsee : s.seesReg fn (c + 4) = true) (hmsix : isMsix c = false) (hal : c % 8 = 0)
    (hc : counterAt (c + 4) = some c) :
    regRead fn (c + 4) s = counterRead (fnNum fn) c true (wakeRegion c s) := by
  have hhigh : (c + 4) % 8 = 4 := by omega
  rw [regRead_of_counter hs hsee ((isMsix_add_four hal).trans hmsix) hc, wakeRegion_add_four hal, hhigh]; rfl

end

/-! ### The latch of a function and a counter -/

theorem fnNum_inj {f g : Fn} (hf : f.wellFormed = true) (hg : g.wellFormed = true) (h : fnNum f = fnNum g) : f = g := by
  cases f with
  | pf => cases g with
    | pf => rfl
    | vf n => exact absurd h (Nat.ne_of_lt (of_decide_eq_true hg))
  | vf m => cases g with
    | pf => exact absurd h (Nat.ne_of_gt (of_decide_eq_true hf))
    | vf n => exact congrArg Fn.vf (Fin.ext h)

/-- Window A holds 2 ^ 26 bytes, so no two functions and no two counters share a latch. -/
theorem latchKey_ne {f g : Fn} {c k : Nat} (hf : f.wellFormed = true) (hg : g.wellFormed = true) (hc : c < 2 ^ 26)
    (hk : k < 2 ^ 26) (h : g ≠ f ∨ k ≠ c) : fnNum g * 2 ^ 26 + k ≠ fnNum f * 2 ^ 26 + c := by
  intro heq
  rcases h with hfn | hcnt
  · exact hfn (fnNum_inj hg hf (by omega))
  · exact hcnt (by omega)

/-! ### What clears the latches -/

theorem dieReset_latches_nil {s : State} (h : s.latches = []) (keep : Nat → Bool) : (dieReset keep s).latches = [] := by
  simp only [dieReset, h, List.filter_nil]

theorem warmReset_latches (held : Bool) (s : State) : (warmReset held s).latches = [] := by
  unfold warmReset; dsimp only
  split
  · rfl
  · split <;> split <;> simp [dieReset_latches_nil]

theorem coldState_latches (s : State) : (coldState s).latches = [] := rfl

theorem exec_obsClr_of_served {s : State} (hs : Served s) (hlock : s.bit aDbgLock 0 = false) :
    exec .obsClr s = .next (signal s (obsClear s)) := by
  change execObsClr s = _
  simp only [execObsClr, hostRow_of_served hs, State.dbgLocked, hlock, Bool.false_eq_true, if_false, done]

/-- Settles O10: a read of either word is `counterRead` of that word, which touches the reader's latch of that counter alone;
the clear and both resets start from no latch. -/
theorem counterHighWordIsLatched : Obligations.CounterHighWordIsLatched := by
  intro fn c smb s
  refine ⟨fun hfn hal hlt hlow hhigh hseeLow hseeHigh hs hmsix => ⟨?_, ?_, tget_tset_same _ _ _ _, ?_⟩, ?_, ?_, ?_⟩
  · rw [exec_counterLowRead_of_served hs hfn (by omega) (by omega), regRead_counter_low hs hseeLow hmsix hal hlow]
    simp [counterRead]
  · rw [exec_counterLowRead_of_served hs hfn (by omega) (by omega), regRead_counter_high hs hseeHigh hmsix hal hhigh]
    simp [counterRead]
  · exact fun g k hg hk hne => tget_tset_ne _ _ _ _ (latchKey_ne hfn hg hlt hk hne)
  · exact fun hs hlock => ⟨_, exec_obsClr_of_served hs hlock, signal_latches _ _⟩
  · exact ⟨_, rfl, by simp [warmReset_latches]⟩
  · exact ⟨_, rfl, by simp [coldState_latches]⟩

/-! ### The hypotheses are met -/

/-- Reset, with the counter 0 of stream 1 past 32 bits. -/
def longCountState : State := { State.reset with counters := [(cStream 1 0, 0x500000007)] }

theorem served_longCountState : Served longCountState := ⟨by decide, by decide, by decide⟩

/-- VF 1 reads the low word of a counter of its stream: it sees 7, and its latch keeps 5. -/
theorem exec_counterLowRead_longCountState : exec (.counterLowRead (.vf 1) (cStream 1 0)) longCountState
    = .next (signal longCountState ({ longCountState with latches := [(2 ^ 26 + cStream 1 0, 5)] }.emit (.data 1 [7, 0, 0, 0]))) :=
  ((counterHighWordIsLatched (.vf 1) (cStream 1 0) 0 longCountState).1 rfl rfl (by decide) rfl rfl rfl rfl
    served_longCountState rfl).1

end Sys2Proof.Machine
end

section
/-! Fields and bits of a register after a write to one of its fields, and writes that reach registers alone. -/
namespace Sys2Proof.Machine

/-! ### Fields as bits -/

theorem nbit_eq_testBit (n i : Nat) : nbit n i = n.testBit i := by
  rw [nbit, Nat.testBit_eq_decide_div_mod_eq]; rfl

theorem testBit_nbits (n lo len i : Nat) : (nbits n lo len).testBit i = (decide (i < len) && n.testBit (i + lo)) := by
  rw [nbits, Nat.testBit_mod_two_pow, Nat.testBit_div_two_pow]

/-- A field put lies between the bits above it and those below. -/
theorem nput_eq (n lo len v : Nat) :
    nput n lo len v = 2 ^ lo * (2 ^ len * (n / 2 ^ lo / 2 ^ len) + v % 2 ^ len) + n % 2 ^ lo := by
  have hn := Nat.div_add_mod n (2 ^ lo)
  have hq := congrArg (2 ^ lo * ·) (Nat.div_add_mod (n / 2 ^ lo) (2 ^ len))
  simp only [Nat.mul_add] at hq
  rw [nput, nbits, Nat.mul_add, Nat.mul_comm _ (2 ^ lo), Nat.mul_comm _ (2 ^ lo)]
  omega

theorem testBit_nput (n lo len v i : Nat) :
    (nput n lo len v).testBit i = if lo ≤ i ∧ i < lo + len then v.testBit (i - lo) else n.testBit i := by
  rw [nput_eq, Nat.testBit_two_pow_mul_add _ (Nat.mod_lt _ (Nat.two_pow_pos lo)),
    Nat.testBit_two_pow_mul_add _ (Nat.mod_lt _ (Nat.two_pow_pos len))]
  by_cases hlo : i < lo
  · simp [hlo, Nat.not_le.mpr hlo]
  by_cases hhi : i < lo + len
  · simp [hlo, hhi, Nat.not_lt.mp hlo, show i - lo < len by omega]
  · simp [hlo, hhi, show ¬ i - lo < len by omega, Nat.testBit_div_two_pow, show i - lo - len + len + lo = i by omega]

theorem State.testBit_f (s : State) (off lo len i : Nat) :
    (s.f off lo len).testBit i = (decide (i < len) && s.bit off (i + lo)) := by
  rw [State.f, testBit_nbits, State.bit, nbit_eq_testBit]

theorem State.f_eq_of_bits {s t : State} {off lo len : Nat} (h : ∀ i, lo ≤ i → i < lo + len → t.bit off i = s.bit off i) :
    t.f off lo len = s.f off lo len := by
  refine Nat.eq_of_testBit_eq fun i => ?_
  rw [State.testBit_f, State.testBit_f]
  by_cases hi : i < len
  · rw [h (i + lo) (by omega) (by omega)]
  · simp [hi]

theorem State.f_eq_toNat (s : State) (off : Nat) : s.f off 0 32 = (s.rd off).toNat := by
  rw [State.f, nbits, Nat.pow_zero, Nat.div_one, Nat.mod_eq_of_lt (s.rd off).isLt]

/-! ### A write to a field -/

theorem State.bit_wr_ofNat (s : State) (off n : Nat) {i : Nat} (hi : i < 32) :
    (s.wr off (BitVec.ofNat 32 n)).bit off i = n.testBit i := by
  rw [State.bit, State.rd_wr_same, nbit_eq_testBit, BitVec.toNat_ofNat, Nat.testBit_mod_two_pow, decide_eq_true hi,
    Bool.true_and]

theorem State.bit_setF (s : State) (off lo len v : Nat) {i : Nat} (hi : i < 32) :
    (s.setF off lo len v).bit off i = if lo ≤ i ∧ i < lo + len then v.testBit (i - lo) else s.bit off i := by
  rw [State.setF, State.bit_wr_ofNat _ _ _ hi, testBit_nput, State.bit, nbit_eq_testBit]

theorem State.bit_setB_same (s : State) (off : Nat) (b : Bool) {i : Nat} (hi : i < 32) : (s.setB off i b).bit off i = b := by
  rw [State.setB, State.bit_setF _ _ _ _ _ hi, if_pos (by omega), Nat.sub_self]
  cases b <;> rfl

theorem State.f_setF_same (s : State) (off v : Nat) {lo len : Nat} (h : lo + len ≤ 32) :
    (s.setF off lo len v).f off lo len = v % 2 ^ len := by
  refine Nat.eq_of_testBit_eq fun i => ?_
  rw [State.testBit_f, Nat.testBit_mod_two_pow]
  by_cases hi : i < len
  · rw [State.bit_setF _ _ _ _ _ (by omega), if_pos (by omega), Nat.add_sub_cancel]
  · simp [hi]

theorem State.f_congr {s t : State} {off : Nat} (h : t.rd off = s.rd off) (lo len : Nat) : t.f off lo len = s.f off lo len := by
  rw [State.f, h, State.f]

theorem State.bit_congr {s t : State} {off : Nat} (h : t.rd off = s.rd off) (i : Nat) : t.bit off i = s.bit off i := by
  rw [State.bit, h, State.bit]

/-! ### Nothing but registers -/

section
variable {s t : State}

theorem OnlyRegs.refl (s : State) : OnlyRegs s s := rfl

theorem OnlyRegs.wr (h : OnlyRegs s t) (off : Nat) (w : Word) : OnlyRegs s (t.wr off w) := by
  unfold OnlyRegs at *; rw [h]; rfl

theorem OnlyRegs.setF (h : OnlyRegs s t) (off lo len v : Nat) : OnlyRegs s (t.setF off lo len v) := h.wr _ _

theorem OnlyRegs.wrs (h : OnlyRegs s t) (off : Nat) (ws : List Word) : OnlyRegs s (t.wrs off ws) := by
  induction ws generalizing t off with
  | nil => exact h
  | cons w ws ih => exact ih (h.wr off w) (off + 4)

theorem OnlyRegs.msix (h : OnlyRegs s t) (fn vector : Nat) : OnlyRegs s (t.msix fn vector) := by
  unfold State.msix OnlyRegs at *
  split
  · rw [h]; rfl
  · rw [h]

/-- What every command leaves behind it is no more than OnlyRegs allows. -/
theorem OnlyRegs.signal (h : OnlyRegs s t) : OnlyRegs s (signal s t) := by
  have hsum : OnlyRegs s { t with src := intSum t, pending := s.pending } := by unfold OnlyRegs at *; rw [h]
  unfold Machine.signal; dsimp only
  split <;> split
  · exact (hsum.msix _ _).msix _ _
  · exact hsum.msix _ _
  · exact hsum.msix _ _
  · exact hsum

/-! ### No registers but those listed -/

variable {offs : List Nat}

theorem RegsBut.refl (offs : List Nat) (s : State) : RegsBut offs s s := fun _ _ => rfl

theorem RegsBut.trans {offs' : List Nat} {u : State} (h : RegsBut offs s t) (h' : RegsBut offs' t u) :
    RegsBut (offs ++ offs') s u := fun j hj =>
  (h' j fun hm => hj (List.mem_append_right _ hm)).trans (h j fun hm => hj (List.mem_append_left _ hm))

theorem RegsBut.wr (h : RegsBut offs s t) {off : Nat} (hoff : off ∈ offs) (w : Word) : RegsBut offs s (t.wr off w) :=
  fun j hj => (State.rd_wr_ne t w fun hjo => hj (by rwa [hjo])).trans (h j hj)

theorem RegsBut.setF (h : RegsBut offs s t) {off : Nat} (hoff : off ∈ offs) (lo len v : Nat) :
    RegsBut offs s (t.setF off lo len v) := h.wr hoff _

theorem RegsBut.wrs (h : RegsBut offs s t) {off : Nat} {ws : List Word} (hoff : ∀ k < ws.length, off + 4 * k ∈ offs) :
    RegsBut offs s (t.wrs off ws) := by
  induction ws generalizing t off with
  | nil => exact h
  | cons w ws ih =>
    refine ih (h.wr (hoff 0 (Nat.zero_lt_succ _)) w) fun k hk => ?_
    have hnext := hoff (k + 1) (Nat.succ_lt_succ hk)
    rwa [show off + 4 * (k + 1) = off + 4 + 4 * k by omega] at hnext

theorem RegsBut.signal (h : RegsBut offs s t) : RegsBut offs s (signal s t) := fun j hj => (signal_rd s t j).trans (h j hj)

end

end Sys2Proof.Machine
end

section
/-! Rejected writes (R11, R426): the class C event a rejection counts as, what GLOBAL_STATUS and GLOBAL_REJECT keep of the first
one, what clears them, and the rejected write of a VF. -/
namespace Sys2Proof.Machine

/-! ### A class C event (R341) -/

section
variable (x : FaultAt) (s : State)

theorem raiseC_onlyRegs {u : State} (h : OnlyRegs u s) : OnlyRegs u (raiseC x s) := (h.setF _ _ _ _).wrs _ _

theorem raiseC_regsBut : RegsBut [aFaultCCount x.code, 0x12400, 0x12404, 0x12408, 0x1240C] s (raiseC x s) := by
  refine ((RegsBut.refl _ s).setF List.mem_cons_self 0 32 _).wrs fun k (hk : k < 4) => List.mem_cons_of_mem _ ?_
  interval_cases k <;> decide

/-- The count of a code stops at its largest value. -/
theorem raiseC_count : ((raiseC x s).rd (aFaultCCount x.code)).toNat
    = min ((s.rd (aFaultCCount x.code)).toNat + 1) (2 ^ 32 - 1) := by
  have hlast : RegsBut [0x12400, 0x12404, 0x12408, 0x1240C] (s.addSat (aFaultCCount x.code) 0 32 1) (raiseC x s) :=
    (RegsBut.refl _ _).wrs fun k (hk : k < 4) => by interval_cases k <;> decide
  rw [hlast _ (by simp [aFaultCCount]; omega), ← State.f_eq_toNat, State.addSat, State.f_setF_same _ _ _ (Nat.le_refl 32),
    State.f_eq_toNat, Nat.mod_eq_of_lt (by omega)]

end

/-! ### The first rejection -/

/-- GLOBAL_REJECT of a write of this function: VALID and the stream of a VF, zero for the PF. -/
def rejectWord : Option Nat → Word
  | none => 0
  | some n => BitVec.ofNat 32 (2 ^ 31 + n)

/-- What GLOBAL_STATUS and GLOBAL_REJECT record of a rejection: nothing once REG_REJECT is set. -/
def State.recordReject (vf : Option Nat) (off : Nat) (s : State) : State :=
  if s.bit aGlobalStatus 31 then s
  else ((s.setB aGlobalStatus 31 true).setF aGlobalStatus 0 26 off).wr aGlobalReject (rejectWord vf)

/-- The class C event of a rejection. -/
def rejectEvent (vf : Option Nat) : FaultAt := { cls := 0, code := 0x13, stream := vf, die := 2 }

theorem reject_eq_raiseC (vf : Option Nat) (off : Nat) (s : State) :
    reject vf off s = raiseC (rejectEvent vf) (s.recordReject vf off) := by
  cases vf <;> rfl

section
variable {s : State}

theorem State.recordReject_of_set (h : s.bit aGlobalStatus 31 = true) (vf : Option Nat) (off : Nat) :
    s.recordReject vf off = s := if_pos h

theorem State.recordReject_of_clear (h : s.bit aGlobalStatus 31 = false) (vf : Option Nat) (off : Nat) :
    s.recordReject vf off
      = ((s.setB aGlobalStatus 31 true).setF aGlobalStatus 0 26 off).wr aGlobalReject (rejectWord vf) :=
  if_neg (ne_true_of_eq_false h)

theorem State.recordReject_onlyRegs (s : State) (vf : Option Nat) (off : Nat) : OnlyRegs s (s.recordReject vf off) := by
  unfold State.recordReject; split
  · exact OnlyRegs.refl s
  · exact (((OnlyRegs.refl s).setF _ _ _ _).setF _ _ _ _).wr _ _

theorem State.recordReject_regsBut (s : State) (vf : Option Nat) (off : Nat) :
    RegsBut [aGlobalStatus, aGlobalReject] s (s.recordReject vf off) := by
  unfold State.recordReject; split
  · exact RegsBut.refl _ s
  · exact (((RegsBut.refl _ s).setF (by decide) _ _ _).setF (by decide) _ _ _).wr (by decide) _

theorem State.rd_globalStatus_wr_globalReject (s : State) (w : Word) :
    (s.wr aGlobalReject w).rd aGlobalStatus = s.rd aGlobalStatus := State.rd_wr_ne s w (by decide)

theorem State.recordReject_regReject (s : State) (vf : Option Nat) (off : Nat) :
    (s.recordReject vf off).bit aGlobalStatus 31 = true := by
  unfold State.recordReject; split
  · assumption
  · rw [State.bit_congr (State.rd_globalStatus_wr_globalReject _ _), State.bit_setF _ _ _ _ _ (by decide), if_neg (by decide),
      State.bit_setB_same _ _ _ (by decide)]

theorem State.recordReject_offset (h : s.bit aGlobalStatus 31 = false) (vf : Option Nat) {off : Nat} (hoff : off < 2 ^ 26) :
    (s.recordReject vf off).f aGlobalStatus 0 26 = off := by
  rw [State.recordReject_of_clear h, State.f_congr (State.rd_globalStatus_wr_globalReject _ _),
    State.f_setF_same _ _ _ (by decide), Nat.mod_eq_of_lt hoff]

theorem State.recordReject_globalReject (h : s.bit aGlobalStatus 31 = false) (vf : Option Nat) (off : Nat) :
    (s.recordReject vf off).rd aGlobalReject = rejectWord vf := by
  rw [State.recordReject_of_clear h, State.rd_wr_same]

end

theorem rejectWord_valid (vf : Option StreamIx) : nbit (rejectWord (vf.map (·.val))).toNat 31 = vf.isSome := by
  cases vf with
  | none => rfl
  | some n => simp [rejectWord, nbit]; omega

theorem rejectWord_stream (vf : Option StreamIx) :
    nbits (rejectWord (vf.map (·.val))).toNat 0 8 = (vf.map (·.val)).getD 0 := by
  cases vf with
  | none => rfl
  | some n => simp [rejectWord, nbits]; omega

theorem reject_onlyRegs (vf : Option Nat) (off : Nat) (s : State) : OnlyRegs s (reject vf off s) := by
  rw [reject_eq_raiseC]; exact raiseC_onlyRegs _ _ (s.recordReject_onlyRegs vf off)

theorem reject_regsBut (vf : Option Nat) (off : Nat) (s : State) :
    RegsBut [aGlobalStatus, aGlobalReject, aFaultCCount 0x13, 0x12400, 0x12404, 0x12408, 0x1240C] s (reject vf off s) := by
  rw [reject_eq_raiseC]; exact (s.recordReject_regsBut vf off).trans (raiseC_regsBut (rejectEvent vf) _)

/-- The event leaves the record of the first rejection alone. -/
theorem rd_reject {j : Nat} (hj : j ∈ [aGlobalStatus, aGlobalReject]) (vf : Option Nat) (off : Nat) (s : State) :
    (reject vf off s).rd j = (s.recordReject vf off).rd j := by
  have hother : ∀ k ∈ [aGlobalStatus, aGlobalReject], k ∉ [aFaultCCount 0x13, 0x12400, 0x12404, 0x12408, 0x1240C] := by
    decide
  rw [reject_eq_raiseC]
  exact raiseC_regsBut (rejectEvent vf) _ j (hother j hj)

theorem reject_count (vf : Option Nat) (off : Nat) (s : State) : ((reject vf off s).rd (aFaultCCount 0x13)).toNat
    = min ((s.rd (aFaultCCount 0x13)).toNat + 1) (2 ^ 32 - 1) := by
  rw [reject_eq_raiseC, ← s.recordReject_regsBut vf off _ (by decide)]
  exact raiseC_count (rejectEvent vf) _

/-! ### A write to GLOBAL_STATUS -/

/-- REG_REJECT, ACC_TIMEOUT and ACC_BAD are W1C; a write changes no other bit. -/
theorem written_globalStatus (old v : Nat) :
    written aGlobalStatus old v = old &&& 0xFFFFFFFF &&& (0xFFFFFFFF ^^^ (0xE0000000 &&& v)) := by
  have htaken : accMask aGlobalStatus [.rw, .rws, .stop, .lock, .pf] = 0 := by decide
  have hclear : accMask aGlobalStatus [.w1c] = 0xE0000000 := by decide
  simp only [written, htaken, hclear, Nat.and_zero, Nat.or_zero, Nat.xor_zero]

theorem testBit_w1c_globalStatus {i : Nat} (hi : i < 32) :
    Nat.testBit 0xFFFFFFFF i = true ∧ Nat.testBit 0xE0000000 i = decide (29 ≤ i) := by
  revert i; decide

theorem State.bit_take_globalStatus (s : State) (v : Nat) {i : Nat} (hi : i < 32) :
    (s.take aGlobalStatus v).bit aGlobalStatus i = (s.bit aGlobalStatus i && !(decide (29 ≤ i) && nbit v i)) := by
  obtain ⟨hall, hw1c⟩ := testBit_w1c_globalStatus hi
  rw [State.take, State.bit_wr_ofNat _ _ _ hi, written_globalStatus, State.bit, nbit_eq_testBit, nbit_eq_testBit]
  simp only [Nat.testBit_and, Nat.testBit_xor, hall, hw1c, Bool.and_true, Bool.true_xor]

theorem statusClear_of_set {v : Nat} (h : nbit v 31 = true) (s : State) :
    statusClear v s = ((s.take aGlobalStatus v).setF aGlobalStatus 0 26 0).wr aGlobalReject 0 := if_pos h

theorem statusClear_of_clear {v : Nat} (h : nbit v 31 = false) (s : State) : statusClear v s = s.take aGlobalStatus v :=
  if_neg (ne_true_of_eq_false h)

theorem statusClear_onlyRegs (v : Nat) (s : State) : OnlyRegs s (statusClear v s) := by
  unfold statusClear; dsimp only; split
  · exact (((OnlyRegs.refl s).wr _ _).setF _ _ _ _).wr _ _
  · exact (OnlyRegs.refl s).wr _ _

theorem statusClear_regsBut (v : Nat) (s : State) : RegsBut [aGlobalStatus, aGlobalReject] s (statusClear v s) := by
  have htake : RegsBut [aGlobalStatus, aGlobalReject] s (s.take aGlobalStatus v) := (RegsBut.refl _ s).wr (by decide) _
  unfold statusClear; dsimp only; split
  · exact (htake.setF (by decide) _ _ _).wr (by decide) _
  · exact htake

/-- Above OFFSET the bits are those of a plain write. -/
theorem statusClear_bit (v : Nat) (s : State) {i : Nat} (hlo : 26 ≤ i) (hi : i < 32) :
    (statusClear v s).bit aGlobalStatus i = (s.bit aGlobalStatus i && !(decide (29 ≤ i) && nbit v i)) := by
  rw [← State.bit_take_globalStatus s v hi]
  cases h : nbit v 31 with
  | false => rw [statusClear_of_clear h]
  | true =>
    rw [statusClear_of_set h, State.bit_congr (State.rd_globalStatus_wr_globalReject _ _), State.bit_setF _ _ _ _ _ hi,
      if_neg (by omega)]

theorem statusClear_w1c (v : Nat) (s : State) {i : Nat} (hlo : 29 ≤ i) (hi : i < 32) :
    (statusClear v s).bit aGlobalStatus i = (s.bit aGlobalStatus i && !nbit v i) := by
  rw [statusClear_bit v s (by omega) hi, decide_eq_true hlo, Bool.true_and]

theorem statusClear_ro (v : Nat) (s : State) : (statusClear v s).f aGlobalStatus 26 3 = s.f aGlobalStatus 26 3 :=
  State.f_eq_of_bits fun i hlo hi => by
    rw [statusClear_bit v s hlo (by omega), decide_eq_false (by omega), Bool.false_and, Bool.not_false, Bool.and_true]

theorem statusClear_offset (v : Nat) (s : State) :
    (statusClear v s).f aGlobalStatus 0 26 = if nbit v 31 then 0 else s.f aGlobalStatus 0 26 := by
  cases h : nbit v 31 with
  | false =>
    rw [statusClear_of_clear h]
    refine State.f_eq_of_bits fun i _ hi => ?_
    rw [State.bit_take_globalStatus s v (by omega), decide_eq_false (by omega), Bool.false_and, Bool.not_false, Bool.and_true]
  | true =>
    rw [statusClear_of_set h, State.f_congr (State.rd_globalStatus_wr_globalReject _ _), State.f_setF_same _ _ _ (by decide)]
    rfl

theorem statusClear_globalReject (v : Nat) (s : State) :
    (statusClear v s).rd aGlobalReject = if nbit v 31 then 0 else s.rd aGlobalReject := by
  cases h : nbit v 31 with
  | false => rw [statusClear_of_clear h]; exact State.rd_wr_ne _ _ (by decide)
  | true => rw [statusClear_of_set h, State.rd_wr_same]; rfl

/-! ### A read of GLOBAL_STATUS -/

/-- A 32-bit read that no wake holds back is made at once, also while a fabric reset runs or the dies have no power. -/
theorem exec_counterLowRead_of_not_dozing {fn : Fn} {off : Nat} {s : State} (hdoze : s.dozing off = false)
    (hfn : fn.wellFormed = true) (hal : off % 4 = 0) (hoff : off + 4 ≤ 0x4000000) :
    exec (.counterLowRead fn off) s = .next (signal s (wideRead fn off 32 s)) := by
  change execCounterLowRead fn off s = _
  simp only [execCounterLowRead, hfn, hal, Nat.not_lt.mpr hoff, hdoze, decide_true, Bool.and_true, Bool.and_false,
    Bool.not_true, Bool.false_eq_true, if_false, done]

theorem wideRead_regs (fn : Fn) (off : Nat) (s : State) : (wideRead fn off 32 s).regs = (regRead fn off s).2.regs := rfl

theorem regRead_globalStatus (s : State) : (regRead .pf aGlobalStatus s).2 = s := by
  have hmsix : isMsix aGlobalStatus = false := by decide
  have hdeaf : s.deaf aGlobalStatus = false := by simp [State.deaf, aGlobalStatus]
  have hcnt : counterAt aGlobalStatus = none := by decide
  have hwake : wakeRegion aGlobalStatus s = s := rfl
  have hdbg : dbgRange aGlobalStatus = false := by decide
  have hrec : isRecord aGlobalStatus = false := by decide
  have hreg : (regAt aGlobalStatus).isNone = false := by decide
  have hplain : aGlobalStatus ≠ aJournalData ∧ aGlobalStatus ≠ aKtimeLo := by decide
  have hloc : locate aGlobalStatus = (.glob, aGlobalStatus) := rfl
  simp only [regRead, State.seesReg, hmsix, hdeaf, hcnt, hwake, hdbg, hrec, hreg, hplain, hloc, Bool.not_true,
    Bool.and_false, Bool.false_eq_true, if_false]

/-! ### The rejected write of a VF -/

/-- A served, aligned 32-bit write is `regWrite` (R424). -/
theorem exec_registerWrite_of_served {fn : Fn} {off : Nat} {s : State} (hs : Served s) (hfn : fn.wellFormed = true)
    (hal : off % 4 = 0) (hoff : off + 4 ≤ 0x4000000) (w : Word) :
    exec (.registerWrite fn off 32 (w.setWidth 64)) s = .next (signal s (regWrite fn off w s)) := by
  have hwidth : widthOk 32 = true := rfl
  have hword : (w.setWidth 64).setWidth 32 = w := by simp
  change execRegisterWrite fn off 32 _ s = _
  simp [execRegisterWrite, wideWrite, hfn, hwidth, hword, hal, Nat.not_lt.mpr hoff, hs.dozing_eq, done]

section
variable {n rel : Nat}

theorem locate_streamPage (hn : n < 256) (hrel : rel < 0x1000) : locate (streamPage n + rel) = (.stream n, rel) := by
  have hchan : ¬ streamPage n + rel < 0x29000 := by simp only [streamPage]; omega
  have hferry : ¬ streamPage n + rel < 0x60000 := by simp only [streamPage]; omega
  have hlo : 0x100000 ≤ streamPage n + rel := by simp only [streamPage]; omega
  have hhi : streamPage n + rel < 0x200000 := by simp only [streamPage]; omega
  have hpage : (streamPage n + rel - 0x100000) / 0x1000 = n := by simp only [streamPage]; omega
  have hin : (streamPage n + rel) % 0x1000 = rel := by simp only [streamPage]; omega
  simp [locate, hchan, hferry, hlo, hhi, hpage, hin]

theorem seesReg_own_streamPage {n : StreamIx} (hrel : rel < 0x1000) (s : State) :
    s.seesReg (.vf n) (streamPage n.val + rel) = true := by
  have hpage : (streamPage n.val + rel - 0x100000) / 0x1000 = n.val ∧ 0x100000 ≤ streamPage n.val + rel
      ∧ streamPage n.val + rel < 0x200000 := by simp only [streamPage]; omega
  simp only [State.seesReg, hpage, and_self, decide_true, Bool.or_true, Bool.true_or]

theorem isMsix_streamPage : isMsix (streamPage n + rel) = false := by
  have htab : ¬ streamPage n + rel < 0x8080 := by simp only [streamPage]; omega
  have hpba : ¬ streamPage n + rel < 0x9008 := by simp only [streamPage]; omega
  simp [isMsix, htab, hpba]

theorem dbgRange_streamPage (hn : n < 256) (hrel : rel < 0x1000) : dbgRange (streamPage n + rel) = false := by
  have hdebug : ¬ 0x400000 ≤ streamPage n + rel := by simp only [streamPage]; omega
  simp [dbgRange, locate_streamPage hn hrel, hdebug]

theorem wakeRegion_streamPage (hn : n < 256) (hrel : rel < 0x1000) (s : State) : wakeRegion (streamPage n + rel) s = s :=
  if_neg (by simp only [streamPage]; omega)

end

/-- R10: a write of a reserved encoding to the VF's own stream page is dropped whole, at its window A offset. -/
theorem regWrite_vf_of_reserved {n : StreamIx} {rel : Nat} {w : Word} {s : State} (hs : Served s) (hrel : rel < 0x1000)
    (hreg : (regAt (streamPage n.val + rel)).isSome = true) (hw : fieldsLegal (streamPage n.val + rel) w.toNat = false) :
    regWrite (.vf n) (streamPage n.val + rel) w s = reject (some n.val) (streamPage n.val + rel) s := by
  have hlisted : (regAt (streamPage n.val + rel)).isNone = false := by
    rw [← Option.not_isSome, hreg]; rfl
  simp [regWrite, fnStream, seesReg_own_streamPage hrel, isMsix_streamPage, hs.deaf_eq, dbgRange_streamPage n.isLt hrel,
    hlisted, wakeRegion_streamPage n.isLt hrel, hw]

/-- Settles O8: a rejection is the record of the first one followed by its class C event, which leaves the record alone; the
clear is a W1C write followed by the clearing of OFFSET and GLOBAL_REJECT. -/
theorem firstRejectionIsKept : Obligations.FirstRejectionIsKept := by
  intro vf n off rel v w s
  refine ⟨fun hoff => ⟨reject_onlyRegs _ _ _, reject_regsBut _ _ _, ?_, fun hset => ?_, fun hclear => ⟨?_, ?_, ?_⟩,
    reject_count _ _ _⟩, ?_, ?_, fun hs hn hal hrel hreg hw => ?_⟩
  · rw [State.bit_congr (rd_reject (by decide) _ _ _)]
    exact s.recordReject_regReject _ _
  · rw [rd_reject (by decide), rd_reject (by decide), State.recordReject_of_set hset]
    exact ⟨rfl, rfl⟩
  · rw [State.f_congr (rd_reject (by decide) _ _ _), State.recordReject_offset hclear _ hoff]
  · rw [State.bit, rd_reject (by decide), State.recordReject_globalReject hclear, rejectWord_valid]
  · rw [State.f, rd_reject (by decide), State.recordReject_globalReject hclear, rejectWord_stream]
  · refine ⟨_, rfl, (statusClear_onlyRegs _ s).signal, (statusClear_regsBut _ s).signal, fun i hlo hi => ?_, ?_, ?_, ?_⟩
    · rw [State.bit_congr (signal_rd _ _ _), statusClear_w1c _ _ hlo hi]
    · rw [State.f_congr (signal_rd _ _ _), statusClear_ro]
    · rw [State.f_congr (signal_rd _ _ _), statusClear_offset]
    · rw [signal_rd, statusClear_globalReject]
  · have hdoze : s.dozing aGlobalStatus = false := by simp [State.dozing, aGlobalStatus]
    exact ⟨_, exec_counterLowRead_of_not_dozing hdoze rfl rfl (by decide), by
      rw [signal_regs, wideRead_regs, regRead_globalStatus]⟩
  · have hwf : (Fn.vf n).wellFormed = true := decide_eq_true hn
    have halign : (streamPage n.val + rel) % 4 = 0 := by simp only [streamPage]; omega
    have hinside : streamPage n.val + rel + 4 ≤ 0x4000000 := by simp only [streamPage]; omega
    rw [exec_registerWrite_of_served hs hwf halign hinside, regWrite_vf_of_reserved hs hrel hreg hw]

/-! ### The hypotheses are met -/

theorem served_reset : Served State.reset := ⟨by decide, by decide, by decide⟩

/-- VF 1 writes the reserved size 9 to its SQ_SIZE at reset: GLOBAL_STATUS and GLOBAL_REJECT name that write. -/
theorem exec_registerWrite_reserved_sqSize : ∃ t, exec (.registerWrite (.vf 1) 0x101028 32 9) State.reset = .next t
    ∧ t.rd aGlobalStatus = 0x80101028 ∧ t.rd aGlobalReject = 0x80000001 := by
  obtain ⟨-, -, -, hvf⟩ := firstRejectionIsKept none 1 0 0x28 0 9 State.reset
  refine ⟨_, hvf served_reset (by decide) rfl (by decide) (by decide) (by decide), ?_, ?_⟩
  · rw [signal_rd, rd_reject (by decide)]; decide
  · rw [signal_rd, rd_reject (by decide)]; decide

/-- Reset, with that write of VF 1 rejected. -/
def rejectedState : State := reject (some 1) 0x101028 State.reset

/-- A later rejection of the PF, at the last offset of window A, leaves the record of VF 1's. -/
theorem reject_rejectedState : (reject none 0x3FFFFFC rejectedState).rd aGlobalStatus = rejectedState.rd aGlobalStatus
    ∧ (reject none 0x3FFFFFC rejectedState).rd aGlobalReject = rejectedState.rd aGlobalReject := by
  obtain ⟨hrej, -⟩ := firstRejectionIsKept none 1 0x3FFFFFC 0 0 0 rejectedState
  obtain ⟨-, -, -, hkept, -⟩ := hrej (by decide)
  refine hkept ?_
  rw [rejectedState, State.bit_congr (rd_reject (by decide) _ _ _), State.recordReject_regReject]

end Sys2Proof.Machine
end

section
/-! What the shared operations leave unchanged: the end of a command (R427), messages, counts, and writes to a field. -/
namespace Sys2Proof.Machine

/-! ### The end of a command -/

/-- A command's end touches the summary, the queue, and messages alone. -/
theorem signal_eq (s u : State) :
    ∃ o w, signal s u = { u with src := intSum u, pending := s.pending, outbox := o, waiting := w } := by
  unfold signal State.msix; dsimp only; split <;> split <;> (try split) <;> (try split) <;> exact ⟨_, _, rfl⟩

theorem msix_eq (s : State) (fn vector : Nat) : ∃ o w, s.msix fn vector = { s with outbox := o, waiting := w } := by
  unfold State.msix; split <;> exact ⟨_, _, rfl⟩

section
variable (s u : State)

@[simp] theorem signal_active : (signal s u).active = u.active := by obtain ⟨o, w, h⟩ := signal_eq s u; rw [h]
@[simp] theorem signal_counters : (signal s u).counters = u.counters := by obtain ⟨o, w, h⟩ := signal_eq s u; rw [h]
@[simp] theorem signal_msixTab : (signal s u).msixTab = u.msixTab := by obtain ⟨o, w, h⟩ := signal_eq s u; rw [h]
@[simp] theorem signal_streams : (signal s u).streams = u.streams := by obtain ⟨o, w, h⟩ := signal_eq s u; rw [h]
@[simp] theorem signal_chans : (signal s u).chans = u.chans := by obtain ⟨o, w, h⟩ := signal_eq s u; rw [h]
@[simp] theorem signal_press : (signal s u).press = u.press := by obtain ⟨o, w, h⟩ := signal_eq s u; rw [h]
@[simp] theorem signal_gate : (signal s u).gate = u.gate := by obtain ⟨o, w, h⟩ := signal_eq s u; rw [h]
@[simp] theorem signal_tiles : (signal s u).tiles = u.tiles := by obtain ⟨o, w, h⟩ := signal_eq s u; rw [h]
@[simp] theorem signal_seqs : (signal s u).seqs = u.seqs := by obtain ⟨o, w, h⟩ := signal_eq s u; rw [h]
@[simp] theorem signal_granted : (signal s u).granted = u.granted := by obtain ⟨o, w, h⟩ := signal_eq s u; rw [h]
@[simp] theorem signal_replies : (signal s u).replies = u.replies := by obtain ⟨o, w, h⟩ := signal_eq s u; rw [h]
@[simp] theorem signal_uses : (signal s u).uses = u.uses := by obtain ⟨o, w, h⟩ := signal_eq s u; rw [h]
@[simp] theorem signal_images : (signal s u).images = u.images := by obtain ⟨o, w, h⟩ := signal_eq s u; rw [h]
@[simp] theorem signal_layOp : (signal s u).layOp = u.layOp := by obtain ⟨o, w, h⟩ := signal_eq s u; rw [h]
@[simp] theorem signal_staging : (signal s u).staging = u.staging := by obtain ⟨o, w, h⟩ := signal_eq s u; rw [h]
@[simp] theorem signal_loads : (signal s u).loads = u.loads := by obtain ⟨o, w, h⟩ := signal_eq s u; rw [h]
@[simp] theorem signal_ferries : (signal s u).ferries = u.ferries := by obtain ⟨o, w, h⟩ := signal_eq s u; rw [h]
@[simp] theorem signal_edges : (signal s u).edges = u.edges := by obtain ⟨o, w, h⟩ := signal_eq s u; rw [h]
@[simp] theorem signal_cwy : (signal s u).cwy = u.cwy := by obtain ⟨o, w, h⟩ := signal_eq s u; rw [h]
@[simp] theorem signal_fabric : (signal s u).fabric = u.fabric := by obtain ⟨o, w, h⟩ := signal_eq s u; rw [h]
@[simp] theorem signal_under : (signal s u).under = u.under := by obtain ⟨o, w, h⟩ := signal_eq s u; rw [h]
@[simp] theorem signal_power : (signal s u).power = u.power := by obtain ⟨o, w, h⟩ := signal_eq s u; rw [h]
@[simp] theorem signal_journal : (signal s u).journal = u.journal := by obtain ⟨o, w, h⟩ := signal_eq s u; rw [h]
@[simp] theorem signal_keys : (signal s u).keys = u.keys := by obtain ⟨o, w, h⟩ := signal_eq s u; rw [h]
@[simp] theorem signal_test : (signal s u).test = u.test := by obtain ⟨o, w, h⟩ := signal_eq s u; rw [h]
@[simp] theorem signal_tray : (signal s u).tray = u.tray := by obtain ⟨o, w, h⟩ := signal_eq s u; rw [h]
@[simp] theorem signal_time : (signal s u).time = u.time := by obtain ⟨o, w, h⟩ := signal_eq s u; rw [h]
@[simp] theorem signal_hostMem : (signal s u).hostMem = u.hostMem := by obtain ⟨o, w, h⟩ := signal_eq s u; rw [h]
@[simp] theorem signal_free : (signal s u).free = u.free := by obtain ⟨o, w, h⟩ := signal_eq s u; rw [h]

@[simp] theorem signal_act (off : Nat) : (signal s u).act off = u.act off := by simp only [State.act, signal_active]
@[simp] theorem signal_f (off lo len : Nat) : (signal s u).f off lo len = u.f off lo len := by simp only [State.f, signal_rd]
@[simp] theorem signal_bit (off i : Nat) : (signal s u).bit off i = u.bit off i := by simp only [State.bit, signal_rd]
@[simp] theorem signal_tile (t : Nat) : (signal s u).tile t = u.tile t := by simp only [State.tile, signal_tiles]
@[simp] theorem signal_seq (g : Nat) : (signal s u).seq g = u.seq g := by simp only [State.seq, signal_seqs]
@[simp] theorem signal_stream (n : Nat) : (signal s u).stream n = u.stream n := by simp only [State.stream, signal_streams]
@[simp] theorem signal_chan (c : Nat) : (signal s u).chan c = u.chan c := by simp only [State.chan, signal_chans]
@[simp] theorem signal_ferry (k : Nat) : (signal s u).ferry k = u.ferry k := by simp only [State.ferry, signal_ferries]
@[simp] theorem signal_edge (e : Nat) : (signal s u).edge e = u.edge e := by simp only [State.edge, signal_edges]
@[simp] theorem signal_link (l : Nat) : (signal s u).link l = u.link l := by simp only [State.link, signal_cwy]
@[simp] theorem signal_grp (k : Nat) : (signal s u).grp k = u.grp k := by simp only [State.grp, signal_under]
@[simp] theorem signal_image (k : Nat) : (signal s u).image k = u.image k := by simp only [State.image, signal_images]
@[simp] theorem signal_cnt (off : Nat) : (signal s u).cnt off = u.cnt off := by simp only [State.cnt, signal_counters]
@[simp] theorem signal_timer (k : Nat) : (signal s u).timer k = u.timer k := by simp only [State.timer, signal_press]
@[simp] theorem signal_st (n : Nat) : (signal s u).st n = u.st n := signal_f _ _ _ _ _
@[simp] theorem signal_phase (g : Nat) : (signal s u).phase g = u.phase g := signal_f _ _ _ _ _

end

theorem onlyRegs_signal_self (s : State) : OnlyRegs s (signal s s) := (OnlyRegs.refl s).signal

theorem State.mem_outbox_emit (s : State) (o : Output) : o ∈ (s.emit o).outbox := List.mem_append_right _ List.mem_cons_self

theorem State.rd_withPower (t : State) (p : Power) (j : Nat) : { t with power := p }.rd j = t.rd j := rfl
theorem State.rd_withMem (t : State) (m : Mem) (j : Nat) : { t with mem := m }.rd j = t.rd j := rfl

/-! ### Counts (R388) -/

theorem State.count_eq (s : State) (off k : Nat) : ∃ c, s.count off k = { s with counters := c } := by
  unfold State.count; split
  · exact ⟨s.counters, rfl⟩
  · exact ⟨_, rfl⟩

theorem State.count_of_frozen {s : State} (h : s.bit aObsCtl 0 = true) (off k : Nat) : s.count off k = s := if_pos h

theorem State.cnt_count (s : State) (h : s.bit aObsCtl 0 = false) (off k : Nat) :
    (s.count off k).cnt off = s.cnt off + BitVec.ofNat 64 k := by
  rw [State.count, h]; exact tget_tset_same _ _ _ _

section
variable (s : State) (off k : Nat)

@[simp] theorem State.count_pending : (s.count off k).pending = s.pending := by obtain ⟨c, h⟩ := s.count_eq off k; rw [h]
@[simp] theorem State.count_regs : (s.count off k).regs = s.regs := by obtain ⟨c, h⟩ := s.count_eq off k; rw [h]
@[simp] theorem State.count_active : (s.count off k).active = s.active := by obtain ⟨c, h⟩ := s.count_eq off k; rw [h]
@[simp] theorem State.count_src : (s.count off k).src = s.src := by obtain ⟨c, h⟩ := s.count_eq off k; rw [h]
@[simp] theorem State.count_msixTab : (s.count off k).msixTab = s.msixTab := by obtain ⟨c, h⟩ := s.count_eq off k; rw [h]
@[simp] theorem State.count_streams : (s.count off k).streams = s.streams := by obtain ⟨c, h⟩ := s.count_eq off k; rw [h]
@[simp] theorem State.count_chans : (s.count off k).chans = s.chans := by obtain ⟨c, h⟩ := s.count_eq off k; rw [h]
@[simp] theorem State.count_press : (s.count off k).press = s.press := by obtain ⟨c, h⟩ := s.count_eq off k; rw [h]
@[simp] theorem State.count_gate : (s.count off k).gate = s.gate := by obtain ⟨c, h⟩ := s.count_eq off k; rw [h]
@[simp] theorem State.count_tiles : (s.count off k).tiles = s.tiles := by obtain ⟨c, h⟩ := s.count_eq off k; rw [h]
@[simp] theorem State.count_seqs : (s.count off k).seqs = s.seqs := by obtain ⟨c, h⟩ := s.count_eq off k; rw [h]
@[simp] theorem State.count_tms : (s.count off k).tms = s.tms := by obtain ⟨c, h⟩ := s.count_eq off k; rw [h]
@[simp] theorem State.count_tmq : (s.count off k).tmq = s.tmq := by obtain ⟨c, h⟩ := s.count_eq off k; rw [h]
@[simp] theorem State.count_granted : (s.count off k).granted = s.granted := by obtain ⟨c, h⟩ := s.count_eq off k; rw [h]
@[simp] theorem State.count_replies : (s.count off k).replies = s.replies := by obtain ⟨c, h⟩ := s.count_eq off k; rw [h]
@[simp] theorem State.count_uses : (s.count off k).uses = s.uses := by obtain ⟨c, h⟩ := s.count_eq off k; rw [h]
@[simp] theorem State.count_images : (s.count off k).images = s.images := by obtain ⟨c, h⟩ := s.count_eq off k; rw [h]
@[simp] theorem State.count_layOp : (s.count off k).layOp = s.layOp := by obtain ⟨c, h⟩ := s.count_eq off k; rw [h]
@[simp] theorem State.count_staging : (s.count off k).staging = s.staging := by obtain ⟨c, h⟩ := s.count_eq off k; rw [h]
@[simp] theorem State.count_loads : (s.count off k).loads = s.loads := by obtain ⟨c, h⟩ := s.count_eq off k; rw [h]
@[simp] theorem State.count_ferries : (s.count off k).ferries = s.ferries := by obtain ⟨c, h⟩ := s.count_eq off k; rw [h]
@[simp] theorem State.count_edges : (s.count off k).edges = s.edges := by obtain ⟨c, h⟩ := s.count_eq off k; rw [h]
@[simp] theorem State.count_cwy : (s.count off k).cwy = s.cwy := by obtain ⟨c, h⟩ := s.count_eq off k; rw [h]
@[simp] theorem State.count_fabric : (s.count off k).fabric = s.fabric := by obtain ⟨c, h⟩ := s.count_eq off k; rw [h]
@[simp] theorem State.count_under : (s.count off k).under = s.under := by obtain ⟨c, h⟩ := s.count_eq off k; rw [h]
@[simp] theorem State.count_power : (s.count off k).power = s.power := by obtain ⟨c, h⟩ := s.count_eq off k; rw [h]
@[simp] theorem State.count_journal : (s.count off k).journal = s.journal := by obtain ⟨c, h⟩ := s.count_eq off k; rw [h]
@[simp] theorem State.count_keys : (s.count off k).keys = s.keys := by obtain ⟨c, h⟩ := s.count_eq off k; rw [h]
@[simp] theorem State.count_test : (s.count off k).test = s.test := by obtain ⟨c, h⟩ := s.count_eq off k; rw [h]
@[simp] theorem State.count_tray : (s.count off k).tray = s.tray := by obtain ⟨c, h⟩ := s.count_eq off k; rw [h]
@[simp] theorem State.count_time : (s.count off k).time = s.time := by obtain ⟨c, h⟩ := s.count_eq off k; rw [h]
@[simp] theorem State.count_outbox : (s.count off k).outbox = s.outbox := by obtain ⟨c, h⟩ := s.count_eq off k; rw [h]
@[simp] theorem State.count_waiting : (s.count off k).waiting = s.waiting := by obtain ⟨c, h⟩ := s.count_eq off k; rw [h]
@[simp] theorem State.count_free : (s.count off k).free = s.free := by obtain ⟨c, h⟩ := s.count_eq off k; rw [h]
@[simp] theorem State.count_mem : (s.count off k).mem = s.mem := by obtain ⟨c, h⟩ := s.count_eq off k; rw [h]
@[simp] theorem State.count_hostMem : (s.count off k).hostMem = s.hostMem := by obtain ⟨c, h⟩ := s.count_eq off k; rw [h]
@[simp] theorem State.count_rd (j : Nat) : (s.count off k).rd j = s.rd j := by simp only [State.rd, State.count_regs]
@[simp] theorem State.count_f (j lo len : Nat) : (s.count off k).f j lo len = s.f j lo len := by simp only [State.f, State.count_rd]
@[simp] theorem State.count_bit (j i : Nat) : (s.count off k).bit j i = s.bit j i := by simp only [State.bit, State.count_rd]

end

/-! ### A write to a field -/

theorem OnlyRegs.setB {s t : State} (h : OnlyRegs s t) (off i : Nat) (b : Bool) : OnlyRegs s (t.setB off i b) := h.setF _ _ _ _

theorem RegsBut.setB {offs : List Nat} {s t : State} (h : RegsBut offs s t) {off : Nat} (hoff : off ∈ offs) (i : Nat)
    (b : Bool) : RegsBut offs s (t.setB off i b) := h.setF hoff _ _ _

section
variable (s : State) (off lo len v : Nat)

@[simp] theorem State.setF_pending : (s.setF off lo len v).pending = s.pending := rfl
@[simp] theorem State.setF_active : (s.setF off lo len v).active = s.active := rfl
@[simp] theorem State.setF_src : (s.setF off lo len v).src = s.src := rfl
@[simp] theorem State.setF_counters : (s.setF off lo len v).counters = s.counters := rfl
@[simp] theorem State.setF_msixTab : (s.setF off lo len v).msixTab = s.msixTab := rfl
@[simp] theorem State.setF_streams : (s.setF off lo len v).streams = s.streams := rfl
@[simp] theorem State.setF_chans : (s.setF off lo len v).chans = s.chans := rfl
@[simp] theorem State.setF_press : (s.setF off lo len v).press = s.press := rfl
@[simp] theorem State.setF_gate : (s.setF off lo len v).gate = s.gate := rfl
@[simp] theorem State.setF_tiles : (s.setF off lo len v).tiles = s.tiles := rfl
@[simp] theorem State.setF_seqs : (s.setF off lo len v).seqs = s.seqs := rfl
@[simp] theorem State.setF_tms : (s.setF off lo len v).tms = s.tms := rfl
@[simp] theorem State.setF_tmq : (s.setF off lo len v).tmq = s.tmq := rfl
@[simp] theorem State.setF_granted : (s.setF off lo len v).granted = s.granted := rfl
@[simp] theorem State.setF_replies : (s.setF off lo len v).replies = s.replies := rfl
@[simp] theorem State.setF_uses : (s.setF off lo len v).uses = s.uses := rfl
@[simp] theorem State.setF_images : (s.setF off lo len v).images = s.images := rfl
@[simp] theorem State.setF_layOp : (s.setF off lo len v).layOp = s.layOp := rfl
@[simp] theorem State.setF_staging : (s.setF off lo len v).staging = s.staging := rfl
@[simp] theorem State.setF_loads : (s.setF off lo len v).loads = s.loads := rfl
@[simp] theorem State.setF_ferries : (s.setF off lo len v).ferries = s.ferries := rfl
@[simp] theorem State.setF_mem : (s.setF off lo len v).mem = s.mem := rfl
@[simp] theorem State.setF_edges : (s.setF off lo len v).edges = s.edges := rfl
@[simp] theorem State.setF_cwy : (s.setF off lo len v).cwy = s.cwy := rfl
@[simp] theorem State.setF_fabric : (s.setF off lo len v).fabric = s.fabric := rfl
@[simp] theorem State.setF_under : (s.setF off lo len v).under = s.under := rfl
@[simp] theorem State.setF_power : (s.setF off lo len v).power = s.power := rfl
@[simp] theorem State.setF_journal : (s.setF off lo len v).journal = s.journal := rfl
@[simp] theorem State.setF_keys : (s.setF off lo len v).keys = s.keys := rfl
@[simp] theorem State.setF_test : (s.setF off lo len v).test = s.test := rfl
@[simp] theorem State.setF_tray : (s.setF off lo len v).tray = s.tray := rfl
@[simp] theorem State.setF_time : (s.setF off lo len v).time = s.time := rfl
@[simp] theorem State.setF_hostMem : (s.setF off lo len v).hostMem = s.hostMem := rfl
@[simp] theorem State.setF_outbox : (s.setF off lo len v).outbox = s.outbox := rfl
@[simp] theorem State.setF_waiting : (s.setF off lo len v).waiting = s.waiting := rfl
@[simp] theorem State.setF_free : (s.setF off lo len v).free = s.free := rfl

end

section
variable (s : State) {off j : Nat} (lo len v : Nat)

theorem State.rd_setF_ne (h : j ≠ off) : (s.setF off lo len v).rd j = s.rd j := State.rd_wr_ne _ _ h

theorem State.f_setF_ne (h : j ≠ off) (a b : Nat) : (s.setF off lo len v).f j a b = s.f j a b :=
  State.f_congr (s.rd_setF_ne lo len v h) a b

theorem State.bit_setF_ne (h : j ≠ off) (i : Nat) : (s.setF off lo len v).bit j i = s.bit j i :=
  State.bit_congr (s.rd_setF_ne lo len v h) i

theorem State.f_setB_ne (h : j ≠ off) (i : Nat) (x : Bool) (a b : Nat) : (s.setB off i x).f j a b = s.f j a b :=
  s.f_setF_ne i 1 _ h a b

theorem State.bit_setB_ne (h : j ≠ off) (i : Nat) (x : Bool) (k : Nat) : (s.setB off i x).bit j k = s.bit j k :=
  s.bit_setF_ne i 1 _ h k

/-- Another bit of the register. -/
theorem State.bit_setB_of_ne {i k : Nat} (h : k ≠ i) (hk : k < 32) (x : Bool) : (s.setB off i x).bit off k = s.bit off k := by
  rw [State.setB, State.bit_setF _ _ _ _ _ hk, if_neg (by omega)]

/-- A field beside the one written. -/
theorem State.f_setF_of_disjoint {a b : Nat} (h : a + b ≤ lo ∨ lo + len ≤ a) (hb : a + b ≤ 32) :
    (s.setF off lo len v).f off a b = s.f off a b :=
  State.f_eq_of_bits fun i hlo hi => by rw [State.bit_setF _ _ _ _ _ (by omega), if_neg (by omega)]

theorem State.f_setB_of_disjoint {i a b : Nat} (h : a + b ≤ i ∨ i < a) (hb : a + b ≤ 32) (x : Bool) :
    (s.setB off i x).f off a b = s.f off a b := s.f_setF_of_disjoint i 1 _ (by omega) hb

/-- A bit beside the field written. -/
theorem State.bit_setF_of_disjoint {i : Nat} (h : i < lo ∨ lo + len ≤ i) (hi : i < 32) :
    (s.setF off lo len v).bit off i = s.bit off i := by rw [State.bit_setF _ _ _ _ _ hi, if_neg (by omega)]

end

end Sys2Proof.Machine
end

section
/-! One step: the queue it leaves (00), and the interrupt summary (R427). -/
namespace Sys2Proof.Machine

/-! ### What a step leaves -/

/-- Settles O1: by the step's definition. -/
theorem stepRunsFront : Obligations.StepRunsFront := fun _ _ _ => rfl

/-- A step leaves the state without the front command, or what `signal` makes of some state. -/
theorem step_cases {s t : State} (h : step s = .next t) :
    t = { s with pending := s.pending.tail } ∨ ∃ r u, t = signal r u ∧ r.pending = s.pending.tail := by
  unfold step at h
  split at h
  case h_1 hq =>
    cases h
    exact .inr ⟨s, _, rfl, by rw [hq]; rfl⟩
  case h_2 c rest hq =>
    have htail : s.pending.tail = rest := by rw [hq]; rfl
    rw [htail]
    obtain hsame | ⟨u, hu⟩ := exec_shape c { s with pending := rest } t h
    · exact .inl hsame
    · exact .inr ⟨_, u, hu, rfl⟩

/-- Settles O2: the front command leaves the queue before it runs, and neither `signal` nor an idle answer changes the queue. -/
theorem queueIsFirstInFirstOut : Obligations.QueueIsFirstInFirstOut := by
  intro s t h
  obtain rfl | ⟨r, u, rfl, hr⟩ := step_cases h
  · rfl
  · rw [signal_pending, hr]

/-! ### The summary -/

theorem b2n_le_one (b : Bool) : b2n b ≤ 1 := by cases b <;> decide

theorem nbit_eq_true_iff {n i : Nat} {b : Bool} (h : n / 2 ^ i % 2 = b2n b) : nbit n i = true ↔ b = true := by
  rw [nbit, h]; cases b <;> decide

/-- Each source has a bit of its own in the sum. -/
theorem nbit_sum_of_sources (b0 b1 b2 b3 b4 b5 b6 b7 b8 b9 : Bool) {n : Nat}
    (h : n = b2n b0 + 2 * b2n b1 + 4 * b2n b2 + 8 * b2n b3 + 16 * b2n b4 + 32 * b2n b5 + 64 * b2n b6 + 128 * b2n b7
      + 256 * b2n b8 + 512 * b2n b9) :
    n < 1024 ∧ (nbit n 0 = true ↔ b0 = true) ∧ (nbit n 1 = true ↔ b1 = true) ∧ (nbit n 2 = true ↔ b2 = true)
      ∧ (nbit n 3 = true ↔ b3 = true) ∧ (nbit n 4 = true ↔ b4 = true) ∧ (nbit n 5 = true ↔ b5 = true)
      ∧ (nbit n 6 = true ↔ b6 = true) ∧ (nbit n 7 = true ↔ b7 = true) ∧ (nbit n 8 = true ↔ b8 = true)
      ∧ (nbit n 9 = true ↔ b9 = true) := by
  have h0 := b2n_le_one b0
  have h1 := b2n_le_one b1
  have h2 := b2n_le_one b2
  have h3 := b2n_le_one b3
  have h4 := b2n_le_one b4
  have h5 := b2n_le_one b5
  have h6 := b2n_le_one b6
  have h7 := b2n_le_one b7
  have h8 := b2n_le_one b8
  have h9 := b2n_le_one b9
  refine ⟨by omega, ?_, ?_, ?_, ?_, ?_, ?_, ?_, ?_, ?_, ?_⟩
  all_goals exact nbit_eq_true_iff (by omega)

theorem any_range_eq_true {n : Nat} {p : Nat → Bool} : (List.range n).any p = true ↔ ∃ i < n, p i = true := by simp

theorem summaryOk_of_src {t : State} (h : t.src = intSum t) : SummaryOk t := by
  obtain ⟨hlt, h0, h1, h2, h3, h4, h5, h6, h7, h8, h9⟩ := nbit_sum_of_sources _ _ _ _ _ _ _ _ _ _ h
  simp only [Bool.or_eq_true, decide_eq_true_eq, any_range_eq_true, or_assoc] at h0 h1 h2 h3 h4 h5 h6 h7 h8 h9
  exact ⟨hlt, h0, h1, h2, h3, h4, h5, h6, h7, h8, h9⟩

theorem signal_summaryOk (s u : State) : SummaryOk (signal s u) :=
  summaryOk_of_src ((signal_src s u).trans (intSum_congr (signal_regs s u)).symm)

/-- Settles O4: `signal` computes the summary anew; a step that does not end in it changes no register and no summary. -/
theorem summaryIsTheOrOfItsSources : Obligations.SummaryIsTheOrOfItsSources := by
  intro s t hs h
  obtain rfl | ⟨r, u, rfl, -⟩ := step_cases h
  · exact hs
  · exact signal_summaryOk r u

end Sys2Proof.Machine
end

section
/-! One hk of the device's clocks on an empty queue (R377, R388). -/
namespace Sys2Proof.Machine

/-- What an idle hk changes beside the time itself: nothing of the time, and no counter that FREEZE holds. -/
def KeepsTime (s t : State) : Prop :=
  t.time = s.time ∧ t.rd aObsCtl = s.rd aObsCtl ∧ (s.bit aObsCtl 0 = true → t.counters = s.counters)

theorem KeepsTime.refl (s : State) : KeepsTime s s := ⟨rfl, rfl, fun _ => rfl⟩

theorem KeepsTime.trans {s t u : State} (h : KeepsTime s t) (h' : KeepsTime t u) : KeepsTime s u := by
  obtain ⟨htime, hobs, hcnt⟩ := h
  obtain ⟨htime', hobs', hcnt'⟩ := h'
  refine ⟨htime'.trans htime, hobs'.trans hobs, fun hf => (hcnt' ?_).trans (hcnt hf)⟩
  rw [State.bit_congr hobs]; exact hf

section
variable {s t : State} (h : KeepsTime s t)
include h

theorem KeepsTime.count (off k : Nat) : KeepsTime s (t.count off k) :=
  h.trans ⟨by simp, by simp, fun hf => by rw [State.count_of_frozen hf]⟩

theorem KeepsTime.modSeq (g : Nat) (f : Seq → Seq) : KeepsTime s (t.modSeq g f) := h.trans ⟨rfl, rfl, fun _ => rfl⟩

theorem KeepsTime.setF {off : Nat} (hoff : aObsCtl ≠ off) (lo len v : Nat) : KeepsTime s (t.setF off lo len v) :=
  h.trans ⟨rfl, t.rd_setF_ne lo len v hoff, fun _ => rfl⟩

theorem KeepsTime.each {α : Type} (l : List α) (f : State → α → State) (hf : ∀ u x, KeepsTime s u → KeepsTime s (f u x)) :
    KeepsTime s (each l t f) := each_keep (KeepsTime s) f hf l t h

end

theorem KeepsTime.ite {s t u : State} {c : Prop} [Decidable c] (ht : KeepsTime s t) (hu : KeepsTime s u) :
    KeepsTime s (if c then t else u) := by split <;> assumption

theorem KeepsTime.tileTick {s u : State} (h : KeepsTime s u) (armed : Bool) (k t : Nat) :
    KeepsTime s (tileTick armed k u t) := by
  have hengines := h.each (List.range 4)
    (fun v e => v.count (cTile t (5 * e + (if armed then 2 else engineState u t e))) k) (fun v e hv => hv.count _ _)
  have hreplay := KeepsTime.ite (c := (u.tile t).replay.isSome = true) (hengines.count (cTile t 21) k) hengines
  have hout := KeepsTime.ite (c := (u.tile t).disp.out.isEmpty = true) hreplay (hreplay.count (cTile t 37) k)
  refine (hout.each _ _ fun v q hv => ?_).each _ _ fun v d hv => ?_
  · exact KeepsTime.ite ((hv.count _ _).count _ _) (KeepsTime.ite ((hv.count _ _).count _ _) (hv.count _ _))
  · have hholds := fun (c : Prop) [Decidable c] => KeepsTime.ite (c := c) (hv.count (cTile t (89 + 4 * d)) k) hv
    exact KeepsTime.ite ((hholds _).count _ _) (hholds _)

theorem KeepsTime.regionTick {s u : State} (h : KeepsTime s u) (g k : Nat) : KeepsTime s (regionTick g k u) := by
  have hpwr : aObsCtl ≠ aRegionPwr g := by simp only [aObsCtl, aRegionPwr, seqPage]; omega
  have hclock := (h.modSeq g (fun q => { q with rc := (q.rc + k) % 2 ^ 32 })).count (cSeq g 15) k
  have hwait := KeepsTime.ite (c := (u.seq g).wait = 0) hclock (hclock.count (cSeq g (u.seq g).wait) k)
  refine KeepsTime.ite h (KeepsTime.each ?_ _ _ fun v t hv => hv.tileTick _ _ _)
  exact KeepsTime.ite (hwait.count _ _) (KeepsTime.ite ((hwait.setF hpwr _ _ _).count _ _) hwait)

theorem KeepsTime.heldTick {s u : State} (h : KeepsTime s u) : KeepsTime s (heldTick u) :=
  h.each _ _ fun _ _ hv => KeepsTime.ite hv (hv.count _ _)

/-- The clocks of the regions and the counts of an hk. -/
theorem keepsTime_regions (s : State) (n : Nat) (r : State) :
    KeepsTime s (each (List.range 25) (heldTick (itHk s)) (fun t g => regionTick g (rcNow n r g) t)) :=
  (KeepsTime.heldTick (u := itHk s) ⟨rfl, rfl, fun _ => rfl⟩).each _ _ fun _ _ hv => hv.regionTick _ _

/-- RTC_SEC is another register than OBS_CTL and its fraction another one than KTIME's. -/
theorem rtcTick_keeps (s : State) : (rtcTick s).counters = s.counters ∧ (rtcTick s).rd aObsCtl = s.rd aObsCtl
    ∧ (rtcTick s).time = { s.time with aoFrac := (rtcTick s).time.aoFrac } := by
  unfold rtcTick; split
  · exact ⟨rfl, rfl, rfl⟩
  · exact ⟨rfl, State.rd_wr_ne s (off := aRtcSec) _ (by decide), rfl⟩

/-- R377: at RATE 0 an hk is 5 ns. -/
theorem timeTick_of_rate_zero {s : State} (hrate : s.rd aKtimeRate = 0) (hfrac : s.time.frac < 2 ^ 32) :
    (timeTick s).time.ktime = s.time.ktime + 5 ∧ (timeTick s).time.frac = s.time.frac := by
  have hclamp : clamp (-0x20C49C) 0x20C49C ((0 : Word).toInt) = 0 := by decide
  have hdiv : ((s.time.frac : Int) + 5 * 2 ^ 32 + 5 * 0) / 2 ^ 32 = 5 := by omega
  have hmod : (((s.time.frac : Int) + 5 * 2 ^ 32 + 5 * 0) % 2 ^ 32).toNat = s.time.frac := by omega
  simp only [timeTick, hrate, hclamp, hdiv, hmod, and_true]
  rfl

theorem tick_time (s : State) : (tick s).time.hk = s.time.hk + 1 ∧ (tick s).time.ktime = (timeTick s).time.ktime
    ∧ (tick s).time.frac = (timeTick s).time.frac := by
  obtain ⟨htime, -, -⟩ := keepsTime_regions (rtcTick (timeTick s)) s.time.fcFrac s
  obtain ⟨-, -, hrtc⟩ := rtcTick_keeps (timeTick s)
  simp only [tick, signal_time, htime]
  rw [hrtc]
  exact ⟨rfl, rfl, rfl⟩

/-- R388: FREEZE holds every counter. -/
theorem tick_counters_of_frozen {s : State} (h : s.bit aObsCtl 0 = true) : (tick s).counters = s.counters := by
  obtain ⟨-, -, hcnt⟩ := keepsTime_regions (rtcTick (timeTick s)) s.time.fcFrac s
  obtain ⟨hrtc, hobs, -⟩ := rtcTick_keeps (timeTick s)
  rw [tick, signal_counters]
  refine (hcnt ?_).trans hrtc
  rw [State.bit_congr hobs]; exact h

/-- Settles O3: an idle step is `tick`, whose parts are followed one by one. -/
theorem emptyQueueIsOneHk : Obligations.EmptyQueueIsOneHk := by
  intro s hq
  obtain ⟨hhk, hktime, hfrac⟩ := tick_time s
  refine ⟨tick s, by rw [step, hq], (signal_pending _ _).trans hq, hhk, fun hrate hlt => ?_, tick_counters_of_frozen⟩
  rw [hktime, hfrac]
  exact timeTick_of_rate_zero hrate hlt

end Sys2Proof.Machine
end

section
/-! Register writes of the host, of a VF and of the BMC (R10, R418, R423, R424), late reads and the interrupt mask. -/
namespace Sys2Proof.Machine

/-! ### What the bus takes -/

/-- R424: what is narrower than 32 bits or misaligned is discarded. -/
theorem exec_registerWrite_of_bad {fn : Fn} {off width : Nat} (hfn : fn.wellFormed = true)
    (hw : width = 8 ∨ width = 16 ∨ ((width = 32 ∨ width = 64) ∧ off % (width / 8) ≠ 0))
    (hoff : off + width / 8 ≤ 0x4000000) (d : DWord) (s : State) :
    exec (.registerWrite fn off width d) s = .next (signal s (s.setB aGlobalStatus 29 true)) := by
  have hok : widthOk width = true := by rcases hw with rfl | rfl | ⟨rfl | rfl, -⟩ <;> rfl
  have hbad : (decide (width < 32) || decide (off % (width / 8) ≠ 0)) = true := by
    rcases hw with rfl | rfl | ⟨-, hmis⟩
    · rfl
    · rfl
    · simp [hmis]
  change execRegisterWrite fn off width d s = _
  simp only [execRegisterWrite, hfn, hok, hbad, Nat.not_lt.mpr hoff, Bool.and_self, Bool.not_true, Bool.false_eq_true, if_true,
    if_false, done]

/-- An aligned write that no wake holds back is made at once. -/
theorem exec_registerWrite_of_not_dozing {fn : Fn} {off width : Nat} {s : State} (hfn : fn.wellFormed = true)
    (hw : width = 32 ∨ width = 64) (hal : off % (width / 8) = 0) (hoff : off + width / 8 ≤ 0x4000000)
    (hdoze : (s.seesReg fn off && s.dozing off) = false) (d : DWord) :
    exec (.registerWrite fn off width d) s = .next (signal s (wideWrite fn off width d s)) := by
  have hok : widthOk width = true := by rcases hw with rfl | rfl <;> rfl
  have hwide : ¬ width < 32 := by omega
  change execRegisterWrite fn off width d s = _
  simp only [execRegisterWrite, hfn, hok, hal, hdoze, Nat.not_lt.mpr hoff, hwide, Bool.and_self, Bool.not_true, ne_eq,
    not_true_eq_false, decide_false, Bool.or_self, Bool.false_eq_true, if_false, done]

theorem State.dozing_of_not_doze {s : State} (h : s.f aPwrStatus 28 4 ≠ 2) (off : Nat) : s.dozing off = false := by
  simp [State.dozing, h]

theorem wideWrite_32 (fn : Fn) (off : Nat) (d : DWord) (s : State) :
    wideWrite fn off 32 d s = regWrite fn off (d.setWidth 32) s := rfl

theorem wideWrite_64 (fn : Fn) (off : Nat) (d : DWord) (s : State) : wideWrite fn off 64 d s
    = regWrite fn (off + 4) ((d >>> 32).setWidth 32) (regWrite fn off (d.setWidth 32) s) := rfl

/-! ### A plain register of a stream page -/

theorem regWrite_pf_streamPage {n : StreamIx} {rel : Nat} {s : State} (hs : Served s) (hrel : rel < 0x1000)
    (hplain : rel ∉ [0, 0x2C, 0x4C, 0x1F4]) (w : Word) :
    let off := streamPage n.val + rel
    regWrite .pf off w s = if (regAt off).isNone then s
      else if !fieldsLegal off w.toNat || locked none off w.toNat s then reject none off s else s.take off w.toNat := by
  simp only [List.mem_cons, List.not_mem_nil, or_false, not_or] at hplain
  obtain ⟨hctl, htail, hhead, hfault⟩ := hplain
  have hsees : s.seesReg .pf (streamPage n.val + rel) = true := rfl
  have hwrite : streamWrite none n.val rel w.toNat s = s.take (streamPage n.val + rel) w.toNat := by
    simp [streamWrite, hctl, htail, hhead, hfault]
  simp only [regWrite, fnStream, hsees, isMsix_streamPage, hs.deaf_eq, dbgRange_streamPage n.isLt hrel,
    wakeRegion_streamPage n.isLt hrel, locate_streamPage n.isLt hrel, hwrite, Bool.not_true, Bool.and_false, Bool.or_false,
    Bool.false_or, Bool.false_eq_true, if_false]

/-- Settles O6: the bus discards or passes on a write; a stream page register without an action takes it by its access codes. -/
theorem registerWritesOfTheHost : Obligations.RegisterWritesOfTheHost := by
  refine ⟨fun fn off width d s hfn hw hoff => ?_, fun off d s hal hoff hdoze => ⟨?_, fun hal8 => ?_⟩,
    fun n rel w s hs hal hrel hplain => ?_⟩
  · refine ⟨_, exec_registerWrite_of_bad hfn hw hoff d s, ((OnlyRegs.refl s).setF _ _ _ _).signal,
      ((RegsBut.refl _ s).setF (by simp) _ _ _).signal, ?_, fun i hi hne => ?_⟩
    · rw [signal_bit, State.bit_setB_same _ _ _ (by decide)]
    · rw [signal_bit, State.setB, State.bit_setF _ _ _ _ _ hi, if_neg (by omega)]
  · have hnd := s.dozing_of_not_doze hdoze off
    exact exec_registerWrite_of_not_dozing rfl (.inl rfl) hal (by omega) (by simp [hnd]) d
  · have hnd := s.dozing_of_not_doze hdoze off
    exact exec_registerWrite_of_not_dozing rfl (.inr rfl) hal8 (by omega) (by simp [hnd]) d
  · have halign : (streamPage n.val + rel) % 4 = 0 := by simp only [streamPage]; omega
    have hinside : streamPage n.val + rel + 4 ≤ 0x4000000 := by simp only [streamPage]; omega
    dsimp only
    rw [exec_registerWrite_of_served hs rfl halign hinside, regWrite_pf_streamPage hs hrel hplain]
    rfl

/-! ### What a VF does not reach -/

theorem State.seesReg_vf_of_outside {n : StreamIx} {off : Nat} {s : State}
    (hpage : ¬ (streamPage n.val ≤ off ∧ off < streamPage n.val + 0x1000)) (htab : ¬ (0x8000 ≤ off ∧ off < 0x8080))
    (hpba : ¬ (0x9000 ≤ off ∧ off < 0x9008))
    (hferry : ∀ f : FerryIx, ferryPage f.val ≤ off → off < ferryPage f.val + 0x100 → s.ferryOwner f.val ≠ some n.val) :
    s.seesReg (.vf n) off = false := by
  have hmsix : isMsix off = false := by simp [isMsix, htab, hpba]
  have hown : ¬ ((off - 0x100000) / 0x1000 = n.val ∧ 0x100000 ≤ off ∧ off < 0x200000) := by
    simp only [streamPage] at hpage; omega
  have hno : ¬ ((0x50000 ≤ off ∧ off < 0x60000) ∧ s.ferryOwner ((off - 0x50000) / 0x100) = some n.val) := by
    rintro ⟨hblock, howner⟩
    refine hferry ⟨(off - 0x50000) / 0x100, by omega⟩ ?_ ?_ howner <;> simp only [ferryPage] <;> omega
  simp only [State.seesReg, hmsix, hown, decide_false, Bool.or_self, Bool.false_or, Bool.and_eq_false_imp, decide_eq_true_eq,
    beq_eq_false_iff_ne]
  exact fun hblock howner => hno ⟨hblock, howner⟩

theorem regWrite_of_unseen {fn : Fn} {off : Nat} {s : State} (h : s.seesReg fn off = false) (w : Word) :
    regWrite fn off w s = s := by simp [regWrite, h]

/-! ### The BMC's writes -/

theorem exec_smbusKeelWrite_of_keel {off : Nat} (hlo : 0x10000 ≤ off) (hhi : off < 0x20000) (hal : off % 4 = 0) (v : Word)
    (s : State) : exec (.smbusKeelWrite off v) s = .next (signal s (regWrite .pf off v s)) := by
  change when_ _ s _ = _
  rw [when_, if_pos (decide_eq_true ⟨hlo, hhi, hal⟩), done]

theorem exec_smbusKeelWrite_of_outside {off : Nat} (h : ¬ (0x10000 ≤ off ∧ off < 0x20000)) (v : Word) (s : State) :
    exec (.smbusKeelWrite off v) s = .next s := by
  change when_ _ s _ = _
  have hoff : ¬ (0x10000 ≤ off ∧ off < 0x20000 ∧ off % 4 = 0) := fun ⟨hlo, hhi, _⟩ => h ⟨hlo, hhi⟩
  rw [when_, decide_eq_false hoff]
  rfl

/-- Settles O9: what a VF does not see it does not write; a BMC write is the PF's write to the KEEL block, which DOZE does not
hold back. -/
theorem vfAndSmbusWrites : Obligations.VfAndSmbusWrites := by
  refine ⟨fun n off d s hn hal hoff hpage htab hpba hferry => ?_, fun off v s => ⟨fun hlo hhi hal => ?_, fun hout => ?_⟩⟩
  · have hunseen := State.seesReg_vf_of_outside hpage htab hpba hferry
    have hwf : (Fn.vf n).wellFormed = true := decide_eq_true hn
    rw [exec_registerWrite_of_not_dozing hwf (.inl rfl) hal hoff (by rw [hunseen, Bool.false_and]),
      wideWrite_32, regWrite_of_unseen hunseen]
  · have hkeel := exec_smbusKeelWrite_of_keel hlo hhi hal v s
    have hdoze : s.dozing off = false := by simp [State.dozing]; omega
    refine ⟨hkeel, ?_⟩
    rw [hkeel, exec_registerWrite_of_not_dozing rfl (.inl rfl) hal (by omega) (by rw [hdoze, Bool.and_false]), wideWrite_32]
    simp
  · exact exec_smbusKeelWrite_of_outside hout v s

/-! ### Late reads and the interrupt mask -/

theorem written_globalIntMask (old v : Nat) :
    written aGlobalIntMask old v = old &&& 0xFFFFFC00 &&& 0xFFFFFFFF ||| v &&& 0x3FF := by
  have htaken : accMask aGlobalIntMask [.rw, .rws, .stop, .lock, .pf] = 0x3FF := by decide
  have hclear : accMask aGlobalIntMask [.w1c] = 0 := by decide
  have hkeep : 0xFFFFFFFF ^^^ 0x3FF = 0xFFFFFC00 := by decide
  simp only [written, htaken, hclear, hkeep, Nat.zero_and, Nat.xor_zero]

theorem take_globalIntMask (v : Word) (s : State) : s.take aGlobalIntMask v.toNat
    = s.wr aGlobalIntMask (s.rd aGlobalIntMask &&& 0xFFFFFC00 ||| v &&& 0x3FF) := by
  have hall : (s.rd aGlobalIntMask).toNat &&& 0xFFFFFC00 &&& 0xFFFFFFFF = (s.rd aGlobalIntMask).toNat &&& 0xFFFFFC00 :=
    Nat.and_assoc _ _ _
  have hword : written aGlobalIntMask (s.rd aGlobalIntMask).toNat v.toNat
      = (s.rd aGlobalIntMask &&& 0xFFFFFC00 ||| v &&& 0x3FF).toNat := by
    rw [written_globalIntMask, hall]; rfl
  rw [State.take, hword, BitVec.ofNat_toNat, BitVec.setWidth_eq]

/-- Settles O11: both commands are their registers' writes. -/
theorem lateReadsAndInterruptMask : Obligations.LateReadsAndInterruptMask := by
  intro off v s
  refine ⟨fun hlo hhi hclk => ?_, ?_⟩
  · have hlate : (fnStream .pf == none && decide (0x200000 ≤ off ∧ off < 0x390000)
        && decide (s.f (aRegionClk ((off - 0x200000) / 0x10000)) 16 4 ≠ 0)) = true := by
      simp only [fnStream, beq_self_eq_true, Bool.true_and, hclk, ne_eq, not_false_eq_true, decide_true, Bool.and_true,
        decide_eq_true_eq]
      omega
    have hin : ¬ 0x4000000 < off + 4 := by omega
    change execAccessTimeout .pf off s = _
    simp only [execAccessTimeout, Fn.wellFormed, hin, hlate, when_, Bool.not_true, Bool.false_eq_true, if_true, if_false, done]
    rfl
  · rw [← take_globalIntMask]
    rfl

end Sys2Proof.Machine
end

section
/-! The basin: reads of clean words and writes that do not wrap (R263). -/
namespace Sys2Proof.Machine

/-! ### Clean words -/

/-- The words that [a, a + n) meets have clean check bits. -/
def Ram.CleanOn (r : Ram) (a n : Nat) : Prop := ∀ w, w * 8 < a + n → a < w * 8 + 8 → r.state w = .clean

theorem Ram.cleanOn_of_all {r : Ram} (h : ∀ w, r.state w = .clean) (a n : Nat) : r.CleanOn a n := fun w _ _ => h w

section
variable {r : Ram} {a n : Nat} (h : r.CleanOn a n)
include h

theorem Ram.marked_eq_nil {e : Ecc} (he : e ≠ .clean) : r.marked e a n = [] := by
  unfold Ram.marked
  split
  · rfl
  · refine List.filter_eq_nil_iff.mpr fun w hw => ?_
    obtain ⟨i, hi, rfl⟩ := List.mem_map.mp hw
    have hlt := List.mem_range.mp hi
    rw [h _ (by omega) (by omega)]
    simpa using he.symm

theorem Ram.read_of_clean : r.read a n = (List.range n).map (fun i => r.byte (a + i)) := by
  refine List.map_congr_left fun i hi => ?_
  have hlt := List.mem_range.mp hi
  rw [Ram.get, h _ (by omega) (by omega)]

end

section
variable {s : State} {a n : Nat} (h : s.mem.basin.CleanOn a n)
include h

theorem State.basinSee_of_clean : s.basinSee a n = s := by
  have hone : s.mem.basin.marked .single a n = [] := Ram.marked_eq_nil h (by decide)
  have htwo : s.mem.basin.marked .double a n = [] := Ram.marked_eq_nil h (by decide)
  simp only [State.basinSee, hone, each, List.foldl_nil, htwo]

theorem State.basinRead1_of_clean :
    s.basinRead1 a n = (⟨(List.range n).map (fun i => s.mem.basin.byte (a + i)), false, false⟩, s) := by
  rw [State.basinRead1, Ram.marked_eq_nil h (by decide), Ram.marked_eq_nil h (by decide), Ram.read_of_clean h,
    State.basinSee_of_clean h]
  rfl

theorem State.basinRead_of_clean (ha : a < basinSize) (hn : a + n ≤ basinSize) :
    s.basinRead a n = (⟨(List.range n).map (fun i => s.mem.basin.byte (a + i)), false, false⟩, s) := by
  have hk : min n (basinSize - a) = n := by omega
  simp only [State.basinRead, Nat.mod_eq_of_lt ha, hk, Nat.le_refl, if_true, State.basinRead1_of_clean h]

end

/-! ### Errors counted by a bank -/

/-- The registers that count a basin access's errors. -/
def basinBanks : List Nat := (List.range 16).map aBasinEccBank

theorem mem_basinBanks (a : Nat) : aBasinEccBank (bankOf a) ∈ basinBanks :=
  List.mem_map.mpr ⟨_, List.mem_range.mpr (Nat.mod_lt _ (by decide)), rfl⟩

section
variable {s t : State}

theorem OnlyRegs.addSat (h : OnlyRegs s t) (off lo len k : Nat) : OnlyRegs s (t.addSat off lo len k) := h.setF _ _ _ _

theorem RegsBut.addSat {offs : List Nat} (h : RegsBut offs s t) {off : Nat} (hoff : off ∈ offs) (lo len k : Nat) :
    RegsBut offs s (t.addSat off lo len k) := h.setF hoff _ _ _

theorem RegsBut.mono {offs offs' : List Nat} (h : RegsBut offs s t) (hsub : ∀ o ∈ offs, o ∈ offs') : RegsBut offs' s t :=
  fun o ho => h o fun hm => ho (hsub o hm)

theorem OnlyRegs.trans {u : State} (h : OnlyRegs s t) (h' : OnlyRegs t u) : OnlyRegs s u := by
  unfold OnlyRegs at *; rw [h', h]

/-- Nothing changes but the counts of the banks. -/
def BanksCount (s t : State) : Prop := OnlyRegs s t ∧ RegsBut basinBanks s t

theorem BanksCount.refl (s : State) : BanksCount s s := ⟨OnlyRegs.refl s, RegsBut.refl _ s⟩

theorem BanksCount.basinErr (h : BanksCount s t) (w : Nat) (ue : Bool) : BanksCount s (t.basinErr w ue) :=
  ⟨h.1.addSat _ _ _ _, h.2.addSat (mem_basinBanks _) _ _ _⟩

theorem BanksCount.basinSee (h : BanksCount s t) (a n : Nat) : BanksCount s (t.basinSee a n) :=
  each_keep _ _ (fun _ _ hu => hu.basinErr _ _) _ _ (each_keep _ _ (fun _ _ hu => hu.basinErr _ _) _ _ h)

end

/-! ### Writes -/

/-- The state with other bytes in the basin; nothing else differs but registers of `offs`. -/
def BasinStored (offs : List Nat) (s : State) (r : Ram) (t : State) : Prop :=
  OnlyRegs { s with mem := { s.mem with basin := r } } t ∧ RegsBut offs s t

section
variable {offs : List Nat} {s t : State} {r : Ram} (h : BasinStored offs s r t)
include h

theorem BasinStored.mem_eq : t.mem = { s.mem with basin := r } := by rw [h.1]
theorem BasinStored.hostMem_eq : t.hostMem = s.hostMem := by rw [h.1]
theorem BasinStored.counters_eq : t.counters = s.counters := by rw [h.1]

end

/-- A write stores its bytes and counts the errors of the words it meets in part. -/
theorem State.basinWrite1_stored (s : State) (a : Nat) (bs : List Byte) (psn : Bool) :
    BasinStored basinBanks s (s.mem.basin.write a bs psn) (s.basinWrite1 a bs psn).2 := by
  have hcount : ∃ u, BanksCount s u
      ∧ (s.basinWrite1 a bs psn).2 = { u with mem := { u.mem with basin := s.mem.basin.write a bs psn } } := by
    refine ⟨_, each_keep (BanksCount s) _ ?_ (partWords a bs.length) s (BanksCount.refl s), rfl⟩
    intro t w ht
    split
    · exact ht.basinErr _ _
    · exact ht.basinErr _ _
    · exact ht
  obtain ⟨u, ⟨honly, hregs⟩, hu⟩ := hcount
  rw [hu]
  refine ⟨?_, hregs⟩
  unfold OnlyRegs at honly ⊢
  rw [honly]

/-- A write within the basin does not wrap. -/
theorem State.basinWrite_eq {s : State} {a : Nat} {bs : List Byte} (ha : a < basinSize) (hn : a + bs.length ≤ basinSize)
    (psn : Bool) : s.basinWrite a bs psn = s.basinWrite1 a bs psn := by
  have hk : bs.length ≤ basinSize - a := by omega
  simp only [State.basinWrite, Nat.mod_eq_of_lt ha, List.take_of_length_le hk, hk, if_true]

/-- A write to clean words stores its bytes and counts nothing. -/
theorem State.basinPut_of_clean {s : State} {a : Nat} {bs : List Byte} (ha : a < basinSize) (hn : a + bs.length ≤ basinSize)
    (hclean : ∀ w, s.mem.basin.state w = .clean) :
    s.basinPut a bs = { s with mem := { s.mem with basin := s.mem.basin.write a bs false } } := by
  have hbad : (partWords a bs.length).any (fun w => s.mem.basin.state w == .double) = false := by simp [hclean]
  rw [State.basinPut, State.basinWrite_eq ha hn, State.basinWrite1]
  dsimp only
  generalize hu : each (partWords a bs.length) s _ = u
  have hsame : u = s := by
    rw [← hu]
    exact each_eq id _ (fun t w => by rw [hclean w]) _ s
  simp only [hbad, hsame, Bool.false_eq_true, if_false]

theorem bankOf_mod (a : Nat) : bankOf (a % basinSize) = bankOf a := by simp only [bankOf, basinSize]; omega

/-- Offsets wrap at 64 MiB. -/
theorem State.basinRead_mod (s : State) (a n : Nat) : s.basinRead (a % basinSize) n = s.basinRead a n := by
  simp only [State.basinRead, Nat.mod_mod]

theorem State.basinPut_mod (s : State) (a : Nat) (bs : List Byte) : s.basinPut (a % basinSize) bs = s.basinPut a bs := by
  simp only [State.basinPut, State.basinWrite, Nat.mod_mod, bankOf_mod]

/-- The registers a basin write may change: the counts of the banks, and those of a class C event. -/
def basinPutRegs : List Nat := basinBanks ++ [aFaultCCount 0x04, 0x12400, 0x12404, 0x12408, 0x1240C]

/-- R263: of a write whose requester takes no error a bad word counts as class C. -/
theorem State.basinPut_stored {s : State} {a : Nat} {bs : List Byte} (ha : a < basinSize) (hn : a + bs.length ≤ basinSize) :
    BasinStored basinPutRegs s (s.mem.basin.write a bs false) (s.basinPut a bs) := by
  obtain ⟨honly, hregs⟩ := s.basinWrite1_stored a bs false
  have hbanks := hregs.mono (offs' := basinPutRegs) fun o ho => List.mem_append_left _ ho
  rw [State.basinPut, State.basinWrite_eq ha hn]
  dsimp only; split
  · exact ⟨raiseC_onlyRegs _ _ honly, hregs.trans (raiseC_regsBut { cls := 0, code := 0x04, unit := 11, index := bankOf a } _)⟩
  · exact ⟨honly, hbanks⟩

end Sys2Proof.Machine
end

section
/-! Windows B and C (R263, R271, R277, R278, R424), and accesses that wait for the wake from DOZE (R372). -/
namespace Sys2Proof.Machine

/-! ### Window B -/

/-- An access of window B within its size, the dies powered and the device not in DOZE, is served at once. -/
theorem exec_hostWindowBAccess {a : HostAccess} {s : State} (hwf : a.wellFormed = true) (hon : s.bit aPwrStatus 25 = true)
    (hrun : s.f aPwrStatus 28 4 ≠ 2)
    (hoff : (match a with | .read off len => off + len | .write off data => off + data.length) ≤ basinSize) :
    exec (.hostWindowBAccess a) s = .next (signal s (winB a s)) := by
  change execHostWindowBAccess a s = _
  cases a <;>
    simp only [execHostWindowBAccess, hwf, Nat.not_lt.mpr hoff, State.pwrState, hrun, State.fabricOn, hon, when_, done,
      Bool.not_true, Bool.false_eq_true, if_true, if_false]

theorem winB_read_of_clean {off len : Nat} {s : State} (hlen : 0 < len) (hoff : off + len ≤ basinSize)
    (hclean : s.mem.basin.CleanOn off len) :
    winB (.read off len) s = s.emit (.data 0 ((List.range len).map (fun i => s.mem.basin.byte (off + i)))) := by
  rw [winB, State.basinRead_of_clean hclean (by omega) hoff]
  rfl

/-! ### Window C -/

theorem exec_hostWindowCAccess_write {off : Nat} {data : List Byte} {s : State} (hn : 0 < data.length)
    (hon : s.bit aPwrStatus 25 = true) (hrun : s.f aPwrStatus 28 4 ≠ 2) (hoff : off + data.length ≤ 2 ^ 34) :
    exec (.hostWindowCAccess (.write off data)) s = .next (signal s (winC (.write off data) s)) := by
  have hwf : (HostAccess.write off data).wellFormed = true := decide_eq_true hn
  change execHostWindowCAccess (.write off data) s = _
  simp only [execHostWindowCAccess, hwf, Bool.not_true, Bool.false_eq_true, if_false, Nat.not_lt.mpr hoff,
    State.pwrState, hrun, State.fabricOn, hon, when_, if_true, done]

/-- An access within one page is one part. -/
theorem pageParts_of_one_page {f a n : Nat} (hn : 0 < n) (hpage : a / 4096 = (a + n - 1) / 4096) (hf : 1 < f) :
    pageParts f a n = [(a, n)] := by
  obtain ⟨f, rfl⟩ : ∃ g, f = g + 2 := ⟨f - 2, by omega⟩
  have hk : min n (4096 - a % 4096) = n := by omega
  simp [pageParts, hk, Nat.ne_of_gt hn]

theorem State.dramWrite_of_one_page {a : Nat} {bs : List Byte} (hn : bs ≠ []) (hpage : a / 4096 = (a + bs.length - 1) / 4096)
    (psn : Bool) (s : State) : s.dramWrite a bs psn = dramWritePage a bs psn s := by
  have hlen : 0 < bs.length := List.length_pos_iff.mpr hn
  simp [State.dramWrite, pageParts_of_one_page hlen hpage (Nat.lt_succ_of_le hlen), each]

/-- Within usable capacity the write is the controller's. -/
theorem winC_write_of_usable {off : Nat} {data : List Byte} {s : State} (hcap : s.aper off + data.length ≤ dramUsable) :
    winC (.write off data) s = s.dramWrite (s.aper off) data false := by
  have hk : min data.length (dramUsable - s.aper off) = data.length := by omega
  simp only [winC, hk, Nat.lt_irrefl, if_false, List.take_length]

section
variable {s : State} {a : Nat} {bs : List Byte} (hfill : ∀ f ∈ s.mem.fills, f.page ≠ a / 4096)
include hfill

theorem State.filling_eq_false : s.filling (a / 4096) = false := by
  rw [State.filling, List.any_eq_false]
  exact fun f hf => by simpa using hfill f hf

/-- A write to a touched page stores its bytes and counts. -/
theorem dramWritePage_of_touched (ht : a / 4096 ∈ s.mem.touched) (psn : Bool) : dramWritePage a bs psn s
    = { s.count (cMem 1) bs.length with mem := { s.mem with dram := s.mem.dram.write a bs psn } } := by
  have hf := State.filling_eq_false hfill
  simp only [State.filling] at hf
  simp only [dramWritePage, State.filling, State.count_mem, hf, List.contains_iff_mem, ht, Bool.false_eq_true, if_true, if_false]

/-- The first write to an untouched page starts its zero-fill and waits for it (R278). -/
theorem dramWritePage_of_untouched (ht : a / 4096 ∉ s.mem.touched) (psn : Bool) : dramWritePage a bs psn s
    = { (s.count (cMem 1) bs.length).count (cMem 4) 1 with
        mem := { s.mem with fills := s.mem.fills ++ [⟨a / 4096, [(a, bs, psn)]⟩] } } := by
  have hf := State.filling_eq_false hfill
  simp only [State.filling] at hf
  simp only [dramWritePage, State.filling, State.count_mem, hf, List.contains_iff_mem, ht, Bool.false_eq_true, if_true, if_false]

end

/-- R271: what lies beyond usable capacity is not written and sets OOR. -/
theorem winC_write_of_beyond {off : Nat} {data : List Byte} {s : State} (hn : 0 < data.length) (hcap : dramUsable ≤ s.aper off) :
    winC (.write off data) s = s.setB aMemAper 31 true := by
  have hk : min data.length (dramUsable - s.aper off) = 0 := by omega
  simp [winC, hk, hn, State.dramWrite, pageParts, each]

/-- R271: what lies beyond usable capacity reads zero and sets OOR. -/
theorem winC_read_of_beyond {off n : Nat} {s : State} (hn : 0 < n) (hcap : dramUsable ≤ s.aper off) :
    winC (.read off n) s = (s.setB aMemAper 31 true).emit (.data 0 (List.replicate n 0)) := by
  have hk : min n (dramUsable - s.aper off) = 0 := by omega
  simp [winC, hk, hn, State.dramRead, pageParts, each, answer]

/-! ### Accesses in DOZE -/

/-- RUN, with the PLLs locked. -/
def lockedRun (s : State) : State := (((setPwr 0 s).setF aPwrCtl 0 4 0).setB aClkStatus 0 true).setB aClkStatus 1 true

/-- The wake: nothing waits any more. -/
def wokenState (s : State) : State :=
  { lockedRun s with power := { (lockedRun s).power with waking := false, deferred := [] } }

theorem exec_dozeWakeComplete {s : State} (hdoze : s.f aPwrStatus 28 4 = 2) (hwake : s.power.waking = true) :
    exec .dozeWakeComplete s = .next (signal s (each s.power.deferred (wokenState s) finishAccess)) := by
  change execDozeWakeComplete s = _
  simp only [execDozeWakeComplete, State.pwrState, hdoze, hwake, decide_true, Bool.and_self, Bool.not_true, Bool.false_eq_true,
    if_false, done]
  rfl

theorem exec_registerWrite_in_doze {off : Nat} {s : State} (hdoze : s.f aPwrStatus 28 4 = 2) (hal : off % 4 = 0)
    (hlo : 0x40000 ≤ off) (hhi : off + 4 ≤ 0x4000000) (d : DWord) :
    exec (.registerWrite .pf off 32 d) s = .next (signal s (deferAccess (.reg .pf off 32 (some d)) s)) := by
  have hwait : (s.seesReg .pf off && s.dozing off) = true := by simp [State.seesReg, State.dozing, hdoze, hlo]
  have hin : ¬ 0x4000000 < off + 32 / 8 := by omega
  have hword : (decide (32 < 32) || decide (off % (32 / 8) ≠ 0)) = false := by simp [hal]
  change execRegisterWrite .pf off 32 d s = _
  simp only [execRegisterWrite, Fn.wellFormed, widthOk, hin, hword, hwait, if_true, if_false, done]
  rfl

theorem OnlyRegs.lockedRun (s : State) : OnlyRegs s (lockedRun s) :=
  ((((OnlyRegs.refl s).setF _ 28 4 0).setF _ 0 4 0).setB _ 0 true).setB _ 1 true

theorem lockedRun_regsBut (s : State) : RegsBut [aPwrStatus, aPwrCtl, aClkStatus] s (lockedRun s) := by
  have hpwr : RegsBut [aPwrStatus, aPwrCtl, aClkStatus] s (setPwr 0 s) := (RegsBut.refl _ s).setF (by simp) _ _ _
  exact ((hpwr.setF (by simp) 0 4 0).setB (by simp) 0 true).setB (by simp) 1 true

/-- R372: RUN and both locks. -/
theorem lockedRun_fields (s : State) : (lockedRun s).f aPwrStatus 28 4 = 0 ∧ (lockedRun s).f aPwrCtl 0 4 = 0
    ∧ (lockedRun s).bit aClkStatus 0 = true ∧ (lockedRun s).bit aClkStatus 1 = true := by
  unfold lockedRun
  refine ⟨?_, ?_, ?_, ?_⟩
  · rw [State.f_setB_ne _ (by decide), State.f_setB_ne _ (by decide), State.f_setF_ne _ _ _ _ (by decide), setPwr,
      State.f_setF_same _ _ _ (by decide)]
    rfl
  · rw [State.f_setB_ne _ (by decide), State.f_setB_ne _ (by decide), State.f_setF_same _ _ _ (by decide)]
    rfl
  · rw [State.bit_setB_of_ne _ (by decide) (by decide), State.bit_setB_same _ _ _ (by decide)]
  · rw [State.bit_setB_same _ _ _ (by decide)]

theorem wokenState_rd (s : State) (j : Nat) : (wokenState s).rd j = (lockedRun s).rd j :=
  State.rd_withPower _ _ _

theorem RegsBut.emit {offs : List Nat} {s t : State} (h : RegsBut offs s t) (o : Output) : RegsBut offs s (t.emit o) := h

/-- Settles O12: window B is the basin's read and write, window C the controller's page by page; the wake's end is followed by
the accesses in their order. -/
theorem windowsAndAccessesInDoze : Obligations.WindowsAndAccessesInDoze := by
  refine ⟨fun off len data s hon hrun => ⟨fun hne hoff => ?_, fun hlen hoff hclean => ?_⟩,
    fun off len data s hon hrun => ?_,
    fun off d s hdoze => ⟨fun hal hlo hhi => ?_, fun hwake hnone => ?_, fun hwake w a hlast => ?_⟩⟩
  · have hlen : 0 < data.length := List.length_pos_iff.mpr hne
    have hstored := State.basinPut_stored (s := s) (by omega) hoff
    refine ⟨_, exec_hostWindowBAccess (a := .write off data) (decide_eq_true hlen) hon hrun hoff, fun a => ?_, ?_, ?_, ?_,
      hstored.2.signal⟩
    · rw [signal_mem, winB, hstored.mem_eq]; exact Ram.byte_write _ _ _ _ _
    · rw [signal_mem, winB, hstored.mem_eq]
    · rw [signal_hostMem, winB, hstored.hostMem_eq]
    · rw [signal_counters, winB, hstored.counters_eq]
  · rw [exec_hostWindowBAccess (a := .read off len) (decide_eq_true hlen) hon hrun hoff, winB_read_of_clean hlen hoff hclean]
  · intro d hoff hlen hdata
    have hd : d = s.aper off := rfl
    clear_value d
    subst hd
    refine ⟨fun hcap hpage hfill => ⟨fun ht => ?_, fun ht => ⟨?_, ?_⟩⟩, fun hcap => ⟨?_, ?_⟩⟩
    · subst hdata
      refine ⟨_, exec_hostWindowCAccess_write hlen hon hrun hoff, ?_⟩
      rw [winC_write_of_usable hcap, State.dramWrite_of_one_page (List.length_pos_iff.mp hlen) hpage,
        dramWritePage_of_touched hfill ht]
      refine ⟨fun a => ?_, ?_, ?_, ?_⟩
      · rw [signal_mem]; exact Ram.byte_write _ _ _ _ _
      · rw [signal_mem]
      · rw [signal_mem]
      · rw [signal_regs]; exact State.count_regs _ _ _
    · subst hdata
      refine ⟨_, exec_hostWindowCAccess_write hlen hon hrun hoff, ?_⟩
      rw [winC_write_of_usable hcap, State.dramWrite_of_one_page (List.length_pos_iff.mp hlen) hpage,
        dramWritePage_of_untouched hfill ht]
      refine ⟨by rw [signal_mem], ?_⟩
      rw [signal_regs, State.count_regs, State.count_regs]
    · have hpages : ∀ p, s.aper off / 4096 ≤ p → p ≤ (s.aper off + len - 1) / 4096 → p ∉ s.mem.touched := fun p hp hp' => by
        have hone : p = s.aper off / 4096 := by omega
        rwa [hone]
      obtain ⟨t, hread, ht'⟩ := winC_read_of_untouched hpages hlen rfl hcap fun f hf => by have := hfill f hf; omega
      refine ⟨_, exec_hostWindowCAccess_read hlen hon hrun hoff, ?_, ?_, ?_⟩
      · rw [signal_mem, hread]; exact ht'.mem_eq
      · rw [signal_regs, hread]; exact ht'.regs_eq
      · rw [hread]; exact mem_outbox_signal (State.mem_outbox_emit _ _) s
    · subst hdata
      rw [exec_hostWindowCAccess_write hlen hon hrun hoff, winC_write_of_beyond hlen hcap]
    · have hbut : RegsBut [aMemAper] s (s.setB aMemAper 31 true) := (RegsBut.refl _ s).setF (by simp) _ _ _
      refine ⟨_, exec_hostWindowCAccess_read hlen hon hrun hoff, ?_⟩
      rw [winC_read_of_beyond hlen hcap]
      refine ⟨by rw [signal_mem, State.emit_mem, State.setB, State.setF_mem], ?_, RegsBut.signal (hbut.emit _),
        mem_outbox_signal (State.mem_outbox_emit _ _) s⟩
      rw [signal_bit, State.bit_congr (State.rd_emit _ _ _), State.bit_setB_same _ _ _ (by decide)]
  · exact exec_registerWrite_in_doze hdoze hal hlo hhi d
  · obtain ⟨hrun, hctl, hfc, hhk⟩ := lockedRun_fields s
    have honly := OnlyRegs.lockedRun s
    refine ⟨_, exec_dozeWakeComplete hdoze hwake, ?_⟩
    rw [hnone, each, List.foldl_nil]
    refine ⟨?_, ?_, ?_, ?_, ?_, ?_, ?_, ?_, ?_, ?_⟩
    · rw [signal_f, State.f_congr (wokenState_rd s _)]; exact hrun
    · rw [signal_f, State.f_congr (wokenState_rd s _)]; exact hctl
    · rw [signal_bit, State.bit_congr (wokenState_rd s _)]; exact hfc
    · rw [signal_bit, State.bit_congr (wokenState_rd s _)]; exact hhk
    · rw [signal_power, wokenState, ← hnone, honly]
    · exact RegsBut.signal fun j hj => (wokenState_rd s j).trans (lockedRun_regsBut s j hj)
    · rw [signal_mem, wokenState, honly]
    · rw [signal_tiles, wokenState, honly]
    · rw [signal_seqs, wokenState, honly]
    · rw [signal_streams, wokenState, honly]
  · refine ⟨_, each w (wokenState s) finishAccess, exec_dozeWakeComplete hdoze hwake, ?_, ?_⟩
    · rw [exec_dozeWakeComplete (s := { s with power := { s.power with deferred := w } }) hdoze hwake]
      rfl
    · rw [hlast, each, List.foldl_append]
      rfl

end Sys2Proof.Machine
end

section
/-! What reset leaves (20, and the Reset columns of the register tables). -/
namespace Sys2Proof.Machine

theorem reset_rd (off : Nat) : State.reset.rd off = regReset off := rfl

/-! ### Pages reset alike -/

theorem locate_seqPage {g rel : Nat} (hg : g < 25) (hrel : rel < 0x4000) : locate (seqPage g + rel) = (.seq g, rel) := by
  have hchan : ¬ seqPage g + rel < 0x29000 := by simp only [seqPage]; omega
  have hferry : ¬ seqPage g + rel < 0x60000 := by simp only [seqPage]; omega
  have hstream : ¬ seqPage g + rel < 0x200000 := by simp only [seqPage]; omega
  have hlo : 0x200000 ≤ seqPage g + rel := by simp only [seqPage]; omega
  have hhi : seqPage g + rel < 0x390000 := by simp only [seqPage]; omega
  have hpage : (seqPage g + rel - 0x200000) / 0x10000 = g := by simp only [seqPage]; omega
  have hin : (seqPage g + rel) % 0x10000 = rel := by simp only [seqPage]; omega
  simp [locate, hchan, hferry, hstream, hlo, hhi, hpage, hin, hrel]

theorem regReset_seqPage {g rel : Nat} (hg : g < 25) (hrel : rel < 0x4000) :
    regReset (seqPage g + rel) = regReset (seqPage 0 + rel) := by
  have hne : ∀ h, seqPage h + rel ≠ 0x10200 := fun h => by simp only [seqPage]; omega
  simp only [regReset, regAt, locate_seqPage hg hrel, locate_seqPage (by decide : 0 < 25) hrel, regsOf, hne, if_false]

theorem regReset_streamPage {n rel : Nat} (hn : n < 256) (hrel : rel < 0x1000) :
    regReset (streamPage n + rel) = regReset (streamPage 0 + rel) := by
  have hne : ∀ h, streamPage h + rel ≠ 0x10200 := fun h => by simp only [streamPage]; omega
  simp only [regReset, regAt, locate_streamPage hn hrel, locate_streamPage (by decide : 0 < 256) hrel, regsOf, hne, if_false]

theorem reset_f_streamPage {n rel : Nat} (hn : n < 256) (hrel : rel < 0x1000) (lo len : Nat) :
    State.reset.f (streamPage n + rel) lo len = State.reset.f (streamPage 0 + rel) lo len := by
  simp only [State.f, reset_rd, regReset_streamPage hn hrel]

theorem reset_bit_streamPage {n rel : Nat} (hn : n < 256) (hrel : rel < 0x1000) (i : Nat) :
    State.reset.bit (streamPage n + rel) i = State.reset.bit (streamPage 0 + rel) i := by
  simp only [State.bit, reset_rd, regReset_streamPage hn hrel]

theorem reset_f_seqPage {g rel : Nat} (hg : g < 25) (hrel : rel < 0x4000) (lo len : Nat) :
    State.reset.f (seqPage g + rel) lo len = State.reset.f (seqPage 0 + rel) lo len := by
  simp only [State.f, reset_rd, regReset_seqPage hg hrel]

theorem reset_bit_seqPage {g rel : Nat} (hg : g < 25) (hrel : rel < 0x4000) (i : Nat) :
    State.reset.bit (seqPage g + rel) i = State.reset.bit (seqPage 0 + rel) i := by
  simp only [State.bit, reset_rd, regReset_seqPage hg hrel]

/-! ### The summary at reset -/

theorem intSum_reset : intSum State.reset = 0 := by decide

/-- Settles O5: no register is written yet, and the pages of the streams and of the regions reset alike. -/
theorem resetState : Obligations.ResetState := by
  refine ⟨reset_rd, summaryOk_of_src intSum_reset.symm, reset_memory_wf, rfl, fun n => ⟨?_, ?_, ?_, ?_, rfl⟩,
    fun g => ⟨?_, ?_, ?_, ?_⟩, ?_⟩
  · rw [State.st, aStreamStatus, reset_f_streamPage n.isLt (by decide)]; decide
  · rw [aStreamIntMask, reset_f_streamPage n.isLt (by decide)]; decide
  · rw [aStreamJobRange, reset_f_streamPage n.isLt (by decide)]; decide
  · rw [aStreamCtl, reset_bit_streamPage n.isLt (by decide)]; decide
  · rw [aRegionClk, reset_f_seqPage g.isLt (by decide)]; decide
  · rw [aRegionPwr, reset_f_seqPage g.isLt (by decide)]; decide
  · rw [aRegionFctl, reset_bit_seqPage g.isLt (by decide)]; decide
  · rw [State.phase, aRegionFstatus, reset_f_seqPage g.isLt (by decide)]; decide
  · decide

end Sys2Proof.Machine
end

section
/-! The host path rings (R33) and the PCIe link (R37, R345). -/
namespace Sys2Proof.Machine

/-! ### Ring indices -/

theorem exec_hostpathRxHeadWrite {s : State} (hs : Served s) (p : Fin 10) (ix : BitVec 12) :
    exec (.hostpathRxHeadWrite p ix) s = .next (signal s (hpRxSet p.val ix.toNat s)) := hostRow_of_served hs _ _ _ _

theorem exec_hostpathTxDoorbell {s : State} (hs : Served s) (p : Fin 10) (ix : BitVec 12) :
    exec (.hostpathTxDoorbell p ix) s = .next (signal s (hpTxSet p.val ix.toNat s)) := hostRow_of_served hs _ _ _ _

/-! ### A slot is sent -/

/-- The slot at TX HEAD, within the basin. -/
def State.txSlot (s : State) (p : Nat) : Nat := s.hpTx p (s.f (aHostpathTx p) 16 12) % basinSize

/-- A slot does not wrap: it is 4,096 bytes, aligned. -/
theorem State.txSlot_room (s : State) (p : Nat) {k : Nat} (hk : k < 4096) :
    (s.hpTx p (s.f (aHostpathTx p) 16 12) + k) % basinSize = s.txSlot p + k ∧ s.txSlot p + 4096 ≤ basinSize := by
  simp only [State.txSlot, State.hpTx, basinSize]
  omega

/-- The length a slot states. -/
def State.txLen (s : State) (p : Nat) : Nat :=
  (s.mem.basin.byte (s.txSlot p)).toNat + 256 * (s.mem.basin.byte (s.txSlot p + 1)).toNat

/-- What a slot sends. -/
def State.txData (s : State) (p : Nat) : Output :=
  .sent p ((List.range (s.txLen p)).map (fun i => s.mem.basin.byte (s.txSlot p + 16 + i)))

/-- Bytes 4 to 15 of a slot once it is done: DONE, ERR if it was too long, no time. -/
def txMark (long : Bool) : List Byte := toBytes 4 (1 + b2n long * 4) ++ toBytes 8 0

theorem txMark_length (long : Bool) : (txMark long).length = 12 := rfl

theorem txMark_get (long : Bool) {i : Nat} (hi : i < 12) :
    ((txMark long)[i]?).getD 0 = if i = 0 then (if long then 5 else 1) else 0 := by
  revert i; cases long <;> decide

section
variable {s : State} {p : Fin 10} (hclean : ∀ w, s.mem.basin.state w = .clean)
include hclean

theorem State.basinRead_txSlot {k n : Nat} (hk : k < 4096) (hn : k + n ≤ 4096) :
    s.basinRead (s.hpTx p.val (s.f (aHostpathTx p.val) 16 12) + k) n
      = (⟨(List.range n).map (fun i => s.mem.basin.byte (s.txSlot p.val + k + i)), false, false⟩, s) := by
  obtain ⟨hmod, hroom⟩ := s.txSlot_room p.val hk
  rw [← State.basinRead_mod, hmod, State.basinRead_of_clean (Ram.cleanOn_of_all hclean _ n) (by omega) (by omega)]

theorem State.basinPut_txSlot (long : Bool) {t : State} (ht : t.mem = s.mem) :
    t.basinPut (s.hpTx p.val (s.f (aHostpathTx p.val) 16 12) + 4) (txMark long)
      = { t with mem := { s.mem with basin := s.mem.basin.write (s.txSlot p.val + 4) (txMark long) false } } := by
  obtain ⟨hmod, hroom⟩ := s.txSlot_room p.val (k := 4) (by decide)
  rw [← ht] at hclean
  rw [← State.basinPut_mod, hmod, State.basinPut_of_clean (by omega) (by rw [txMark_length]; omega) hclean, ht]

end

/-- What a send leaves: the slot out unless it is too long, the mark in its bytes 4 to 15, HEAD at the next slot. -/
def txSent (p : Nat) (s : State) : State :=
  let long := decide (2048 < s.txLen p)
  let t := if long then s else s.emit (s.txData p)
  { t with mem := { s.mem with basin := s.mem.basin.write (s.txSlot p + 4) (txMark long) false } }

theorem exec_hostpathTxSend {s : State} {p : Fin 10} (hclean : ∀ w, s.mem.basin.state w = .clean)
    (hen : s.bit (aHostpathCtl p.val) 31 = true)
    (hwork : s.f (aHostpathTx p.val) 16 12 ≠ s.f (aHostpathTx p.val) 0 12) (hcxp : 2 ≤ p.val) :
    exec (.hostpathTxSend p) s = .next (signal s ((txSent p.val s).setF (aHostpathTx p.val) 16 12
      ((s.f (aHostpathTx p.val) 16 12 + 1) % s.hpSlots p.val))) := by
  have hhead := State.basinRead_txSlot (p := p) hclean (k := 0) (n := 2) (by decide) (by decide)
  have hlen : ofBytes ((List.range 2).map (fun i => s.mem.basin.byte (s.txSlot p.val + 0 + i))) = s.txLen p.val := by
    simp [List.range, List.range.loop, ofBytes, State.txLen]
  have hnoev : decide (p.val < 2) = false := decide_eq_false (by omega)
  change execHostpathTxSend p s = _
  rw [Nat.add_zero] at hhead
  simp only [execHostpathTxSend, hen, hwork, hhead, hlen, hnoev, Bool.not_true, decide_false, Bool.or_self, Bool.false_eq_true,
    if_false, Bool.and_false, Bool.false_and, done]
  by_cases hlong : 2048 < s.txLen p.val
  · have hput := State.basinPut_txSlot (p := p) hclean true (t := s) rfl
    simp only [txMark, b2n, if_true] at hput
    simp only [hlong, decide_true, if_true, txSent, b2n, Bool.false_eq_true, if_false, txMark, Nat.zero_mul, hput]
  · have hdata := State.basinRead_txSlot (p := p) hclean (k := 16) (n := s.txLen p.val) (by decide) (by omega)
    have hput := State.basinPut_txSlot (p := p) hclean false (t := s.emit (s.txData p.val)) rfl
    simp only [txMark, b2n, Bool.false_eq_true, if_false, Nat.zero_mul] at hput
    simp only [hlong, decide_false, Bool.false_eq_true, if_false, hdata, txSent, b2n, txMark, Nat.zero_mul, ← hput]
    rfl

/-! ### The PCIe link -/

theorem State.rd_setB_self {s : State} {off i : Nat} {b : Bool} (hi : i < 32) (h : s.bit off i = b) (j : Nat) :
    (s.setB off i b).rd j = s.rd j := by
  by_cases hj : j = off
  · subst hj
    apply BitVec.eq_of_toNat_eq
    have hf : (s.setB j i b).f j 0 32 = s.f j 0 32 := State.f_eq_of_bits fun k _ hk => by
      by_cases hki : k = i
      · rw [hki, State.bit_setB_same _ _ _ hi, h]
      · exact State.bit_setB_of_ne _ hki (by omega) _
    rwa [State.f_eq_toNat, State.f_eq_toNat] at hf
  · exact State.rd_setF_ne _ _ _ _ hj

/-- The path of stream n holds nothing. -/
def PathEmpty (n : Nat) (s : State) : Prop :=
  (s.stream n).held = [] ∧ (s.stream n).waitq = [] ∧ (s.stream n).ovf = 0

theorem cqRefill_of_empty {n : Nat} {s : State} (h : PathEmpty n s) : cqRefill n s = s := by
  obtain ⟨hheld, hwait, hovf⟩ := h
  simp [cqRefill, hheld, hwait, hovf]

theorem cqMoves_of_empty {n : Nat} {s : State} (h : PathEmpty n s) (f : Nat) : cqMoves n f s = s := by
  have hstep : cqStep n s = s := by simp [cqStep, h.1]
  induction f with
  | zero => rfl
  | succ f ih => rw [cqMoves, hstep, cqRefill_of_empty h, ih]

theorem cqStall_of_empty {n : Nat} {s : State} (h : PathEmpty n s) : cqStall n s = s.setB (aStreamStatus n) 7 false := by
  obtain ⟨hheld, hwait, hovf⟩ := h
  simp [cqStall, hheld, hwait, hovf]

/-- An empty path moves nothing; CQ_STALL clears. -/
theorem cqMove_of_empty {n : Nat} {s : State} (h : PathEmpty n s) : cqMove n s = s.setB (aStreamStatus n) 7 false := by
  rw [cqMove, cqMoves_of_empty h, cqStall_of_empty h]

theorem mem_tget_of_listed {α : Type} {d : α} {t : Tab α} {k : Nat} (h : ∃ x, (k, x) ∈ t) : (k, tget d t k) ∈ t := by
  induction t with
  | nil => simp at h
  | cons p t ih =>
    obtain ⟨a, x⟩ := p
    by_cases hk : k = a
    · simp [tget, hk]
    · simp only [tget, hk, if_false]
      refine List.mem_cons_of_mem _ (ih ?_)
      simpa [hk] using h

/-- What a flush of empty paths leaves as it was. -/
def FlushKeeps (s t : State) : Prop :=
  t.streams = s.streams ∧ t.outbox = s.outbox ∧ t.waiting = s.waiting ∧ RegsBut [] s t

theorem flushKeeps_cqMove {n : Nat} {s : State} (h : PathEmpty n s) (hstall : s.bit (aStreamStatus n) 7 = false) :
    FlushKeeps s (cqMove n s) := by
  rw [cqMove_of_empty h]
  exact ⟨rfl, rfl, rfl, fun j _ => State.rd_setB_self (by decide) hstall j⟩

theorem flushKeeps_each (ns : List Nat) {s : State}
    (h : ∀ n ∈ ns, PathEmpty n s ∧ s.bit (aStreamStatus n) 7 = false) :
    FlushKeeps s (each ns s (fun s n => cqMove n s)) := by
  induction ns generalizing s with
  | nil => exact ⟨rfl, rfl, rfl, RegsBut.refl _ s⟩
  | cons n ns ih =>
    obtain ⟨hempty, hstall⟩ := h n List.mem_cons_self
    obtain ⟨hstr, hout, hwait, hregs⟩ := flushKeeps_cqMove hempty hstall
    obtain ⟨hstr', hout', hwait', hregs'⟩ := ih (s := cqMove n s) fun m hm => by
      obtain ⟨hempty', hstall'⟩ := h m (List.mem_cons_of_mem n hm)
      refine ⟨?_, (State.bit_congr (hregs _ List.not_mem_nil) 7).trans hstall'⟩
      simp only [PathEmpty, State.stream, hstr] at hempty' ⊢
      exact hempty'
    exact ⟨hstr'.trans hstr, hout'.trans hout, hwait'.trans hwait, hregs.trans hregs'⟩

/-- The link status after training (R37). -/
def pcieTrained (width : BitVec 4) (rate : BitVec 3) (s : State) : State :=
  let t := ((s.setF aPcieLinkStatus 0 3 rate.toNat).setF aPcieLinkStatus 4 4 width.toNat).setB aPcieLinkStatus 8 true
  if width.toNat < 8 ∨ rate.toNat < 5 then t.setB aPcieLinkStatus 9 true else t

theorem exec_pcieLinkTrained {width : BitVec 4} {rate : BitVec 3} (hw : width = 1 ∨ width = 2 ∨ width = 4 ∨ width = 8)
    (hlo : 1 ≤ rate.toNat) (hhi : rate.toNat ≤ 5) (s : State) :
    exec (.pcieLinkTrained width rate) s = .next (signal s (linkFlush (pcieTrained width rate s))) := by
  have hwf : Instr.wellFormed (.pcieLinkTrained width rate) = true := by
    simp only [Instr.wellFormed, hlo, hhi, and_self, decide_true, Bool.and_true]
    rcases hw with rfl | rfl | rfl | rfl <;> rfl
  change execPcieLinkTrained width rate s = _
  simp only [execPcieLinkTrained, hwf, Bool.not_true, Bool.false_eq_true, if_false, done]
  rfl

section
variable (width : BitVec 4) (rate : BitVec 3) (s : State)

theorem pcieTrained_onlyRegs : OnlyRegs s (pcieTrained width rate s) := by
  have h := (((OnlyRegs.refl s).setF aPcieLinkStatus 0 3 rate.toNat).setF aPcieLinkStatus 4 4 width.toNat).setB
    aPcieLinkStatus 8 true
  unfold pcieTrained; dsimp only; split
  · exact h.setB _ _ _
  · exact h

theorem pcieTrained_regsBut : RegsBut [aPcieLinkStatus] s (pcieTrained width rate s) := by
  have hoff : aPcieLinkStatus ∈ [aPcieLinkStatus] := List.mem_cons_self
  have h := (((RegsBut.refl _ s).setF hoff 0 3 rate.toNat).setF hoff 4 4 width.toNat).setB hoff 8 true
  unfold pcieTrained; dsimp only; split
  · exact h.setB hoff _ _
  · exact h

/-- The status shows the rate, the width and LINK_UP, and DEGRADED below x8 or 32 GT/s. -/
theorem pcieTrained_fields : (pcieTrained width rate s).f aPcieLinkStatus 0 3 = rate.toNat
    ∧ (pcieTrained width rate s).f aPcieLinkStatus 4 4 = width.toNat
    ∧ (pcieTrained width rate s).bit aPcieLinkStatus 8 = true
    ∧ (pcieTrained width rate s).bit aPcieLinkStatus 9
        = (s.bit aPcieLinkStatus 9 || decide (width.toNat < 8 ∨ rate.toNat < 5)) := by
  have hrate : rate.toNat % 2 ^ 3 = rate.toNat := Nat.mod_eq_of_lt rate.isLt
  have hwidth : width.toNat % 2 ^ 4 = width.toNat := Nat.mod_eq_of_lt width.isLt
  unfold pcieTrained; dsimp only; split
  all_goals
    next hslow =>
      simp (disch := decide) only [State.f_setB_of_disjoint, State.f_setF_of_disjoint, State.f_setF_same, State.bit_setB_same,
        State.bit_setB_of_ne, State.bit_setF_of_disjoint, hrate, hwidth, hslow, decide_true, decide_false, Bool.or_true,
        Bool.or_false, and_self]

end

/-- With the link up, what goes out goes behind what went out before, and nothing waits. -/
def SendsAfter (s t : State) : Prop := t.linkUp = true ∧ s.outbox <+: t.outbox ∧ t.waiting = s.waiting

theorem SendsAfter.msix {s t : State} (h : SendsAfter s t) (fn k : Nat) : SendsAfter s (t.msix fn k) := by
  obtain ⟨hup, hout, hwait⟩ := h
  rw [State.msix, if_pos hup]
  exact ⟨hup, hout.trans (List.prefix_append _ _), hwait⟩

theorem sendsAfter_signal (s : State) {u : State} (h : u.linkUp = true) : SendsAfter u (signal s u) := by
  have hu : SendsAfter u { u with src := intSum u, pending := s.pending } := ⟨h, List.prefix_rfl, rfl⟩
  unfold signal; dsimp only; split <;> split
  · exact (hu.msix _ _).msix _ _
  · exact hu.msix _ _
  · exact hu.msix _ _
  · exact hu

theorem exec_pcieLinkDown (s : State) : exec .pcieLinkDown s = .next (signal s (pcieDown s)) := rfl

theorem pcieDown_fields (s : State) : (pcieDown s).f aPcieLinkStatus 0 3 = 0 ∧ (pcieDown s).f aPcieLinkStatus 4 4 = 0
    ∧ (pcieDown s).bit aPcieLinkStatus 8 = false ∧ (pcieDown s).bit aPcieLinkStatus 9 = s.bit aPcieLinkStatus 9 := by
  unfold pcieDown
  simp (disch := decide) only [State.f_setB_of_disjoint, State.f_setF_of_disjoint, State.f_setF_same, State.bit_setB_same,
    State.bit_setB_of_ne, State.bit_setF_of_disjoint, Nat.zero_mod, and_self]

theorem txSent_regs (p : Nat) (s : State) : (txSent p s).regs = s.regs := by
  unfold txSent; dsimp only; split <;> rfl

theorem txSent_mem (p : Nat) (s : State) : (txSent p s).mem
    = { s.mem with basin := s.mem.basin.write (s.txSlot p + 4) (txMark (decide (2048 < s.txLen p))) false } := rfl

theorem txSent_of_short {p : Nat} {s : State} (h : s.txLen p ≤ 2048) :
    txSent p s = { s with mem := (txSent p s).mem, outbox := s.outbox ++ [s.txData p] } := by
  have hlong : decide (2048 < s.txLen p) = false := decide_eq_false (by omega)
  simp only [txSent, hlong, Bool.false_eq_true, if_false]
  rfl

theorem txSent_of_long {p : Nat} {s : State} (h : 2048 < s.txLen p) : txSent p s = { s with mem := (txSent p s).mem } := by
  simp only [txSent, decide_eq_true h, if_true]

theorem State.setF_eq (t : State) (off lo len v : Nat) : t.setF off lo len v = { t with regs := (t.setF off lo len v).regs } :=
  rfl

/-- Settles O13: ring indices by R68's test, a slot by what `txSent` leaves, training by the fields it writes and by empty paths that
move nothing. -/
theorem hostPathAndPcieLink : Obligations.HostPathAndPcieLink := by
  refine ⟨fun p ix s => ⟨fun hs => exec_hostpathRxHeadWrite hs p ix, fun hs => exec_hostpathTxDoorbell hs p ix,
    fun hen hwork hcxp hclean => ?_⟩, fun width rate s => ⟨fun hw hlo hhi hpaths => ?_, ?_⟩⟩
  · refine ⟨_, exec_hostpathTxSend hclean hen hwork hcxp, ?_, ?_, fun hshort => ?_, fun hlong => ?_, fun b => ?_⟩
    · rw [signal_f, State.f_setF_same _ _ _ (by decide)]
      rfl
    · have hsent : RegsBut [aHostpathTx p.val] s (txSent p.val s) := fun j _ => by simp only [State.rd, txSent_regs]
      exact (hsent.setF List.mem_cons_self _ _ _).signal
    · rw [signal_regs, signal_mem, State.setF_eq, txSent_of_short hshort]
      rfl
    · rw [signal_regs, signal_mem, State.setF_eq, txSent_of_long hlong]
    · have hbyte := Ram.byte_write s.mem.basin (s.txSlot p.val + 4) (txMark (decide (2048 < s.txLen p.val))) false b
      rw [signal_mem, State.setF_mem, txSent_mem]
      refine hbyte.trans ?_
      change _ = if s.txSlot p.val + 4 ≤ b ∧ b < s.txSlot p.val + 16 then
        (if b = s.txSlot p.val + 4 then (if 2048 < s.txLen p.val then 5 else 1) else 0) else _
      rw [txMark_length]
      by_cases hin : s.txSlot p.val + 4 ≤ b ∧ b < s.txSlot p.val + 16
      · have hfirst : b - (s.txSlot p.val + 4) = 0 ↔ b = s.txSlot p.val + 4 := by omega
        rw [if_pos (by omega), if_pos hin, txMark_get _ (by omega)]
        simp only [hfirst, decide_eq_true_eq]
      · rw [if_neg (by omega), if_neg hin]
  · obtain ⟨hrate, hwidth, hup, hdeg⟩ := pcieTrained_fields width rate s
    have hregs := pcieTrained_regsBut width rate s
    have hsame : (pcieTrained width rate s).streams = s.streams ∧ (pcieTrained width rate s).outbox = s.outbox
        ∧ (pcieTrained width rate s).waiting = s.waiting := by
      unfold pcieTrained; dsimp only; split <;> simp only [State.setB, State.setF_streams, State.setF_outbox,
        State.setF_waiting, and_self]
    obtain ⟨hstr, hout, hwait⟩ := hsame
    refine ⟨_, exec_pcieLinkTrained hw hlo hhi s, ?_⟩
    generalize pcieTrained width rate s = t at *
    let u : State := { t with outbox := t.outbox ++ t.waiting, waiting := [] }
    have hflush : FlushKeeps u (linkFlush t) := flushKeeps_each _ fun n hn => by
      rw [hstr] at hn
      obtain ⟨⟨k, x⟩, hp, rfl⟩ := List.mem_map.mp hn
      have hne : aStreamStatus k ∉ [aPcieLinkStatus] := by
        simp only [aStreamStatus, streamPage, aPcieLinkStatus, List.mem_singleton]; omega
      obtain ⟨hheld, hwaitq, hovf, -⟩ := hpaths _ (mem_tget_of_listed (d := Stream.init) ⟨x, hp⟩)
      obtain ⟨-, -, -, hstall⟩ := hpaths _ hp
      have hst : u.stream k = s.stream k := by rw [State.stream, State.stream, ← hstr]
      refine ⟨?_, (State.bit_congr (hregs _ hne) 7).trans hstall⟩
      rw [PathEmpty, hst]
      exact ⟨hheld, hwaitq, hovf⟩
    obtain ⟨-, hout', hwait', hregs'⟩ := hflush
    have hrd : ∀ j, (linkFlush t).rd j = t.rd j := fun j => hregs' j List.not_mem_nil
    have hlink : (linkFlush t).linkUp = true := (State.bit_congr (hrd _) 8).trans hup
    obtain ⟨-, hsent, hkept⟩ := sendsAfter_signal s hlink
    refine ⟨RegsBut.signal fun j hj => (hrd j).trans (hregs j hj), ?_, ?_, ?_, ?_, ?_, ?_⟩
    · rw [signal_f, State.f_congr (hrd _), hrate]
    · rw [signal_f, State.f_congr (hrd _), hwidth]
    · rw [signal_bit, State.bit_congr (hrd _), hup]
    · rw [signal_bit, State.bit_congr (hrd _), hdeg]
    · rw [hout'] at hsent
      rw [← hout, ← hwait]
      exact hsent
    · rw [hkept, hwait']
  · obtain ⟨hrate, hwidth, hup, hdeg⟩ := pcieDown_fields s
    have hoff : aPcieLinkStatus ∈ [aPcieLinkStatus] := List.mem_cons_self
    refine ⟨_, exec_pcieLinkDown s, ?_, ?_, ?_, ?_, ?_, ?_⟩
    · exact ((((OnlyRegs.refl s).setF _ 0 3 0).setF _ 4 4 0).setB _ 8 false).signal
    · exact ((((RegsBut.refl _ s).setF hoff 0 3 0).setF hoff 4 4 0).setB hoff 8 false).signal
    · rw [signal_f]; exact hrate
    · rw [signal_f]; exact hwidth
    · rw [signal_bit]; exact hup
    · rw [signal_bit]; exact hdeg

end Sys2Proof.Machine
end

section
/-! The bits of a causeway flit (02, Lanes and framing). -/
namespace Sys2Proof.Machine

/-- The fields of a flit at their places, the CRC's bits zero. -/
def Flit.body (f : Flit) : Nat :=
  f.type % 16 * 2 ^ 348 + f.seq % 256 * 2 ^ 340 + f.chan % 16 * 2 ^ 336 + f.crChan % 16 * 2 ^ 332 + f.crCount % 64 * 2 ^ 326
    + f.grp % 4 * 2 ^ 320 + f.pay.toNat * 2 ^ 64 + f.side.toNat * 2 ^ 32

theorem Flit.bits_eq (f : Flit) : f.bits = BitVec.ofNat 352 (f.body + (flitCrc (BitVec.ofNat 352 f.body)).toNat) := rfl

/-- Body and CRC do not overlap and fill the flit. -/
theorem Flit.toNat_bits (f : Flit) : f.bits.toNat = f.body + (flitCrc (BitVec.ofNat 352 f.body)).toNat := by
  have hcrc := (flitCrc (BitVec.ofNat 352 f.body)).isLt
  have hpay := f.pay.isLt
  have hside := f.side.isLt
  have hlt : f.body + (flitCrc (BitVec.ofNat 352 f.body)).toNat < 2 ^ 352 := by
    generalize flitCrc (BitVec.ofNat 352 f.body) = c at hcrc ⊢
    simp only [Flit.body]; omega
  simp only [Flit.bits_eq, BitVec.toNat_ofNat, Nat.mod_eq_of_lt hlt]

theorem flitCrc_congr {v w : BitVec 352} (h : v.toNat / 2 ^ 32 = w.toNat / 2 ^ 32) : flitCrc v = flitCrc w := by
  have hbit : ∀ (x : BitVec 352) (i : Nat), i < 320 → x.getLsbD (351 - i) = (x.toNat / 2 ^ 32).testBit (319 - i) :=
    fun x i hi => by
      have hplace : 319 - i + 32 = 351 - i := by omega
      rw [BitVec.getLsbD, Nat.testBit_div_two_pow, hplace]
  have hmap : (List.range 320).map (fun i => v.getLsbD (351 - i)) = (List.range 320).map (fun i => w.getLsbD (351 - i)) :=
    List.map_congr_left fun i hi => by
      have hlt := List.mem_range.mp hi
      rw [hbit v i hlt, hbit w i hlt, h]
  rw [flitCrc, flitCrc, hmap]

/-- The CRC of a flit is that of its body. -/
theorem Flit.crc_bits (f : Flit) : flitCrc f.bits = flitCrc (BitVec.ofNat 352 f.body) := by
  have hcrc := (flitCrc (BitVec.ofNat 352 f.body)).isLt
  have hpay := f.pay.isLt
  have hside := f.side.isLt
  refine flitCrc_congr ?_
  rw [Flit.toNat_bits, BitVec.toNat_ofNat, Nat.mod_eq_of_lt (by simp only [Flit.body]; omega)]
  simp only [Flit.body]
  omega

/-- The check a receiver makes. -/
theorem Flit.crc_ok (f : Flit) : BitVec.ofNat 32 f.bits.toNat = flitCrc f.bits := by
  rw [Flit.crc_bits, Flit.toNat_bits]
  apply BitVec.eq_of_toNat_eq
  rw [BitVec.toNat_ofNat]
  simp only [Flit.body]
  omega

/-- Settles O14: body and CRC fill the flit without overlap, so each field is a quotient and a remainder of the whole. -/
theorem flitFieldsRoundTrip : Obligations.FlitFieldsRoundTrip := by
  intro f
  have hcrc := (flitCrc (BitVec.ofNat 352 f.body)).isLt
  have hpay := f.pay.isLt
  have hside := f.side.isLt
  have hbits := f.toNat_bits
  simp only [Flit.body] at hbits
  refine ⟨?_, ?_, ?_, ?_, ?_, ?_, ?_, ?_, f.crc_ok⟩
  · simp only [flitOf, hbits, nbits]; omega
  · simp only [flitOf, hbits, nbits]; omega
  · simp only [flitOf, hbits, nbits]; omega
  · simp only [flitOf, hbits, nbits]; omega
  · simp only [flitOf, hbits, nbits]; omega
  · simp only [flitOf, hbits, nbits]; omega
  · apply BitVec.eq_of_toNat_eq
    simp only [flitOf, hbits, nbits, BitVec.toNat_ofNat]; omega
  · apply BitVec.eq_of_toNat_eq
    simp only [flitOf, hbits, nbits, BitVec.toNat_ofNat]; omega

end Sys2Proof.Machine
end

section
/-! Causeway links: training (R39), a flit that fails its check (R40), and a data flit sent (R42). -/
namespace Sys2Proof.Machine

/-! ### Training -/

/-- What training leaves of the status register. -/
def cwyTrained (l : Nat) (pos num : BitVec 2) (s : State) : State :=
  ((((s.setF (aCwyLinkStatus l) 8 4 15).setF (aCwyLinkStatus l) 6 2 num.toNat).setF (aCwyLinkStatus l) 4 2 pos.toNat).setB
    (aCwyLinkStatus l) 3 true).setB (aCwyLinkStatus l) 0 true

theorem exec_cwyLinkTrained {l : Fin 4} {s : State} (hdown : s.bit (aCwyLinkStatus l.val) 0 = false)
    (hen : s.bit (aCwyLinkCtl l.val) 0 = true) (pos num : BitVec 2) :
    exec (.cwyLinkTrained l pos num) s = .next (signal s ((cwyTrained l.val pos num s).setLink l.val Cwy.init)) := by
  change execCwyLinkTrained l pos num s = _
  simp only [execCwyLinkTrained, hdown, hen, when_, Bool.false_eq_true, if_true, if_false, done]
  rfl

theorem cwyTrained_regsBut (l : Nat) (pos num : BitVec 2) (s : State) :
    RegsBut [aCwyLinkStatus l] s (cwyTrained l pos num s) := by
  have hoff : aCwyLinkStatus l ∈ [aCwyLinkStatus l] := List.mem_cons_self
  exact (((((RegsBut.refl _ s).setF hoff 8 4 15).setF hoff 6 2 num.toNat).setF hoff 4 2 pos.toNat).setB hoff 3 true).setB
    hoff 0 true

theorem cwyTrained_fields (l : Nat) (pos num : BitVec 2) (s : State) :
    (cwyTrained l pos num s).bit (aCwyLinkStatus l) 0 = true ∧ (cwyTrained l pos num s).f (aCwyLinkStatus l) 4 2 = pos.toNat
    ∧ (cwyTrained l pos num s).f (aCwyLinkStatus l) 6 2 = num.toNat
    ∧ (cwyTrained l pos num s).bit (aCwyLinkStatus l) 3 = true := by
  have hpos : pos.toNat % 2 ^ 2 = pos.toNat := Nat.mod_eq_of_lt pos.isLt
  have hnum : num.toNat % 2 ^ 2 = num.toNat := Nat.mod_eq_of_lt num.isLt
  unfold cwyTrained
  simp (disch := decide) only [State.f_setB_of_disjoint, State.f_setF_of_disjoint, State.f_setF_same, State.bit_setB_same,
    State.bit_setB_of_ne, hpos, hnum, and_self]

theorem cwyTrained_link (l m : Nat) (pos num : BitVec 2) (s : State) : (cwyTrained l pos num s).link m = s.link m := by
  simp only [cwyTrained, State.link, State.setB, State.setF_cwy]

@[simp] theorem State.rd_setLink (s : State) (l j : Nat) (x : Cwy) : (s.setLink l x).rd j = s.rd j := rfl

/-! ### Delivery of nothing -/

/-- A link that has received nothing delivers nothing. -/
theorem cwyPump_of_empty {l : Nat} {s : State} (h : (s.link l).rxq = []) : cwyPump l s = s := by
  refine each_keep (fun t => t = s) _ (fun t c ht => ?_) (List.range 16) s rfl
  subst ht
  rw [h]
  rfl

@[simp] theorem State.link_count (s : State) (off k l : Nat) : (s.count off k).link l = s.link l := by
  simp only [State.link, State.count_cwy]

theorem flitOut_eq (l : Nat) (w : BitVec 352) (s : State) :
    ∃ c, flitOut l w s = { s with outbox := s.outbox ++ [.flit l w], counters := c } := by
  obtain ⟨c, hc⟩ := (s.emit (.flit l w)).count_eq (cCwy l 0) 1
  exact ⟨c, by rw [flitOut, hc]; rfl⟩

/-! ### A flit that fails its check -/

section
variable {l : Fin 4} {w : BitVec 352} {s : State}

/-- The nak that answers it. -/
def nakFlit (l : Nat) (s : State) : BitVec 352 := Flit.bits ⟨4, ((s.link l).rxSeq + 255) % 256, 0, 0, 0, 0, 0, 0⟩

theorem cwyReceive_of_badCrc (h : BitVec.ofNat 32 w.toNat ≠ flitCrc w) :
    cwyReceive l.val w s = cwyNak l.val (s.count (cCwy l.val 1) 1) := by
  simp only [cwyReceive, h, ne_eq, not_false_eq_true, true_or, if_true]

theorem State.retryLimit_congr {s t : State} (h : t.regs = s.regs) (l : Nat) : t.retryLimit l = s.retryLimit l := by
  have hf := State.f_congr (s := s) (t := t) (off := aCwyLinkCtl l) (by simp only [State.rd, h]) 4 4
  rw [State.retryLimit, State.retryLimit, hf]

theorem cwyNak_of_few (h : (s.link l.val).sentNaks < s.retryLimit l.val) :
    cwyNak l.val s = flitOut l.val (nakFlit l.val s)
      (s.setLink l.val { s.link l.val with sentNaks := (s.link l.val).sentNaks + 1 }) := by
  obtain ⟨c, hout⟩ := flitOut_eq l.val (nakFlit l.val s)
    (s.setLink l.val { s.link l.val with sentNaks := (s.link l.val).sentNaks + 1 })
  have hlim : (flitOut l.val (nakFlit l.val s)
      (s.setLink l.val { s.link l.val with sentNaks := (s.link l.val).sentNaks + 1 })).retryLimit l.val
      = s.retryLimit l.val := State.retryLimit_congr (by rw [hout]; rfl) _
  simp only [nakFlit] at hlim ⊢
  simp only [cwyNak, hlim]
  rw [if_neg (by omega)]

theorem exec_causewayFlitReceive (hup : s.cwyUp l.val = true) (w : BitVec 352) :
    exec (.causewayFlitReceive l w) s = .next (signal s (cwyPump l.val (cwyReceive l.val w s))) := by
  change execCausewayFlitReceive l w s = _
  simp only [execCausewayFlitReceive, hup, if_true, done]

theorem exec_causewayFlitReceive_of_badCrc (hup : s.cwyUp l.val = true) (hempty : (s.link l.val).rxq = [])
    (hcrc : BitVec.ofNat 32 w.toNat ≠ flitCrc w) (hfew : (s.link l.val).sentNaks < s.retryLimit l.val) :
    ∃ c, exec (.causewayFlitReceive l w) s = .next (signal s
      { s.setLink l.val { s.link l.val with sentNaks := (s.link l.val).sentNaks + 1 } with
        outbox := s.outbox ++ [.flit l.val (nakFlit l.val s)], counters := c }) := by
  let t := s.count (cCwy l.val 1) 1
  have hlink : t.link l.val = s.link l.val := State.link_count _ _ _ _
  have hlimit : t.retryLimit l.val = s.retryLimit l.val := State.retryLimit_congr (State.count_regs _ _ _) _
  have hnak : nakFlit l.val t = nakFlit l.val s := by simp only [nakFlit, hlink]
  have hrecv : cwyReceive l.val w s = _ := (cwyReceive_of_badCrc hcrc).trans (cwyNak_of_few (by rw [hlink, hlimit]; exact hfew))
  obtain ⟨c, hout⟩ := flitOut_eq l.val (nakFlit l.val t)
    (t.setLink l.val { t.link l.val with sentNaks := (t.link l.val).sentNaks + 1 })
  obtain ⟨d, hcount⟩ := s.count_eq (cCwy l.val 1) 1
  have hafter : cwyReceive l.val w s
      = { s.setLink l.val { s.link l.val with sentNaks := (s.link l.val).sentNaks + 1 } with
          outbox := s.outbox ++ [.flit l.val (nakFlit l.val s)], counters := c } := by
    have ht : t = { s with counters := d } := hcount
    rw [hrecv, hout, hnak, hlink, ht]
    rfl
  refine ⟨c, ?_⟩
  rw [exec_causewayFlitReceive hup, hafter, cwyPump_of_empty]
  change ((s.setLink l.val _).link l.val).rxq = []
  rw [State.link_setLink, if_pos rfl]
  exact hempty

end

/-! ### A data flit is sent -/

section
variable {l : Fin 4} {s : State}

theorem credit_zero (o : Option Nat) (s : State) : credit o 0 s = s := by cases o <;> rfl

theorem groupTake_one (e : Entry) (es : List Entry) : groupTake 1 (e :: es) = [e] := by
  cases es <;> simp [groupTake]

/-- The oldest entry of TX leaves; the port's entries stay. -/
theorem chanPop_of_tx {c : Nat} {e : Entry} {es : List Entry} (h : tget [] (s.link l.val).txq c = e :: es) :
    (chanPop l.val c 1 s).cwy = (s.setLink l.val { s.link l.val with txq := tset [] (s.link l.val).txq c es }).cwy
      ∧ (chanPop l.val c 1 s).outbox = s.outbox := by
  simp only [chanPop, h, List.length_cons, List.drop_succ_cons, List.drop_zero]
  have hnone : 1 - (es.length + 1) = 0 := by omega
  rw [hnone]
  split
  · rw [credit_zero]; exact ⟨rfl, rfl⟩
  · exact ⟨rfl, rfl⟩

/-- The flit of the oldest entry of TX: it takes the next SEQ and returns what credits are due. -/
def dataFlit (l c : Nat) (e : Entry) (s : State) : BitVec 352 :=
  Flit.bits ⟨1, (s.link l).txSeq, c, (s.link l).dues.1, (s.link l).dues.2, 0, e.pay, e.side⟩

theorem State.chanQueue_of_tx {c : Nat} {e : Entry} {es : List Entry} (h : tget [] (s.link l.val).txq c = e :: es) :
    ∃ q, s.chanQueue l.val c = e :: q := by
  rw [State.chanQueue, h]; exact ⟨_, rfl⟩

/-- What a data flit leaves of its link (R42). -/
theorem sendData_of_tx {c : Nat} {e : Entry} {es : List Entry} (h : tget [] (s.link l.val).txq c = e :: es)
    (hcodec : (s.chanCodec l.val c).1 = 0) :
    let x := s.link l.val
    let y := (sendData l.val c s).link l.val
    .flit l.val (dataFlit l.val c e s) ∈ (sendData l.val c s).outbox ∧ y.txSeq = (x.txSeq + 1) % 256
      ∧ y.replay = x.replay ++ [dataFlit l.val c e s] ∧ tget 0 y.spent c = tget 0 x.spent c + 1 ∧ tget [] y.txq c = es := by
  obtain ⟨q, hq⟩ := State.chanQueue_of_tx h
  obtain ⟨hcwy, -⟩ := chanPop_of_tx h
  have hpop : (chanPop l.val c 1 s).link l.val = { s.link l.val with txq := tset [] (s.link l.val).txq c es } := by
    rw [State.link, hcwy]
    exact (State.link_setLink s l.val l.val _).trans (if_pos rfl)
  have hdata : ∃ y t, sendData l.val c s = flitOut l.val (dataFlit l.val c e s) (State.setLink t l.val y)
      ∧ y.txSeq = ((s.link l.val).txSeq + 1) % 256 ∧ y.replay = (s.link l.val).replay ++ [dataFlit l.val c e s]
      ∧ y.spent = tset 0 (s.link l.val).spent c (tget 0 (s.link l.val).spent c + 1)
      ∧ y.txq = tset [] (s.link l.val).txq c es := by
    rcases hcc : s.chanCodec l.val c with ⟨codec, sg⟩
    obtain rfl : codec = 0 := by rw [hcc] at hcodec; exact hcodec
    have hmax : groupMax 0 = 1 := rfl
    simp only [sendData, hcc, hmax, hq, groupTake_one, groupFlit, if_true, List.length_singleton, hpop]
    exact ⟨_, _, rfl, rfl, rfl, rfl, rfl⟩
  obtain ⟨y, t, hsend, hseq, hrep, hspent, htxq⟩ := hdata
  obtain ⟨d, hout⟩ := flitOut_eq l.val (dataFlit l.val c e s) (State.setLink t l.val y)
  have hlink : (sendData l.val c s).link l.val = y := by
    rw [hsend, hout]
    exact (State.link_setLink t l.val l.val y).trans (if_pos rfl)
  dsimp only
  rw [hlink, hseq, hrep, hspent, htxq, tget_tset_same, tget_tset_same, hsend, hout]
  exact ⟨List.mem_append_right _ List.mem_cons_self, rfl, rfl, rfl, rfl⟩

theorem exec_causewayFlitSend_data {chan : Fin 16} {e : Entry} {es : List Entry} (hup : s.cwyUp l.val = true)
    (hempty : (s.link l.val).rxq = []) (hresend : (s.link l.val).resend = []) (hroom : (s.link l.val).replay.length < 128)
    (hcred : tget 0 (s.link l.val).spent chan.val < 64) (h : tget [] (s.link l.val).txq chan.val = e :: es) :
    exec (.causewayFlitSend l chan) s = .next (signal s (sendData l.val chan.val s)) := by
  obtain ⟨q, hq⟩ := State.chanQueue_of_tx h
  change execCausewayFlitSend l chan s = _
  simp only [execCausewayFlitSend, hup, cwyPump_of_empty hempty, hresend, hq, hroom, hcred, List.isEmpty_cons, decide_true,
    Bool.not_true, Bool.not_false, Bool.and_self, Bool.false_eq_true, if_true, if_false, done]

/-- What a receiver reads of a data flit. -/
theorem flitOf_dataFlit (c : Fin 16) (e : Entry) :
    let g := flitOf (dataFlit l.val c.val e s)
    g.type = 1 ∧ g.seq = (s.link l.val).txSeq % 256 ∧ g.chan = c.val ∧ g.pay = e.pay ∧ g.side = e.side := by
  obtain ⟨htype, hseq, hchan, -, -, -, hpay, hside, -⟩ := flitFieldsRoundTrip
    ⟨1, (s.link l.val).txSeq, c.val, (s.link l.val).dues.1, (s.link l.val).dues.2, 0, e.pay, e.side⟩
  exact ⟨htype, hseq, hchan.trans (Nat.mod_eq_of_lt c.isLt), hpay, hside⟩

end

/-- Settles O15: the fields training writes, the nak of a flit with a wrong CRC, and the entry a data flit takes from TX. -/
theorem causewayLink : Obligations.CausewayLink := by
  refine fun l pos num w chan s => ⟨fun hdown hen => ?_, fun hup hempty hcrc hfew => ?_,
    fun e es hup hempty hresend hroom hcred htx hcodec => ?_⟩
  · obtain ⟨hup, hpos, hnum, hlanes⟩ := cwyTrained_fields l.val pos num s
    have hregs := cwyTrained_regsBut l.val pos num s
    have hlink := fun m => cwyTrained_link l.val m pos num s
    refine ⟨_, exec_cwyLinkTrained hdown hen pos num, ?_⟩
    generalize cwyTrained l.val pos num s = t at *
    have hrd : ∀ j, (t.setLink l.val Cwy.init).rd j = t.rd j := fun j => t.rd_setLink _ j _
    refine ⟨RegsBut.signal fun j hj => (hrd j).trans (hregs j hj), ?_, ?_, ?_, ?_, ?_, fun m hm => ?_⟩
    · rw [signal_bit, State.bit_congr (hrd _), hup]
    · rw [signal_f, State.f_congr (hrd _), hpos]
    · rw [signal_f, State.f_congr (hrd _), hnum]
    · rw [signal_bit, State.bit_congr (hrd _), hlanes]
    · rw [signal_link, State.link_setLink, if_pos rfl]
    · rw [signal_link, State.link_setLink, if_neg hm, hlink]
  · obtain ⟨c, hexec⟩ := exec_causewayFlitReceive_of_badCrc hup hempty hcrc hfew
    refine ⟨_, hexec, ?_, ?_, ?_⟩
    · rw [signal_link]
      exact (State.link_setLink s l.val l.val _).trans (if_pos rfl)
    · rw [signal_regs]; rfl
    · exact mem_outbox_signal (List.mem_append_right _ List.mem_cons_self) s
  · obtain ⟨hout, hseq, hrep, hspent, htxq⟩ := sendData_of_tx htx hcodec
    obtain ⟨htype, hseq', hchan, hpay, hside⟩ := flitOf_dataFlit (l := l) (s := s) chan e
    refine ⟨_, _, exec_causewayFlitSend_data hup hempty hresend hroom hcred htx, mem_outbox_signal hout s, Flit.crc_ok _, htype,
      hseq', hchan, hpay, hside, ?_, ?_, ?_, ?_⟩
    · rw [signal_link, hseq]
    · rw [signal_link, hrep]
    · rw [signal_link, hspent]
    · rw [signal_link, htxq]

end Sys2Proof.Machine
end

section
/-! Ingest channels start and stop (R46, R49); source links come up and go down (R55); trigger packets leave (R28). -/
namespace Sys2Proof.Machine

theorem RegsBut.f_eq {offs : List Nat} {s t : State} (h : RegsBut offs s t) {off : Nat} (hoff : off ∉ offs) (lo len : Nat) :
    t.f off lo len = s.f off lo len := State.f_congr (h off hoff) lo len

theorem RegsBut.bit_eq {offs : List Nat} {s t : State} (h : RegsBut offs s t) {off : Nat} (hoff : off ∉ offs) (i : Nat) :
    t.bit off i = s.bit off i := State.bit_congr (h off hoff) i

/-! ### The start of a channel -/

section
variable (c : Nat) (s : State)

/-- EN set, and the four configuration words in effect. -/
def chanArmed : State :=
  each [aIngestChFmt c, aIngestChGeom c, aIngestChSeg c, aIngestChPool c] (s.setB (aIngestChCtl c) 0 true) applyReg

/-- R46: the source is up, the stream has a job and the geometry is usable. -/
def chanOk : Bool := s.sourceUp c && (s.stream (s.chStream c)).job.isSome && (geomOf (s.chCfg c)).ok (s.chLines c)

theorem chanArmed_rd (j : Nat) : (chanArmed c s).rd j = (s.setB (aIngestChCtl c) 0 true).rd j := rfl

theorem chanArmed_chans : (chanArmed c s).chans = s.chans := rfl

theorem chanArmed_streams : (chanArmed c s).streams = s.streams := rfl

theorem chanArmed_regsBut : RegsBut [aIngestChCtl c] s (chanArmed c s) := fun j hj =>
  (chanArmed_rd c s j).trans ((RegsBut.refl [aIngestChCtl c] s).setB List.mem_cons_self 0 true j hj)

/-- The fields of INGEST_CH_CTL above EN. -/
theorem chanArmed_ctl {lo len : Nat} (hlo : 1 ≤ lo) (hhi : lo + len ≤ 32) :
    (chanArmed c s).f (aIngestChCtl c) lo len = s.f (aIngestChCtl c) lo len := by
  rw [State.f_congr (chanArmed_rd c s _), State.f_setB_of_disjoint _ (by omega) hhi]

theorem chanArmed_en : (chanArmed c s).bit (aIngestChCtl c) 0 = true := by
  rw [State.bit_congr (chanArmed_rd c s _), State.bit_setB_same _ _ _ (by decide)]

theorem chanArmed_act {off : Nat} (hoff : off ∈ [aIngestChFmt c, aIngestChGeom c, aIngestChSeg c, aIngestChPool c]) :
    (chanArmed c s).act off = s.rd off := by
  have hctl : ∀ off' ∈ [aIngestChFmt c, aIngestChGeom c, aIngestChSeg c, aIngestChPool c],
      (s.setB (aIngestChCtl c) 0 true).rd off' = s.rd off' := by
    simp only [aIngestChFmt, aIngestChGeom, aIngestChSeg, aIngestChPool, aIngestChCtl, List.mem_cons, List.not_mem_nil, or_false]
    rintro off' h
    exact State.rd_setF_ne _ _ _ _ (by omega)
  rw [← hctl off hoff]
  simp only [chanArmed, each, List.foldl_cons, List.foldl_nil, applyReg, State.act_wrAct, State.rd_wrAct]
  simp only [List.mem_cons, List.not_mem_nil, or_false] at hoff
  rcases hoff with rfl | rfl | rfl | rfl <;> simp [aIngestChFmt, aIngestChGeom, aIngestChSeg, aIngestChPool]

/-- Arming changes nothing the start's test looks at but the words in effect. -/
theorem chanOk_chanArmed : chanOk c (chanArmed c s) = (s.sourceUp c && (s.stream (s.chStream c)).job.isSome
    && (geomOf ((chanArmed c s).chCfg c)).ok (s.chLines c)) := by
  have hregs := chanArmed_regsBut c s
  have htype : (chanArmed c s).chType c = s.chType c := chanArmed_ctl c s (by decide) (by decide)
  have hlink : (chanArmed c s).chLink c = s.chLink c := chanArmed_ctl c s (by decide) (by decide)
  have hstream : (chanArmed c s).chStream c = s.chStream c := chanArmed_ctl c s (by decide) (by decide)
  have hlines : (chanArmed c s).chLines c = s.chLines c := by
    rw [State.chLines, State.chLines, chanArmed_ctl c s (by decide) (by decide)]
  have hlo : ∀ off, off < 0x28000 → off ∉ [aIngestChCtl c] := fun off hoff => by
    simp only [aIngestChCtl, chanPage, List.mem_singleton]; omega
  have hcxp : s.chLink c < 8 := nbits_lt _ _ _
  have hup : (chanArmed c s).sourceUp c = s.sourceUp c := by
    have hs := hregs.bit_eq (hlo (aCxpLinkStatus (s.chLink c)) (by simp only [aCxpLinkStatus]; omega)) 1
    have hc := hregs.f_eq (hlo (aCxpLinkCtl (s.chLink c)) (by simp only [aCxpLinkCtl]; omega)) 4 3
    have he0 := hregs.bit_eq (hlo (aEthPortStatus 0) (by decide)) 0
    have he0' := hregs.f_eq (hlo (aEthPortCtl 0) (by decide)) 3 3
    have he1 := hregs.bit_eq (hlo (aEthPortStatus 1) (by decide)) 0
    have he1' := hregs.f_eq (hlo (aEthPortCtl 1) (by decide)) 3 3
    simp only [State.sourceUp, htype, hlink, hs, hc, he0, he0', he1, he1']
  rw [chanOk, hup, hstream, hlines, State.stream, chanArmed_streams]
  rfl

/-- What a start that passes leaves. -/
def chanStarted (t : State) : State :=
  ((t.setB (aIngestChStatus c) 0 true).setB (aIngestChStatus c) 1 false).setChan c
    { t.chan c with frame := none, block := none, lastBlock := none, expect := none }

theorem chanStart_of_free (hrun : s.chRuns c = false) (hfree : s.doubled c = false) : chanStart c s
    = if chanOk c (chanArmed c s) then chanStarted c (chanArmed c s) else (chanArmed c s).setB (aIngestChStatus c) 1 true := by
  simp only [chanStart, hrun, hfree, Bool.false_eq_true, if_false]
  rfl

end

@[simp] theorem State.rd_setChan (s : State) (c j : Nat) (x : Chan) : (s.setChan c x).rd j = s.rd j := rfl

theorem exec_ingestChannelStart {s : State} (hs : Served s) (c : ChanIx) :
    exec (.ingestChannelStart c) s = .next (signal s (chanStart c.val s)) := hostRow_of_served hs _ _ _ _

theorem exec_ingestChannelStop {s : State} (hs : Served s) (c : ChanIx) :
    exec (.ingestChannelStop c) s = .next (signal s (chanStop c.val s)) := hostRow_of_served hs _ _ _ _

/-! ### The stop of a channel -/

/-- R49: RUNNING reads 0 once EN does, no frame is in progress and none is held. -/
theorem chanSettle_eq (c : Nat) (s : State) : chanSettle c s = s ∨ chanSettle c s = s.setB (aIngestChStatus c) 0 false := by
  unfold chanSettle; split
  · exact .inr rfl
  · exact .inl rfl

end Sys2Proof.Machine
end

section
/-! Source links (R55): what the loss of a source leaves of its channels; and the obligation on channels and sources. -/
namespace Sys2Proof.Machine

/-- A property one element of a list establishes, and no element breaks, holds after all of them. -/
theorem each_of_mem {α σ : Type} (P : σ → Prop) (f : σ → α → σ) {x : α} (hx : ∀ s, P (f s x)) (hkeep : ∀ s y, P s → P (f s y))
    {l : List α} (hmem : x ∈ l) (s : σ) : P (each l s f) := by
  obtain ⟨l₁, l₂, rfl⟩ := List.append_of_mem hmem
  rw [each, List.foldl_append, List.foldl_cons]
  exact each_keep P f hkeep l₂ _ (hx _)

/-! ### A frame dropped for its source -/

section
variable (c : Nat) (s : State)

theorem fillSlot_rd (n tag o j : Nat) : (fillSlot n tag o s).rd j = s.rd j := by
  unfold fillSlot; split <;> rfl

theorem fillSlot_chans (n tag o : Nat) : (fillSlot n tag o s).chans = s.chans := by
  unfold fillSlot; split <;> rfl

theorem poolDiscard_chan_ne (tag : Nat) {d : Nat} (hd : d ≠ c) : (poolDiscard c tag s).chan d = s.chan d :=
  (State.chan_setChan s c d _).trans (if_neg hd)

theorem poolDiscard_rd (tag j : Nat) : (poolDiscard c tag s).rd j = s.rd j := rfl

/-- The rows of a dropped frame leave the pool, its ports are to be closed; DROPPED shows and counts. -/
def rowsDropped (f : Frame) : State :=
  let t := poolDiscard c f.tag s
  let close := f.taken.map (fun p => (p.1, Entry.mk 0 (sideOf (s.chStream c) f.tag p.2 false true false true)))
  ((t.setChan c { t.chan c with closeTo := (t.chan c).closeTo ++ close }).setB (aIngestChStatus c) 3 true).count (cChan c 2) 1

theorem dropFrame_snd (f : Frame) : (dropFrame c false f s).2 = s ∨ (dropFrame c false f s).2 = rowsDropped c s f
    ∨ (dropFrame c false f s).2 = fillSlot (s.chStream c) f.tag 3 (rowsDropped c s f) := by
  unfold dropFrame
  split
  · exact .inl rfl
  · cases f.held
    · exact .inr (.inr rfl)
    · exact .inr (.inl rfl)

theorem rowsDropped_chan_ne (f : Frame) {d : Nat} (hd : d ≠ c) : (rowsDropped c s f).chan d = s.chan d := by
  simp only [rowsDropped, State.chan, State.count_chans, State.setB, State.setF_chans]
  exact (State.chan_setChan _ c d _).trans ((if_neg hd).trans (poolDiscard_chan_ne c s f.tag hd))

theorem rowsDropped_rd (f : Frame) {j : Nat} (hj : j ∉ [aIngestChStatus c]) : (rowsDropped c s f).rd j = s.rd j := by
  rw [List.mem_singleton] at hj
  simp only [rowsDropped, State.count_rd, State.setB, State.rd_setF_ne _ _ _ _ hj, State.rd_setChan, poolDiscard_rd]

/-- Dropping a frame for its source touches no other channel. -/
theorem dropFrame_chan_ne (f : Frame) {d : Nat} (hd : d ≠ c) : (dropFrame c false f s).2.chan d = s.chan d := by
  rcases dropFrame_snd c s f with h | h | h <;> rw [h]
  · exact rowsDropped_chan_ne c s f hd
  · rw [State.chan, fillSlot_chans, ← State.chan, rowsDropped_chan_ne c s f hd]

/-- The only register it writes is the channel's status. -/
theorem dropFrame_regsBut (f : Frame) : RegsBut [aIngestChStatus c] s (dropFrame c false f s).2 := by
  intro j hj
  rcases dropFrame_snd c s f with h | h | h <;> rw [h]
  · exact rowsDropped_rd c s f hj
  · rw [fillSlot_rd, rowsDropped_rd c s f hj]

theorem chanSettle_chans : (chanSettle c s).chans = s.chans := by
  rcases chanSettle_eq c s with h | h <;> rw [h]
  rfl

theorem chanSettle_regsBut : RegsBut [aIngestChStatus c] s (chanSettle c s) := by
  rcases chanSettle_eq c s with h | h <;> rw [h]
  · exact RegsBut.refl _ _
  · exact (RegsBut.refl _ _).setB List.mem_cons_self 0 false

/-- The end of a frame: none was in progress; or, but for a slot's last pixel, the channel is between frames, and may settle. -/
theorem frameEnd_cases : ((s.chan c).frame = none ∧ frameEnd c s = s) ∨ ∃ (u : State) (x : Chan), u.chans = s.chans
    ∧ (∀ j, u.rd j = s.rd j) ∧ x.frame = none ∧ (frameEnd c s = u.setChan c x ∨ frameEnd c s = chanSettle c (u.setChan c x)) := by
  unfold frameEnd
  split
  case h_1 h => exact .inl ⟨h, rfl⟩
  case h_2 f h =>
    refine .inr ?_
    split
    · exact ⟨s, _, rfl, fun _ => rfl, rfl, .inl rfl⟩
    · split
      · exact ⟨s, _, rfl, fun _ => rfl, rfl, .inr rfl⟩
      · dsimp only
        split
        · exact ⟨s, _, rfl, fun _ => rfl, rfl, .inr rfl⟩
        · exact ⟨s.setSlot _ _ _, _, rfl, fun _ => rfl, rfl, .inr rfl⟩

theorem frameEnd_frame : ((frameEnd c s).chan c).frame = none := by
  rcases frameEnd_cases c s with ⟨h, he⟩ | ⟨u, x, -, -, hx, he | he⟩ <;> rw [he]
  · exact h
  · rw [State.chan_setChan, if_pos rfl, hx]
  · rw [State.chan, chanSettle_chans, ← State.chan, State.chan_setChan, if_pos rfl, hx]

theorem frameEnd_chan_ne {d : Nat} (hd : d ≠ c) : (frameEnd c s).chan d = s.chan d := by
  rcases frameEnd_cases c s with ⟨-, he⟩ | ⟨u, x, hu, -, -, he | he⟩ <;> rw [he]
  · rw [State.chan_setChan, if_neg hd, State.chan, hu, State.chan]
  · rw [State.chan, chanSettle_chans, ← State.chan, State.chan_setChan, if_neg hd, State.chan, hu, State.chan]

theorem frameEnd_regsBut : RegsBut [aIngestChStatus c] s (frameEnd c s) := by
  rcases frameEnd_cases c s with ⟨-, he⟩ | ⟨u, x, -, hu, -, he | he⟩ <;> rw [he]
  · exact RegsBut.refl _ _
  · exact fun j _ => hu j
  · exact fun j hj => (chanSettle_regsBut c _ j hj).trans (hu j)

/-! ### A channel whose source is lost -/

theorem frameLost_frame : ((frameLost c s).chan c).frame = none := by
  unfold frameLost
  split
  case h_1 h => exact h
  · exact frameEnd_frame c _

theorem frameLost_chan_ne {d : Nat} (hd : d ≠ c) : (frameLost c s).chan d = s.chan d := by
  unfold frameLost
  split
  · rfl
  · exact (frameEnd_chan_ne c _ hd).trans ((State.chan_setChan _ c d _).trans ((if_neg hd).trans (dropFrame_chan_ne c s _ hd)))

theorem frameLost_regsBut : RegsBut [aIngestChStatus c] s (frameLost c s) := by
  unfold frameLost
  split
  · exact RegsBut.refl _ _
  · exact fun j hj => (frameEnd_regsBut c _ j hj).trans (dropFrame_regsBut c s _ j hj)

end

/-- What the loss of its source does to one channel. -/
def sourceLost (s : State) (c : Nat) : State := frameLost c (s.setChan c { s.chan c with expect := none })

theorem sourceLost_frame (s : State) (c : Nat) : ((sourceLost s c).chan c).frame = none := frameLost_frame c _

theorem sourceLost_chan_ne (s : State) (c : Nat) {d : Nat} (hd : d ≠ c) : (sourceLost s c).chan d = s.chan d :=
  (frameLost_chan_ne c _ hd).trans ((State.chan_setChan s c d _).trans (if_neg hd))

theorem sourceLost_regsBut (s : State) (c : Nat) : RegsBut [aIngestChStatus c] s (sourceLost s c) :=
  fun j hj => frameLost_regsBut c _ j hj

/-- No status register of a channel is the control register of one. -/
theorem chStatus_ne_chCtl (c d : Nat) : aIngestChCtl c ∉ [aIngestChStatus d] := by
  simp only [aIngestChCtl, aIngestChStatus, chanPage, List.mem_singleton]; omega

theorem sourcesLost_frame (s : State) {c : Nat} {cs : List Nat} (hc : c ∈ cs) : ((each cs s sourceLost).chan c).frame = none :=
  each_of_mem (fun s => (s.chan c).frame = none) sourceLost (fun s => sourceLost_frame s c)
    (fun s d h => by
      by_cases hd : c = d
      · rw [hd]; exact sourceLost_frame s d
      · rw [sourceLost_chan_ne s d hd, h]) hc s

theorem sourcesLost_chCtl (s : State) (c : Nat) (cs : List Nat) :
    (each cs s sourceLost).rd (aIngestChCtl c) = s.rd (aIngestChCtl c) :=
  each_eq (fun s => s.rd (aIngestChCtl c)) sourceLost (fun s d => sourceLost_regsBut s d _ (chStatus_ne_chCtl c d)) cs s

/-- The links of a group show no lock, the master no alignment. -/
def cxpUnlocked (l : Nat) (s : State) : State :=
  (each (s.cxpGroup l) s (fun s k => s.setB (aCxpLinkStatus k) 0 false)).setB (aCxpLinkStatus l) 1 false

/-- The running channels whose source is link l. -/
def State.chansOfCxp (s : State) (l : Nat) : List Nat :=
  (List.range 32).filter (fun c => s.chRuns c && s.chType c == 1 && s.chLink c == l)

theorem cxpGroup_of_zero {l : Nat} {s : State} (h : s.f (aCxpLinkCtl l) 8 2 = 0) : s.cxpGroup l = [l] := by
  simp [State.cxpGroup, h]

theorem exec_sourceLinkDown_cxp (l : Fin 8) (s : State) : exec (.sourceLinkDown (.cxp l)) s
    = .next (signal s (each (s.chansOfCxp l.val) (cxpUnlocked l.val s) sourceLost)) := rfl

theorem cxpUnlocked_chCtl (l : Nat) (hl : l < 8) (s : State) (c : Nat) :
    (cxpUnlocked l s).rd (aIngestChCtl c) = s.rd (aIngestChCtl c) := by
  have hne : ∀ k < 12, aIngestChCtl c ≠ aCxpLinkStatus k := fun k hk => by
    simp only [aIngestChCtl, chanPage, aCxpLinkStatus]; omega
  have hgrp : s.f (aCxpLinkCtl l) 8 2 < 4 := nbits_lt _ _ _
  rw [cxpUnlocked, State.setB, State.rd_setF_ne _ _ _ _ (hne l (by omega))]
  have hmem : ∀ k ∈ s.cxpGroup l, k < 12 := by
    simp only [State.cxpGroup, List.mem_map, List.mem_range]
    rintro _ ⟨i, hi, rfl⟩
    omega
  clear hgrp
  generalize s.cxpGroup l = ks at hmem
  induction ks generalizing s with
  | nil => rfl
  | cons k ks ih =>
    rw [each, List.foldl_cons, ← each, ih _ fun k' hk' => hmem k' (List.mem_cons_of_mem _ hk')]
    exact State.rd_setF_ne _ _ _ _ (hne k (hmem k List.mem_cons_self))

/-- R55: a link alone in its group, with no running channel, shows neither lock nor alignment, and that is all. -/
theorem exec_sourceLinkDown_of_no_channel (l : Fin 8) {s : State} (hgrp : s.f (aCxpLinkCtl l.val) 8 2 = 0)
    (hnone : ∀ c < 32, s.chRuns c = true → s.chType c = 1 → s.chLink c ≠ l.val) : exec (.sourceLinkDown (.cxp l)) s
      = .next (signal s ((s.setB (aCxpLinkStatus l.val) 0 false).setB (aCxpLinkStatus l.val) 1 false)) := by
  have hcs : s.chansOfCxp l.val = [] := by
    simp only [State.chansOfCxp, List.filter_eq_nil_iff, List.mem_range, Bool.and_eq_true, beq_iff_eq]
    rintro c hc ⟨⟨hr, ht⟩, hl⟩
    exact hnone c hc hr ht hl
  rw [exec_sourceLinkDown_cxp, hcs, cxpUnlocked, cxpGroup_of_zero hgrp]
  rfl

/-- R55: a running channel of the lost link is between frames, and stays enabled. -/
theorem sourceLinkDown_channel (l : Fin 8) (c : ChanIx) {s : State} (hr : s.chRuns c.val = true) (ht : s.chType c.val = 1)
    (hl : s.chLink c.val = l.val) : ∃ t, exec (.sourceLinkDown (.cxp l)) s = .next t ∧ (t.chan c.val).frame = none
      ∧ t.bit (aIngestChCtl c.val) 0 = s.bit (aIngestChCtl c.val) 0 := by
  have hc : c.val ∈ s.chansOfCxp l.val := by
    simp only [State.chansOfCxp, List.mem_filter, List.mem_range, Bool.and_eq_true, beq_iff_eq]
    exact ⟨c.isLt, ⟨hr, ht⟩, hl⟩
  refine ⟨_, exec_sourceLinkDown_cxp l s, ?_, ?_⟩
  · rw [signal_chan, sourcesLost_frame _ hc]
  · rw [signal_bit]
    exact State.bit_congr ((sourcesLost_chCtl _ _ _).trans (cxpUnlocked_chCtl l.val l.isLt s c.val)) 0

/-! ### A channel that starts, and one that stops -/

theorem exec_ingestChannelStop_untriggered {s : State} (hs : Served s) (c : ChanIx) (htrig : s.chTrig c.val = none) :
    exec (.ingestChannelStop c) s = .next (signal s (chanSettle c.val (s.setB (aIngestChCtl c.val) 0 false))) := by
  have ht : (s.setB (aIngestChCtl c.val) 0 false).chTrig c.val = none := by
    unfold State.chTrig at *
    rw [State.bit_setB_of_ne s (i := 0) (k := 20) (by decide) (by decide)]
    split at htrig
    · cases htrig
    · next h => rw [if_neg h]
  rw [exec_ingestChannelStop hs, chanStop, ht]

/-- R49: what a stop without a trigger leaves of EN and RUNNING. -/
theorem chanStopped_bits (c : Nat) (s : State) :
    (chanSettle c (s.setB (aIngestChCtl c) 0 false)).bit (aIngestChCtl c) 0 = false
    ∧ (chanSettle c (s.setB (aIngestChCtl c) 0 false)).bit (aIngestChStatus c) 0
      = (s.bit (aIngestChStatus c) 0 && ((s.chan c).frame.isSome || !(s.chan c).waits.isEmpty)) := by
  have hne : aIngestChStatus c ≠ aIngestChCtl c := by simp only [aIngestChStatus, aIngestChCtl]; omega
  have hen : (s.setB (aIngestChCtl c) 0 false).bit (aIngestChCtl c) 0 = false := State.bit_setB_same _ _ _ (by decide)
  have hruns : (s.setB (aIngestChCtl c) 0 false).bit (aIngestChStatus c) 0 = s.bit (aIngestChStatus c) 0 :=
    State.bit_setB_ne _ hne _ _ _
  refine ⟨(State.bit_congr (chanSettle_regsBut c _ _ (chStatus_ne_chCtl c c)) 0).trans hen, ?_⟩
  have hchan : (s.setB (aIngestChCtl c) 0 false).chan c = s.chan c := rfl
  unfold chanSettle
  rw [State.chEn, State.chRuns, hen, hruns, hchan]
  cases hr : s.bit (aIngestChStatus c) 0
  · simp [hruns, hr]
  · cases hf : (s.chan c).frame with
    | some f => simp [hruns, hr]
    | none => cases hw : (s.chan c).waits with
      | nil => simp [State.bit_setB_same]
      | cons g gs => simp [hruns, hr]

/-! ### The obligation -/

theorem exec_sourceLinkUp_cxp (l : Fin 8) {s : State} (hspeed : s.f (aCxpLinkCtl l.val) 0 4 ≠ 0)
    (hgrp : s.f (aCxpLinkCtl l.val) 8 2 = 0) : exec (.sourceLinkUp (.cxp l)) s
      = .next (signal s ((s.setB (aCxpLinkStatus l.val) 0 true).setB (aCxpLinkStatus l.val) 1 true)) := by
  change execSourceLinkUp (.cxp l) s = _
  simp only [execSourceLinkUp, cxpGroup_of_zero hgrp, when_, hspeed, ne_eq, not_false_eq_true, decide_true, if_true]
  rfl

theorem exec_sourceLinkUp_eth (p : Fin 2) {s : State} (hspeed : s.f (aEthPortCtl p.val) 0 2 ≠ 0) :
    exec (.sourceLinkUp (.eth p)) s = .next (signal s
      ((s.setB (aEthPortStatus p.val) 0 true).setB (aEthPortStatus p.val) 1 (s.bit (aEthPortCtl p.val) 2))) := by
  change execSourceLinkUp (.eth p) s = _
  simp only [execSourceLinkUp, when_, hspeed, ne_eq, not_false_eq_true, decide_true, if_true, done]

theorem exec_triggerPacketSend (l : Fin 8) {s : State} (h : l.val ∈ s.press.uplink) : exec (.triggerPacketSend l) s
    = .next (signal s ({ s with press := { s.press with uplink := s.press.uplink.erase l.val } }.emit (.uplink l.val))) := by
  change execTriggerPacketSend l s = _
  rw [execTriggerPacketSend, when_, List.contains_iff_mem.mpr h, if_pos rfl, done]

theorem State.act_setB (s : State) (off i : Nat) (b : Bool) (j : Nat) : (s.setB off i b).act j = s.act j := State.act_wr _ _ _ _

theorem State.chan_setB (s : State) (off i : Nat) (b : Bool) (c : Nat) : (s.setB off i b).chan c = s.chan c := by
  simp only [State.chan, State.setB, State.setF_chans]

/-- The outcome of a start, from the armed channel: RUNNING, or CFG_ERR. -/
def chanOutcome (c : Nat) (t : State) : State := if chanOk c t then chanStarted c t else t.setB (aIngestChStatus c) 1 true

theorem chanOutcome_facts (c : Nat) (t : State) (hruns : t.bit (aIngestChStatus c) 0 = false) :
    RegsBut [aIngestChStatus c] t (chanOutcome c t) ∧ (∀ off, (chanOutcome c t).act off = t.act off)
    ∧ (chanOutcome c t).bit (aIngestChStatus c) 0 = chanOk c t
    ∧ (chanOutcome c t).bit (aIngestChStatus c) 1 = (if chanOk c t then false else true)
    ∧ (chanOk c t = true → ((chanOutcome c t).chan c).frame = none) ∧ ((chanOutcome c t).chan c).pool = (t.chan c).pool := by
  have hst : aIngestChStatus c ∈ [aIngestChStatus c] := List.mem_cons_self
  unfold chanOutcome
  cases hok : chanOk c t
  · refine ⟨(RegsBut.refl _ t).setB hst 1 true, State.act_setB t _ _ _, ?_, ?_, nofun, ?_⟩
    · exact (State.bit_setB_of_ne t (by decide) (by decide) true).trans hruns
    · exact State.bit_setB_same _ _ _ (by decide)
    · exact congrArg Chan.pool (State.chan_setB t _ _ _ c)
  · have h1 : RegsBut [aIngestChStatus c] t (t.setB (aIngestChStatus c) 0 true) := (RegsBut.refl _ t).setB hst 0 true
    have b1 : (t.setB (aIngestChStatus c) 0 true).bit (aIngestChStatus c) 0 = true := State.bit_setB_same _ _ _ (by decide)
    have h2 := h1.setB hst 1 false
    have b2 := State.bit_setB_of_ne (t.setB (aIngestChStatus c) 0 true) (off := aIngestChStatus c) (i := 1) (k := 0)
      (by decide) (by decide) false
    have b3 := State.bit_setB_same (t.setB (aIngestChStatus c) 0 true) (aIngestChStatus c) false (i := 1) (by decide)
    have a2 : ∀ off, ((t.setB (aIngestChStatus c) 0 true).setB (aIngestChStatus c) 1 false).act off = t.act off :=
      fun off => (State.act_setB _ _ _ _ off).trans (State.act_setB t _ _ _ off)
    rw [if_pos rfl, chanStarted]
    generalize (t.setB (aIngestChStatus c) 0 true).setB (aIngestChStatus c) 1 false = u at *
    have hchan := State.chan_setChan u c c { t.chan c with frame := none, block := none, lastBlock := none, expect := none }
    rw [if_pos rfl] at hchan
    refine ⟨fun j hj => h2 j hj, a2, b2.trans b1, b3, fun _ => congrArg Chan.frame hchan, (congrArg Chan.pool hchan).trans rfl⟩

/-- R46: a start of a channel neither running nor doubled. -/
theorem ingestChannelStart_free (c : ChanIx) {s : State} (hs : Served s) (hrun : s.chRuns c.val = false)
    (hfree : s.doubled c.val = false) :
    ∃ t, exec (.ingestChannelStart c) s = .next t ∧ RegsBut [aIngestChCtl c.val, aIngestChStatus c.val] s t
      ∧ t.bit (aIngestChCtl c.val) 0 = true
      ∧ (∀ off ∈ [aIngestChFmt c.val, aIngestChGeom c.val, aIngestChSeg c.val, aIngestChPool c.val], t.act off = s.rd off)
      ∧ (let ok := s.sourceUp c.val && (s.stream (s.chStream c.val)).job.isSome && (geomOf (t.chCfg c.val)).ok (s.chLines c.val)
         t.bit (aIngestChStatus c.val) 0 = ok
         ∧ t.bit (aIngestChStatus c.val) 1 = (if ok then false else true)
         ∧ (ok = true → (t.chan c.val).frame = none) ∧ (t.chan c.val).pool = (s.chan c.val).pool) := by
  obtain ⟨c, hc⟩ := c
  dsimp only at *
  have hexec := exec_ingestChannelStart hs ⟨c, hc⟩
  dsimp only at hexec
  rw [chanStart_of_free c s hrun hfree, ← chanOutcome] at hexec
  have hregs := chanArmed_regsBut c s
  have hst : aIngestChStatus c ∉ [aIngestChCtl c] := by simp only [aIngestChStatus, aIngestChCtl, List.mem_singleton]; omega
  obtain ⟨hout, hact, hb0, hb1, hframe, hpool⟩ := chanOutcome_facts c (chanArmed c s) ((hregs.bit_eq hst 0).trans hrun)
  have hcfg : (signal s (chanOutcome c (chanArmed c s))).chCfg c = (chanArmed c s).chCfg c := by
    simp only [State.chCfg, signal_act, hact]
  refine ⟨_, hexec, (hregs.trans hout).signal, ?_, fun off hoff => ?_, ?_⟩
  · rw [signal_bit, hout.bit_eq (chStatus_ne_chCtl c c), chanArmed_en]
  · rw [signal_act, hact, chanArmed_act c s hoff]
  · rw [hcfg, ← chanOk_chanArmed, signal_bit, signal_bit, signal_chan]
    exact ⟨hb0, hb1, hframe, hpool.trans (by rw [State.chan, chanArmed_chans, State.chan])⟩

/-- Settles O16. -/
theorem channelsAndSourceLinks : Obligations.ChannelsAndSourceLinks := by
  unfold Obligations.ChannelsAndSourceLinks
  refine ⟨fun c s hs => ⟨fun hrun hdbl => ?_, ingestChannelStart_free c hs, fun htrig => ?_⟩, fun l p s => ⟨exec_sourceLinkUp_cxp l,
    exec_sourceLinkUp_eth p, exec_sourceLinkDown_of_no_channel l, fun c f hr ht hl _ _ => sourceLinkDown_channel l c hr ht hl,
    exec_triggerPacketSend l⟩⟩
  · rw [exec_ingestChannelStart hs, chanStart, hrun, hdbl]
    rfl
  · obtain ⟨hctl, hstatus⟩ := chanStopped_bits c.val s
    refine ⟨_, exec_ingestChannelStop_untriggered hs c htrig, ?_, ?_, ?_, ?_⟩
    · refine OnlyRegs.signal ?_
      rcases chanSettle_eq c.val (s.setB (aIngestChCtl c.val) 0 false) with h | h <;> rw [h]
      · exact (OnlyRegs.refl s).setB _ _ _
      · exact ((OnlyRegs.refl s).setB _ _ _).setB _ _ _
    · refine RegsBut.signal ?_
      exact (((RegsBut.refl [aIngestChCtl c.val] s).setB List.mem_cons_self 0 false).trans (chanSettle_regsBut c.val _))
    · rw [signal_bit, hctl]
    · rw [signal_bit, hstatus]

end Sys2Proof.Machine
end

section
/-! The completion path (R65, R66): what an entry written on an idle path leaves. -/
namespace Sys2Proof.Machine

/-! ### What stays where nothing but registers changes -/

section
variable {s t : State}

theorem OnlyRegs.streams (h : OnlyRegs s t) : t.streams = s.streams := by unfold OnlyRegs at h; rw [h]
theorem OnlyRegs.chans (h : OnlyRegs s t) : t.chans = s.chans := by unfold OnlyRegs at h; rw [h]
theorem OnlyRegs.mem (h : OnlyRegs s t) : t.mem = s.mem := by unfold OnlyRegs at h; rw [h]
theorem OnlyRegs.tiles (h : OnlyRegs s t) : t.tiles = s.tiles := by unfold OnlyRegs at h; rw [h]
theorem OnlyRegs.tms (h : OnlyRegs s t) : t.tms = s.tms := by unfold OnlyRegs at h; rw [h]
theorem OnlyRegs.hostMem (h : OnlyRegs s t) : t.hostMem = s.hostMem := by unfold OnlyRegs at h; rw [h]
theorem OnlyRegs.stream (h : OnlyRegs s t) (n : Nat) : t.stream n = s.stream n := by rw [State.stream, h.streams, State.stream]

theorem OnlyRegs.cause (h : OnlyRegs s t) (n k : Nat) : OnlyRegs s (t.cause n k) := by
  unfold State.cause
  dsimp only
  split
  · exact h.setB _ _ _
  · exact (h.setB _ _ _).msix _ _

theorem State.rd_msix (s : State) (fn v j : Nat) : (s.msix fn v).rd j = s.rd j := by
  obtain ⟨o, w, h⟩ := msix_eq s fn v
  rw [h, State.rd, State.rd]

theorem RegsBut.cause {offs : List Nat} (h : RegsBut offs s t) {n : Nat} (hoff : aStreamIntCause n ∈ offs) (k : Nat) :
    RegsBut offs s (t.cause n k) := by
  intro j hj
  unfold State.cause
  dsimp only
  split
  · exact h.setB hoff _ _ j hj
  · rw [State.rd_msix]; exact h.setB hoff _ _ j hj

end

/-! ### An entry is read (R62, R64) -/

section
variable (n : Nat) (s : State)

theorem sqTake_onlyRegs : OnlyRegs s (sqTake n s) := by
  unfold sqTake
  dsimp only
  split
  · exact ((OnlyRegs.refl s).setF _ _ _ _).cause n 1
  · exact (OnlyRegs.refl s).setF _ _ _ _

theorem sqTake_regsBut : RegsBut [aSqHead n, aStreamIntCause n] s (sqTake n s) := by
  have h : RegsBut [aSqHead n, aStreamIntCause n] s (s.setF (aSqHead n) 0 12 ((s.f (aSqHead n) 0 12 + 1) % s.sqSize n)) :=
    (RegsBut.refl _ s).setF List.mem_cons_self _ _ _
  unfold sqTake
  dsimp only
  split
  · exact h.cause (by simp) 1
  · exact h

theorem sqTake_sqHead : (sqTake n s).f (aSqHead n) 0 12 = (s.f (aSqHead n) 0 12 + 1) % s.sqSize n % 4096 := by
  generalize hi : (s.f (aSqHead n) 0 12 + 1) % s.sqSize n = i
  have hset : (s.setF (aSqHead n) 0 12 i).f (aSqHead n) 0 12 = i % 4096 := State.f_setF_same s _ _ (by decide)
  have hne : aSqHead n ∉ [aStreamIntCause n] := by simp only [aSqHead, aStreamIntCause, List.mem_singleton]; omega
  unfold sqTake
  dsimp only
  rw [hi]
  split
  · exact (((RegsBut.refl [aStreamIntCause n] _).cause List.mem_cons_self 1).f_eq hne 0 12).trans hset
  · exact hset

end

/-! ### An entry is written to the ring (R66) -/

section
variable (n : Nat) (ws : List Word) (s : State)

/-- The word 0 an entry is written with. -/
def phased (phase : Bool) (w : Word) : Word := w ||| (if phase then 1#32 else 0#32)

/-- The entry in host memory, and CQ_TAIL past it. -/
def cqPlaced : State :=
  (s.hostWrite (s.cqBase n + s.f (aCqTail n) 0 12 * 64) (entryBytes (phased (s.stream n).phase (nth ws 0 0) :: ws.drop 1))).setF
    (aCqTail n) 0 12 ((s.f (aCqTail n) 0 12 + 1) % s.cqSize n)

/-- The entry is counted for R67. -/
def cqCounted (x : Stream) : Stream :=
  { x with phase := if (s.f (aCqTail n) 0 12 + 1) % s.cqSize n = 0 then !(s.stream n).phase else x.phase, unsig := x.unsig + 1 }

theorem cqWrite_cases : ∃ u : State, u = (cqPlaced n ws s).modStream n (cqCounted n s) ∧
    (cqWrite n ws s = u ∨ cqWrite n ws s = (u.modStream n (fun x => { x with unsig := 0 })).cause n 0) := by
  exact ⟨_, rfl, (ite_eq_or_eq _ _ _).symm⟩

/-- What counting and signalling keep of a stream. -/
def SamePath (x y : Stream) : Prop := y.held = x.held ∧ y.waitq = x.waitq ∧ y.ovf = x.ovf ∧ y.cqSeq = x.cqSeq

/-- An entry written to the ring: from the placed entry, only the count, the phase and the cause have changed. -/
theorem cqWrite_keeps : RegsBut [aStreamIntCause n] (cqPlaced n ws s) (cqWrite n ws s)
    ∧ (cqWrite n ws s).hostMem = (cqPlaced n ws s).hostMem ∧ (cqWrite n ws s).mem = s.mem ∧ (cqWrite n ws s).tiles = s.tiles
    ∧ SamePath (s.stream n) ((cqWrite n ws s).stream n) := by
  obtain ⟨u, hu, h⟩ := cqWrite_cases n ws s
  have hstream : u.stream n = cqCounted n s (s.stream n) := by
    rw [hu, State.modStream, State.stream_setStream, if_pos rfl]; rfl
  have hregs : ∀ j, u.rd j = (cqPlaced n ws s).rd j := by rw [hu]; exact fun j => State.rd_setStream _ _ _ _
  have hmems : u.hostMem = (cqPlaced n ws s).hostMem ∧ u.mem = s.mem ∧ u.tiles = s.tiles := by rw [hu]; exact ⟨rfl, rfl, rfl⟩
  clear hu
  rcases h with h | h <;> rw [h]
  · exact ⟨fun j _ => hregs j, hmems.1, hmems.2.1, hmems.2.2, by rw [hstream]; exact ⟨rfl, rfl, rfl, rfl⟩⟩
  · have hcause := (OnlyRegs.refl (u.modStream n (fun x => { x with unsig := 0 }))).cause n 0
    refine ⟨?_, hcause.hostMem.trans hmems.1, hcause.mem.trans hmems.2.1, hcause.tiles.trans hmems.2.2, ?_⟩
    · exact fun j hj => ((RegsBut.refl [aStreamIntCause n] _).cause List.mem_cons_self 0 j hj).trans (hregs j)
    · rw [hcause.stream, State.modStream, State.stream_setStream, if_pos rfl, hstream]
      exact ⟨rfl, rfl, rfl, rfl⟩

theorem cqPlaced_cqTail : (cqPlaced n ws s).f (aCqTail n) 0 12 = (s.f (aCqTail n) 0 12 + 1) % s.cqSize n % 4096 :=
  State.f_setF_same _ _ _ (by decide)

theorem tget_hostWrite (a b : Nat) (bs : List Byte) : tget 0 (s.hostWrite a bs).hostMem b
    = if a ≤ b ∧ b < a + bs.length then (bs[b - a]?).getD 0 else tget 0 s.hostMem b := Ram.byte_put bs ⟨s.hostMem, []⟩ a b

/-! ### An entry enters an idle path -/

theorem cqRoom_setStream (m : Nat) (x : Stream) : (s.setStream m x).cqRoom n = s.cqRoom n := rfl

/-- The only entry of a path passes to the ring in two moves. -/
theorem cqMoves_single {e : List Word} (hheld : (s.stream n).held = []) (hwait : (s.stream n).waitq = [e])
    (hovf : (s.stream n).ovf = 0) (hroom : s.cqRoom n = true) (f : Nat) : ∃ u : State, cqMoves n (f + 2) s = cqWrite n e u
      ∧ u.stream n = { s.stream n with waitq := [] } ∧ u.regs = s.regs ∧ u.hostMem = s.hostMem ∧ u.mem = s.mem
      ∧ u.tiles = s.tiles ∧ PathEmpty n (cqWrite n e u) := by
  have h1 : cqStep n s = s := by simp [cqStep, hheld]
  have h2 : cqRefill n s = s.setStream n { s.stream n with held := [e], waitq := [] } := by
    simp [cqRefill, hheld, hwait, hovf]
  generalize hv : s.setStream n { s.stream n with held := [e], waitq := [] } = v at h2
  have hvs : v.stream n = { s.stream n with held := [e], waitq := [] } := by
    rw [← hv, State.stream_setStream, if_pos rfl]
  have hvroom : v.cqRoom n = true := by rw [← hv, cqRoom_setStream, hroom]
  generalize hu : v.setStream n { v.stream n with held := [] } = u
  have hus : u.stream n = { s.stream n with waitq := [] } := by
    rw [← hu, State.stream_setStream, if_pos rfl, hvs, ← hheld]
  have h3 : cqStep n v = cqWrite n e u := by
    have hvh : (v.stream n).held = [e] := by rw [hvs]
    rw [cqStep, hvh]
    simp only [hvroom, if_true, hu]
  obtain ⟨-, -, -, -, hsh, hsw, hso, -⟩ := cqWrite_keeps n e u
  have hempty : PathEmpty n (cqWrite n e u) := by
    rw [PathEmpty, hsh, hsw, hso, hus]; exact ⟨hheld, rfl, hovf⟩
  refine ⟨u, ?_, hus, ?_, ?_, ?_, ?_, hempty⟩
  · rw [cqMoves, h1, h2, cqMoves, h3, cqRefill_of_empty hempty, cqMoves_of_empty hempty]
  all_goals rw [← hu, ← hv]; rfl

end
end Sys2Proof.Machine
end

section
/-! Submission entries (R62 to R65): a NOP completes on an idle path; what each other entry does. -/
namespace Sys2Proof.Machine

section
variable (n : Nat) (s : State)

/-- The words of a completion entry, but for the phase. -/
def entryWords (kind : Nat) (body : List Word) : List Word :=
  BitVec.ofNat 32 ((s.stream n).cqSeq % 65536 * 65536 + n % 256 * 256 + kind % 16 * 16) :: (body ++ List.replicate (15 - body.length) 0)

theorem cqPut_of_idle {n : Nat} {s : State} (hempty : PathEmpty n s) (hroom : s.cqRoom n = true) (kind : Nat) (body : List Word) :
    ∃ u : State, cqPut n kind body s = (cqWrite n (entryWords n s kind body) u).setB (aStreamStatus n) 7 false
      ∧ u.stream n = { s.stream n with cqSeq := ((s.stream n).cqSeq + 1) % 65536 } ∧ u.regs = s.regs ∧ u.hostMem = s.hostMem
      ∧ u.mem = s.mem ∧ u.tiles = s.tiles := by
  obtain ⟨hheld, hwait, hovf⟩ := hempty
  generalize hv : s.setStream n { s.stream n with cqSeq := ((s.stream n).cqSeq + 1) % 65536,
                                                  waitq := (s.stream n).waitq ++ [entryWords n s kind body] } = v
  have hvs : v.stream n = { s.stream n with cqSeq := ((s.stream n).cqSeq + 1) % 65536, waitq := [entryWords n s kind body] } := by
    rw [← hv, State.stream_setStream, if_pos rfl, hwait, List.nil_append]
  have hvroom : v.cqRoom n = true := by rw [← hv, cqRoom_setStream, hroom]
  obtain ⟨u, hmoves, hus, hregs, hhost, hmem, htiles, hdone⟩ := cqMoves_single n v (e := entryWords n s kind body)
    (by rw [hvs]; exact hheld) (by rw [hvs]) (by rw [hvs]; exact hovf) hvroom 2
  have hput : cqPut n kind body s = cqMove n v := by rw [← hv]; rfl
  refine ⟨u, ?_, ?_, ?_, ?_, ?_, ?_⟩
  · rw [hput, cqMove, hvs, hheld, hovf]
    exact (congrArg (cqStall n) hmoves).trans (cqStall_of_empty hdone)
  · rw [hus, hvs, ← hwait]
  · rw [hregs, ← hv]; rfl
  · rw [hhost, ← hv]; rfl
  · rw [hmem, ← hv]; rfl
  · rw [htiles, ← hv]; rfl

end

/-! ### The bytes of a submission completion -/

theorem toBytes_length (k v : Nat) : (toBytes k v).length = k := by
  induction k generalizing v with
  | zero => rfl
  | succ k ih => rw [toBytes, List.length_cons, ih]

theorem entryBytes_length (ws : List Word) : (entryBytes ws).length = 4 * ws.length := by
  induction ws with
  | nil => rfl
  | cons w ws ih => rw [entryBytes, List.flatMap_cons, List.length_append, toBytes_length, ← entryBytes, ih, List.length_cons]; omega

theorem toNat_phased {v : Nat} (hv : v < 2 ^ 31) (phase : Bool) : (phased phase (BitVec.ofNat 32 (2 * v))).toNat = 2 * v + b2n phase := by
  cases phase
  · simp [phased, b2n]; omega
  · have h := Nat.two_pow_add_eq_or_of_lt (i := 1) (b := 1) (by decide) v
    rw [phased, BitVec.toNat_or, BitVec.toNat_ofNat, Nat.mod_eq_of_lt (by omega)]
    simpa [b2n] using h.symm

/-- The bytes of a completion of a NOP. -/
theorem entryBytes_nop (n : StreamIx) (s : State) (cid : Nat) (hcid : cid < 65536) (hseq : (s.stream n.val).cqSeq < 65536)
    (phase : Bool) (ws : List Word)
    (hws : ws = entryWords n.val s 1 [BitVec.ofNat 32 (0 % 16 * 2 ^ 24 + 0 % 256 * 2 ^ 16 + cid % 65536), BitVec.ofNat 32 (0 % 4096),
             BitVec.ofNat 32 (0 % 256 * 2 ^ 16 + 0 % 1024)]) :
    entryBytes (phased phase (nth ws 0 0) :: ws.drop 1)
      = toBytes 4 ((s.stream n.val).cqSeq * 65536 + n.val * 256 + 16 + b2n phase) ++ toBytes 4 cid ++ List.replicate 56 0 := by
  have hn : n.val < 256 := by omega
  have hhead : (phased phase (nth ws 0 0)).toNat = (s.stream n.val).cqSeq * 65536 + n.val * 256 + 16 + b2n phase := by
    have hw : nth ws 0 0 = BitVec.ofNat 32 (2 * ((s.stream n.val).cqSeq * 32768 + n.val * 128 + 8)) := by
      rw [hws]
      change BitVec.ofNat 32 _ = _
      congr 1
      omega
    rw [hw, toNat_phased (by omega)]
    omega
  have htail : ws.drop 1 = [BitVec.ofNat 32 cid, 0, 0] ++ List.replicate 12 0 := by
    rw [hws, Nat.mod_eq_of_lt hcid]; simp [entryWords]
  have hzeros : entryBytes ([0, 0] ++ List.replicate 12 0) = List.replicate 56 0 := by decide
  rw [entryBytes, List.flatMap_cons, hhead, htail, List.cons_append, List.flatMap_cons, ← entryBytes, hzeros, BitVec.toNat_ofNat,
    Nat.mod_eq_of_lt (by omega), List.append_assoc]

/-! ### What reading an entry leaves of the path -/

theorem regs_eq_of_rd {s t : State} (h : t.regs = s.regs) (j : Nat) : t.rd j = s.rd j := by rw [State.rd, h, State.rd]

theorem sqTake_rd_eq (n : Nat) (s : State) {j : Nat} (h : j ≠ aSqHead n) (h' : j ≠ aStreamIntCause n) : (sqTake n s).rd j = s.rd j :=
  sqTake_regsBut n s j (by simp [h, h'])

theorem sqTake_cqTail (n : Nat) (s : State) : (sqTake n s).rd (aCqTail n) = s.rd (aCqTail n) :=
  sqTake_rd_eq n s (by simp only [aCqTail, aSqHead]; omega) (by simp only [aCqTail, aStreamIntCause]; omega)

theorem sqTake_cqCfg (n : Nat) (s : State) : (sqTake n s).rd (aCqCfg n) = s.rd (aCqCfg n) :=
  sqTake_rd_eq n s (by simp only [aCqCfg, aSqHead]; omega) (by simp only [aCqCfg, aStreamIntCause]; omega)

theorem sqTake_cqSize (n : Nat) (s : State) : (sqTake n s).cqSize n = s.cqSize n := by
  rw [State.cqSize, State.f_congr (sqTake_cqCfg n s), State.cqSize]

theorem sqTake_cqBase (n : Nat) (s : State) : (sqTake n s).cqBase n = s.cqBase n := by
  rw [State.cqBase, sqTake_rd_eq n s (j := aCqBaseHi n), sqTake_rd_eq n s (j := aCqBaseLo n), State.cqBase] <;>
    simp only [aCqBaseHi, aCqBaseLo, aSqHead, aStreamIntCause] <;> omega

theorem sqTake_cqRoom (n : Nat) (s : State) : (sqTake n s).cqRoom n = s.cqRoom n := by
  have hlink : (sqTake n s).linkUp = s.linkUp := State.bit_congr (sqTake_rd_eq n s
    (by simp only [aPcieLinkStatus, aSqHead, streamPage]; omega) (by simp only [aPcieLinkStatus, aStreamIntCause, streamPage]; omega)) 8
  have hhead : (sqTake n s).f (aCqHead n) 0 12 = s.f (aCqHead n) 0 12 := State.f_congr (sqTake_rd_eq n s
    (by simp only [aCqHead, aSqHead]; omega) (by simp only [aCqHead, aStreamIntCause]; omega)) 0 12
  rw [State.cqRoom, hlink, hhead, State.f_congr (sqTake_cqTail n s), sqTake_cqSize, State.cqRoom]

theorem sqTake_tmValid (n m i : Nat) (s : State) : (sqTake n s).tmValid m i = s.tmValid m i := by
  have hrd : (sqTake n s).rd (aStreamTm m) = s.rd (aStreamTm m) := sqTake_rd_eq n s
    (by simp only [aStreamTm, aSqHead, streamPage]; omega) (by simp only [aStreamTm, aStreamIntCause, streamPage]; omega)
  have htm : (sqTake n s).tm i = s.tm i := by rw [State.tm, (sqTake_onlyRegs n s).tms, State.tm]
  rw [State.tmValid, State.tmRange, htm, State.f_congr hrd, State.f_congr hrd, State.tmValid, State.tmRange]

/-! ### Each entry -/

section
variable {n : StreamIx} {e : SqEntry} {s : State}

theorem sqEntry_of_reads (hreads : s.sqReads n.val = true) (hbits : sqBits e = false) :
    sqEntry n.val e s = .next (signal s (sqRun n.val e (sqTake n.val s))) := by
  simp only [sqEntry, hreads, when_, hbits, if_true, Bool.false_eq_true, if_false, done]

theorem exec_sqNop (hop : sqOp e = 0) (hbits : sqBits e = false) (hreads : s.sqReads n.val = true) :
    exec (.sqNop n e) s = .next (signal s (complete n.val 0 0 (sqCid e) 0 0 0 (sqTake n.val s))) := by
  change execSqNop n e s = _
  rw [execSqNop, if_pos hop, sqEntry_of_reads hreads hbits, sqRun, hop]
  rfl

theorem exec_fence (hop : sqOp e = 2) (hbits : sqBits e = false) (hreads : s.sqReads n.val = true) :
    exec (.fence n e) s = .next (signal s ((sqTake n.val s).setStream n.val
      { (sqTake n.val s).stream n.val with fence := some (sqCid e, ((s.stream n.val).lastAdmitted).getD 4096) })) := by
  change execFence n e s = _
  rw [execFence, if_pos hop, sqEntry_of_reads hreads hbits, sqRun, hop, ← (sqTake_onlyRegs n.val s).stream]
  rfl

theorem exec_event (hop : sqOp e = 3) (hbits : sqBits e = false) (hreads : s.sqReads n.val = true) :
    exec (.event n e) s = .next (signal s (if s.tmValid n.val (nbits e.w1.toNat 0 13) = false then
        complete n.val 1 3 (sqCid e) 0 4 0 (sqTake n.val s)
      else complete n.val 0 3 (sqCid e) 0 0 0 (if nbits e.w2.toNat 0 24 = 0 then sqTake n.val s
        else tmApply ⟨.host, nbits e.w1.toNat 0 13, n.val, some (nbits e.w2.toNat 0 24)⟩ (nbits e.w2.toNat 0 24) (sqTake n.val s)))) := by
  change execEvent n e s = _
  rw [execEvent, if_pos hop, sqEntry_of_reads hreads hbits, sqRun, hop]
  dsimp only
  rw [sqTake_tmValid]
  cases s.tmValid n.val (nbits e.w1.toNat 0 13) <;> rfl

theorem exec_sqReservedEntry (hbits : sqBits e = true) (hreads : s.sqReads n.val = true) :
    exec (.sqReservedEntry n e) s = .next (signal s (if sqOp e = 1
      then (complete n.val 1 (sqOp e) (sqCid e) 0 1 0 (sqTake n.val s)).cause n.val 3
      else complete n.val 1 (sqOp e) (sqCid e) 0 1 0 (sqTake n.val s))) := by
  change execSqReservedEntry n e s = _
  simp only [execSqReservedEntry, hbits, if_true, sqEntry, hreads, when_, done]

theorem exec_fenceComplete {cid tag : Nat} (hfence : (s.stream n.val).fence = some (cid, tag))
    (hdone : tag ∉ (s.stream n.val).admitted) (htag : tag < 4096) : exec (.fenceComplete n) s
      = .next (signal s (complete n.val 0 2 cid tag 0 0 (s.setStream n.val { s.stream n.val with fence := none }))) := by
  change execFenceComplete n s = _
  have hc : (s.stream n.val).admitted.contains tag = false := by simpa using hdone
  rw [execFenceComplete, hfence]
  simp only [when_, hc, Bool.not_false, if_true, done, if_neg (Nat.ne_of_lt htag), State.modStream]

theorem exec_fenceComplete_waits {cid tag : Nat} (hfence : (s.stream n.val).fence = some (cid, tag))
    (hin : tag ∈ (s.stream n.val).admitted) : exec (.fenceComplete n) s = .next s := by
  change execFenceComplete n s = _
  have hc : (s.stream n.val).admitted.contains tag = true := by simpa using hin
  rw [execFenceComplete, hfence]
  simp only [when_, hc, Bool.not_true, Bool.false_eq_true, if_false, idle]

/-- A NOP entry on an idle path: its completion stands in host memory at once, and the two indices have advanced. -/
theorem sqNop_completes (hop : sqOp e = 0) (hbits : sqBits e = false) (hreads : s.sqReads n.val = true)
    (hempty : PathEmpty n.val s) (hroom : s.cqRoom n.val = true) (hseq : (s.stream n.val).cqSeq < 65536) {bytes : List Byte}
    (hbytes : bytes = toBytes 4 ((s.stream n.val).cqSeq * 65536 + n.val * 256 + 16 + b2n (s.stream n.val).phase)
      ++ toBytes 4 (sqCid e) ++ List.replicate 56 0) {pos : Nat} (hpos : pos = s.cqBase n.val + s.f (aCqTail n.val) 0 12 * 64) :
    ∃ t, exec (.sqNop n e) s = .next t
      ∧ (∀ a, tget 0 t.hostMem a = if pos ≤ a ∧ a < pos + 64 then (bytes[a - pos]?).getD 0 else tget 0 s.hostMem a)
      ∧ t.f (aCqTail n.val) 0 12 = (s.f (aCqTail n.val) 0 12 + 1) % s.cqSize n.val % 4096
      ∧ t.f (aSqHead n.val) 0 12 = (s.f (aSqHead n.val) 0 12 + 1) % s.sqSize n.val % 4096
      ∧ (t.stream n.val).cqSeq = ((s.stream n.val).cqSeq + 1) % 65536 ∧ (t.stream n.val).held = [] ∧ t.mem = s.mem
      ∧ t.tiles = s.tiles := by
  have hstream := (sqTake_onlyRegs n.val s).stream n.val
  have hempty' : PathEmpty n.val (sqTake n.val s) := by rw [PathEmpty, hstream]; exact hempty
  obtain ⟨u, hput, hus, huregs, huhost, humem, hutiles⟩ := cqPut_of_idle hempty' ((sqTake_cqRoom n.val s).trans hroom) 1
    [BitVec.ofNat 32 (0 % 16 * 2 ^ 24 + 0 % 256 * 2 ^ 16 + sqCid e % 65536), BitVec.ofNat 32 (0 % 4096),
      BitVec.ofNat 32 (0 % 256 * 2 ^ 16 + 0 % 1024)]
  generalize hws : entryWords _ _ _ _ = ws at hput
  have hcid : sqCid e < 65536 := nbits_lt _ _ _
  have hws' := entryBytes_nop n (sqTake n.val s) (sqCid e) hcid (by rw [hstream]; exact hseq) (s.stream n.val).phase ws hws.symm
  obtain ⟨hkregs, hkhost, hkmem, hktiles, hkheld, -, -, hkseq⟩ := cqWrite_keeps n.val ws u
  have hrd := regs_eq_of_rd huregs
  have hutail : u.f (aCqTail n.val) 0 12 = s.f (aCqTail n.val) 0 12 :=
    State.f_congr ((hrd _).trans (sqTake_cqTail n.val s)) 0 12
  have husize : u.cqSize n.val = s.cqSize n.val := by
    rw [State.cqSize, State.f_congr (hrd _), ← State.cqSize, sqTake_cqSize]
  have hubase : u.cqBase n.val = s.cqBase n.val := by
    rw [State.cqBase, hrd, hrd, ← State.cqBase, sqTake_cqBase]
  have huphase : (u.stream n.val).phase = (s.stream n.val).phase := by rw [hus, hstream]
  have hstatus : ∀ j, j ≠ aStreamStatus n.val → j ≠ aStreamIntCause n.val → ∀ lo len,
      ((cqWrite n.val ws u).setB (aStreamStatus n.val) 7 false).f j lo len = (cqPlaced n.val ws u).f j lo len := fun j hj hj' lo len =>
    State.f_congr ((State.rd_setF_ne _ _ _ _ hj).trans (hkregs j (by simpa using hj'))) lo len
  refine ⟨_, exec_sqNop hop hbits hreads, ?_⟩
  rw [complete, hput]
  refine ⟨fun a => ?_, ?_, ?_, ?_, ?_, ?_, ?_⟩
  · rw [signal_hostMem, State.setB, State.setF_hostMem, hkhost, cqPlaced, State.setF_hostMem, tget_hostWrite, hubase, hutail,
      huphase, hws', hstream, ← hbytes, ← hpos, huhost, (sqTake_onlyRegs n.val s).hostMem]
    have hlen : bytes.length = 64 := by rw [hbytes]; simp [toBytes_length]
    rw [hlen]
  · rw [signal_f, hstatus _ (by simp only [aCqTail, aStreamStatus]; omega) (by simp only [aCqTail, aStreamIntCause]; omega),
      cqPlaced_cqTail, hutail, husize]
  · rw [signal_f, hstatus _ (by simp only [aSqHead, aStreamStatus]; omega) (by simp only [aSqHead, aStreamIntCause]; omega),
      cqPlaced, State.f_setF_ne _ _ _ _ (by simp only [aSqHead, aCqTail]; omega)]
    exact (State.f_congr (hrd _) 0 12).trans (sqTake_sqHead n.val s)
  · rw [signal_stream, State.setB, State.stream, State.setF_streams, ← State.stream, hkseq, hus, hstream]
  · rw [signal_stream, State.setB, State.stream, State.setF_streams, ← State.stream, hkheld, hus, hstream, hempty.1]
  · rw [signal_mem, State.setB, setF_mem, hkmem, humem, (sqTake_onlyRegs n.val s).mem]
  · rw [signal_tiles, State.setB, State.setF_tiles, hktiles, hutiles, (sqTake_onlyRegs n.val s).tiles]

end

/-- Settles O18. -/
theorem submissionsAct : Obligations.SubmissionsAct := by
  unfold Obligations.SubmissionsAct
  refine ⟨fun n e s hop hbits hreads hheld hwait hovf hroom hseq =>
    sqNop_completes hop hbits hreads ⟨hheld, hwait, hovf⟩ hroom hseq rfl rfl, fun n e s => ⟨fun hreads => ⟨?_, ?_, ?_, ?_, ?_, ?_, ?_⟩,
    fun cid tag hf hd ht => exec_fenceComplete hf hd ht, fun cid tag hf hin => exec_fenceComplete_waits hf hin⟩⟩
  · exact sqTake_sqHead n.val s
  · exact (sqTake_onlyRegs n.val s).streams
  · intro hbits hop
    rw [exec_sqReservedEntry hbits hreads, if_neg hop]
  · intro hbits hop
    rw [exec_sqReservedEntry hbits hreads, if_pos hop, hop]
  · intro hbits hop
    exact exec_fence hop hbits hreads
  · intro hbits hop hvalid
    rw [exec_event hop hbits hreads, if_pos hvalid]
  · intro hbits hop hvalid hk
    rw [exec_event hop hbits hreads, if_neg (by rw [hvalid]; decide), if_neg hk]

end Sys2Proof.Machine
end

section
/-! Stream control (R78 to R80), and the indices of a stream's rings (R67, R68). -/
namespace Sys2Proof.Machine

/-! ### START (R78) -/

section
variable {n : Nat} {s : State}

theorem st_ne_ferryStatus (n f : Nat) (_ : f < 256) : aStreamStatus n ≠ aFerryStatus f := by
  simp only [aStreamStatus, aFerryStatus, streamPage, ferryPage]; omega

/-- FERRY_STATUS.CAUSE of some ferries is written, and nothing else. -/
theorem ferryClear_keeps (n : Nat) (s : State) : OnlyRegs s (ferryClear n s)
    ∧ ∀ j, (∀ f < 256, j ≠ aFerryStatus f) → (ferryClear n s).rd j = s.rd j := by
  have hmem : ∀ f ∈ List.range 256, f < 256 := fun f => List.mem_range.mp
  unfold ferryClear
  generalize List.range 256 = fs at hmem
  induction fs generalizing s with
  | nil => exact ⟨OnlyRegs.refl s, fun j _ => rfl⟩
  | cons f fs ih =>
    have hf := hmem f List.mem_cons_self
    have hfs : ∀ g ∈ fs, g < 256 := fun g hg => hmem g (List.mem_cons_of_mem _ hg)
    rw [each, List.foldl_cons, ← each]
    split
    · obtain ⟨honly, hregs⟩ := ih (s.setF (aFerryStatus f) 8 5 0) hfs
      exact ⟨((OnlyRegs.refl s).setF _ _ _ _).trans honly, fun j hj =>
        (hregs j hj).trans (State.rd_setF_ne _ _ _ _ (hj f hf))⟩
    · exact ih s hfs

theorem exec_start {s : State} (hs : Served s) (n : StreamIx) : exec (.start n) s = .next (signal s (startStream n.val s)) :=
  hostRow_of_served hs _ _ _ _

theorem startStream_of_up (h : s.st n ≠ 0) : startStream n s = s := if_pos h

theorem startStream_of_invalid {r : Nat} {j : JobCtx} (hst : s.st n = 0)
    (hval : validate n (s.f (aStreamJob n) 0 10) s = (r, j, s)) (hr : r ≠ 0) :
    startStream n s = s.setB (aStreamStatus n) 6 true := by
  rw [startStream, if_neg (by rw [hst]; decide)]
  simp [hval, hr]

/-- The stream's context with the job bound to it. -/
def boundStream (n : Nat) (j : JobCtx) (s : State) : Stream :=
  { s.stream n with job := some j, nextTag := if s.bit (aStreamCtl n) 10 then s.f (aStreamCtl n) 20 12 else (s.stream n).nextTag,
                    inspect := 0, loading := false, drainReq := none, drainKind := none }

/-- STREAM_STATUS of a stream that starts on slot k. -/
def startedStatus (n k : Nat) (s : State) : State :=
  ((s.setF (aStreamStatus n) 0 3 1).setB (aStreamStatus n) 5 false).setF (aStreamStatus n) 10 10 k

theorem startStream_of_active {j : JobCtx} {im : Image} (hst : s.st n = 0)
    (hval : validate n (s.f (aStreamJob n) 0 10) s = (0, j, s)) (him : s.image j.layout = some im)
    (hact : im.active = im.regions) (halt : s.alteringOn j.layout = false) :
    startStream n s = ferryClear n ((startedStatus n (s.f (aStreamJob n) 0 10) (s.setStream n (boundStream n j s))).setPressCtx n j) := by
  rw [startStream, if_neg (by rw [hst]; decide)]
  simp only [hval, him, hact, decide_true, halt, ne_eq, not_true_eq_false, decide_false, Bool.not_true, Bool.false_and, Bool.or_self,
    Bool.false_eq_true, if_false, Bool.true_or, if_true]
  rfl

theorem startedStatus_regsBut (n k : Nat) (s : State) : RegsBut [aStreamStatus n] s (startedStatus n k s) :=
  (((RegsBut.refl [aStreamStatus n] s).setF List.mem_cons_self 0 3 1).setB List.mem_cons_self 5 false).setF List.mem_cons_self 10 10 k

theorem startedStatus_onlyRegs (n k : Nat) (s : State) : OnlyRegs s (startedStatus n k s) :=
  (((OnlyRegs.refl s).setF _ 0 3 1).setB _ 5 false).setF _ 10 10 k

theorem startedStatus_fields (n k : Nat) (s : State) : (startedStatus n k s).f (aStreamStatus n) 0 3 = 1
    ∧ (startedStatus n k s).bit (aStreamStatus n) 5 = false ∧ (startedStatus n k s).f (aStreamStatus n) 10 10 = k % 1024 := by
  unfold startedStatus
  refine ⟨?_, ?_, ?_⟩
  · rw [State.f_setF_of_disjoint _ _ _ _ (by decide) (by decide), State.f_setB_of_disjoint _ (by decide) (by decide),
      State.f_setF_same _ _ _ (by decide)]; rfl
  · rw [State.bit_setF_of_disjoint _ _ _ _ (by decide) (by decide), State.bit_setB_same _ _ _ (by decide)]
  · exact State.f_setF_same _ _ _ (by decide)

end

theorem start_active {n : StreamIx} {j : JobCtx} {im : Image} {s : State} (hs : Served s) (hst : s.st n.val = 0)
    (hval : validate n.val (s.f (aStreamJob n.val) 0 10) s = (0, j, s)) (him : s.image j.layout = some im)
    (hact : im.active = im.regions) (halt : s.alteringOn j.layout = false) :
    ∃ t, exec (.start n) s = .next t ∧ t.st n.val = 1 ∧ (t.stream n.val).job = some j ∧ (t.stream n.val).inspect = 0
      ∧ (t.stream n.val).loading = false ∧ t.bit (aStreamStatus n.val) 5 = false
      ∧ t.f (aStreamStatus n.val) 10 10 = s.f (aStreamJob n.val) 0 10 ∧ t.pressCtx n.val = j
      ∧ (t.stream n.val).nextTag = (if s.bit (aStreamCtl n.val) 10 then s.f (aStreamCtl n.val) 20 12 else (s.stream n.val).nextTag)
      ∧ t.tiles = s.tiles ∧ t.mem = s.mem := by
  have hexec := exec_start hs n
  rw [startStream_of_active hst hval him hact halt] at hexec
  generalize hk : s.f (aStreamJob n.val) 0 10 = k at hexec
  have hk' : k < 1024 := by rw [← hk]; exact nbits_lt _ _ _
  obtain ⟨hst', h5, h10⟩ := startedStatus_fields n.val k (s.setStream n.val (boundStream n.val j s))
  have honly := startedStatus_onlyRegs n.val k (s.setStream n.val (boundStream n.val j s))
  generalize startedStatus n.val k (s.setStream n.val (boundStream n.val j s)) = v at hexec hst' h5 h10 honly
  obtain ⟨hfonly, hfregs⟩ := ferryClear_keeps n.val (v.setPressCtx n.val j)
  have hrd : (ferryClear n.val (v.setPressCtx n.val j)).rd (aStreamStatus n.val) = v.rd (aStreamStatus n.val) :=
    hfregs _ fun f hf => st_ne_ferryStatus n.val f hf
  have hctx : (ferryClear n.val (v.setPressCtx n.val j)).press = (v.setPressCtx n.val j).press := by
    unfold OnlyRegs at hfonly; rw [hfonly]
  have hstream : (ferryClear n.val (v.setPressCtx n.val j)).stream n.val = boundStream n.val j s := by
    have hv : v.stream n.val = boundStream n.val j s := by rw [honly.stream, State.stream_setStream, if_pos rfl]
    rw [hfonly.stream, ← hv]; rfl
  have htiles : (ferryClear n.val (v.setPressCtx n.val j)).tiles = s.tiles := hfonly.tiles.trans honly.tiles
  have hmem : (ferryClear n.val (v.setPressCtx n.val j)).mem = s.mem := hfonly.mem.trans honly.mem
  refine ⟨_, hexec, ?_, ?_, ?_, ?_, ?_, ?_, ?_, ?_, ?_, ?_⟩
  · rw [signal_st, State.st, State.f_congr hrd, hst']
  · rw [signal_stream, hstream, boundStream]
  · rw [signal_stream, hstream, boundStream]
  · rw [signal_stream, hstream, boundStream]
  · rw [signal_bit, State.bit_congr hrd, h5]
  · rw [signal_f, State.f_congr hrd, h10, Nat.mod_eq_of_lt hk']
  · rw [State.pressCtx, signal_press, hctx]
    exact tget_tset_same _ _ _ _
  · rw [signal_stream, hstream, boundStream]
  · rw [signal_tiles, htiles]
  · rw [signal_mem, hmem]

/-! ### STOP, and its end (R80) -/

section
variable {n : StreamIx} {s : State}

theorem exec_stop (hs : Served s) (n : StreamIx) : exec (.stop n) s = .next (signal s (stopStream n.val s)) :=
  hostRow_of_served hs _ _ _ _

theorem coEnd_of_no_pend {n : Nat} (h : (s.stream n).pend = none) (status reason : Nat) : coEnd n status reason s = s := by
  simp [coEnd, State.waitingPend, h]

theorem stop_running {j : JobCtx} (hs : Served s) (hst : s.st n.val = 1) (hpend : (s.stream n.val).pend = none)
    (hjob : (s.stream n.val).job = some j) (huses : s.uses = []) :
    ∃ t, exec (.stop n) s = .next t ∧ t.st n.val = 2 ∧ t.uses = [⟨j.layout, false, [n.val], []⟩]
      ∧ RegsBut [aStreamStatus n.val] s t ∧ t.streams = s.streams := by
  have hset : (s.setF (aStreamStatus n.val) 0 3 2).f (aStreamStatus n.val) 0 3 = 2 := State.f_setF_same _ _ _ (by decide)
  have hregs : RegsBut [aStreamStatus n.val] s (s.setF (aStreamStatus n.val) 0 3 2) := (RegsBut.refl _ s).setF List.mem_cons_self 0 3 2
  have honly := (OnlyRegs.refl s).setF (aStreamStatus n.val) 0 3 2
  have hstop : stopStream n.val s = useStop n.val (s.setF (aStreamStatus n.val) 0 3 2) := by
    rw [stopStream, if_neg (by rw [hst]; decide), coEnd_of_no_pend hpend]
  have huses' : (s.setF (aStreamStatus n.val) 0 3 2).uses = [] := (State.setF_uses ..).trans huses
  generalize s.setF (aStreamStatus n.val) 0 3 2 = v at *
  have huse : useStop n.val v = { v with uses := [⟨j.layout, false, [n.val], []⟩] } := by
    rw [useStop, honly.stream, hjob]
    simp only [huses', useInsert]
  have hexec := exec_stop hs n
  rw [hstop, huse] at hexec
  refine ⟨_, hexec, ?_, ?_, ?_, ?_⟩
  · rw [signal_st]; exact hset
  · rw [signal_uses]
  · exact fun i hi => (signal_rd _ _ i).trans (hregs i hi)
  · rw [signal_streams]; exact honly.streams

theorem heldDiscard_keeps (n : Nat) (s : State) : (heldDiscard n s).uses = s.uses ∧ ∀ j, (heldDiscard n s).rd j = s.rd j :=
  ⟨each_eq State.uses _ (fun s c => by split <;> rfl) _ s, fun j => each_eq (fun s => s.rd j) _ (fun s c => by split <;> rfl) _ s⟩

/-- Of the stream states, showing a conflict changes none. -/
theorem coConflicts_keeps (s : State) : (coConflicts s).uses = s.uses ∧ ∀ n, (coConflicts s).st n = s.st n := by
  constructor
  · exact each_eq State.uses _ (fun s m => by
      split
      · rfl
      · exact State.setF_uses ..) _ s
  · intro n
    refine each_eq (fun s => s.st n) _ (fun s m => ?_) _ s
    split
    · rfl
    · by_cases hnm : aStreamStatus n = aStreamStatus m
      · rw [State.st, hnm, State.f_setB_of_disjoint _ (by decide) (by decide), State.st, hnm]
      · exact State.f_setB_ne _ hnm _ _ _ _

theorem useEnd_uses (n : Nat) (s : State) : ∀ u ∈ (useEnd n s).uses, u.change = true ∨ n ∉ u.streams := by
  simp only [useEnd, List.mem_filter, List.mem_map]
  rintro u ⟨⟨v, -, rfl⟩, -⟩
  by_cases hv : v.change = true
  · exact .inl (by rw [if_pos hv]; exact hv)
  · exact .inr (by simp [hv])

theorem exec_stopComplete (hst : s.st n.val = 2) (hdrain : (s.stream n.val).drainReq = none)
    (hadm : (s.stream n.val).admitted = []) (hpend : (s.stream n.val).pend = none) (hfence : (s.stream n.val).fence = none)
    (hstop : s.stopped n.val = true) : exec (.stopComplete n) s = .next (signal s (toStopped n.val s)) := by
  change execStopComplete n s = _
  simp only [execStopComplete, when_, hst, hdrain, hadm, hpend, hfence, hstop, done]
  rfl

theorem toStopped_facts (n : Nat) (s : State) : (toStopped n s).st n = 0
    ∧ ∀ u ∈ (toStopped n s).uses, u.change = true ∨ n ∉ u.streams := by
  obtain ⟨huses, hst⟩ := coConflicts_keeps (heldDiscard n ((useEnd n s).setF (aStreamStatus n) 0 3 0))
  obtain ⟨hhuses, hhrd⟩ := heldDiscard_keeps n ((useEnd n s).setF (aStreamStatus n) 0 3 0)
  constructor
  · rw [toStopped, hst, State.st, State.f_congr (hhrd _)]
    exact State.f_setF_same _ _ _ (by decide)
  · rw [toStopped, huses, hhuses, State.setF_uses]
    exact useEnd_uses n s

/-! ### DRAIN, ABORT and CO_CANCEL (R80) -/

theorem exec_drain (hs : Served s) (n : StreamIx) : exec (.drain n) s = .next (signal s (reqDrain .drain s n.val)) :=
  hostRow_of_served hs _ _ _ _

theorem exec_abort (hs : Served s) (n : StreamIx) : exec (.abort n) s = .next (signal s (abortStream n.val s)) :=
  hostRow_of_served hs _ _ _ _

theorem exec_coCancel (hs : Served s) (n : StreamIx) : exec (.coCancel n) s = .next (signal s (cancelStream n.val s)) :=
  hostRow_of_served hs _ _ _ _

theorem reqDrain_of_none {n : Nat} (hst : s.st n = 1 ∨ s.st n = 2) (hreq : (s.stream n).drainReq = none) (k : DrainKind) :
    reqDrain k s n = s.setStream n { s.stream n with drainReq := some k } := by
  have h : (s.st n = 1 || s.st n = 2) = true := by simpa using hst
  rw [reqDrain, if_pos h, hreq]
  rfl

theorem reqDrain_of_stopped {n : Nat} (hst : s.st n = 0) (k : DrainKind) : reqDrain k s n = s := by
  simp [reqDrain, hst]

theorem abort_running (hs : Served s) (hst : s.st n.val = 1 ∨ s.st n.val = 2) (hreq : (s.stream n.val).drainReq = none) :
    ∃ t, exec (.abort n) s = .next t ∧ (t.stream n.val).drainReq = some .abort ∧ t.regs = s.regs
      ∧ t.journal.nextA = s.journal.nextA + 1 ∧ t.journal.seq = s.journal.seq + 1 := by
  have hj : ∃ J : Journal, s.journalPut 2 [BitVec.ofNat 32 (4 + n.val * 2 ^ 16)] = { s with journal := J }
      ∧ J.nextA = s.journal.nextA + 1 ∧ J.seq = s.journal.seq + 1 := ⟨_, rfl, rfl, rfl⟩
  obtain ⟨J, hput, hnext, hseq⟩ := hj
  have h0 : s.st n.val ≠ 0 := by omega
  have h3 : ({ s with journal := J } : State).st n.val ≠ 3 := by change s.st n.val ≠ 3; omega
  have habort : abortStream n.val s = reqDrain .abort { s with journal := J } n.val := by
    rw [abortStream, if_neg h0, hput]; exact if_neg h3
  have hreq' := reqDrain_of_none (s := { s with journal := J }) (n := n.val) hst hreq .abort
  refine ⟨_, exec_abort hs n, ?_, ?_, ?_, ?_⟩
  · rw [habort, hreq', signal_stream, State.stream_setStream, if_pos rfl]
  · rw [habort, hreq', signal_regs]; rfl
  · rw [habort, hreq', signal_journal]; exact hnext
  · rw [habort, hreq', signal_journal]; exact hseq

end

/-! ### The indices of the rings (R67, R68) -/

section
variable {fn : Fn} {n : StreamIx} {ix : BitVec 12} {s : State}

theorem fnReaches_of (h : fn = .pf ∨ fn = .vf n) : fnReaches fn n.val = true := by
  rcases h with rfl | rfl
  · rfl
  · simp [fnReaches]

theorem fnReaches_of_other (h : ∀ m, fn = .vf m → m ≠ n) (hpf : fn ≠ .pf) : fnReaches fn n.val = false := by
  cases fn with
  | pf => exact absurd rfl hpf
  | vf m => simpa [fnReaches] using Fin.val_ne_of_ne (h m rfl)

theorem exec_sqDoorbell (hwf : fn.wellFormed = true) (hs : Served s) (hr : fnReaches fn n.val = true) :
    exec (.sqDoorbell fn n ix) s = .next (signal s (sqTailSet (fnStream fn) n.val ix.toNat s)) := by
  change execSqDoorbell fn n ix s = _
  rw [execSqDoorbell, hwf, hr, if_pos rfl, hostRow_of_served hs, done]; rfl

theorem exec_cqHeadWrite (hwf : fn.wellFormed = true) (hs : Served s) (hr : fnReaches fn n.val = true) :
    exec (.cqHeadWrite fn n ix) s = .next (signal s (cqHeadSet (fnStream fn) n.val ix.toNat s)) := by
  change execCqHeadWrite fn n ix s = _
  rw [execCqHeadWrite, hwf, hr, if_pos rfl, hostRow_of_served hs, done]; rfl

theorem rings_unreached (hwf : fn.wellFormed = true) (hr : fnReaches fn n.val = false) :
    exec (.sqDoorbell fn n ix) s = .next s ∧ exec (.cqHeadWrite fn n ix) s = .next s := by
  constructor
  · change execSqDoorbell fn n ix s = _
    rw [execSqDoorbell, hwf, hr]; rfl
  · change execCqHeadWrite fn n ix s = _
    rw [execCqHeadWrite, hwf, hr]; rfl

theorem cqHeadWrite_frees (hwf : fn.wellFormed = true) (hs : Served s) (hr : fnReaches fn n.val = true)
    (hpath : onPath (s.cqSize n.val) (s.f (aCqHead n.val) 0 12) (s.f (aCqTail n.val) 0 12) ix.toNat = true)
    (hempty : PathEmpty n.val s) : ∃ t, exec (.cqHeadWrite fn n ix) s = .next t ∧ t.f (aCqHead n.val) 0 12 = ix.toNat
      ∧ RegsBut [aCqHead n.val, aStreamStatus n.val] s t ∧ t.bit (aStreamStatus n.val) 7 = false ∧ t.hostMem = s.hostMem := by
  have hne : aCqHead n.val ≠ aStreamStatus n.val := by simp only [aCqHead, aStreamStatus]; omega
  have hset : cqHeadSet (fnStream fn) n.val ix.toNat s
      = (s.setF (aCqHead n.val) 0 12 ix.toNat).setB (aStreamStatus n.val) 7 false := by
    rw [cqHeadSet, if_pos hpath]
    exact cqMove_of_empty hempty
  have hexec := exec_cqHeadWrite (ix := ix) hwf hs hr
  rw [hset] at hexec
  have hregs : RegsBut [aCqHead n.val, aStreamStatus n.val] s (s.setF (aCqHead n.val) 0 12 ix.toNat) :=
    (RegsBut.refl _ s).setF List.mem_cons_self _ _ _
  refine ⟨_, hexec, ?_, (hregs.setB (List.mem_cons_of_mem _ List.mem_cons_self) 7 false).signal, ?_, ?_⟩
  · rw [signal_f, State.f_setB_ne _ hne, State.f_setF_same _ _ _ (by decide)]
    exact Nat.mod_eq_of_lt ix.isLt
  · rw [signal_bit, State.bit_setB_same _ _ _ (by decide)]
  · rw [signal_hostMem, State.setB, State.setF_hostMem, State.setF_hostMem]

theorem State.bit_cause (s : State) (n : Nat) {k : Nat} (hk : k < 32) : (s.cause n k).bit (aStreamIntCause n) k = true := by
  have h : (s.setB (aStreamIntCause n) k true).bit (aStreamIntCause n) k = true := State.bit_setB_same _ _ _ hk
  unfold State.cause
  dsimp only
  split
  · exact h
  · exact (State.bit_congr (State.rd_msix _ _ _ _) k).trans h

theorem cqCoalesceTimer_signals (hunsig : 0 < (s.stream n.val).unsig) (htime : s.f (aStreamIntCoal n.val) 8 16 ≠ 0) :
    ∃ t, exec (.cqCoalesceTimer n) s = .next t ∧ (t.stream n.val).unsig = 0 ∧ t.bit (aStreamIntCause n.val) 0 = true
      ∧ RegsBut [aStreamIntCause n.val] s t := by
  have hexec : exec (.cqCoalesceTimer n) s = .next (signal s (cqSignal n.val s)) := by
    change execCqCoalesceTimer n s = _
    simp only [execCqCoalesceTimer, when_, hunsig, htime, ne_eq, not_false_eq_true, and_self, decide_true, if_true, done]
  refine ⟨_, hexec, ?_, ?_, ?_⟩
  · rw [signal_stream, cqSignal, ((OnlyRegs.refl _).cause n.val 0).stream, State.modStream, State.stream_setStream, if_pos rfl]
  · rw [signal_bit, cqSignal, State.bit_cause _ _ (by decide)]
  · refine RegsBut.signal fun j hj => ?_
    exact ((RegsBut.refl [aStreamIntCause n.val] _).cause List.mem_cons_self 0 j hj).trans (State.rd_setStream _ _ _ _)

end

/-- Settles O20. -/
theorem streamControlAndRings : Obligations.StreamControlAndRings := by
  unfold Obligations.StreamControlAndRings
  refine ⟨fun n r j im s hs => ⟨?_, start_active hs, ?_, stop_running hs, ?_, ?_, ?_⟩, fun fn n ix s hwf hs => ⟨?_, ?_, ?_⟩⟩
  · intro hst hval hr
    rw [exec_start hs, startStream_of_invalid hst hval hr]
  · intro hst
    rw [exec_start hs, startStream_of_up hst]
  · intro hst hdrain hadm hpend hfence hstop
    obtain ⟨hst', huses⟩ := toStopped_facts n.val s
    exact ⟨_, exec_stopComplete hst hdrain hadm hpend hfence hstop, by rw [signal_st, hst'], by rw [signal_uses]; exact huses⟩
  · intro hst hreq
    exact ⟨by rw [exec_drain hs, reqDrain_of_none hst hreq], abort_running hs hst hreq⟩
  · intro hst
    refine ⟨?_, ?_, ?_, ?_⟩
    · rw [exec_drain hs, reqDrain_of_stopped hst]
    · rw [exec_abort hs, abortStream, if_pos hst]
    · rw [exec_stop hs, stopStream, if_pos (by rw [hst]; decide)]
    · rw [exec_coCancel hs, cancelStream, if_neg (by rw [hst]; decide)]
  · intro hfn
    have hr := fnReaches_of hfn
    refine ⟨by rw [exec_sqDoorbell hwf hs hr, sqTailSet], fun hpath => ?_, fun hpath hheld hwait hovf =>
      cqHeadWrite_frees hwf hs hr hpath ⟨hheld, hwait, hovf⟩⟩
    rw [exec_cqHeadWrite hwf hs hr, cqHeadSet, hpath]
    rfl
  · intro hother hpf
    exact rings_unreached hwf (fnReaches_of_other hother hpf)
  · exact fun hunsig htime => cqCoalesceTimer_signals hunsig htime

end Sys2Proof.Machine
end

section
/-! Links (R104 to R114): an output queue sends on its slot; entries reach their queue, or a full one faults. -/
namespace Sys2Proof.Machine

/-! ### Queues of a tile -/

section
variable (s : State) (t v q r : Nat)

theorem State.iq_setIq (x : List Entry) : (s.setIq t q x).iq t r = if r = q then x else s.iq t r := by
  rw [State.iq, State.setIq, State.modTile, State.tile_setTile, if_pos rfl, tget_tset, State.iq]

theorem State.oq_setOq (x : List Entry) : (s.setOq t q x).oq t r = if r = q then x else s.oq t r := by
  rw [State.oq, State.setOq, State.modTile, State.tile_setTile, if_pos rfl, tget_tset, State.oq]

theorem State.oqUsed_setOq (x : List Entry) : (s.setOq t q x).oqUsed t r = s.oqUsed t r := by
  rw [State.oqUsed, State.setOq, State.modTile, State.tile_setTile, if_pos rfl, State.oqUsed]

theorem State.oq_setOqUsed (n : Nat) : (s.setOqUsed t q n).oq t r = s.oq t r := by
  rw [State.oq, State.setOqUsed, State.modTile, State.tile_setTile, if_pos rfl, State.oq]

theorem State.oqUsed_setOqUsed (n : Nat) : (s.setOqUsed t q n).oqUsed t r = if r = q then n else s.oqUsed t r := by
  rw [State.oqUsed, State.setOqUsed, State.modTile, State.tile_setTile, if_pos rfl, tget_tset, State.oqUsed]

theorem State.tile_setOq_ne {t v : Nat} (h : v ≠ t) (x : List Entry) : (s.setOq t q x).tile v = s.tile v := by
  rw [State.setOq, State.modTile, State.tile_setTile, if_neg h]

theorem State.tile_setOqUsed_ne {t v : Nat} (h : v ≠ t) (n : Nat) : (s.setOqUsed t q n).tile v = s.tile v := by
  rw [State.setOqUsed, State.modTile, State.tile_setTile, if_neg h]

theorem State.wire_setWire (t d : Nat) (x : List (Nat × Entry)) : (s.setWire t d x).wire t d = x := by
  rw [State.wire, State.setWire, tget_tset_same]

theorem State.laneUsed_setLaneUsed (t a l n : Nat) : (s.setLaneUsed t a l n).laneUsed t a l = n := by
  rw [State.laneUsed, State.setLaneUsed, tget_tset_same]

end

/-! ### LINK_SEND -/

/-- The output queue's oldest entry is on the link, and a credit is spent. -/
def oqSent (t d k q : Nat) (e : Entry) (rest : List Entry) (s : State) : State :=
  putWire t d k e ((s.setOq t q rest).setOqUsed t q (s.oqUsed t q + 1))

theorem linkSend_of_oq {t d k q : Nat} {s : State} (hsw : s.sw t d k = (true, 4, q)) (hmay : s.maySend t d = true) (hq : q < 8) :
    linkSend t d k s = match s.oq t q with
      | [] => s
      | e :: rest => if s.oqUsed t q < s.oqCredits t q then oqSent t d k q e rest s else s.count (cTile t (90 + 4 * d)) 1 := by
  simp only [linkSend, hsw, hmay, Nat.mod_eq_of_lt hq]
  rfl

/-- Nothing but tiles, links and counts differs. -/
def OnlyLinks (s u : State) : Prop := u = { s with tiles := u.tiles, fabric := u.fabric, counters := u.counters }

section
variable {s u : State}

theorem OnlyLinks.modTile (h : OnlyLinks s u) (t : Nat) (f : Tile → Tile) : OnlyLinks s (u.modTile t f) := by
  unfold OnlyLinks at *; rw [h]; rfl

theorem OnlyLinks.setWire (h : OnlyLinks s u) (t d : Nat) (x : List (Nat × Entry)) : OnlyLinks s (u.setWire t d x) := by
  unfold OnlyLinks at *; rw [h]; rfl

theorem OnlyLinks.count (h : OnlyLinks s u) (off k : Nat) : OnlyLinks s (u.count off k) := by
  obtain ⟨c, hc⟩ := u.count_eq off k
  unfold OnlyLinks at *; rw [hc, h]

end

theorem linkSend_onlyLinks {t d k q : Nat} {s : State} (hsw : s.sw t d k = (true, 4, q)) (hmay : s.maySend t d = true) (hq : q < 8) :
    OnlyLinks s (linkSend t d k s) := by
  have hself : OnlyLinks s s := rfl
  rw [linkSend_of_oq hsw hmay hq]
  split
  · exact hself
  · split
    · exact (((hself.modTile t _).modTile t _).setWire t d _).count _ _
    · exact hself.count _ _

/-- Settles O21. -/
theorem outputQueueSendsOnItsSlot : Obligations.OutputQueueSendsOnItsSlot := by
  intro t d k q s hsw hmay
  have hsend := linkSend_of_oq hsw hmay q.isLt
  refine ⟨signal s (linkSend t.val d.val k.val s), rfl, ?_, fun e rest hoq hcred => ?_, fun hnone => ?_⟩
  · rw [signal_tiles, signal_fabric, signal_counters, ← linkSend_onlyLinks hsw hmay q.isLt]
  · have hw : linkSend t.val d.val k.val s = oqSent t.val d.val k.val q.val e rest s := by
      rw [hsend, hoq]; exact if_pos hcred
    have htile : ∀ v, (oqSent t.val d.val k.val q.val e rest s).tile v
        = ((s.setOq t.val q.val rest).setOqUsed t.val q.val (s.oqUsed t.val q.val + 1)).tile v := fun v => by
      rw [oqSent, putWire, State.tile, State.count_tiles]; rfl
    have hoqs : ∀ r, (oqSent t.val d.val k.val q.val e rest s).oq t.val r = if r = q.val then rest else s.oq t.val r := fun r => by
      rw [State.oq, htile, ← State.oq, State.oq_setOqUsed, State.oq_setOq]
    have hused : ∀ r, (oqSent t.val d.val k.val q.val e rest s).oqUsed t.val r
        = if r = q.val then s.oqUsed t.val q.val + 1 else s.oqUsed t.val r := fun r => by
      rw [State.oqUsed, htile, ← State.oqUsed, State.oqUsed_setOqUsed, State.oqUsed_setOq]
    rw [hw]
    refine ⟨?_, ?_, ?_, fun r hr => ⟨?_, ?_⟩, fun v hv => ?_⟩
    · rw [State.wire, signal_fabric, oqSent, putWire, State.count_fabric, ← State.wire, State.wire_setWire]
      rfl
    · rw [State.oq, signal_tile, ← State.oq, hoqs, if_pos rfl]
    · rw [State.oqUsed, signal_tile, ← State.oqUsed, hused, if_pos rfl]
    · rw [State.oq, signal_tile, ← State.oq, hoqs, if_neg hr, State.oq]
    · rw [State.oqUsed, signal_tile, ← State.oqUsed, hused, if_neg hr, State.oqUsed]
    · rw [signal_tile, htile, State.tile_setOqUsed_ne _ _ hv, State.tile_setOq_ne _ _ hv]
  · have hidle : linkSend t.val d.val k.val s = s ∨ linkSend t.val d.val k.val s = s.count (cTile t.val (90 + 4 * d.val)) 1 := by
      rw [hsend]
      rcases hnone with hnil | hno
      · rw [hnil]; exact .inl rfl
      · split
        · exact .inl rfl
        · exact .inr (if_neg (by omega))
    rcases hidle with h | h <;> rw [h, signal_tiles, signal_fabric]
    · exact ⟨rfl, rfl⟩
    · exact ⟨State.count_tiles .., State.count_fabric ..⟩

/-! ### Entries that arrive -/

/-- On a queue that is neither poured nor watched, an entry of no purged stream is appended where there is room. -/
theorem iqArrive_of_room {t q : Nat} {e : Entry} {s : State} (hpurge : s.purging (strOf e.side) = false)
    (hroom : (s.iq t q).length < 64) (hring : s.ringOf t q = none) (hwatch : s.watcher t q = none) :
    iqArrive t q e s = s.setIq t q (s.iq t q ++ [e]) := by
  have hw : (s.setIq t q (s.iq t q ++ [e])).watcher t q = none := hwatch
  have hfull : ¬ 64 ≤ (s.iq t q).length := by omega
  simp [iqArrive, hpurge, hring, hfull, iqPut, watchScan, hw]

/-- R93: a full queue that is not poured faults. -/
theorem iqArrive_of_full {t q : Nat} {e : Entry} {s : State} (hpurge : s.purging (strOf e.side) = false)
    (hfull : 64 ≤ (s.iq t q).length) (hring : s.ringOf t q = none) : iqArrive t q e s = switchFault t q e s := by
  simp [iqArrive, hpurge, hring, hfull]

theorem exec_linkEntryArrive {t n : TileIx} {d : Fin 4} {k : Fin 15} {q : Fin 8} {e : Entry} {wrest : List (Nat × Entry)} {s : State}
    (hlive : s.live (regionOf t.val) = true) (hwire : s.wire t.val d.val = (k.val, e) :: wrest)
    (hnext : neighbour t.val d.val = some n.val) (hregion : regionOf n.val = regionOf t.val)
    (hfor : s.iqFor n.val (opp d.val) k.val = some q.val) :
    exec (.linkEntryArrive t d) s = .next (signal s (iqArrive n.val q.val e (s.setWire t.val d.val wrest))) := by
  have hfor' : (s.setWire t.val d.val wrest).iqFor n.val (opp d.val) k.val = some q.val := hfor
  change execLinkEntryArrive t d s = _
  rw [execLinkEntryArrive, hwire]
  simp only [when_, hlive, if_true, done, linkArrive, hnext, hregion, ne_eq, not_true_eq_false, if_false, hfor']

theorem exec_boundaryLaneMove {t : TileIx} {d : Fin 4} {k : Fin 15} {q : Fin 8} {e : Entry} {rest : List Entry} {s : State}
    (hlive : s.live (regionOf t.val) = true) (hbound : boundary t.val d.val = true)
    (hfor : s.iqFor t.val d.val k.val = some q.val) (hlane : s.lane t.val d.val k.val = e :: rest)
    (hcred : s.laneUsed t.val d.val k.val < 64) : exec (.boundaryLaneMove t d k) s
      = .next (signal s (iqArrive t.val q.val e (credit (s.laneSender t.val d.val k.val) 1
          ((s.setLane t.val d.val k.val rest).setLaneUsed t.val d.val k.val (s.laneUsed t.val d.val k.val + 1))))) := by
  change execBoundaryLaneMove t d k s = _
  simp only [execBoundaryLaneMove, hlive, Bool.not_true, Bool.false_eq_true, if_false, hfor, hlane, when_, hbound, hcred, decide_true,
    Bool.and_self, if_true, done]

/-- A credit under way changes the credits under way alone. -/
theorem credit_eq (o : Option Nat) (s : State) : credit o 1 s
    = { s with fabric := { s.fabric with back := s.fabric.back ++ (match o with | some c => [(c, 1)] | none => []) } } := by
  cases o with
  | none => simp [credit]
  | some c => rfl

theorem boundaryLaneMove_appends {t : TileIx} {d : Fin 4} {k : Fin 15} {q : Fin 8} {e : Entry} {rest : List Entry} {s : State}
    (hlive : s.live (regionOf t.val) = true) (hpurge : s.purging (strOf e.side) = false) (hroom : (s.iq t.val q.val).length < 64)
    (hring : s.ringOf t.val q.val = none) (hwatch : s.watcher t.val q.val = none) (hbound : boundary t.val d.val = true)
    (hfor : s.iqFor t.val d.val k.val = some q.val) (hlane : s.lane t.val d.val k.val = e :: rest)
    (hcred : s.laneUsed t.val d.val k.val < 64) :
    ∃ u, exec (.boundaryLaneMove t d k) s = .next u ∧ u.iq t.val q.val = s.iq t.val q.val ++ [e]
      ∧ u.lane t.val d.val k.val = rest ∧ u.laneUsed t.val d.val k.val = s.laneUsed t.val d.val k.val + 1
      ∧ u.fabric.back = s.fabric.back ++ (match s.laneSender t.val d.val k.val with | some c => [(c, 1)] | none => [])
      ∧ u.regs = s.regs ∧ u.mem = s.mem := by
  have hexec := exec_boundaryLaneMove hlive hbound hfor hlane hcred
  rw [credit_eq] at hexec
  generalize hv : ({ (s.setLane t.val d.val k.val rest).setLaneUsed t.val d.val k.val (s.laneUsed t.val d.val k.val + 1) with
    fabric := _ } : State) = v at hexec
  have htiles : v.tiles = s.tiles := by rw [← hv]; rfl
  have hlanes : v.lane t.val d.val k.val = rest := by rw [← hv]; exact tget_tset_same [] s.fabric.lanes _ _
  have hused : v.laneUsed t.val d.val k.val = s.laneUsed t.val d.val k.val + 1 := by
    rw [← hv]; exact State.laneUsed_setLaneUsed (s.setLane t.val d.val k.val rest) t.val d.val k.val (s.laneUsed t.val d.val k.val + 1)
  have hput : iqArrive t.val q.val e v = v.setIq t.val q.val (v.iq t.val q.val ++ [e]) :=
    iqArrive_of_room (by rw [← hv]; exact hpurge) (by rw [← hv]; exact hroom) (by rw [← hv]; exact hring) (by rw [← hv]; exact hwatch)
  rw [hput] at hexec
  refine ⟨_, hexec, ?_, ?_, ?_, ?_, ?_, ?_⟩
  · rw [State.iq, signal_tile, ← State.iq, State.iq_setIq, if_pos rfl, State.iq, State.tile, htiles, State.iq, State.tile]
  · rw [State.lane, signal_fabric]; exact hlanes
  · rw [State.laneUsed, signal_fabric]; exact hused
  · rw [signal_fabric, ← hv]; rfl
  · rw [signal_regs, ← hv]; rfl
  · rw [signal_mem, ← hv]; rfl

/-- Settles O22. -/
theorem entriesReachTheirQueue : Obligations.EntriesReachTheirQueue := by
  unfold Obligations.EntriesReachTheirQueue
  refine ⟨fun t n d k q e rest wrest s hlive hpurge hroom hring hwatch => ⟨?_, ?_⟩, ?_⟩
  · intro hwire hnext hregion hfor
    rw [exec_linkEntryArrive hlive hwire hnext hregion hfor]
    exact congrArg (fun u => Host.Outcome.next (signal s u))
      (iqArrive_of_room (s := s.setWire t.val d.val wrest) hpurge hroom hring hwatch)
  · rintro rfl hbound hfor hlane hcred
    exact boundaryLaneMove_appends hlive hpurge hroom hring hwatch hbound hfor hlane hcred
  · intro t n d k q e wrest s hlive hpurge hfull hring hwire hnext hregion hfor
    rw [exec_linkEntryArrive hlive hwire hnext hregion hfor]
    exact congrArg (fun u => Host.Outcome.next (signal s u))
      (iqArrive_of_full (s := s.setWire t.val d.val wrest) hpurge hfull hring)

end Sys2Proof.Machine
end

section
/-! Credits and management packets (R110, R114); the undertow spills and refills (R118 to R121). -/
namespace Sys2Proof.Machine

/-! ### A basin write, wherever it lies -/

theorem BasinStored.trans {offs : List Nat} {s t u : State} {r r' : Ram} (h : BasinStored offs s r t) (h' : BasinStored offs t r' u) :
    BasinStored offs s r' u := by
  obtain ⟨honly, hregs⟩ := h
  obtain ⟨honly', hregs'⟩ := h'
  refine ⟨?_, fun j hj => (hregs' j hj).trans (hregs j hj)⟩
  unfold OnlyRegs at *
  rw [honly', honly]

theorem BasinStored.mono {offs offs' : List Nat} {s t : State} {r : Ram} (h : BasinStored offs s r t) (hsub : ∀ o ∈ offs, o ∈ offs') :
    BasinStored offs' s r t := ⟨h.1, h.2.mono hsub⟩

/-- A write that may wrap stores some bytes of the basin, and counts errors. -/
theorem State.basinPut_stores (s : State) (a : Nat) (bs : List Byte) : ∃ r, BasinStored basinPutRegs s r (s.basinPut a bs) := by
  have hwrite : ∃ r, BasinStored basinBanks s r (s.basinWrite a bs false).2 := by
    unfold State.basinWrite
    dsimp only
    split
    · exact ⟨_, State.basinWrite1_stored s _ _ _⟩
    · exact ⟨_, (State.basinWrite1_stored s _ _ _).trans (State.basinWrite1_stored _ _ _ _)⟩
  obtain ⟨r, honly, hregs⟩ := hwrite
  refine ⟨r, ?_⟩
  unfold State.basinPut
  dsimp only
  split
  · exact ⟨raiseC_onlyRegs _ _ honly, hregs.trans (raiseC_regsBut { cls := 0, code := 0x04, unit := 11, index := bankOf a } _)⟩
  · exact ⟨honly, hregs.mono fun o ho => List.mem_append_left _ ho⟩

/-! ### Entries appended to a spill ring (R119) -/

theorem State.grp_setGrp (s : State) (k j : Nat) (x : Under) : (s.setGrp k x).grp j = if j = k then x else s.grp j :=
  tget_tset _ _ _ _ _

/-- The record of one entry, at the next place of ring i of group n. -/
def recordPut (n i t q : Nat) (cap base : Nat) (s : State) (e : Entry) : State :=
  let k := tget 0 (s.grp n).seq i
  let s := s.basinPut (base + k % (max cap 1) * 64) (spillRecord t q k e)
  s.setGrp n { s.grp n with seq := tset 0 (s.grp n).seq i (k + 1) }

/-- What records leave: the tiles, the counters, every register a basin write leaves, and the group but for its numbers. -/
def RecordKeeps (n : Nat) (s u : State) : Prop :=
  u.tiles = s.tiles ∧ u.counters = s.counters ∧ (∀ j ∉ basinPutRegs, u.rd j = s.rd j) ∧ ∃ k, u.grp n = { s.grp n with seq := k }

theorem RecordKeeps.put {n : Nat} {s u : State} (h : RecordKeeps n s u) (i t q cap base : Nat) (e : Entry) :
    RecordKeeps n s (recordPut n i t q cap base u e) := by
  obtain ⟨htiles, hcnt, hregs, k, hgrp⟩ := h
  unfold recordPut
  dsimp only
  obtain ⟨r, honly, hput⟩ := State.basinPut_stores u (base + tget 0 (u.grp n).seq i % max cap 1 * 64) (spillRecord t q (tget 0 (u.grp n).seq i) e)
  generalize u.basinPut _ _ = v at honly hput
  have hv : v.tiles = u.tiles ∧ v.counters = u.counters ∧ v.grp n = u.grp n := by
    unfold OnlyRegs at honly; rw [honly]; exact ⟨rfl, rfl, rfl⟩
  obtain ⟨hvt, hvc, hvg⟩ := hv
  refine ⟨hvt.trans htiles, hvc.trans hcnt, fun j hj => (hput j hj).trans (hregs j hj),
    tset 0 (v.grp n).seq i (tget 0 (u.grp n).seq i + 1), ?_⟩
  rw [State.grp_setGrp, if_pos rfl, hvg, hgrp]

theorem recordKeeps_each (n i t q cap base : Nat) (es : List Entry) (s : State) :
    RecordKeeps n s (each es s (recordPut n i t q cap base)) :=
  each_keep (RecordKeeps n s) _ (fun _ e h => h.put i t q cap base e) es s ⟨rfl, rfl, fun _ _ => rfl, _, rfl⟩

theorem undertowStatus_notin {n : Nat} (hn : n < 16) : aUndertowGrpStatus n ∉ basinPutRegs := by
  interval_cases n <;> decide

/-- A ring that grows: its group's rings, the status, the count of spilled entries. -/
theorem ringAppend_facts {n : Nat} (hn : n < 16) (i t q : Nat) (es : List Entry) {s : State} (hobs : s.bit aObsCtl 0 = false) :
    (ringAppend n i t q es s).tiles = s.tiles
    ∧ (∃ k, (ringAppend n i t q es s).grp n
        = { s.grp n with seq := k, rings := setNth (s.grp n).rings i (t, q, (nth (s.grp n).rings i (t, q, [])).2.2 ++ es) })
    ∧ (ringAppend n i t q es s).bit (aUndertowGrpStatus n) 1 = true
    ∧ (ringAppend n i t q es s).bit (aUndertowGrpStatus n) 0 = s.bit (aUndertowGrpStatus n) 0
    ∧ (ringAppend n i t q es s).cnt (cUnder n 0) = s.cnt (cUnder n 0) + BitVec.ofNat 64 es.length := by
  obtain ⟨htiles, hcnt, hregs, k, hgrp⟩ := recordKeeps_each n i t q (s.ringCap n) (s.f (aUndertowGrpCfg n) 0 14 * 4096 + i * s.ringCap n * 64) es s
  have heq : ringAppend n i t q es s = (let u := each es s (recordPut n i t q (s.ringCap n)
        (s.f (aUndertowGrpCfg n) 0 14 * 4096 + i * s.ringCap n * 64))
      (((u.setGrp n { u.grp n with rings := setNth (u.grp n).rings i (t, q, (nth (u.grp n).rings i (t, q, [])).2.2 ++ es) }).setB
        (aUndertowGrpStatus n) 1 true).count (cUnder n 0) es.length)) := rfl
  rw [heq]
  generalize each es s _ = u at *
  dsimp only
  have hset : (u.setGrp n { u.grp n with rings := setNth (u.grp n).rings i (t, q, (nth (u.grp n).rings i (t, q, [])).2.2 ++ es) }).grp n
      = { s.grp n with seq := k, rings := setNth (s.grp n).rings i (t, q, (nth (s.grp n).rings i (t, q, [])).2.2 ++ es) } := by
    rw [State.grp_setGrp, if_pos rfl, hgrp]
  generalize hv : u.setGrp n _ = v at *
  have hvt : v.tiles = u.tiles ∧ v.counters = u.counters ∧ ∀ j, v.rd j = u.rd j := by rw [← hv]; exact ⟨rfl, rfl, fun _ => rfl⟩
  obtain ⟨hvt, hvc, hvr⟩ := hvt
  have hobs' : (v.setB (aUndertowGrpStatus n) 1 true).bit aObsCtl 0 = false := by
    rw [State.bit_setB_ne _ (by simp only [aObsCtl, aUndertowGrpStatus]; omega), State.bit_congr (hvr _),
      State.bit_congr (hregs aObsCtl (by decide)), hobs]
  refine ⟨?_, ⟨k, ?_⟩, ?_, ?_, ?_⟩
  · rw [State.count_tiles, State.setB, State.setF_tiles, hvt, htiles]
  · rw [State.grp, State.count_under, State.setB, State.setF_under, ← State.grp, hset]
  · rw [State.count_bit, State.bit_setB_same _ _ _ (by decide)]
  · rw [State.count_bit, State.bit_setB_of_ne _ (by decide) (by decide), State.bit_congr (hvr _),
      State.bit_congr (hregs _ (undertowStatus_notin hn))]
  · rw [State.cnt_count _ hobs', State.cnt, State.setB, State.setF_counters, hvc, hcnt, State.cnt]

/-! ### A group found stuck (R118, R119) -/

/-- The state with ring i the one queue's, before its entries move. -/
def ringOpened (n t q : Nat) (s : State) : State :=
  let u := s.setB (aUndertowGrpStatus n) 0 true
  u.setGrp n { u.grp n with rings := [(t, q, [])], spilling := true, moved := [] }

section
variable {n t q : Nat} {s : State}

/-- The queue of a group's only ring. -/
theorem ringOf_of_only {es : List Entry} (hbound : (s.qbind t q).bound = true) (hdyn : (s.qbind t q).dyn = true)
    (hgrp : (s.qbind t q).group = n) (hrings : (s.grp n).rings = [(t, q, es)]) : s.ringOf t q = some (n, 0, es) := by
  simp [State.ringOf, hbound, hdyn, hgrp, hrings, findNat, List.range_succ]

theorem ringOpened_grp : (ringOpened n t q s).grp n = { s.grp n with rings := [(t, q, [])], spilling := true, moved := [] } := by
  rw [ringOpened, State.grp_setGrp, if_pos rfl]
  rfl

theorem ringOpened_iq : (ringOpened n t q s).iq t q = s.iq t q := rfl

theorem ringOpened_qbind : (ringOpened n t q s).qbind t q = s.qbind t q := rfl

theorem ringOpened_counters : (ringOpened n t q s).counters = s.counters := rfl

theorem ringOpened_bit (j i : Nat) : (ringOpened n t q s).bit j i = (s.setB (aUndertowGrpStatus n) 0 true).bit j i := rfl

theorem State.bit_setIq (x : List Entry) (j i : Nat) : (s.setIq t q x).bit j i = s.bit j i := rfl

theorem State.grp_setIq (x : List Entry) (k : Nat) : (s.setIq t q x).grp k = s.grp k := rfl

theorem State.cnt_setIq (x : List Entry) (off : Nat) : (s.setIq t q x).cnt off = s.cnt off := rfl

theorem ringOpened_cnt (off : Nat) : (ringOpened n t q s).cnt off = s.cnt off := rfl

/-- R119: the queue's ring takes all but its oldest eight entries. -/
def spilled (n t q : Nat) (es : List Entry) (s : State) : State :=
  let u := ringAppend n 0 t q (es.drop 8) (s.setIq t q (es.take 8))
  u.setGrp n { u.grp n with moved := (u.grp n).moved ++ [(t, q, es.length - 8)] }

theorem exec_undertowStuck (grp : Fin 16) (hen : s.bit (aUndertowGrpCfg grp.val) 31 = true) (hstuck : s.stuck grp.val = true)
    (hspill : (s.grp grp.val).spilling = false) (hrings : (s.grp grp.val).rings = []) (hfull : s.fullIqs grp.val = [(t, q)])
    (hbound : (s.qbind t q).bound = true) (hdyn : (s.qbind t q).dyn = true) (hgrp : (s.qbind t q).group = grp.val)
    (hlen : (s.iq t q).length = 64) (hcap : 56 ≤ s.ringCap grp.val) :
    exec (.undertowStuck grp) s = .next (signal s (spilled grp.val t q (s.iq t q) (ringOpened grp.val t q s))) := by
  have hfull' : (s.setB (aUndertowGrpStatus grp.val) 0 true).fullIqs grp.val = [(t, q)] := hfull
  have hrings' : ((s.setB (aUndertowGrpStatus grp.val) 0 true).grp grp.val).rings = [] := hrings
  have hlen' : ((s.setB (aUndertowGrpStatus grp.val) 0 true).iq t q).length = 64 := hlen
  have hcap' : 56 ≤ (s.setB (aUndertowGrpStatus grp.val) 0 true).ringCap grp.val := by
    rwa [State.ringCap, State.f_setB_ne _ (by simp only [aUndertowGrpCfg, aUndertowGrpStatus]; omega), ← State.ringCap]
  have hring : (ringOpened grp.val t q s).ringOf t q = some (grp.val, 0, []) :=
    ringOf_of_only hbound hdyn hgrp (by rw [ringOpened_grp])
  have hspillOne : spillOne grp.val (ringOpened grp.val t q s) (t, q) = spilled grp.val t q (s.iq t q) (ringOpened grp.val t q s) := by
    rw [spillOne, hring]; rfl
  change execUndertowStuck grp s = _
  rw [← hspillOne]
  simp only [execUndertowStuck, hen, hstuck, hspill, Bool.not_false, Bool.not_true, Bool.false_eq_true, if_false,
    hfull', hrings', assignRings, List.any_nil, List.filter_cons, if_true, List.filter_nil, List.map_cons, List.map_nil,
    List.nil_append, List.all_cons, List.all_nil, List.find?_cons, beq_self_eq_true, Bool.and_self, List.length_nil, hlen',
    List.isEmpty_cons, List.length_cons, Nat.zero_add, Nat.reduceSub, hcap', decide_true, Nat.reduceLT, decide_false, Bool.or_self,
    each, List.foldl_cons, List.foldl_nil, done]
  rfl

theorem undertowStuck_spills (grp : Fin 16) (hobs : s.bit aObsCtl 0 = false) (hen : s.bit (aUndertowGrpCfg grp.val) 31 = true)
    (hstuck : s.stuck grp.val = true) (hspill : (s.grp grp.val).spilling = false) (hrings : (s.grp grp.val).rings = [])
    (hfull : s.fullIqs grp.val = [(t, q)]) (hbound : (s.qbind t q).bound = true) (hdyn : (s.qbind t q).dyn = true)
    (hgrp : (s.qbind t q).group = grp.val) (hlen : (s.iq t q).length = 64) (hcap : 56 ≤ s.ringCap grp.val) :
    ∃ u, exec (.undertowStuck grp) s = .next u ∧ u.iq t q = (s.iq t q).take 8
      ∧ (u.grp grp.val).rings = [(t, q, (s.iq t q).drop 8)] ∧ (u.grp grp.val).spilling = true
      ∧ (u.grp grp.val).moved = [(t, q, 56)] ∧ u.bit (aUndertowGrpStatus grp.val) 0 = true
      ∧ u.bit (aUndertowGrpStatus grp.val) 1 = true ∧ u.cnt (cUnder grp.val 0) = s.cnt (cUnder grp.val 0) + 56 := by
  have hexec := exec_undertowStuck grp hen hstuck hspill hrings hfull hbound hdyn hgrp hlen hcap
  have hn := grp.isLt
  generalize hes : s.iq t q = es at *
  have hobs' : ((ringOpened grp.val t q s).setIq t q (es.take 8)).bit aObsCtl 0 = false := by
    rw [State.bit_setIq, ringOpened_bit, State.bit_setB_ne _ (by simp only [aObsCtl, aUndertowGrpStatus]; omega), hobs]
  obtain ⟨htiles, ⟨k, hgrpU⟩, hb1, hb0, hcnt⟩ := ringAppend_facts hn 0 t q (es.drop 8) hobs'
  have hgrp0 : ((ringOpened grp.val t q s).setIq t q (es.take 8)).grp grp.val
      = { s.grp grp.val with rings := [(t, q, [])], spilling := true, moved := [] } := by
    rw [State.grp_setIq, ringOpened_grp]
  have hb0' : ((ringOpened grp.val t q s).setIq t q (es.take 8)).bit (aUndertowGrpStatus grp.val) 0 = true := by
    rw [State.bit_setIq, ringOpened_bit, State.bit_setB_same _ _ _ (by decide)]
  have hiq : ((ringOpened grp.val t q s).setIq t q (es.take 8)).iq t q = es.take 8 := by rw [State.iq_setIq, if_pos rfl]
  have hcnt0 : ((ringOpened grp.val t q s).setIq t q (es.take 8)).cnt (cUnder grp.val 0) = s.cnt (cUnder grp.val 0) := by
    rw [State.cnt_setIq, ringOpened_cnt]
  rw [hgrp0] at hgrpU
  have hdrop : (es.drop 8).length = 56 := by rw [List.length_drop, hlen]
  rw [spilled] at hexec
  dsimp only at hexec
  generalize ringAppend grp.val 0 t q (es.drop 8) _ = u at *
  have hset : (u.setGrp grp.val { u.grp grp.val with moved := (u.grp grp.val).moved ++ [(t, q, es.length - 8)] }).grp grp.val
      = { u.grp grp.val with moved := (u.grp grp.val).moved ++ [(t, q, es.length - 8)] } := by
    rw [State.grp_setGrp, if_pos rfl]
  generalize hv : u.setGrp grp.val _ = v at *
  obtain ⟨hvt, hvc, hvr⟩ : v.tiles = u.tiles ∧ v.counters = u.counters ∧ ∀ j, v.rd j = u.rd j := by
    rw [← hv]; exact ⟨rfl, rfl, fun _ => rfl⟩
  refine ⟨_, hexec, ?_, ?_, ?_, ?_, ?_, ?_, ?_⟩
  · rw [State.iq, signal_tile, State.tile, hvt, htiles, ← State.tile, ← State.iq, hiq]
  · rw [signal_grp, hset, hgrpU]
    rfl
  · rw [signal_grp, hset, hgrpU]
  · rw [signal_grp, hset, hgrpU, hlen]
    rfl
  · rw [signal_bit, State.bit_congr (hvr _), hb0, hb0']
  · rw [signal_bit, State.bit_congr (hvr _), hb1]
  · rw [signal_cnt, State.cnt, hvc, ← State.cnt, hcnt, hcnt0, hdrop]
    rfl

/-! ### The spill completes (R119, R121) -/

theorem creditN_eq (o : Option Nat) {k : Nat} (hk : k ≠ 0) (s : State) : credit o k s
    = { s with fabric := { s.fabric with back := s.fabric.back ++ (match o with | some c => [(c, k)] | none => []) } } := by
  cases o with
  | none => simp [credit]
  | some c => simp [credit, hk]

/-- The freed credits are on their way and nothing waits to be returned. -/
def spillReturned (n t q : Nat) (s : State) : State :=
  let u := credit (s.iqSender t q) 56 s
  u.setGrp n { u.grp n with spilling := false, moved := [] }

theorem exec_undertowSpillComplete (grp : Fin 16) (hspill : (s.grp grp.val).spilling = true)
    (hmoved : (s.grp grp.val).moved = [(t, q, 56)]) : exec (.undertowSpillComplete grp) s
      = .next (signal s (((spillReturned grp.val t q s).setB (aUndertowGrpStatus grp.val) 0 false).addSat
          (aUndertowGrpStatus grp.val) 16 16 1)) := by
  change execUndertowSpillComplete grp s = _
  simp only [execUndertowSpillComplete, hmoved, when_, hspill, if_true, done, each, List.foldl_cons, List.foldl_nil]
  rfl

theorem undertowSpillComplete_returns (grp : Fin 16) (hspill : (s.grp grp.val).spilling = true)
    (hmoved : (s.grp grp.val).moved = [(t, q, 56)]) :
    ∃ u, exec (.undertowSpillComplete grp) s = .next u ∧ (u.grp grp.val).spilling = false ∧ (u.grp grp.val).moved = []
      ∧ u.fabric.back = s.fabric.back ++ (match s.iqSender t q with | some c => [(c, 56)] | none => [])
      ∧ u.bit (aUndertowGrpStatus grp.val) 0 = false
      ∧ u.f (aUndertowGrpStatus grp.val) 16 16 = min (s.f (aUndertowGrpStatus grp.val) 16 16 + 1) 65535
      ∧ RegsBut [aUndertowGrpStatus grp.val] s u ∧ u.tiles = s.tiles := by
  have hexec := exec_undertowSpillComplete grp hspill hmoved
  have hgrp : ((spillReturned grp.val t q s).grp grp.val).spilling = false ∧ ((spillReturned grp.val t q s).grp grp.val).moved = [] := by
    rw [spillReturned]; dsimp only; rw [State.grp_setGrp, if_pos rfl]; exact ⟨rfl, rfl⟩
  obtain ⟨hback, htiles, hrd⟩ : (spillReturned grp.val t q s).fabric.back
        = s.fabric.back ++ (match s.iqSender t q with | some c => [(c, 56)] | none => [])
      ∧ (spillReturned grp.val t q s).tiles = s.tiles ∧ ∀ j, (spillReturned grp.val t q s).rd j = s.rd j := by
    rw [spillReturned, creditN_eq _ (by decide)]; exact ⟨rfl, rfl, fun _ => rfl⟩
  generalize spillReturned grp.val t q s = v at *
  have hregs : RegsBut [aUndertowGrpStatus grp.val] s ((v.setB (aUndertowGrpStatus grp.val) 0 false).addSat
      (aUndertowGrpStatus grp.val) 16 16 1) :=
    RegsBut.addSat (RegsBut.setB (fun j _ => hrd j) List.mem_cons_self 0 false) List.mem_cons_self 16 16 1
  refine ⟨_, hexec, ?_, ?_, ?_, ?_, ?_, hregs.signal, ?_⟩
  · rw [signal_grp, State.grp, State.addSat, State.setF_under, State.setB, State.setF_under, ← State.grp, hgrp.1]
  · rw [signal_grp, State.grp, State.addSat, State.setF_under, State.setB, State.setF_under, ← State.grp, hgrp.2]
  · rw [signal_fabric, State.addSat, State.setF_fabric, State.setB, State.setF_fabric, hback]
  · rw [signal_bit, State.addSat, State.bit_setF_of_disjoint _ _ _ _ (by decide) (by decide), State.bit_setB_same _ _ _ (by decide)]
  · rw [signal_f, State.addSat, State.f_setF_same _ _ _ (by decide), State.f_setB_of_disjoint _ (by decide) (by decide),
      State.f_congr (hrd _)]
    exact Nat.mod_eq_of_lt (by omega)
  · rw [signal_tiles, State.addSat, State.setF_tiles, State.setB, State.setF_tiles, htiles]

/-! ### A refill (R120) -/

theorem exec_undertowRefill {t : TileIx} {q : Fin 8} {i : Nat} {e : Entry} {es : List Entry}
    (hring : s.ringOf t.val q.val = some (n, i, e :: es)) (hroom : (s.iq t.val q.val).length < 64) :
    ∃ b, exec (.undertowRefill t q) s = .next (signal s
      ((((s.setIq t.val q.val (s.iq t.val q.val ++ [e])).setGrp n
        { s.grp n with rings := setNth (s.grp n).rings i (t.val, q.val, es) }).setB (aUndertowGrpStatus n) 1 b).count (cUnder n 1) 1)) := by
  refine ⟨(((s.setIq t.val q.val (s.iq t.val q.val ++ [e])).setGrp n
    { s.grp n with rings := setNth (s.grp n).rings i (t.val, q.val, es) }).grp n).rings.any (fun r => !r.2.2.isEmpty), ?_⟩
  change execUndertowRefill t q s = _
  simp only [execUndertowRefill, hring, hroom, if_true, done]
  rfl

theorem ringOf_group {i : Nat} {es : List Entry} (h : s.ringOf t q = some (n, i, es)) : n < 16 := by
  have hg : (s.qbind t q).group < 16 := nbits_lt _ 26 4
  unfold State.ringOf at h
  dsimp only at h
  split at h
  · cases h
  · obtain ⟨j, -, hj⟩ := Option.bind_eq_some_iff.mp h
    obtain ⟨r, -, hr⟩ := Option.map_eq_some_iff.mp hj
    cases hr
    exact hg

theorem undertowRefill_takes {t : TileIx} {q : Fin 8} {i : Nat} {e : Entry} {es : List Entry} (hobs : s.bit aObsCtl 0 = false)
    (hring : s.ringOf t.val q.val = some (n, i, e :: es)) (hroom : (s.iq t.val q.val).length < 64) :
    ∃ u, exec (.undertowRefill t q) s = .next u ∧ u.iq t.val q.val = s.iq t.val q.val ++ [e]
      ∧ (u.grp n).rings = (s.grp n).rings.set i (t.val, q.val, es) ∧ u.cnt (cUnder n 1) = s.cnt (cUnder n 1) + 1 := by
  have hn := ringOf_group hring
  obtain ⟨b, hexec⟩ := exec_undertowRefill hring hroom
  have hiq : (s.setIq t.val q.val (s.iq t.val q.val ++ [e])).iq t.val q.val = s.iq t.val q.val ++ [e] := by
    rw [State.iq_setIq, if_pos rfl]
  have hgrp := State.grp_setGrp (s.setIq t.val q.val (s.iq t.val q.val ++ [e])) n n
    { s.grp n with rings := setNth (s.grp n).rings i (t.val, q.val, es) }
  rw [if_pos rfl] at hgrp
  generalize hv : (s.setIq t.val q.val (s.iq t.val q.val ++ [e])).setGrp n _ = v at *
  obtain ⟨hvt, hvc, hvr⟩ : v.tiles = (s.setIq t.val q.val (s.iq t.val q.val ++ [e])).tiles ∧ v.counters = s.counters
      ∧ ∀ j, v.rd j = s.rd j := by rw [← hv]; exact ⟨rfl, rfl, fun _ => rfl⟩
  have hobs' : (v.setB (aUndertowGrpStatus n) 1 b).bit aObsCtl 0 = false := by
    rw [State.bit_setB_ne _ (by simp only [aObsCtl, aUndertowGrpStatus]; omega), State.bit_congr (hvr _), hobs]
  refine ⟨_, hexec, ?_, ?_, ?_⟩
  · rw [State.iq, signal_tile, State.tile, State.count_tiles, State.setB, State.setF_tiles, hvt, ← State.tile, ← State.iq, hiq]
  · rw [signal_grp, State.grp, State.count_under, State.setB, State.setF_under, ← State.grp, hgrp, setNth]
  · rw [signal_cnt, State.cnt_count _ hobs', State.cnt, State.setB, State.setF_counters, hvc, ← State.cnt]
    rfl

/-! ### Credits and packets (R110, R114) -/

theorem exec_creditReturn {k m : Nat} {t : TileIx} {q : Fin 8} (h : s.fabric.back[k]? = some (sOq t.val q.val, m)) :
    exec (.creditReturn k) s = .next (signal s
      (({ s with fabric := { s.fabric with back := s.fabric.back.eraseIdx k } } : State).setOqUsed t.val q.val
        (s.oqUsed t.val q.val - m))) := by
  have hlt : sOq t.val q.val < 10000 := by simp only [sOq]; omega
  have hdiv : sOq t.val q.val / 8 = t.val := by simp only [sOq]; omega
  have hmod : sOq t.val q.val % 8 = q.val := by simp only [sOq]; omega
  change execCreditReturn k s = _
  simp only [execCreditReturn, h, creditApply, hlt, if_true, hdiv, hmod, done]
  rfl

/-- A packet that goes on: those behind it lose a turn. -/
def pktsAfter (t d n i : Nat) (p : MPkt) (ps : List MPkt) : List MPkt :=
  (ps.eraseIdx i).map (fun x => if wants t d x then { x with lost := x.lost + 1 } else x) ++ [{ p with at_ := n, lost := 0 }]

theorem exec_managementPacketHop {t : TileIx} {d : Fin 4} {nxt i : Nat} {p : MPkt} (hlive : s.live (regionOf t.val) = true)
    (hnext : neighbour t.val d.val = some nxt) (hgrant : grant t.val d.val s.fabric.pkts = some i)
    (hpkt : s.fabric.pkts[i]? = some p) (hon : nxt ≠ p.dst) : exec (.managementPacketHop t d) s
      = .next (signal s { s.count (cTile t.val (91 + 4 * d.val)) 1 with
          fabric := { (s.count (cTile t.val (91 + 4 * d.val)) 1).fabric with
            pkts := pktsAfter t.val d.val nxt i p s.fabric.pkts } }) := by
  change execManagementPacketHop t d s = _
  simp only [execManagementPacketHop, hlive, Bool.not_true, Bool.false_eq_true, if_false, hgrant, hpkt, hnext, hon, done]
  rfl

end

/-- Settles O23. -/
theorem creditsPacketsAndUndertow : Obligations.CreditsPacketsAndUndertow := by
  unfold Obligations.CreditsPacketsAndUndertow
  refine ⟨fun t n d q k m i p s => ⟨fun h => ?_, fun hlive hnext hgrant hpkt hon => ?_⟩, fun grp t q s hobs => ⟨?_, ?_, ?_⟩⟩
  · refine ⟨_, exec_creditReturn h, ?_, ?_, fun v hv => ?_, ?_⟩
    · rw [State.oqUsed, signal_tile, ← State.oqUsed, State.oqUsed_setOqUsed, if_pos rfl]
    · rw [signal_fabric]; rfl
    · rw [signal_tile, State.tile_setOqUsed_ne _ _ hv]; rfl
    · rw [signal_tiles, signal_fabric]; rfl
  · refine ⟨_, exec_managementPacketHop hlive hnext hgrant hpkt hon, ?_, ?_, ?_, ?_⟩
    · rw [signal_tiles]; exact State.count_tiles ..
    · rw [signal_regs]; exact State.count_regs ..
    · rw [signal_fabric]; simp only [State.count_fabric]
    · rw [signal_fabric]
      simp only [pktsAfter, wants, Bool.and_eq_true, beq_iff_eq]
  · intro hen hstuck hspill hrings hfull hbound hdyn hgrp hlen hcap _
    exact undertowStuck_spills grp hobs hen hstuck hspill hrings hfull hbound hdyn hgrp hlen hcap
  · intro hspill hmoved
    exact undertowSpillComplete_returns grp hspill hmoved
  · intro n i e es hring hroom
    exact undertowRefill_takes hobs hring hroom

end Sys2Proof.Machine
end

section
/-! Tile words: the replay's number names a frame as well as a stream (06; 15), so what a command is bound with is not it. -/
namespace Sys2Proof.Machine

/-- A MAT slot whose one operation is CLR of bank 0. -/
def clrWord : Nat := 5 * 2 ^ 52

/-- Tile 0 has begun a replay for stream 0 and frame 1 (256 = 1 · 256 + 0), at a word of one CLR; a command waits for it. -/
def framedTile : Tile :=
  { Tile.init with imem := [(0, BitVec.ofNat 256 clrWord)], cq := [(0, [⟨0, none, none, false⟩])], replay := some (256, 0, 0) }

/-- Region 0 runs, tile 0 is at the word. -/
def framedReplay : State := { State.reset with regs := [(aRegionClk 0, BitVec.ofNat 32 (2 ^ 16))], tiles := [(0, framedTile)] }

theorem framedReplay_issues : exec (.tileWordIssue 0) framedReplay = .next (signal framedReplay (issueWord 0 256 0 0 framedReplay)) := by
  rfl

/-- The command is bound for stream 0, not for stream 256. -/
theorem framedReplay_bound : (((issueWord 0 256 0 0 framedReplay).tile 0).queue 0).map (fun q => q.bound.map (·.stream)) = [some 0] := by
  rfl

/-- Refutes O24: a replay is held as a frame and a stream in one number (frame · 256 + stream), and a command is bound for its
stream; of frame 1 the number is 256 and the stream is 0. -/
theorem not_tileWordsAndReplays : ¬ Obligations.TileWordsAndReplays := by
  unfold Obligations.TileWordsAndReplays
  intro h
  obtain ⟨-, -, hword⟩ := h 0 framedReplay
  obtain ⟨-, -, hissue⟩ := hword 256 0 0 rfl rfl rfl rfl rfl rfl rfl
  obtain ⟨u, hexec, -, -, -, hqueue, -⟩ := hissue (by decide) (by decide) (by decide) (by decide)
  rw [framedReplay_issues, Host.Outcome.next.injEq] at hexec
  obtain ⟨-, -, hbind⟩ := hqueue 0 (by decide)
  obtain ⟨f, hq, -, hb⟩ := hbind (by decide) [] ⟨0, none, none, false⟩ [] (by decide) (by simp) rfl
  have hstream := framedReplay_bound
  rw [← signal_tile framedReplay, hexec] at hstream
  have hzero : f.bound.map (·.stream) = some 0 := by
    have h0 : (u.tile 0).queue 0 = [f] := hq
    rw [h0] at hstream
    exact List.singleton_inj.mp hstream
  have hframed : f.bound.map (·.stream) = some 256 := by
    obtain ⟨b, hbound, hfields⟩ := Option.map_eq_some_iff.mp hb
    have hstr : b.stream = 256 := congrArg (fun p => p.2.2.1) hfields
    rw [hbound, Option.map_some, hstr]
  rw [hframed] at hzero
  exact absurd hzero (by decide)

end Sys2Proof.Machine
end

section
/-! What a tile's queues keep: faults, traces, reads, writes, pops and the effects of steps (04, 06). -/
namespace Sys2Proof.Machine

/-! ### Faults and traces leave a tile as it was, but for its trace -/

section
variable (s : State)

theorem State.wrs_tiles (off : Nat) (ws : List Word) : (s.wrs off ws).tiles = s.tiles := by
  induction ws generalizing s off with
  | nil => rfl
  | cons w ws ih => exact (ih (s.wr off w) (off + 4)).trans (State.wr_tiles s off w)

theorem cause_tiles (n k : Nat) : (s.cause n k).tiles = s.tiles := ((OnlyRegs.refl s).cause n k).tiles

theorem reqDrain_tiles (k : DrainKind) (n : Nat) : (reqDrain k s n).tiles = s.tiles := by
  unfold reqDrain
  split
  · split <;> rfl
  · rfl

theorem logPut_tiles (ws : List Word) : (logPut ws s).tiles = s.tiles := by
  unfold logPut
  dsimp only
  split
  · exact State.setF_tiles ..
  · exact (State.setF_tiles ..).trans (State.wrs_tiles ..)

theorem ringPut_tiles (n : Nat) (ws : List Word) : (ringPut n ws s).tiles = s.tiles := by
  unfold ringPut
  dsimp only
  rw [cause_tiles]
  split
  · exact State.setF_tiles ..
  · exact (State.setF_tiles ..).trans (State.wrs_tiles ..)

theorem raiseS_tiles (x : FaultAt) (n : Nat) : (raiseS x n s).tiles = s.tiles := by
  rw [raiseS, reqDrain_tiles, logPut_tiles, State.count_tiles, ringPut_tiles]

end

/-- A tile keeps everything but its trace, and what completion of its commands and replays notes. -/
def TileKept (t : Nat) (s u : State) : Prop :=
  ∃ tr aw op eo, u.tile t = { s.tile t with trace := tr, awaits := aw, open_ := op, eofSeen := eo }

section
variable {t : Nat} {s u w : State}

theorem TileKept.of_tile (h : u.tile t = s.tile t) : TileKept t s u := ⟨_, _, _, _, h⟩

theorem TileKept.of_tiles (h : u.tiles = s.tiles) : TileKept t s u := .of_tile (by rw [State.tile, h, State.tile])

theorem TileKept.refl (t : Nat) (s : State) : TileKept t s s := .of_tile rfl

theorem TileKept.trans (h : TileKept t s u) (h' : TileKept t u w) : TileKept t s w := by
  obtain ⟨tr, aw, op, eo, hu⟩ := h
  obtain ⟨tr', aw', op', eo', hv⟩ := h'
  exact ⟨tr', aw', op', eo', by rw [hv, hu]⟩

theorem TileKept.cq (h : TileKept t s u) : (u.tile t).cq = (s.tile t).cq := by obtain ⟨_, _, _, _, h⟩ := h; rw [h]
theorem TileKept.iq (h : TileKept t s u) : (u.tile t).iq = (s.tile t).iq := by obtain ⟨_, _, _, _, h⟩ := h; rw [h]
theorem TileKept.oq (h : TileKept t s u) : (u.tile t).oq = (s.tile t).oq := by obtain ⟨_, _, _, _, h⟩ := h; rw [h]
theorem TileKept.v (h : TileKept t s u) : (u.tile t).v = (s.tile t).v := by obtain ⟨_, _, _, _, h⟩ := h; rw [h]
theorem TileKept.acc (h : TileKept t s u) : (u.tile t).acc = (s.tile t).acc := by obtain ⟨_, _, _, _, h⟩ := h; rw [h]
theorem TileKept.act (h : TileKept t s u) : (u.tile t).act = (s.tile t).act := by obtain ⟨_, _, _, _, h⟩ := h; rw [h]
theorem TileKept.store (h : TileKept t s u) : (u.tile t).store = (s.tile t).store := by obtain ⟨_, _, _, _, h⟩ := h; rw [h]
theorem TileKept.banks (h : TileKept t s u) : (u.tile t).banks = (s.tile t).banks := by obtain ⟨_, _, _, _, h⟩ := h; rw [h]
theorem TileKept.standby (h : TileKept t s u) : (u.tile t).standby = (s.tile t).standby := by obtain ⟨_, _, _, _, h⟩ := h; rw [h]
theorem TileKept.standbyPsn (h : TileKept t s u) : (u.tile t).standbyPsn = (s.tile t).standbyPsn := by
  obtain ⟨_, _, _, _, h⟩ := h; rw [h]
theorem TileKept.wins (h : TileKept t s u) : (u.tile t).wins = (s.tile t).wins := by obtain ⟨_, _, _, _, h⟩ := h; rw [h]
theorem TileKept.staged (h : TileKept t s u) : (u.tile t).staged = (s.tile t).staged := by obtain ⟨_, _, _, _, h⟩ := h; rw [h]

theorem State.tile_modTile (s : State) (t : Nat) (f : Tile → Tile) : (s.modTile t f).tile t = f (s.tile t) := by
  rw [State.modTile, State.tile_setTile, if_pos rfl]

end

/-- A trace record: a unit's FIFO, or a count of what is lost. -/
theorem State.trace_cases (s : State) (x : TraceRec) : (s.trace x = s)
    ∨ (∃ b, s.trace x = s.modSeq x.region (fun q => { q with trace := b }))
    ∨ (∃ b, s.trace x = s.modTile x.tile (fun q => { q with trace := b })) ∨ s.trace x = s.count cTraceLost 1 := by
  unfold State.trace
  split
  · exact .inl rfl
  · dsimp only
    split
    · split
      · exact .inr (.inl ⟨_, rfl⟩)
      · exact .inr (.inr (.inr rfl))
    · split
      · exact .inr (.inr (.inl ⟨_, rfl⟩))
      · exact .inr (.inr (.inr rfl))

section
variable (s : State) (t type unit tag : Nat) (key : Word) (detail : Nat)

theorem tileTrace_kept (t' : Nat) : TileKept t' s (tileTrace t type unit tag key detail s) := by
  unfold tileTrace
  rcases s.trace_cases _ with h | ⟨b, h⟩ | ⟨b, h⟩ | h <;> rw [h]
  · exact .refl t' s
  · exact .of_tiles rfl
  · by_cases ht : t' = t
    · rw [ht]
      exact ⟨b, _, _, _, State.tile_modTile s t _⟩
    · exact .of_tile (by rw [State.modTile, State.tile_setTile, if_neg ht])
  · exact .of_tiles (State.count_tiles ..)

theorem tileTrace_regs : (tileTrace t type unit tag key detail s).regs = s.regs := by
  unfold tileTrace
  rcases s.trace_cases _ with h | ⟨b, h⟩ | ⟨b, h⟩ | h <;> rw [h]
  · rfl
  · rfl
  · exact State.count_regs ..

theorem tileTrace_active : (tileTrace t type unit tag key detail s).active = s.active := by
  unfold tileTrace
  rcases s.trace_cases _ with h | ⟨b, h⟩ | ⟨b, h⟩ | h <;> rw [h]
  · rfl
  · rfl
  · exact State.count_active ..

end

section
variable (t : Nat) (s : State)

theorem tileS_kept (code unit : Nat) (key : Word) (tag : Option Nat) (detail index t' : Nat) :
    TileKept t' s (tileS t code unit key tag detail index s) :=
  (TileKept.of_tiles (raiseS_tiles _ _ _)).trans (tileTrace_kept _ _ _ _ _ _ _ _)

theorem mismatch_kept (unit : Nat) (ws : List Word) (tag q : Nat) : TileKept t s (mismatch t unit ws tag q s) :=
  each_keep (TileKept t s) _ (fun _ _ h => h.trans (tileS_kept _ _ _ _ _ _ _ _ _)) _ s (.refl t s)

theorem mgmtSend_tiles (p : MPkt) (hp : p.body = none) : (mgmtSend p s).tiles = s.tiles := by
  unfold mgmtSend
  split
  · unfold mgmtDeliver
    rw [hp]
    dsimp only
    split <;> rfl
  · rfl

theorem finish_kept (e tag : Nat) : TileKept t s (finish t e tag s) := by
  refine TileKept.trans ?_ (each_keep (TileKept t _) _ (fun _ _ h => h.trans (.of_tiles (mgmtSend_tiles _ _ rfl))) _ _ (.refl t _))
  exact ⟨_, _, _, _, State.tile_modTile s t _⟩

theorem reportDone_kept : TileKept t s (reportDone t s) := by
  unfold reportDone
  dsimp only
  split
  · exact .refl t s
  · refine TileKept.trans ?_ (each_keep (TileKept t _) _ (fun _ _ h => h.trans (tileTrace_kept _ _ _ _ _ _ _ _)) _ _ (.refl t _))
    refine TileKept.trans ?_ (.of_tiles (State.setSeq_tiles _ _ _))
    exact ⟨_, _, _, _, State.tile_modTile s t _⟩

/-- A read counts errors and notes the lowest word in error. -/
theorem storeSee_tiles (u : Nat) : (storeSee t u s).tiles = s.tiles := by
  unfold storeSee
  dsimp only
  split
  · exact (State.wr_tiles ..).trans ((State.setF_tiles ..).trans (State.setF_tiles ..))
  · exact (State.wr_tiles ..).trans ((State.setF_tiles ..).trans (State.setF_tiles ..))
  · exact (State.setF_tiles ..).trans (State.setF_tiles ..)

theorem cmdRead_kept (unit u : Nat) (key : Word) (tag : Nat) : TileKept t s (cmdRead t unit u key tag s).2.2 := by
  unfold cmdRead storeRead
  dsimp only
  split
  · exact (TileKept.of_tiles (storeSee_tiles t s u)).trans (tileS_kept _ _ _ _ _ _ _ _ _)
  · exact .of_tiles (storeSee_tiles t s u)

theorem present_kept (c : WinCtx) (v : Int) (x : Nat) (key : Word) (tag : Nat) : TileKept t s (present t c v x key tag s).2 :=
  each_keep (TileKept t s) _ (fun _ _ h => h.trans (cmdRead_kept _ _ _ _ _ _)) _ s (.refl t s)

end

/-! ### The command queues and the input queues stay -/

/-- The command queues and the input queues of a tile are as before. -/
def QueuesKept (t : Nat) (s u : State) : Prop := (u.tile t).cq = (s.tile t).cq ∧ (u.tile t).iq = (s.tile t).iq

section
variable {t : Nat} {s u v : State}

theorem QueuesKept.refl (t : Nat) (s : State) : QueuesKept t s s := ⟨rfl, rfl⟩

theorem QueuesKept.trans (h : QueuesKept t s u) (h' : QueuesKept t u v) : QueuesKept t s v :=
  ⟨h'.1.trans h.1, h'.2.trans h.2⟩

theorem TileKept.queues (h : TileKept t s u) : QueuesKept t s u := ⟨h.cq, h.iq⟩

theorem QueuesKept.of_tiles (h : u.tiles = s.tiles) : QueuesKept t s u := (TileKept.of_tiles h).queues

theorem QueuesKept.modTile (h : QueuesKept t s u) {f : Tile → Tile} (hcq : (f (u.tile t)).cq = (u.tile t).cq)
    (hiq : (f (u.tile t)).iq = (u.tile t).iq) : QueuesKept t s (u.modTile t f) := by
  refine h.trans ⟨?_, ?_⟩ <;> rw [State.tile_modTile] <;> assumption

theorem see_queues (engs : Nat) (x : Tile) (y : Staged) : (x.see engs y).cq = x.cq ∧ (x.see engs y).iq = x.iq := by
  cases y <;> exact ⟨rfl, rfl⟩

theorem perform_queues (t : Nat) (y : Staged) (s : State) : QueuesKept t s (perform t y s) := by
  have hsee : ∀ z : Staged, QueuesKept t s (s.modTile t (fun x => x.see (s.gtEngs t) z)) := fun z =>
    (QueuesKept.refl t s).modTile (see_queues _ _ z).1 (see_queues _ _ z).2
  cases y with
  | push q e => exact (QueuesKept.refl t s).modTile rfl rfl
  | fin e tag => exact (finish_kept t s e tag).queues
  | fault code unit w stream tag => exact (tileS_kept t s _ _ _ _ _ _ t).queues
  | vreg i p => exact hsee (.vreg i p)
  | row b r ls => exact hsee (.row b r ls)
  | bank b st => exact hsee (.bank b st)
  | standby ps psn => exact hsee (.standby ps psn)
  | gtTake e => exact hsee (.gtTake e)

theorem effects_queues (t e : Nat) {c : QCmd} (hspec : c.spec = false) (ys : List Staged) (s : State) :
    QueuesKept t s (effects t e c ys s) := by
  rw [effects, hspec]
  exact each_keep (QueuesKept t s) _ (fun u y h => h.trans (perform_queues t y u)) ys s (.refl t s)

theorem storeWrite_queues (t u : Nat) (p : Pay) (psn : Bool) (s : State) : QueuesKept t s (storeWrite t u p psn s) := by
  unfold storeWrite
  dsimp only
  split
  · exact (((QueuesKept.refl t s).modTile rfl rfl).modTile rfl rfl).trans (.of_tiles (State.setF_tiles ..))
  · exact (QueuesKept.refl t s).modTile rfl rfl

end

end Sys2Proof.Machine
end

section
/-! A step of a command: its pops, its operation, its effects (R97, R138). -/
namespace Sys2Proof.Machine

/-! ### Pops (R114, R137) -/

section
variable {t q : Nat} {s : State}

/-- What a pop of IQ q leaves of the state. -/
structure Popped (t : Nat) (s u : State) : Prop where
  tile : ∃ iq eo, u.tile t = { s.tile t with iq := iq, eofSeen := eo }
  regs : u.regs = s.regs
  active : u.active = s.active

theorem Popped.refl (t : Nat) (s : State) : Popped t s s := ⟨⟨_, _, rfl⟩, rfl, rfl⟩

theorem Popped.trans {u w : State} (h : Popped t s u) (h' : Popped t u w) : Popped t s w := by
  obtain ⟨iq, eo, hu⟩ := h.tile
  obtain ⟨iq', eo', hw⟩ := h'.tile
  exact ⟨⟨iq', eo', by rw [hw, hu]⟩, h'.regs.trans h.regs, h'.active.trans h.active⟩

/-- A pop of a watched IQ takes one from the entries its watcher has passed. -/
def watchPopped (t q : Nat) (s : State) : State :=
  match s.watcher t q with
  | some g => s.modSeq g (fun x => { x with seen := x.seen - 1 })
  | none => s

theorem watchPopped_facts : (watchPopped t q s).tiles = s.tiles ∧ (watchPopped t q s).regs = s.regs
    ∧ (watchPopped t q s).active = s.active := by
  unfold watchPopped
  split <;> exact ⟨rfl, rfl, rfl⟩

theorem popIq_eq {e : Entry} {rest : List Entry} (h : s.iq t q = e :: rest) :
    popIq t q s = (some e, credit ((watchPopped t q s).iqSender t q) 1 ((watchPopped t q s).setIq t q rest)) := by
  unfold popIq
  rw [h]
  rfl

theorem credit_keeps (o : Option Nat) (s : State) : (credit o 1 s).tiles = s.tiles ∧ (credit o 1 s).regs = s.regs
    ∧ (credit o 1 s).active = s.active := by
  rw [credit_eq]; exact ⟨rfl, rfl, rfl⟩

theorem popIq_cons {e : Entry} {rest : List Entry} (h : s.iq t q = e :: rest) :
    ∃ u, popIq t q s = (some e, u) ∧ Popped t s u ∧ (u.tile t).eofSeen = (s.tile t).eofSeen
      ∧ (u.tile t).iq = tset [] (s.tile t).iq q rest := by
  obtain ⟨hvt, hvr, hva⟩ := watchPopped_facts (t := t) (q := q) (s := s)
  have htile : ((watchPopped t q s).setIq t q rest).tile t = { s.tile t with iq := tset [] (s.tile t).iq q rest } := by
    rw [State.setIq, State.tile_modTile, State.tile, hvt]; rfl
  obtain ⟨hct, hcr, hca⟩ := credit_keeps ((watchPopped t q s).iqSender t q) ((watchPopped t q s).setIq t q rest)
  rw [State.tile, ← hct, ← State.tile] at htile
  refine ⟨_, popIq_eq h, ⟨⟨tset [] (s.tile t).iq q rest, (s.tile t).eofSeen, htile⟩, hcr.trans hvr, hca.trans hva⟩, ?_, ?_⟩
  · rw [htile]
  · rw [htile]

/-- What a run keeps over pops. -/
def RunKept (r r' : Run) : Prop :=
  r'.key = r.key ∧ r'.total = r.total ∧ r'.made = r.made ∧ r'.image = r.image ∧ r'.woff = r.woff ∧ r'.ringSlot = r.ringSlot

/-- One entry leaves each IQ of the list, and no other. -/
theorem popAll_facts (t no : Nat) (qs : List Nat) (r : Run) (s : State) (hnodup : qs.Nodup) (hfull : ∀ q ∈ qs, s.iq t q ≠ []) :
    ∃ es r' u, popAll t no qs r s = (es, r', u) ∧ es = qs.map (fun q => (s.iq t q).headD ⟨0, 0⟩) ∧ RunKept r r' ∧ Popped t s u
      ∧ ∀ q, u.iq t q = if q ∈ qs then (s.iq t q).drop 1 else s.iq t q := by
  induction qs generalizing r s with
  | nil => exact ⟨[], r, s, rfl, rfl, ⟨rfl, rfl, rfl, rfl, rfl, rfl⟩, Popped.refl t s, fun q => by simp⟩
  | cons q qs ih =>
    obtain ⟨hq, hnodup'⟩ := List.nodup_cons.mp hnodup
    obtain ⟨e, rest, hiq⟩ := List.exists_cons_of_ne_nil (hfull q List.mem_cons_self)
    obtain ⟨u, hpop, hpopped, heof, huiq⟩ := popIq_cons hiq
    generalize hw : (if eofrOf e.side then u.modTile t (fun x => { x with eofSeen := x.eofSeen ++ [(no, q)] }) else u) = w
    have hwp : Popped t u w := by
      rw [← hw]; split
      · exact ⟨⟨_, _, State.tile_modTile u t _⟩, rfl, rfl⟩
      · exact Popped.refl t u
    have hwq : (w.tile t).iq = tset [] (s.tile t).iq q rest := by
      rw [← huiq, ← hw]; split
      · rw [State.tile_modTile]
      · rfl
    have hwiq : ∀ j, w.iq t j = if j = q then rest else s.iq t j := fun j => by rw [State.iq, hwq, tget_tset, State.iq]
    obtain ⟨es, r', v, hall, hes, ⟨hk, ht, hm, him, hwo, hrs⟩, hpv, hiqs⟩ := ih
      { r with gov := r.gov || govOf e.side, psn := r.psn || psnOf e.side, last := tset 0 r.last q e.side } w hnodup'
      (fun j hj => by
        rw [hwiq, if_neg fun h => hq (by rw [← h]; exact hj)]
        exact hfull j (List.mem_cons_of_mem q hj))
    refine ⟨e :: es, r', v, ?_, ?_, ⟨hk, ht, hm, him, hwo, hrs⟩, (hpopped.trans hwp).trans hpv, fun j => ?_⟩
    · rw [popAll, hpop]
      dsimp only
      rw [hw, hall]
    · rw [List.map_cons, hiq, hes]
      refine congrArg (List.cons e) (List.map_congr_left fun j hj => ?_)
      rw [hwiq, if_neg fun h => hq (by rw [← h]; exact hj)]
    · rw [hiqs, hwiq]
      by_cases hjq : j = q
      · rw [if_pos hjq, if_neg (hjq ▸ hq), hjq, if_pos List.mem_cons_self, hiq]
        rfl
      · simp [hjq]

end

/-! ### The operation of a step -/

theorem mmaStep_queues (t : Nat) (c : QCmd) (es : List Entry) (r : Run) (s : State) :
    QueuesKept t s (mmaStep t c es r s).2.2 ∧ (mmaStep t c es r s).2.1.key = r.key ∧ (mmaStep t c es r s).2.1.total = r.total
      ∧ (mmaStep t c es r s).2.1.made = r.made := by
  unfold mmaStep
  dsimp only
  cases nbit c.slot 42
  · cases es <;> exact ⟨.of_tiles (State.count_tiles ..), rfl, rfl, rfl⟩
  · cases (s.seenBy t c).shown.head? with
    | none => exact ⟨.of_tiles (State.count_tiles ..), rfl, rfl, rfl⟩
    | some h => exact ⟨((QueuesKept.refl t s).modTile rfl rfl).trans (.of_tiles (State.count_tiles ..)), rfl, rfl, rfl⟩

/-- Every operation leaves the queues, and of the run its key, its length and its count. -/
theorem opStep_queues (t e : Nat) (c : QCmd) (es : List Entry) (r : Run) (s : State) :
    QueuesKept t s (opStep t e c es r s).2.2 ∧ (opStep t e c es r s).2.1.key = r.key ∧ (opStep t e c es r s).2.1.total = r.total
      ∧ (opStep t e c es r s).2.1.made = r.made := by
  have hread : ∀ unit u key tag, QueuesKept t s (cmdRead t unit u key tag s).2.2 := fun unit u key tag => (cmdRead_kept t s unit u key tag).queues
  unfold opStep
  dsimp only
  split
  · exact ⟨hread _ _ _ _, rfl, rfl, rfl⟩
  · split
    · exact ⟨((present_kept t s _ _ _ _ _).queues).modTile rfl rfl, rfl, rfl, rfl⟩
    · exact ⟨.refl t s, rfl, rfl, rfl⟩
  · exact ⟨(hread _ _ _ _).modTile rfl rfl, rfl, rfl, rfl⟩
  · split
    · exact ⟨storeWrite_queues _ _ _ _ _, rfl, rfl, rfl⟩
    · exact ⟨.refl t s, rfl, rfl, rfl⟩
  · split
    · split
      · exact ⟨storeWrite_queues _ _ _ _ _, rfl, rfl, rfl⟩
      · exact ⟨.refl t s, rfl, rfl, rfl⟩
    · exact ⟨.refl t s, rfl, rfl, rfl⟩
  · split
    · exact ⟨.refl t s, rfl, rfl, rfl⟩
    · exact ⟨.refl t s, rfl, rfl, rfl⟩
  · exact ⟨hread _ _ _ _, rfl, rfl, rfl⟩
  · exact ⟨.of_tiles (State.count_tiles ..), rfl, rfl, rfl⟩
  · exact ⟨.refl t s, rfl, rfl, rfl⟩
  · exact mmaStep_queues t c es r s

/-! ### One step -/

/-- A command's own place in its engine's queue. -/
theorem Tile.queue_setCmd (x : Tile) (e i f : Nat) (c : QCmd) :
    (x.setCmd e i c).queue f = if f = e then setNth (x.queue e) i c else x.queue f := by
  rw [Tile.queue, Tile.setCmd, Tile.setQueue, tget_tset]
  rfl

theorem mem_setBits_lt {m q : Nat} (h : q ∈ setBits m) : q < 8 := List.mem_range.mp (List.mem_filter.mp h).1

theorem setBits_nodup (m : Nat) : (setBits m).Nodup := List.Nodup.filter _ List.nodup_range

/-- What is popped may be popped: its head stands. -/
theorem iq_ne_nil_of_headOf {t q : Nat} {s : State} (h : (s.headOf t q).isSome = true) : s.iq t q ≠ [] := by
  intro hnil
  unfold State.headOf at h
  rw [hnil] at h
  split at h
  · split at h <;> simp at h
  · simp at h

theorem iq_ne_nil_of_present {t : Nat} {qs : List Nat} {s : State} (h : s.present t qs = true) : ∀ q ∈ qs, s.iq t q ≠ [] :=
  fun q hq => iq_ne_nil_of_headOf (List.all_eq_true.mp h q hq)

section
variable {t e : Nat} {c : QCmd} {rest : List QCmd} {s : State}

/-- R97, R138: a step of the first command of an engine's queue pops one entry from each IQ of its match set, is counted in the
run, and touches no other queue. -/
theorem doStep_queues (r : Run) (hqueue : (s.tile t).queue e = c :: rest) (hspec : c.spec = false)
    (hfull : ∀ q ∈ c.mset e, s.iq t q ≠ []) : ∃ r', ((doStep t e 0 c r s).tile t).queue e = { c with run := some r' } :: rest
      ∧ r'.made = r.made + 1 ∧ r'.key = r.key ∧ r'.total = r.total
      ∧ (∀ f, f ≠ e → ((doStep t e 0 c r s).tile t).queue f = (s.tile t).queue f)
      ∧ ∀ q, (doStep t e 0 c r s).iq t q = if q ∈ c.mset e then (s.iq t q).drop 1 else s.iq t q := by
  obtain ⟨es, r₁, u, hpop, -, ⟨hk, ht, hm, -, -, -⟩, hpopped, hiq⟩ :=
    popAll_facts t ((c.bound.map (·.replay)).getD 0) (c.mset e) r s (setBits_nodup _) hfull
  obtain ⟨hkept, hk', ht', hm'⟩ := opStep_queues t e c es r₁ u
  obtain ⟨iq, eo, htile⟩ := hpopped.tile
  have hstep : doStep t e 0 c r s = effects t e c (opStep t e c es r₁ u).1 ((opStep t e c es r₁ u).2.2.modTile t
      (fun x => x.setCmd e 0 { c with run := some { (opStep t e c es r₁ u).2.1 with made := (opStep t e c es r₁ u).2.1.made + 1 } })) := by
    rw [doStep, hpop]
  generalize opStep t e c es r₁ u = o at *
  have hcq : (o.2.2.tile t).cq = (s.tile t).cq := hkept.1.trans (by rw [htile])
  obtain ⟨heff, heffiq⟩ := effects_queues t e hspec o.1 (o.2.2.modTile t
    (fun x => x.setCmd e 0 { c with run := some { o.2.1 with made := o.2.1.made + 1 } }))
  rw [State.tile_modTile] at heff heffiq
  have hq : ∀ f, ((doStep t e 0 c r s).tile t).queue f
      = if f = e then { c with run := some { o.2.1 with made := o.2.1.made + 1 } } :: rest else (s.tile t).queue f := fun f => by
    have hof : (o.2.2.tile t).queue f = (s.tile t).queue f := by rw [Tile.queue, hcq, Tile.queue]
    have hoe : (o.2.2.tile t).queue e = c :: rest := by rw [← hqueue, Tile.queue, hcq, Tile.queue]
    rw [hstep, Tile.queue, heff, ← Tile.queue, Tile.queue_setCmd, hof, hoe]
    rfl
  refine ⟨{ o.2.1 with made := o.2.1.made + 1 }, ?_, ?_, hk'.trans hk, ht'.trans ht, fun f hf => ?_, fun q => ?_⟩
  · rw [hq, if_pos rfl]
  · rw [hm', hm]
  · rw [hq, if_neg hf]
  · rw [← hiq, hstep, State.iq, heffiq]
    exact congrArg (fun x => tget [] x q) hkept.2

end

end Sys2Proof.Machine
end

section
/-! A command fires (R96 to R98): which run it starts, and its first step. -/
namespace Sys2Proof.Machine

section
variable {t e : Nat} {c : QCmd} {b : Bound} {rest : List QCmd} {k : Word} {s : State}

/-- The run of a command that fires with a key; `slot` the ring slot of an STL. -/
def firedRun (x : Tile) (e : Nat) (c : QCmd) (key : Word) (total slot : Nat) : Run :=
  let mma := decide (e = 0 ∧ (slotOp 0 c.slot = 2 ∨ slotOp 0 c.slot = 3))
  { key := key, total := total, made := 0, pushed := 0, gov := false, psn := mma && x.standbyPsn, last := [], stopped := false,
    woff := 0, guardHit := false, image := if mma then x.standby else [], bank := 0, ringSlot := slot }

/-- The key a command fires with: that of its match set where it makes a step. -/
def fireKey (e total : Nat) (c : QCmd) (k : Word) : Word := if c.mset e = [] ∨ total = 0 then c.key else k

theorem fires_slot (hbound : c.bound = some b) : c.slot = b.slot := by simp [QCmd.slot, hbound]

/-- The first command of a queue that has not fired heads the firing window. -/
theorem window_head {x : Tile} (hqueue : x.queue e = c :: rest) (hrun : c.run = none) : ∃ is, x.window e = 0 :: is := by
  rw [Tile.window, hqueue, List.length_cons, List.range_succ_eq_map, List.filter_cons_of_pos (by simp [hrun])]
  exact ⟨_, rfl⟩

theorem tryFire_of_fires (hf : Fires t e c b rest k s) :
    tryFire t e 0 [] s = start1 t e 0 c (fireKey e (totalSteps (s.win t) e c 1) c k) (totalSteps (s.win t) e c 1) 0 s := by
  obtain ⟨-, hqueue, hrest, hbound, hrun, hdead, hspec, hgtab, hstaged, hunbound, hbank, hmatch, -⟩ := hf
  have hslot := fires_slot hbound
  have hseen : s.seenBy t c = s.tile t := by rw [State.seenBy, hspec]; rfl
  have hfree : (s.tile t).engineFree e c = true := by
    rw [Tile.engineFree, hqueue, List.all_eq_true]
    intro o ho
    rcases List.mem_cons.mp ho with rfl | ho
    · simp [hrun]
    · simp [hrest o ho]
  have hread : (s.tile t).stagedRead e b.slot false = false := by rw [Tile.stagedRead, hstaged]; rfl
  have hget : ((s.tile t).queue e)[0]? = some c := by rw [hqueue]; rfl
  have hkey : (if c.mset e = [] ∨ totalSteps (s.win t) e c 1 = 0 then Match.key c.key else s.matchHeads t (slotFm e b.slot) (c.mset e))
      = .key (fireKey e (totalSteps (s.win t) e c 1) c k) := by
    unfold fireKey
    split
    · rfl
    · next hn =>
      rw [not_or] at hn
      rwa [if_neg hn.1] at hmatch
  unfold tryFire
  rw [hget]
  simp only [hbound, hdead, mayPass, List.all_nil, hfree, hseen, hslot, hunbound, hspec, hgtab, hread, List.isEmpty_iff, hkey, hbank,
    Bool.not_true, Bool.or_self, Bool.false_eq_true, if_false, Bool.not_false, Bool.true_and, Bool.false_and]

/-- What the row of a command that fires leaves. -/
theorem fireOp_of_fires (hf : Fires t e c b rest k s) {u : State}
    (hstart : start1 t e 0 c (fireKey e (totalSteps (s.win t) e c 1) c k) (totalSteps (s.win t) e c 1) 0 s = some u) :
    fireOp t e (slotOp e b.slot) s = .next (signal s u) := by
  have htry := (tryFire_of_fires hf).trans hstart
  obtain ⟨hruns, hqueue, -, hbound, hrun, -⟩ := hf
  obtain ⟨is, hwin⟩ := window_head hqueue hrun
  have hget : ((s.tile t).queue e)[0]? = some c := by rw [hqueue]; rfl
  rw [fireOp, hruns, hwin, firstFire, hget]
  simp only [htry, fires_slot hbound, if_true, Bool.not_true, Bool.false_eq_true, if_false, done]

/-- A command without steps only notes its run. -/
theorem start1_of_no_steps (hgtab : c.gtab = false) (hspec : c.spec = false) (key : Word) : start1 t e 0 c key 0 0 s
    = some (tileTrace t 1 e c.tag key 0 (s.modTile t (fun x => x.setCmd e 0 { c with run := some (firedRun (s.tile t) e c key 0 0) }))) := by
  simp only [start1, State.seenBy, hspec, hgtab, Bool.false_eq_true, if_false, if_true]
  rfl

/-- The tile as a command's first step finds it: an STL has its row of the ring. -/
def firedFrom (t e : Nat) (c : QCmd) (key : Word) (s : State) : State × Nat :=
  if e = 3 ∧ slotOp 3 c.slot = 2 ∧ (s.win t).en = true then
    match stlSlot (s.win t) (s.tile t).wins key with
    | some p => (s.modTile t (fun x => { x with wins := p.1 }), p.2)
    | none => (s, 0)
  else (s, 0)

theorem start1_of_steps {total : Nat} (htotal : total ≠ 0) (hgtab : c.gtab = false) (hspec : c.spec = false) {key : Word}
    (hroom : stepRoom t e c s = true) (hldw : e = 2 ∧ slotOp 2 c.slot = 2 → ldwReady t key s = true)
    (hstl : e = 3 ∧ slotOp 3 c.slot = 2 → (s.win t).en = true → (stlSlot (s.win t) (s.tile t).wins key).isSome = true) :
    start1 t e 0 c key total 0 s = some (doStep t e 0 c (firedRun (s.tile t) e c key total (firedFrom t e c key s).2)
      (tileTrace t 1 e c.tag key 0 (firedFrom t e c key s).1)) := by
  have hwait : ¬ (e = 2 ∧ slotOp 2 c.slot = 2 ∧ (!ldwReady t key s) = true) := by
    rintro ⟨he, hop, hr⟩
    rw [hldw ⟨he, hop⟩] at hr
    exact absurd hr (by decide)
  unfold firedFrom
  by_cases hs : e = 3 ∧ slotOp 3 c.slot = 2 ∧ (s.win t).en = true
  · obtain ⟨p, hp⟩ := Option.isSome_iff_exists.mp (hstl ⟨hs.1, hs.2.1⟩ hs.2.2)
    simp only [start1, State.seenBy, hspec, hgtab, Bool.false_eq_true, if_false, htotal, hroom, Bool.not_true, if_pos hs, hp,
      Option.map_some]
    rfl
  · simp only [start1, State.seenBy, hspec, hgtab, Bool.false_eq_true, if_false, htotal, hroom, Bool.not_true, if_neg hs, if_neg hwait]
    rfl

theorem firedFrom_queues (key : Word) : QueuesKept t s (firedFrom t e c key s).1 := by
  unfold firedFrom
  split
  · split
    · exact (QueuesKept.refl t s).modTile rfl rfl
    · exact .refl t s
  · exact .refl t s

end

/-- Every engine row is its engine's firing of its operation. -/
def engineRows (t : TileIx) : List (Instr × Nat × Nat) :=
  [(.ldLdq t, 2, 1), (.ldLdw t, 2, 2), (.ldLdt t, 2, 3), (.stStq t, 3, 1), (.stStl t, 3, 2), (.vecAdd t, 1, 1),
   (.vecSub t, 1, 2), (.vecMul t, 1, 3), (.vecMax t, 1, 4), (.vecMin t, 1, 5), (.vecCmpgt t, 1, 6), (.vecSel t, 1, 7),
   (.vecAbs t, 1, 8), (.vecShr t, 1, 9), (.vecRq t, 1, 10), (.vecAct t, 1, 11), (.vecRsum t, 1, 12), (.vecRmax t, 1, 13),
   (.vecCvt t, 1, 14), (.vecAnd t, 1, 15), (.vecOr t, 1, 16), (.vecXor t, 1, 17), (.vecMov t, 1, 18), (.matWload t, 0, 1),
   (.matMma t, 0, 2), (.matDmma t, 0, 3), (.matRead t, 0, 4), (.matClr t, 0, 5)]

theorem exec_engineRow (t : TileIx) (s : State) : ∀ p ∈ engineRows t, exec p.1 s = fireOp t.val p.2.1 p.2.2 s := by
  simp only [engineRows, List.forall_mem_cons, List.not_mem_nil, false_imp_iff, implies_true, and_true]
  and_intros <;> rfl

section
variable {t : TileIx} {e : Nat} {c : QCmd} {b : Bound} {rest : List QCmd} {k : Word} {s : State}

/-- R97, R138: a command that fires with steps to make has made the first. -/
theorem fireOp_steps (hf : Fires t.val e c b rest k s) (hn : 0 < totalSteps (s.win t.val) e c 1)
    (hldw : e = 2 ∧ slotOp 2 b.slot = 2 → ldwReady t.val k s = true)
    (hstl : e = 3 ∧ slotOp 3 b.slot = 2 → (s.win t.val).en = true → (stlSlot (s.win t.val) (s.tile t.val).wins k).isSome = true) :
    fireOp t.val e (slotOp e b.slot) s = .next (signal s (doStep t.val e 0 c
      (firedRun (s.tile t.val) e c k (totalSteps (s.win t.val) e c 1) (firedFrom t.val e c k s).2)
      (tileTrace t.val 1 e c.tag k 0 (firedFrom t.val e c k s).1))) := by
  have hkey : fireKey e (totalSteps (s.win t.val) e c 1) c k = k := by
    obtain ⟨-, -, -, -, -, -, -, -, -, -, -, hmatch, -⟩ := hf
    unfold fireKey
    split
    · next h =>
      rcases h with h | h
      · rw [if_pos h] at hmatch; exact hmatch.symm
      · omega
    · rfl
  have hslot := fires_slot hf.2.2.2.1
  refine fireOp_of_fires hf ?_
  obtain ⟨-, -, -, -, -, -, hspec, hgtab, -, -, -, -, hroom⟩ := hf
  rw [hkey]
  rw [← hslot] at hldw hstl
  exact start1_of_steps (by omega) hgtab hspec hroom hldw hstl

/-- The heads a command that fires has matched stand in its queues. -/
theorem fires_heads (hf : Fires t.val e c b rest k s) : ∀ q ∈ c.mset e, s.iq t.val q ≠ [] := by
  obtain ⟨-, -, -, -, -, -, -, -, -, -, -, hmatch, -⟩ := hf
  by_cases hm : c.mset e = []
  · rw [hm]; exact fun q hq => absurd hq List.not_mem_nil
  · rw [if_neg hm] at hmatch
    refine iq_ne_nil_of_present ?_
    unfold State.matchHeads at hmatch
    split at hmatch
    · cases hmatch
    · next h => simpa using h

end

/-- A row of a command without steps: it has its run, and nothing is popped. -/
theorem fires_no_steps {t : TileIx} {e : Nat} {c : QCmd} {b : Bound} {rest : List QCmd} {k : Word} {s : State}
    (hf : Fires t.val e c b rest k s) (hn : totalSteps (s.win t.val) e c 1 = 0) :
    ∃ u r, fireOp t.val e (slotOp e b.slot) s = .next u ∧ (u.tile t.val).queue e = { c with run := some r } :: rest ∧ r.total = 0
      ∧ (∀ f, f ≠ e → (u.tile t.val).queue f = (s.tile t.val).queue f) ∧ r.key = c.key ∧ r.made = 0
      ∧ ∀ q, u.iq t.val q = s.iq t.val q := by
  have hexec := fun u => fireOp_of_fires hf (u := u)
  obtain ⟨-, hqueue, -, -, -, -, hspec, hgtab, -⟩ := hf
  rw [hn, fireKey, if_pos (.inr rfl)] at hexec
  have hfire := hexec _ (start1_of_no_steps hgtab hspec c.key)
  generalize hr : firedRun (s.tile t.val) e c c.key 0 0 = r at hfire
  have hkept := tileTrace_kept (s.modTile t.val (fun x => x.setCmd e 0 { c with run := some r })) t.val 1 e c.tag c.key 0 t.val
  have hcq := hkept.cq
  have hiq := hkept.iq
  rw [State.tile_modTile] at hcq hiq
  have hq : ∀ f, ((tileTrace t.val 1 e c.tag c.key 0 (s.modTile t.val (fun x => x.setCmd e 0 { c with run := some r }))).tile t.val).queue f
      = if f = e then { c with run := some r } :: rest else (s.tile t.val).queue f := fun f => by
    rw [Tile.queue, hcq, ← Tile.queue, Tile.queue_setCmd, hqueue]
    rfl
  refine ⟨_, r, hfire, ?_, by rw [← hr]; rfl, fun f hf => ?_, by rw [← hr]; rfl, by rw [← hr]; rfl, fun q => ?_⟩
  · rw [signal_tile, hq, if_pos rfl]
  · rw [signal_tile, hq, if_neg hf]
  · rw [State.iq, signal_tile, hiq]
    rfl

/-- A row of a command with steps: its first one is made. -/
theorem fires_steps {t : TileIx} {e : Nat} {c : QCmd} {b : Bound} {rest : List QCmd} {k : Word} {s : State}
    (hf : Fires t.val e c b rest k s) (hn : 0 < totalSteps (s.win t.val) e c 1)
    (hldw : e = 2 ∧ slotOp 2 b.slot = 2 → ldwReady t.val k s = true)
    (hstl : e = 3 ∧ slotOp 3 b.slot = 2 → (s.win t.val).en = true → (stlSlot (s.win t.val) (s.tile t.val).wins k).isSome = true) :
    ∃ u r, fireOp t.val e (slotOp e b.slot) s = .next u ∧ (u.tile t.val).queue e = { c with run := some r } :: rest
      ∧ r.total = totalSteps (s.win t.val) e c 1 ∧ (∀ f, f ≠ e → (u.tile t.val).queue f = (s.tile t.val).queue f) ∧ r.key = k
      ∧ r.made = 1 ∧ ∀ q, u.iq t.val q = if q ∈ c.mset e then (s.iq t.val q).drop 1 else s.iq t.val q := by
  have hfire := fireOp_steps hf hn hldw hstl
  have hheads := fires_heads hf
  obtain ⟨-, hqueue, -, -, -, -, hspec, -⟩ := hf
  have hfrom : QueuesKept t.val s (tileTrace t.val 1 e c.tag k 0 (firedFrom t.val e c k s).1) :=
    (firedFrom_queues k).trans (tileTrace_kept _ _ _ _ _ _ _ _).queues
  generalize tileTrace t.val 1 e c.tag k 0 (firedFrom t.val e c k s).1 = v at hfire hfrom
  have hvq : ∀ f, (v.tile t.val).queue f = (s.tile t.val).queue f := fun f => by rw [Tile.queue, hfrom.1, Tile.queue]
  have hviq : ∀ q, v.iq t.val q = s.iq t.val q := fun q => by rw [State.iq, hfrom.2, State.iq]
  obtain ⟨r, hq, hmade, hkey, htotal, hother, hiq⟩ := doStep_queues
    (firedRun (s.tile t.val) e c k (totalSteps (s.win t.val) e c 1) (firedFrom t.val e c k s).2)
    ((hvq e).trans hqueue) hspec (fun q hq => by rw [hviq]; exact hheads q hq)
  refine ⟨_, r, hfire, ?_, htotal, fun f hf => ?_, hkey, hmade, fun q => ?_⟩
  · rw [signal_tile, hq]
  · rw [signal_tile, hother f hf, hvq]
  · rw [State.iq, signal_tile, ← State.iq, hiq, hviq]

/-- Settles O25. -/
theorem engineRowsFire : Obligations.EngineRowsFire := by
  intro t c b rest k s p hp e n hf hop hldw hstl
  have hexec : exec p.1 s = fireOp t.val e (slotOp e b.slot) s := (exec_engineRow t s p hp).trans (by rw [hop])
  rw [hexec]
  rcases Nat.eq_zero_or_pos n with hn | hn
  · obtain ⟨u, r, hu, hq, htotal, hother, hkey, hmade, hiq⟩ := fires_no_steps hf hn
    exact ⟨u, r, hu, hq, htotal.trans hn.symm, fun f _ hfe => hother f hfe, fun hpos => absurd hpos (by omega),
      fun _ => ⟨hkey, hmade, fun q _ => hiq q⟩⟩
  · obtain ⟨u, r, hu, hq, htotal, hother, hkey, hmade, hiq⟩ := fires_steps hf hn
      (fun h => hldw (Prod.ext h.1 (by rw [← hop, h.1]; exact h.2))) (fun h => hstl (Prod.ext h.1 (by rw [← hop, h.1]; exact h.2)))
    exact ⟨u, r, hu, hq, htotal, fun f _ hfe => hother f hfe, fun _ => ⟨hkey, hmade, fun q _ => hiq q⟩,
      fun h0 => absurd h0 (by omega)⟩

end Sys2Proof.Machine
end

section
/-! Steps after the first, and completion (R97, R98, R127, R138, R142, R146). -/
namespace Sys2Proof.Machine

/-! ### The running command -/

section
variable {t : TileIx} {g : Eng} {wk : Fin 4} {c : QCmd} {b : Bound} {r : Run} {rest : List QCmd} {s : State}

theorem Tile.queue_setQueue (x : Tile) (e : Nat) (l : List QCmd) : (x.setQueue e l).queue e = l := tget_tset_same [] x.cq e l

theorem engNum_lt (g : Eng) : engNum g < 4 := by cases g <;> decide

/-- A command that runs at the head of its queue is its engine's, or its walker's, running one. -/
theorem running_head (hqueue : (s.tile t.val).queue (engNum g) = c :: rest) (hbound : c.bound = some b) (hrun : c.run = some r)
    (hwk : 2 ≤ engNum g → slotWk b.slot = wk.val) : (s.tile t.val).running (engNum g) wk.val = some (0, c, r) := by
  have hmine : engNum g < 2 ∨ slotWk c.slot = wk.val := by
    rw [fires_slot hbound]
    rcases Nat.lt_or_ge (engNum g) 2 with h | h
    · exact .inl h
    · exact .inr (hwk h)
  rw [Tile.running, hqueue, List.length_cons, List.range_succ_eq_map, List.filterMap_cons]
  have h0 : (c :: rest)[0]? = some c := rfl
  simp only [h0, hrun, if_pos hmine, List.head?_cons]

theorem haloPush_of_none (h : (s.tile t.val).halos = []) : haloPush t.val s = none := by simp [haloPush, h]

/-- With nothing staged and no halo waiting, a step event is the running command's next step. -/
theorem exec_commandStep (hruns : s.runs t.val = true) (hstaged : (s.tile t.val).staged = []) (hhalos : (s.tile t.val).halos = [])
    (hrunning : (s.tile t.val).running (engNum g) wk.val = some (0, c, r)) {u : State}
    (htry : tryStep t.val (engNum g) 0 c r s = some u) : exec (.commandStep t g wk) s = .next (signal s u) := by
  have hhalo : (if engNum g = 2 then haloPush t.val s else none) = none := by rw [haloPush_of_none hhalos, ite_self]
  change execCommandStep t g wk s = _
  simp only [execCommandStep, hruns, Bool.not_true, Bool.false_eq_true, if_false, hstaged, List.length_nil, Nat.not_lt_zero, hhalo,
    hrunning, htry, done]

theorem exec_engineCommandComplete (hruns : s.runs t.val = true) (hstaged : (s.tile t.val).staged = []) (hdead : c.dead = false)
    (hover : r.total ≤ r.made ∨ r.guardHit = true) (hrunning : (s.tile t.val).running (engNum g) wk.val = some (0, c, r)) :
    exec (.engineCommandComplete t g wk) s = .next (signal s (completeCmd t.val (engNum g) 0 c r s)) := by
  have hdone : (decide (r.total ≤ r.made) || r.guardHit) = true := by simpa using hover
  change execEngineCommandComplete t g wk s = _
  simp only [execEngineCommandComplete, hrunning, when_, hruns, hdead, hdone, hstaged, List.any_nil, Bool.and_false, Bool.not_false,
    Bool.and_self, if_true, done]

end

/-! ### Heads that agree with the run, and one that does not (R98) -/

theorem sfOf_keyOf (w : Word) : sfOf (keyOf w) = sfOf w := by
  have h : (keyOf w).toNat = w.toNat / 16 * 16 := by
    rw [keyOf, BitVec.toNat_ofNat, Nat.mod_eq_of_lt (by have := w.isLt; omega)]
  simp only [sfOf, frameOf, strOf, nbits, h]
  omega

section
variable {t e : Nat} {c : QCmd} {r : Run} {s : State}

theorem tryStep_agrees (hdead : c.dead = false) (hguard : r.guardHit = false) (hmade : r.made < r.total)
    (hroom : stepRoom t e c s = true) (hpresent : s.present t (c.mset e) = true)
    (hagree : ∀ q ∈ c.mset e, ∀ en, s.headOf t q = some en → sfOf en.side = sfOf r.key) :
    tryStep t e 0 c r s = some (doStep t e 0 c r s) := by
  unfold tryStep
  simp only [hdead, hguard, Nat.not_le.mpr hmade, decide_false, Bool.or_self, hroom, Bool.not_true, Bool.false_eq_true, if_false,
    hpresent]
  split
  · next q hfind =>
    have hq := List.find?_some hfind
    split at hq
    · next en hen =>
      rw [sfOf_keyOf, hagree q (List.mem_of_find?_eq_some hfind) en hen] at hq
      simp at hq
    · cases hq
  · rfl

theorem tryStep_differs (hdead : c.dead = false) (hguard : r.guardHit = false) (hmade : r.made < r.total)
    (hroom : stepRoom t e c s = true) (hpresent : s.present t (c.mset e) = true)
    (hdiffer : ∃ q ∈ c.mset e, ∃ en, s.headOf t q = some en ∧ sfOf en.side ≠ sfOf r.key) :
    ∃ ws q, tryStep t e 0 c r s = some (markDead t e 0 (mismatch t e ws c.tag q s)) := by
  unfold tryStep
  simp only [hdead, hguard, Nat.not_le.mpr hmade, decide_false, Bool.or_self, hroom, Bool.not_true, Bool.false_eq_true, if_false,
    hpresent]
  split
  · exact ⟨_, _, rfl⟩
  · next hnone =>
    obtain ⟨q, hq, en, hen, hne⟩ := hdiffer
    have h := List.find?_eq_none.mp hnone q hq
    rw [hen] at h
    simp [sfOf_keyOf, hne] at h

end

/-- R98: the command that met another key performs nothing more; its queues stay. -/
theorem markDead_mismatch {t e : Nat} {c : QCmd} {rest : List QCmd} {s : State} (hqueue : (s.tile t).queue e = c :: rest)
    (ws : List Word) (tag q : Nat) :
    ((markDead t e 0 (mismatch t e ws tag q s)).tile t).queue e = { c with dead := true } :: rest
      ∧ ∀ j, (markDead t e 0 (mismatch t e ws tag q s)).iq t j = s.iq t j := by
  have hkept := mismatch_kept t s e ws tag q
  generalize mismatch t e ws tag q s = v at hkept
  have hvq : (v.tile t).queue e = c :: rest := by rw [← hqueue, Tile.queue, hkept.cq, Tile.queue]
  constructor
  · rw [markDead, State.tile_modTile, Tile.queue_setQueue, hvq]
    rfl
  · intro j
    rw [State.iq, markDead, State.tile_modTile, State.iq, ← hkept.iq]
    rfl

/-! ### Completion (R127, R142, R146) -/

/-- Of a tile: its command queues, its standby image and its banks are as before. -/
def EngineKept (t : Nat) (s u : State) : Prop :=
  (u.tile t).cq = (s.tile t).cq ∧ (u.tile t).standby = (s.tile t).standby ∧ (u.tile t).standbyPsn = (s.tile t).standbyPsn
  ∧ (u.tile t).banks = (s.tile t).banks

section
variable {t : Nat} {s u w : State}

theorem EngineKept.trans (h : EngineKept t s u) (h' : EngineKept t u w) : EngineKept t s w := by
  obtain ⟨h1, h2, h3, h4⟩ := h
  obtain ⟨h1', h2', h3', h4'⟩ := h'
  exact ⟨h1'.trans h1, h2'.trans h2, h3'.trans h3, h4'.trans h4⟩

theorem TileKept.engine (h : TileKept t s u) : EngineKept t s u := ⟨h.cq, h.standby, h.standbyPsn, h.banks⟩

theorem winFree_keeps (w : Win) (x : Tile) : (winFree w x).cq = x.cq ∧ (winFree w x).standby = x.standby
    ∧ (winFree w x).standbyPsn = x.standbyPsn ∧ (winFree w x).banks = x.banks := ⟨rfl, rfl, rfl, rfl⟩

theorem winFree_engine (t : Nat) (w : Win) {x : Tile} {s : State} (hcq : x.cq = (s.tile t).cq) (hs : x.standby = (s.tile t).standby)
    (hp : x.standbyPsn = (s.tile t).standbyPsn) (hb : x.banks = (s.tile t).banks) : EngineKept t s (s.setTile t (winFree w x)) := by
  obtain ⟨h1, h2, h3, h4⟩ := winFree_keeps w x
  have ht : (s.setTile t (winFree w x)).tile t = winFree w x := by rw [State.tile_setTile, if_pos rfl]
  rw [EngineKept, ht]
  exact ⟨h1.trans hcq, h2.trans hs, h3.trans hp, h4.trans hb⟩

theorem stlDone_engine (t q : Nat) (r : Run) (s : State) : EngineKept t s (stlDone t q r s) := by
  unfold stlDone
  dsimp only
  split
  · exact (TileKept.refl t s).engine
  · split
    · exact (TileKept.refl t s).engine
    · split
      · exact (TileKept.refl t s).engine
      · split
        · exact (TileKept.refl t s).engine
        · exact winFree_engine t _ rfl rfl rfl rfl

theorem ldwDone_engine (t : Nat) (key : Word) (s : State) : EngineKept t s (ldwDone t key s) := by
  unfold ldwDone
  dsimp only
  split
  · exact (TileKept.refl t s).engine
  · split
    · exact (TileKept.refl t s).engine
    · split
      · exact (TileKept.refl t s).engine
      · exact winFree_engine t _ rfl rfl rfl rfl

end

/-- What completion does to standby image and banks. -/
def completeBody (x : Tile) (e : Nat) (c : QCmd) (r : Run) : List Staged :=
  let v := c.slot
  if e = 0 then
    let b := nbits v 47 2
    let bk := tget Bank.init x.banks b
    match slotOp 0 v with
    | 1 => if r.image.isEmpty then [] else
        [Staged.standby (r.image ++ List.replicate (fmtUnits (nbits v 49 3) - r.image.length) 0) r.psn]
    | 4 => [.bank b Bank.init]
    | _ => if nbit v 12 then [.bank b { bk with full := true, owner := some (strOf r.key) }] else []
  else if e = 1 ∧ slotOp 1 v = 0x0A then [.bank (nbits v 0 2) Bank.init]
  else []

section
variable {t e : Nat} {c : QCmd} {r : Run} {s : State}

theorem completeEffects_eq (x : Tile) : completeEffects x e c r = completeBody x e c r
    ++ (if r.guardHit then [Staged.fault 0x05 0 (frameOf r.key * 4096) (strOf r.key) c.tag] else []) ++ [.fin e c.tag] := rfl

theorem perform_fault_kept (t code cause rest stream tag : Nat) (s : State) :
    TileKept t s (perform t (.fault code cause rest stream tag) s) := by
  unfold perform
  exact tileS_kept t s _ _ _ _ _ _ t

/-- Faults and the end of a command leave the engines as its body left them. -/
theorem perform_end_engine (t e key stream tag : Nat) (hit : Bool) (v : State) :
    EngineKept t v (each ((if hit then [Staged.fault 0x05 0 key stream tag] else []) ++ [.fin e tag]) v (fun s y => perform t y s)) := by
  have hfin : ∀ w, each [Staged.fin e tag] w (fun s y => perform t y s) = finish t e tag w := fun _ => rfl
  have hcons : ∀ y ys, each (y :: ys) v (fun s y => perform t y s) = each ys (perform t y v) (fun s y => perform t y s) :=
    fun _ _ => rfl
  cases hit
  · rw [if_neg Bool.false_ne_true, List.nil_append, hfin]
    exact (finish_kept t v e tag).engine
  · rw [if_pos rfl, List.cons_append, List.nil_append, hcons, hfin]
    exact ((perform_fault_kept t 5 0 key stream tag v).trans (finish_kept t _ e tag)).engine

theorem effects_of_bound (hspec : c.spec = false) (ys : List Staged) (s : State) :
    effects t e c ys s = each ys s (fun s y => perform t y s) := by
  unfold effects
  rw [hspec]
  rfl

theorem completeEffects_engine (x : Tile) (hspec : c.spec = false) (s : State) :
    EngineKept t (each (completeBody x e c r) s (fun s y => perform t y s)) (effects t e c (completeEffects x e c r) s) := by
  rw [effects_of_bound hspec, completeEffects_eq, List.append_assoc]
  have happ : ∀ ys zs : List Staged, each (ys ++ zs) s (fun s y => perform t y s)
      = each zs (each ys s (fun s y => perform t y s)) (fun s y => perform t y s) := fun _ _ => List.foldl_append
  rw [happ]
  exact perform_end_engine t e _ _ c.tag r.guardHit _

/-- Completion takes the command off its queue, does its body, and otherwise leaves the engines' state. -/
theorem completeCmd_engine (hspec : c.spec = false) : ∃ v, EngineKept t (s.modTile t (fun x => x.setQueue e ((x.queue e).eraseIdx 0))) v
    ∧ EngineKept t (each (completeBody (s.tile t) e c r) v (fun s y => perform t y s)) (completeCmd t e 0 c r s) := by
  have hseen : s.seenBy t c = s.tile t := by rw [State.seenBy, hspec]; rfl
  unfold completeCmd
  dsimp only
  rw [hseen]
  have htrace := (tileTrace_kept (s.modTile t (fun x => x.setQueue e ((x.queue e).eraseIdx 0))) t 2 e c.tag r.key 0 t).engine
  generalize tileTrace t 2 e c.tag r.key 0 _ = v at htrace
  generalize hw : (if e = 3 ∧ slotOp 3 c.slot = 2 ∧ 0 < r.total then stlDone t ((c.mset e).headD 0) r v
    else if e = 2 ∧ slotOp 2 c.slot = 2 then ldwDone t r.key v else v) = w
  have hvw : EngineKept t v w := by
    rw [← hw]
    split
    · exact stlDone_engine t _ r v
    · split
      · exact ldwDone_engine t _ v
      · exact (TileKept.refl t v).engine
  refine ⟨w, htrace.trans hvw, EngineKept.trans ?_ (reportDone_kept t _).engine⟩
  have heff := completeEffects_engine (t := t) (r := r) (e := e) (s.tile t) hspec w
  split
  · exact heff
  · split
    · exact heff
    · split
      · next h => rw [hspec] at h; cases h
      · refine heff.trans (EngineKept.trans ?_ (tileS_kept t _ _ _ _ _ _ _ t).engine)
        exact TileKept.engine ⟨_, _, _, _, State.tile_modTile _ t _⟩

theorem perform_see_tile (t : Nat) (s : State) (b : Nat) (st : Bank) :
    (perform t (.bank b st) s).tile t = { s.tile t with banks := tset Bank.init (s.tile t).banks b st } :=
  State.tile_modTile s t _

theorem perform_standby_tile (t : Nat) (s : State) (ps : List Pay) (psn : Bool) :
    (perform t (.standby ps psn) s).tile t = { s.tile t with standby := ps, standbyPsn := psn } := State.tile_modTile s t _

/-- The commands of the queue are untouched by the body. -/
theorem completeBody_cq (x : Tile) (v : State) :
    ((each (completeBody x e c r) v (fun s y => perform t y s)).tile t).cq = (v.tile t).cq :=
  (each_keep (QueuesKept t v) _ (fun u y h => h.trans (perform_queues t y u)) _ v (.refl t v)).1

theorem completeCmd_queue {rest : List QCmd} (hspec : c.spec = false) (hqueue : (s.tile t).queue e = c :: rest) :
    ((completeCmd t e 0 c r s).tile t).queue e = rest := by
  obtain ⟨v, ⟨hv, -⟩, hu, -⟩ := completeCmd_engine (t := t) (e := e) (r := r) (s := s) hspec
  rw [Tile.queue, hu, completeBody_cq, hv, ← Tile.queue, State.tile_modTile, Tile.queue_setQueue, hqueue]
  rfl

/-- R146: WLOAD's image becomes the standby one, short of its end zero. -/
theorem completeCmd_standby (hspec : c.spec = false) (hop : slotOp 0 c.slot = 1) (himage : r.image ≠ []) :
    ((completeCmd t 0 0 c r s).tile t).standbyPsn = r.psn
    ∧ ∀ i, nth ((completeCmd t 0 0 c r s).tile t).standby i 0 = nth r.image i 0 := by
  obtain ⟨v, -, -, hstandby, hpsn, -⟩ := completeCmd_engine (t := t) (e := 0) (r := r) (s := s) hspec
  have hbody : completeBody (s.tile t) 0 c r
      = [.standby (r.image ++ List.replicate (fmtUnits (nbits c.slot 49 3) - r.image.length) 0) r.psn] := by
    have hne : r.image.isEmpty = false := by simpa using himage
    simp [completeBody, hop, hne]
  rw [hbody, each, List.foldl_cons, List.foldl_nil, perform_standby_tile] at hstandby hpsn
  refine ⟨hpsn, fun i => ?_⟩
  rw [hstandby, nth, nth]
  rcases Nat.lt_or_ge i r.image.length with h | h
  · rw [List.getElem?_append_left h]
  · rw [List.getElem?_append_right h, List.getElem?_eq_none h, List.getElem?_replicate]
    split <;> rfl

theorem completeCmd_bank (hspec : c.spec = false) {b : Nat} {st : Bank} (hbody : completeBody (s.tile t) e c r = [.bank b st]) :
    tget Bank.init ((completeCmd t e 0 c r s).tile t).banks b = st := by
  obtain ⟨v, -, -, -, -, hbanks⟩ := completeCmd_engine (t := t) (e := e) (r := r) (s := s) hspec
  rw [hbody, each, List.foldl_cons, List.foldl_nil, perform_see_tile] at hbanks
  rw [hbanks]
  exact tget_tset_same _ _ _ _

end

/-- Settles O28. -/
theorem stepsAndCompletion : Obligations.StepsAndCompletion := by
  intro t g wk c b r rest s e x v bank hqueue hbound hrun hdead hspec hstaged hwk hruns
  have hslot : c.slot = v := fires_slot hbound
  have hrunning := running_head hqueue hbound hrun hwk
  refine ⟨fun hhalos hguard hmade hroom hpresent => ⟨fun hagree => ?_, fun hdiffer => ?_⟩, fun hover => ?_⟩
  · obtain ⟨r', hq, hm, hk, ht, -, hiq⟩ := doStep_queues r hqueue hspec (iq_ne_nil_of_present hpresent)
    refine ⟨_, r', exec_commandStep hruns hstaged hhalos hrunning (tryStep_agrees hdead hguard hmade hroom hpresent hagree), ?_,
      hm, hk, ht, fun q _ => ?_⟩
    · rw [signal_tile]; exact hq
    · rw [State.iq, signal_tile, ← State.iq]; exact hiq q
  · obtain ⟨ws, q, htry⟩ := tryStep_differs hdead hguard hmade hroom hpresent hdiffer
    obtain ⟨hq, hiq⟩ := markDead_mismatch hqueue ws c.tag q
    refine ⟨_, exec_commandStep hruns hstaged hhalos hrunning htry, ?_, fun j _ => ?_⟩
    · rw [signal_tile]; exact hq
    · rw [State.iq, signal_tile, ← State.iq]; exact hiq j
  · refine ⟨_, exec_engineCommandComplete hruns hstaged hdead hover hrunning, ?_, ?_, ?_, ?_⟩
    · rw [signal_tile]; exact completeCmd_queue hspec hqueue
    · intro he hop himage
      rw [signal_tile]
      rw [show engNum g = 0 from he]
      exact completeCmd_standby hspec (by rw [hslot]; exact hop) himage
    · intro he hop hfull
      have hbank : bank = nbits c.slot 47 2 := by rw [hslot]; exact if_pos he
      rw [signal_tile, hbank, show engNum g = 0 from he]
      refine congrArg Bank.full (completeCmd_bank hspec (st := { tget Bank.init x.banks (nbits c.slot 47 2) with
        full := true, owner := some (strOf r.key) }) ?_)
      rw [← hslot] at hop hfull
      rcases hop with h | h <;> simp [completeBody, h, hfull, x]
    · rintro (⟨he, hop⟩ | ⟨he, hop⟩)
      · have hbank : bank = nbits c.slot 47 2 := by rw [hslot]; exact if_pos he
        rw [signal_tile, hbank, show engNum g = 0 from he]
        rw [← hslot] at hop
        exact completeCmd_bank hspec (by simp [completeBody, hop])
      · have hbank : bank = nbits c.slot 0 2 := by rw [hslot]; exact if_neg (by rw [he]; decide)
        rw [signal_tile, hbank, show engNum g = 1 from he]
        rw [← hslot] at hop
        exact completeCmd_bank hspec (by simp [completeBody, hop])

end Sys2Proof.Machine
end

section
/-! The vector rows: what a step computes, and where the result goes (R139, R147 to R149, R152 to R157). -/
namespace Sys2Proof.Machine

/-! ### The key of a stamped sideband -/

theorem b2n_le (b : Bool) : b2n b ≤ 1 := by cases b <;> decide

theorem sideOf_toNat (st f i : Nat) (a b c d : Bool) : (sideOf st f i a b c d).toNat
    = f % 4096 * 2 ^ 20 + i % 256 * 2 ^ 12 + st % 256 * 16 + b2n a * 8 + b2n b * 4 + b2n c * 2 + b2n d := by
  have ha := b2n_le a
  have hb := b2n_le b
  have hc := b2n_le c
  have hd := b2n_le d
  rw [sideOf, BitVec.toNat_ofNat, Nat.mod_eq_of_lt]
  omega

theorem strOf_sideOf (st f i : Nat) (a b c d : Bool) : strOf (sideOf st f i a b c d) = st % 256 := by
  have ha := b2n_le a
  have hb := b2n_le b
  have hc := b2n_le c
  have hd := b2n_le d
  rw [strOf, sideOf_toNat, nbits]
  omega

theorem frameOf_sideOf (st f i : Nat) (a b c d : Bool) : frameOf (sideOf st f i a b c d) = f % 4096 := by
  have ha := b2n_le a
  have hb := b2n_le b
  have hc := b2n_le c
  have hd := b2n_le d
  rw [frameOf, sideOf_toNat, nbits]
  omega

section
variable (c : QCmd) (e : Nat) (r : Run) (gov psn : Bool) (o : Option Entry) (last : Bool)

theorem stamp_eq : ∃ i a b, stamp c e r gov psn o last = sideOf (strOf r.key) (frameOf r.key) i a b (r.gov || gov) (r.psn || psn) := by
  unfold stamp
  dsimp only
  split <;> exact ⟨_, _, _, rfl⟩

/-- R139: what a command pushes carries the stream and the frame of its key. -/
theorem strOf_stamp : strOf (stamp c e r gov psn o last) = strOf r.key := by
  obtain ⟨i, a, b, h⟩ := stamp_eq c e r gov psn o last
  exact (congrArg strOf h).trans ((strOf_sideOf ..).trans (Nat.mod_eq_of_lt (nbits_lt _ _ 8)))

theorem frameOf_stamp : frameOf (stamp c e r gov psn o last) = frameOf r.key := by
  obtain ⟨i, a, b, h⟩ := stamp_eq c e r gov psn o last
  exact (congrArg frameOf h).trans ((frameOf_sideOf ..).trans (Nat.mod_eq_of_lt (nbits_lt _ _ 12)))

end

/-! ### The step of a vector command -/

/-- The operands of a vector slot, from the popped entries or from v. -/
def vecA (x : Tile) (v : Nat) (es : List Entry) : Pay :=
  if nbit v 28 then (es.head?.map (·.pay)).getD 0 else tget 0 x.v (nbits v 33 4)
def vecB (x : Tile) (v : Nat) (es : List Entry) : Pay :=
  if nbit v 27 then ((es.drop (b2n (nbit v 28))).head?.map (·.pay)).getD 0 else tget 0 x.v (nbits v 29 4)

/-- The result of step n of a vector slot. -/
def vecStep (x : Tile) (v : Nat) (us : List Word) (es : List Entry) (n : Nat) : Pay :=
  if slotOp 1 v = 0x0A then rqEntry x v n us else vecResult x v us (vecA x v es) (vecB x v es)

/-- Where a vector result p goes. -/
def vecOut (v : Nat) (p : Pay) (side : Word) : List Staged :=
  (if nbit v 26 then [.vreg (nbits v 37 4) p] else []) ++ (if nbit v 16 then [.push (nbits v 13 3) ⟨p, side⟩] else [])

section
variable {t : Nat} {c : QCmd} {b : Bound} {es : List Entry} {r : Run} {s : State}

theorem opStep_vec (hbound : c.bound = some b) (hspec : c.spec = false) :
    ∃ side, strOf side = strOf r.key ∧ frameOf side = frameOf r.key
      ∧ opStep t 1 c es r s = (vecOut c.slot (vecStep (s.tile t) c.slot b.us es r.made) side, r, s) := by
  have hseen : s.seenBy t c = s.tile t := by rw [State.seenBy, hspec]; rfl
  by_cases hop : slotOp 1 c.slot = 0x0A
  · refine ⟨_, strOf_stamp c 1 r (tget Bank.init (s.tile t).banks (nbits c.slot 0 2)).gov
      (tget Bank.init (s.tile t).banks (nbits c.slot 0 2)).psn es.head? (decide (r.made + 1 = r.total)), frameOf_stamp .., ?_⟩
    unfold opStep
    simp only [hseen, hbound, hop, if_true, vecOut, vecStep, slotPush]
  · refine ⟨_, strOf_stamp c 1 r false false es.head? (decide (r.made + 1 = r.total)), frameOf_stamp .., ?_⟩
    unfold opStep
    simp only [hseen, hbound, hop, if_false, vecOut, vecStep, vecA, vecB, slotPush]

theorem perform_vreg (t i : Nat) (p : Pay) (s : State) :
    perform t (.vreg i p) s = s.modTile t (fun x => { x with v := tset 0 x.v i p }) := rfl

theorem perform_push (t q : Nat) (e : Entry) (s : State) :
    perform t (.push q e) s = s.modTile t (fun x => { x with oq := tset [] x.oq q (tget [] x.oq q ++ [e]) }) := rfl

/-- A tile with a vector result in v and in its output queue. -/
def vecTile (v : Nat) (p : Pay) (side : Word) (x : Tile) : Tile :=
  { x with v := if nbit v 26 then tset 0 x.v (nbits v 37 4) p else x.v,
           oq := if nbit v 16 then tset [] x.oq (nbits v 13 3) (tget [] x.oq (nbits v 13 3) ++ [⟨p, side⟩]) else x.oq }

/-- R139: the result goes to v[VD] with WV and to its OQ with PUSH. -/
theorem each_vecOut (t v : Nat) (p : Pay) (side : Word) (s : State) :
    (each (vecOut v p side) s (fun s y => perform t y s)).regs = s.regs
    ∧ (each (vecOut v p side) s (fun s y => perform t y s)).tile t = vecTile v p side (s.tile t) := by
  unfold vecOut vecTile
  have hregs : ∀ (u : State) f, (u.modTile t f).regs = u.regs := fun _ _ => rfl
  cases nbit v 26 <;> cases nbit v 16 <;> simp [each, perform_vreg, perform_push, State.tile_modTile, hregs]

/-- R97, R138, R139: a step of a vector command. -/
theorem doStep_vec (hbound : c.bound = some b) (hspec : c.spec = false) (hfull : ∀ q ∈ c.mset 1, s.iq t q ≠ []) :
    ∃ side iq cq eo, strOf side = strOf r.key ∧ frameOf side = frameOf r.key ∧ (doStep t 1 0 c r s).regs = s.regs
      ∧ (doStep t 1 0 c r s).tile t = { vecTile c.slot (vecStep (s.tile t) c.slot b.us
          ((c.mset 1).map (fun q => (s.iq t q).headD ⟨0, 0⟩)) r.made) side (s.tile t) with iq := iq, cq := cq, eofSeen := eo } := by
  obtain ⟨es, r₁, u, hpop, hes, ⟨hk, -, hm, -⟩, hpopped, -⟩ :=
    popAll_facts t ((c.bound.map (·.replay)).getD 0) (c.mset 1) r s (setBits_nodup _) hfull
  obtain ⟨iq, eo, htile⟩ := hpopped.tile
  obtain ⟨side, hstr, hframe, hop⟩ := opStep_vec (t := t) (es := es) (r := r₁) (s := u) hbound hspec
  have hstep : doStep t 1 0 c r s = each (vecOut c.slot (vecStep (u.tile t) c.slot b.us es r₁.made) side)
      (u.modTile t (fun x => x.setCmd 1 0 { c with run := some { r₁ with made := r₁.made + 1 } })) (fun s y => perform t y s) := by
    rw [doStep, hpop]
    dsimp only
    rw [hop, effects_of_bound hspec]
  have hres : vecStep (u.tile t) c.slot b.us es r₁.made = vecStep (s.tile t) c.slot b.us es r.made := by rw [htile, hm]; rfl
  rw [hstep, hres, hes]
  generalize vecStep (s.tile t) c.slot b.us (List.map (fun q => (s.iq t q).headD ⟨0, 0⟩) (c.mset 1)) r.made = p
  obtain ⟨hregs, hleft⟩ := each_vecOut t c.slot p side
    (u.modTile t (fun x => x.setCmd 1 0 { c with run := some { r₁ with made := r₁.made + 1 } }))
  rw [State.tile_modTile, htile] at hleft
  exact ⟨side, iq, _, eo, by rw [hstr, hk], by rw [hframe, hk], hregs.trans hpopped.regs, hleft⟩

end

theorem fires_vec {t : TileIx} {c : QCmd} {b : Bound} {rest : List QCmd} {k : Word} {s : State} (hf : Fires t.val 1 c b rest k s)
    (hn : 0 < c.steps) : ∃ u side tr iq cq eo aw op, fireOp t.val 1 (slotOp 1 b.slot) s = .next u
      ∧ strOf side = strOf k ∧ frameOf side = frameOf k ∧ u.regs = s.regs
      ∧ u.tile t.val = { vecTile b.slot (vecStep (s.tile t.val) b.slot b.us
          ((c.mset 1).map (fun q => (s.iq t.val q).headD ⟨0, 0⟩)) 0) side (s.tile t.val) with
          trace := tr, iq := iq, cq := cq, eofSeen := eo, awaits := aw, open_ := op } := by
  have htotal : 0 < totalSteps (s.win t.val) 1 c 1 := by simpa [totalSteps] using hn
  have hfire := fireOp_steps hf htotal (fun h => absurd h.1 (by decide)) (fun h => absurd h.1 (by decide))
  have hfrom : ∀ key, firedFrom t.val 1 c key s = (s, 0) := fun key => if_neg fun h => absurd h.1 (by decide)
  rw [hfrom] at hfire
  have hheads := fires_heads hf
  obtain ⟨-, -, -, hbound, -, -, hspec, -⟩ := hf
  have hregs := tileTrace_regs s t.val 1 1 c.tag k 0
  have hkept := tileTrace_kept s t.val 1 1 c.tag k 0 t.val
  generalize tileTrace t.val 1 1 c.tag k 0 s = w at hfire hregs hkept
  obtain ⟨tr, aw, op, eo, hw⟩ := hkept
  have hiq : ∀ q, w.iq t.val q = s.iq t.val q := fun q => by rw [State.iq, hw, State.iq]
  obtain ⟨side, iq, cq, eo', hstr, hframe, hdregs, hdtile⟩ := doStep_vec (t := t.val)
    (r := firedRun (s.tile t.val) 1 c k (totalSteps (s.win t.val) 1 c 1) 0) (s := w) hbound hspec
    (fun q hq => by rw [hiq]; exact hheads q hq)
  refine ⟨_, side, tr, iq, cq, eo', aw, op, hfire, hstr, hframe, ?_, ?_⟩
  · rw [signal_regs, hdregs, hregs]
  · rw [signal_tile, hdtile, hw, fires_slot hbound]
    simp only [hiq]
    rfl

end Sys2Proof.Machine
end

section
/-! The arithmetic of lanes and accumulators (R147 to R149, R152, R154), and what each vector row computes. -/
namespace Sys2Proof.Machine

/-! ### Signed lanes -/

/-- A lane as a signed integer: its value, less 2^w from half the range on. -/
theorem sgn_eq {w : Nat} (hw : 0 < w) (a : Nat) :
    sgn w a = if 2 ^ (w - 1) ≤ a % (2 ^ (w - 1) * 2) then ((a % (2 ^ (w - 1) * 2) : Nat) : Int) - 2 * 2 ^ (w - 1)
      else ((a % (2 ^ (w - 1) * 2) : Nat) : Int) := by
  have hpow : 2 ^ w = 2 ^ (w - 1) * 2 := by rw [← Nat.pow_succ, Nat.succ_eq_add_one, Nat.sub_add_cancel hw]
  have hpowz : (2 : Int) ^ w = 2 * 2 ^ (w - 1) := by rw [← Int.pow_succ', Nat.sub_add_cancel hw]
  have hdiv := Nat.mod_mul_right_div_self a (2 ^ (w - 1)) 2
  have hpos : 0 < 2 ^ (w - 1) := Nat.two_pow_pos _
  have hlt : a % (2 ^ (w - 1) * 2) < 2 ^ (w - 1) * 2 := Nat.mod_lt _ (by omega)
  have hbit : nbit a (w - 1) = true ↔ 2 ^ (w - 1) ≤ a % (2 ^ (w - 1) * 2) := by
    rw [nbit, beq_iff_eq, ← hdiv, Nat.div_eq_iff hpos]
    omega
  have hmod : (a : Int) % 2 ^ w = ((a % (2 ^ (w - 1) * 2) : Nat) : Int) := by rw [← hpow]; norm_cast
  rw [sgn, hmod, hpowz]
  exact ite_congr (propext hbit) (fun _ => rfl) (fun _ => rfl)

theorem sgn_range {w : Nat} (hw : 0 < w) (a : Nat) : -(2 ^ (w - 1) : Int) ≤ sgn w a ∧ sgn w a < 2 ^ (w - 1) := by
  have hlt : a % (2 ^ (w - 1) * 2) < 2 ^ (w - 1) * 2 := Nat.mod_lt _ (by have := Nat.two_pow_pos (w - 1); omega)
  have hcast : ((2 ^ (w - 1) : Nat) : Int) = 2 ^ (w - 1) := by norm_cast
  rw [sgn_eq hw, ← hcast]
  split <;> omega

/-- A pattern holds every integer of its range. -/
theorem sgn_pat {w : Nat} (hw : 0 < w) {z : Int} (hlo : -(2 ^ (w - 1) : Int) ≤ z) (hhi : z < 2 ^ (w - 1)) : sgn w (pat w z) = z := by
  have hpowz : (2 : Int) ^ w = 2 * 2 ^ (w - 1) := by rw [← Int.pow_succ', Nat.sub_add_cancel hw]
  have hcast : ((2 ^ (w - 1) : Nat) : Int) = 2 ^ (w - 1) := by norm_cast
  rw [sgn_eq hw, pat, hpowz]
  rw [← hcast] at hlo hhi ⊢
  have hpos : 0 < 2 ^ (w - 1) := Nat.two_pow_pos _
  generalize 2 ^ (w - 1) = h at *
  have hmod : z % (2 * (h : Int)) = if z < 0 then z + 2 * h else z := by
    split
    · rw [← Int.add_emod_right, Int.emod_eq_of_lt (by omega) (by omega)]
    · exact Int.emod_eq_of_lt (by omega) (by omega)
  rw [hmod]
  split
  · have hn : (z + 2 * (h : Int)).toNat % (h * 2) = (z + 2 * (h : Int)).toNat := Nat.mod_eq_of_lt (by omega)
    rw [hn]
    split <;> omega
  · have hn : z.toNat % (h * 2) = z.toNat := Nat.mod_eq_of_lt (by omega)
    rw [hn]
    split <;> omega

theorem satS_range {w : Nat} (i : Int) : -(2 ^ (w - 1) : Int) ≤ satS w i ∧ satS w i < 2 ^ (w - 1) := by
  have hpos : (0 : Int) < 2 ^ (w - 1) := by positivity
  rw [satS, clamp]
  omega

/-- R154: what saturates to w bits is read back as it saturated. -/
theorem sgn_pat_satS {w : Nat} (hw : 0 < w) (i : Int) : sgn w (pat w (satS w i)) = min (max i (-(2 ^ (w - 1)))) (2 ^ (w - 1) - 1) :=
  sgn_pat hw (satS_range i).1 (satS_range i).2

theorem sgn_zero {w : Nat} (hw : 0 < w) : sgn w 0 = 0 := by
  have hpos : 0 < 2 ^ (w - 1) := Nat.two_pow_pos _
  rw [sgn_eq hw, Nat.zero_mod, if_neg (by omega)]
  rfl

theorem isum_eq_sum (l : List Int) : isum l = l.sum := (List.sum_eq_foldl).symm

theorem laneW_pos (ty : Nat) : 0 < laneW ty := by unfold laneW; split <;> decide

section
variable {ty : Nat} (hty : ty < 3) (a b : Nat)
include hty

theorem vec2_int (op : Nat) : vec2 op ty a b = (match op with
    | 1 => pat (laneW ty) (satS (laneW ty) (sgn (laneW ty) a + sgn (laneW ty) b))
    | 2 => pat (laneW ty) (satS (laneW ty) (sgn (laneW ty) a - sgn (laneW ty) b))
    | 3 => pat (laneW ty) (satS (laneW ty) (sgn (laneW ty) a * sgn (laneW ty) b))
    | 4 => pat (laneW ty) (max (sgn (laneW ty) a) (sgn (laneW ty) b))
    | 5 => pat (laneW ty) (min (sgn (laneW ty) a) (sgn (laneW ty) b))
    | _ => if sgn (laneW ty) b < sgn (laneW ty) a then 2 ^ laneW ty - 1 else 0) := by
  unfold vec2
  exact if_neg (by omega)

theorem sgn_vec2_max : sgn (laneW ty) (vec2 4 ty a b) = max (sgn (laneW ty) a) (sgn (laneW ty) b) := by
  obtain ⟨ha, ha'⟩ := sgn_range (laneW_pos ty) a
  obtain ⟨hb, hb'⟩ := sgn_range (laneW_pos ty) b
  rw [vec2_int hty]
  exact sgn_pat (laneW_pos ty) (le_max_of_le_left ha) (max_lt ha' hb')

theorem sgn_vec2_min : sgn (laneW ty) (vec2 5 ty a b) = min (sgn (laneW ty) a) (sgn (laneW ty) b) := by
  obtain ⟨ha, ha'⟩ := sgn_range (laneW_pos ty) a
  obtain ⟨hb, hb'⟩ := sgn_range (laneW_pos ty) b
  rw [vec2_int hty]
  exact sgn_pat (laneW_pos ty) (le_min ha hb) (min_lt_of_left_lt ha')

theorem sgn_vecAbs1 : sgn (laneW ty) (vecAbs1 ty a) = min (max |sgn (laneW ty) a| (-(2 ^ (laneW ty - 1)))) (2 ^ (laneW ty - 1) - 1) := by
  rw [vecAbs1, if_neg (by omega), sgn_pat_satS (laneW_pos ty), Int.natCast_natAbs]

theorem sgn_vecRsum1 (ls : List Nat) : (vecRsum1 ty ls).map (sgn (laneW ty))
    = min (max ((ls.map (sgn (laneW ty))).sum) (-(2 ^ (laneW ty - 1)))) (2 ^ (laneW ty - 1) - 1)
      :: List.replicate (laneCount ty - 1) 0 := by
  unfold vecRsum1
  dsimp only
  rw [if_neg (by omega), List.map_cons, sgn_pat_satS (laneW_pos ty), isum_eq_sum, List.map_replicate, sgn_zero (laneW_pos ty)]

end

/-- R154: SHR is an arithmetic shift. -/
theorem sgn_vecShr1 (ty n a : Nat) : sgn (laneW ty) (vecShr1 ty n a) = sgn (laneW ty) a / 2 ^ n := by
  obtain ⟨hlo, hhi⟩ := sgn_range (laneW_pos ty) a
  have hd : (1 : Int) ≤ 2 ^ n := by exact_mod_cast Nat.one_le_two_pow
  have hh : (0 : Int) < 2 ^ (laneW ty - 1) := by positivity
  refine sgn_pat (laneW_pos ty) ?_ ?_
  · exact Int.le_ediv_of_mul_le (by omega) (by nlinarith)
  · exact Int.ediv_lt_of_lt_mul (by omega) (by nlinarith)

/-! ### binary16 NaN (R154) -/

theorem fl16_nan {a : Nat} (h : isNan16 a = true) : fl16 a = .nan := by
  have hn : 0x7C00 < nbits a 0 15 := by simpa [isNan16] using h
  have he : nbits a 10 5 = 31 := by simp only [nbits] at hn ⊢; omega
  have hf : nbits a 0 10 ≠ 0 := by simp only [nbits] at hn ⊢; omega
  simp [fl16, he, hf]

theorem flSum_pair_nan {x y : Fl} (h : x = .nan ∨ y = .nan) : flSum [x, y] = .nan := by
  rcases h with rfl | rfl <;> simp [flSum]

theorem flMul_nan {x y : Fl} (h : x = .nan ∨ y = .nan) : flMul x y = .nan := by
  rcases h with rfl | rfl
  · rfl
  · cases x <;> rfl

theorem vec2_nan {a b : Nat} (h : isNan16 a = true ∨ isNan16 b = true) : vec2 1 3 a b = 0x7E00 ∧ vec2 2 3 a b = 0x7E00
    ∧ vec2 3 3 a b = 0x7E00 ∧ vec2 4 3 a b = 0x7E00 ∧ vec2 5 3 a b = 0x7E00 ∧ vec2 6 3 a b = 0 := by
  have hfl : fl16 a = .nan ∨ fl16 b = .nan := h.imp fl16_nan fl16_nan
  have hneg : fl16 a = .nan ∨ flNeg (fl16 b) = .nan := hfl.imp_right fun h => by rw [h]; rfl
  have hor : (isNan16 a || isNan16 b) = true := by simpa using h
  have hgt : gt16 a b = false := by rcases h with h | h <;> simp [gt16, h]
  refine ⟨?_, ?_, ?_, ?_, ?_, ?_⟩
  · exact congrArg (toB16 24) (flSum_pair_nan hfl)
  · exact congrArg (toB16 24) (flSum_pair_nan hneg)
  · exact congrArg (toB16 48) (flMul_nan hfl)
  · exact if_pos hor
  · exact if_pos hor
  · exact if_neg (by rw [hgt]; decide)

/-! ### Accumulators and requantisation (R147, R148, R152) -/

section
variable (acc : Int) (xs ws : List Int)

theorem macInt_value : (macInt acc xs ws).1 = min (max (acc + (List.zipWith (· * ·) xs ws).sum) (-(2 ^ 39))) (2 ^ 39 - 1) := by
  rw [macInt, isum_eq_sum]
  rfl

theorem macInt_clamped : (macInt acc xs ws).2 = true ↔ (macInt acc xs ws).1 ≠ acc + (List.zipWith (· * ·) xs ws).sum := by
  rw [macInt_value, macInt, isum_eq_sum, sat40, Bool.or_eq_true, decide_eq_true_iff, decide_eq_true_iff, accMin, accMax]
  omega

theorem sgn_rqOne {m : Int} {p1 p2 p3 : Nat} (hshift : nbits p1 0 6 = 0) (hsigned : nbit p1 10 = false) : sgn 8 (rqOne 0 acc m p1 p2 p3)
    = satS 8 (min (max (acc * m + sgn 16 (nbits p2 0 16)) (sgn 16 (nbits p3 0 16))) (sgn 16 (nbits p3 16 16))) := by
  rw [rqOne, hshift, hsigned]
  exact sgn_pat_satS (by decide) _

end

/-! ### The rows -/

section
variable {t : TileIx} {c : QCmd} {b : Bound} {rest : List QCmd} {k : Word} {s : State}

/-- The operands of a vector command that fires: the lowest heads of its match set, or registers. -/
theorem vecA_heads (hlen : b2n (nbit b.slot 28) + b2n (nbit b.slot 27) ≤ (c.mset 1).length) :
    vecA (s.tile t.val) b.slot ((c.mset 1).map (fun q => (s.iq t.val q).headD ⟨0, 0⟩))
      = if nbit b.slot 28 then headPay s t.val ((c.mset 1).headD 0) else tget 0 (s.tile t.val).v (nbits b.slot 33 4) := by
  unfold vecA headPay
  cases h28 : nbit b.slot 28
  · rfl
  · rw [h28] at hlen
    cases hm : c.mset 1 with
    | nil => rw [hm] at hlen; simp [b2n] at hlen
    | cons q qs => cases hq : s.iq t.val q <;> simp [hq]

theorem vecB_heads (hlen : b2n (nbit b.slot 28) + b2n (nbit b.slot 27) ≤ (c.mset 1).length) :
    vecB (s.tile t.val) b.slot ((c.mset 1).map (fun q => (s.iq t.val q).headD ⟨0, 0⟩))
      = if nbit b.slot 27 then headPay s t.val (((c.mset 1).drop (b2n (nbit b.slot 28))).headD 0)
        else tget 0 (s.tile t.val).v (nbits b.slot 29 4) := by
  unfold vecB headPay
  cases h27 : nbit b.slot 27
  · rfl
  · rw [h27] at hlen
    rw [← List.map_drop]
    cases hm : (c.mset 1).drop (b2n (nbit b.slot 28)) with
    | nil =>
      have := List.drop_eq_nil_iff.mp hm
      simp only [b2n, if_true] at hlen this
      omega
    | cons q qs => cases hq : s.iq t.val q <;> simp [hq]

/-- A vector row that fires leaves its result where the slot says, and nothing else. -/
theorem vecRow {i : Instr} {op : Nat} {p : Pay} (hexec : exec i s = fireOp t.val 1 op s) (hp : slotOp 1 b.slot = op →
      vecStep (s.tile t.val) b.slot b.us ((c.mset 1).map (fun q => (s.iq t.val q).headD ⟨0, 0⟩)) 0 = p)
    (hf : Fires t.val 1 c b rest k s) (hop : slotOp 1 b.slot = op) (hn : 0 < c.steps) :
    ∃ u side, exec i s = .next u ∧ strOf side = strOf k ∧ frameOf side = frameOf k
      ∧ (∀ i, tget 0 (u.tile t.val).v i = if nbit b.slot 26 = true ∧ i = nbits b.slot 37 4 then p else tget 0 (s.tile t.val).v i)
      ∧ (∀ q, u.oq t.val q = s.oq t.val q ++ (if nbit b.slot 16 = true ∧ q = nbits b.slot 13 3 then [⟨p, side⟩] else []))
      ∧ u.regs = s.regs ∧ (u.tile t.val).store = (s.tile t.val).store ∧ (u.tile t.val).acc = (s.tile t.val).acc
      ∧ (u.tile t.val).act = (s.tile t.val).act := by
  obtain ⟨u, side, tr, iq, cq, eo, aw, o, hu, hstr, hframe, hregs, htile⟩ := fires_vec hf hn
  rw [hp hop] at htile
  refine ⟨u, side, by rw [hexec, ← hop]; exact hu, hstr, hframe, fun i => ?_, fun q => ?_, hregs, ?_, ?_, ?_⟩
  · rw [htile]
    unfold vecTile
    cases nbit b.slot 26
    · simp
    · simp [tget_tset]
  · rw [State.oq, htile, State.oq]
    unfold vecTile
    cases nbit b.slot 16
    · simp
    · by_cases hq : q = nbits b.slot 13 3 <;> simp [hq]
  · rw [htile]; rfl
  · rw [htile]; rfl
  · rw [htile]; rfl

end

/-- Settles O26. -/
theorem vectorRowsCompute : Obligations.VectorRowsCompute := by
  refine ⟨?_, ?_⟩
  · intro t c b rest k s v x ms A B a d ty two p hp hf hop hn hlen
    have hstep : vecStep x v b.us ((c.mset 1).map (fun q => (s.iq t q).headD ⟨0, 0⟩)) 0
        = if slotOp 1 v = 10 then rqEntry x v 0 b.us else vecResult x v b.us A B := by
      rw [vecStep, vecA_heads hlen, vecB_heads hlen]
    have hexec : exec p.1 s = fireOp t.val 1 p.2.1 s := by
      clear hop
      revert hp
      revert p
      simp only [List.forall_mem_cons, List.not_mem_nil, false_imp_iff, implies_true, and_true]
      and_intros <;> rfl
    have hresult : slotOp 1 v = p.2.1 → (if slotOp 1 v = 10 then rqEntry x v 0 b.us else vecResult x v b.us A B) = p.2.2 := by
      clear hop hexec
      revert hp
      revert p
      unfold vecResult
      simp only [List.forall_mem_cons, List.not_mem_nil, false_imp_iff, implies_true, and_true]
      and_intros <;> intro h <;> rw [h] <;> rfl
    exact vecRow hexec (fun h => hstep.trans (hresult h)) hf hop hn
  · intro ty a b n ls acc xs ws m p1 p2 p3 w x y sat
    refine ⟨fun hty => ⟨?_, ?_, ?_, sgn_vec2_max hty a b, sgn_vec2_min hty a b, vec2_int hty a b 6, sgn_vecAbs1 hty a,
      sgn_vecShr1 ty n a, sgn_vecRsum1 hty ls⟩, fun hty hnan => ?_, macInt_value acc xs ws, macInt_clamped acc xs ws,
      fun hshift hsigned => sgn_rqOne acc hshift hsigned⟩
    · rw [vec2_int hty]; exact sgn_pat_satS (laneW_pos ty) _
    · rw [vec2_int hty]; exact sgn_pat_satS (laneW_pos ty) _
    · rw [vec2_int hty]; exact sgn_pat_satS (laneW_pos ty) _
    · rw [hty]; exact vec2_nan hnan

end Sys2Proof.Machine
end

section
/-! WLOAD with a match set: a popped entry's PSN marks its run, though the store it reads is clean (R137, R146). -/
namespace Sys2Proof.Machine

/-- A WLOAD slot that also names IQ 0, bound to a walk of one unit. -/
def loadBound : Bound := ⟨0, 2 ^ 52 + 2 ^ 34, 0, 0, 0, none, [], BitVec.ofNat 256 (2 ^ 228 + 2 ^ 69), none⟩

/-- The command: one step. -/
def loadCmd : QCmd := ⟨BitVec.ofNat 128 (2 ^ 52), some loadBound, none, false⟩

/-- Tile 0 holds the command, and an entry with PSN in IQ 0. -/
def loadTile : Tile := { Tile.init with iq := [(0, [⟨0, 1⟩])], cq := [(0, [loadCmd])] }

/-- Region 0 runs; IQ 0 of tile 0 is bound. -/
def loadState : State :=
  { State.reset with regs := [(aRegionClk 0, BitVec.ofNat 32 (2 ^ 16))], active := [(aTileQbind 0 0, BitVec.ofNat 32 (2 ^ 31))],
                     tiles := [(0, loadTile)] }

theorem loadState_fires : Fires 0 0 loadCmd loadBound [] 0 loadState :=
  ⟨rfl, rfl, fun _ h => absurd h List.not_mem_nil, rfl, rfl, rfl, rfl, rfl, rfl, rfl, rfl, rfl, rfl⟩

/-- What tile 0 is left with. -/
def loadStepped : State := doStep 0 0 0 loadCmd (firedRun (loadState.tile 0) 0 loadCmd 0 1 0) (tileTrace 0 1 0 loadCmd.tag 0 0 loadState)

theorem loadState_exec : exec (.matWload 0) loadState = .next (signal loadState loadStepped) :=
  fireOp_steps (t := 0) loadState_fires (by decide) (fun h => absurd h.1 (by decide)) (fun h => absurd h.1 (by decide))

/-- The step's run carries the PSN of the entry it popped. -/
theorem loadState_psn : ((loadStepped.tile 0).queue 0).map (fun c => c.run.map (·.psn)) = [some true] := by rfl

/-- Refutes O27: the statement says that WLOAD leaves a run without PSN where the store is clean; a WLOAD slot whose MSET is not
empty pops an entry, and that entry's PSN is the run's. -/
theorem not_memoryAndMatrixRowsCompute : ¬ Obligations.MemoryAndMatrixRowsCompute := by
  unfold Obligations.MemoryAndMatrixRowsCompute
  intro h
  obtain ⟨-, -, hmat⟩ := h 0 loadCmd loadBound [] 0 loadState
  obtain ⟨hload, -⟩ := hmat loadState_fires (by decide)
  obtain ⟨u, r, hexec, hqueue, -, hpsn, -⟩ := hload rfl (fun _ _ => rfl)
  rw [loadState_exec, Host.Outcome.next.injEq] at hexec
  have hstep := loadState_psn
  rw [← signal_tile loadState, hexec] at hstep
  have hq : (u.tile 0).queue 0 = [{ loadCmd with run := some r }] := hqueue
  rw [hq] at hstep
  have htrue : r.psn = true := Option.some.inj (List.singleton_inj.mp hstep)
  rw [hpsn] at htrue
  cases htrue

end Sys2Proof.Machine
end

section
/-! The dispatch unit's pops and pushes, and what its events leave (09). -/
namespace Sys2Proof.Machine

theorem TileKept.disp {t : Nat} {s u : State} (h : TileKept t s u) : (u.tile t).disp = (s.tile t).disp := by
  obtain ⟨_, _, _, _, h⟩ := h; rw [h]
theorem TileKept.gt {t : Nat} {s u : State} (h : TileKept t s u) : (u.tile t).gt = (s.tile t).gt := by
  obtain ⟨_, _, _, _, h⟩ := h; rw [h]

/-! ### Pops of several entries -/

section
variable {t : Nat} {s : State}

/-- Popping n entries of an IQ that holds as many takes its oldest n. -/
theorem popN_facts (t q n : Nat) (s : State) (hlen : n ≤ (s.iq t q).length) :
    ∃ u, popN t q n s = ((s.iq t q).take n, u) ∧ Popped t s u ∧ ∀ j, u.iq t j = if j = q then (s.iq t q).drop n else s.iq t j := by
  induction n generalizing s with
  | zero => exact ⟨s, rfl, Popped.refl t s, fun j => by split <;> simp [*]⟩
  | succ n ih =>
    obtain ⟨e, rest, hiq⟩ : ∃ e rest, s.iq t q = e :: rest := by
      cases h : s.iq t q with
      | nil => rw [h] at hlen; exact absurd hlen (by simp)
      | cons e rest => exact ⟨e, rest, rfl⟩
    obtain ⟨u, hpop, hpopped, -, huiq⟩ := popIq_cons hiq
    have hu : ∀ j, u.iq t j = if j = q then rest else s.iq t j := fun j => by rw [State.iq, huiq, tget_tset, State.iq]
    have huq : u.iq t q = rest := by rw [hu, if_pos rfl]
    obtain ⟨w, hpopN, hpw, hw⟩ := ih u (by rw [huq]; rw [hiq] at hlen; simpa using hlen)
    refine ⟨w, ?_, hpopped.trans hpw, fun j => ?_⟩
    · rw [popN, hpop, hiq]
      dsimp only
      rw [hpopN, huq]
      rfl
    · rw [hw, hu, hu, hiq]
      by_cases hj : j = q <;> simp [hj]

theorem holds_length {t q n : Nat} (h : s.holds t q n = true) : n ≤ (s.iq t q).length := by
  simp only [State.holds, Bool.and_eq_true, decide_eq_true_eq] at h
  exact h.1

theorem headOf_head {t q : Nat} {e : Entry} (h : s.headOf t q = some e) : (s.iq t q).head? = some e := by
  unfold State.headOf at h
  split at h
  · split at h
    · cases h
    · exact h
  · exact h

theorem headOf_cons {t q : Nat} {e : Entry} (h : s.headOf t q = some e) : ∃ rest, s.iq t q = e :: rest := by
  have h := headOf_head h
  cases hiq : s.iq t q with
  | nil => rw [hiq] at h; cases h
  | cons x rest => rw [hiq] at h; exact ⟨rest, by rw [Option.some.inj h]⟩

/-- The queues and the dispatch unit of a tile after pops. -/
theorem Popped.disp {u : State} (h : Popped t s u) : u.disp t = s.disp t := by
  obtain ⟨_, _, h⟩ := h.tile
  rw [State.disp, h, State.disp]

theorem Popped.oq {u : State} (h : Popped t s u) (q : Nat) : u.oq t q = s.oq t q := by
  obtain ⟨_, _, h⟩ := h.tile
  rw [State.oq, h, State.oq]

theorem Popped.gt {u : State} (h : Popped t s u) : (u.tile t).gt = (s.tile t).gt := by
  obtain ⟨_, _, h⟩ := h.tile
  rw [h]

theorem Popped.qbind {u : State} (h : Popped t s u) (q : Nat) : u.qbind t q = s.qbind t q := by rw [State.qbind, h.active, State.qbind]

end

/-! ### What pushes and reports leave -/

/-- Of a tile: its input queues are as before, and its dispatch unit stops and holds items as before. -/
def DspKept (t : Nat) (s u : State) : Prop :=
  (u.tile t).iq = (s.tile t).iq ∧ (u.disp t).stuck = (s.disp t).stuck ∧ (u.disp t).items = (s.disp t).items

section
variable {t : Nat} {s u w : State}

theorem DspKept.refl (t : Nat) (s : State) : DspKept t s s := ⟨rfl, rfl, rfl⟩

theorem DspKept.trans (h : DspKept t s u) (h' : DspKept t u w) : DspKept t s w :=
  ⟨h'.1.trans h.1, h'.2.1.trans h.2.1, h'.2.2.trans h.2.2⟩

theorem TileKept.dsp (h : TileKept t s u) : DspKept t s u := by
  have hd := h.disp
  exact ⟨h.iq, congrArg Disp.stuck hd, congrArg Disp.items hd⟩

theorem DspKept.of_tiles (h : u.tiles = s.tiles) : DspKept t s u := (TileKept.of_tiles h).dsp

theorem DspKept.iq (h : DspKept t s u) (q : Nat) : u.iq t q = s.iq t q := by rw [State.iq, h.1, State.iq]

theorem disp_modDisp (t : Nat) (f : Disp → Disp) (s : State) : (s.modDisp t f).disp t = f (s.disp t) := by
  rw [State.disp, State.modDisp, State.tile_modTile]
  rfl

theorem iq_modDisp (t : Nat) (f : Disp → Disp) (s : State) : ((s.modDisp t f).tile t).iq = (s.tile t).iq := by
  rw [State.modDisp, State.tile_modTile]

theorem DspKept.modDisp {f : Disp → Disp} (hstuck : (f (s.disp t)).stuck = (s.disp t).stuck) (hitems : (f (s.disp t)).items = (s.disp t).items) :
    DspKept t s (s.modDisp t f) :=
  ⟨iq_modDisp t f s, by rw [disp_modDisp, hstuck], by rw [disp_modDisp, hitems]⟩

theorem setOq_dsp (t q : Nat) (x : List Entry) (s : State) : DspKept t s (s.setOq t q x) := by
  refine ⟨?_, ?_, ?_⟩ <;> simp only [State.setOq, State.disp, State.tile_modTile]

theorem dspFlush_dsp (t f : Nat) (s : State) : DspKept t s (dspFlush t f s) := by
  induction f generalizing s with
  | zero => exact .refl t s
  | succ f ih =>
    unfold dspFlush
    split
    · exact .refl t s
    · next q e rest hout =>
      have hdrop : DspKept t s (s.modDisp t (fun d => { d with out := rest })) := .modDisp rfl rfl
      dsimp only
      split
      · exact (hdrop.trans (tileS_kept t _ _ _ _ _ _ _ t).dsp).trans (ih _)
      · split
        · exact .refl t s
        · exact (hdrop.trans (setOq_dsp t q _ _)).trans (ih _)

theorem tripReport_tiles (t n k : Nat) (s : State) : (tripReport t n k s).tiles = s.tiles := by
  unfold tripReport
  dsimp only
  split
  · rfl
  · exact mgmtSend_tiles s _ rfl

theorem countDsp_tiles (t skips : Nat) (refused : List Nat) (s : State) : (countDsp t skips refused s).tiles = s.tiles :=
  each_keep (fun v : State => v.tiles = s.tiles) _ (fun _ _ h => (State.count_tiles ..).trans h) _ _ (State.count_tiles ..)

/-- A fault of the dispatch unit stops it; its queues and items stay. -/
theorem dspFault_facts (t code : Nat) (ws : List Word) (q : Nat) (s : State) :
    ((dspFault t code ws q s).disp t).stuck = true ∧ ((dspFault t code ws q s).tile t).iq = (s.tile t).iq
      ∧ ((dspFault t code ws q s).disp t).out = (s.disp t).out := by
  have hkept : TileKept t (s.modDisp t (fun d => { d with stuck := true })) (dspFault t code ws q s) := by
    unfold dspFault
    dsimp only
    split
    · exact each_keep (TileKept t _) _ (fun _ _ h => h.trans (tileS_kept _ _ _ _ _ _ _ _ _)) _ _ (.refl t _)
    · exact each_keep (TileKept t _) _ (fun _ _ h => h.trans (tileS_kept _ _ _ _ _ _ _ _ _)) _ _ (.refl t _)
  have hdisp : (dspFault t code ws q s).disp t = { s.disp t with stuck := true } := by
    rw [State.disp, hkept.disp, ← State.disp, disp_modDisp]
  exact ⟨by rw [hdisp], hkept.iq.trans (iq_modDisp ..), by rw [hdisp]⟩

end

/-! ### Events of the unit -/

section
variable {t : TileIx} {func : Nat} {work : Dsp → State → Option State} {s : State}

theorem dspEvent_some (hruns : s.runs t.val = true) (hen : (s.dsp t.val).en = true) (hfunc : (s.dsp t.val).func = func)
    (hstuck : (s.disp t.val).stuck = false) (hout : (s.disp t.val).out = []) {u : State} (hwork : work (s.dsp t.val) s = some u) :
    dspEvent t.val func s work = .next (signal s (dspPush t.val u)) := by
  unfold dspEvent
  simp only [hruns, hen, hfunc, hstuck, hout, hwork, decide_true, Bool.not_false, Bool.and_self, Bool.not_true, Bool.false_eq_true, if_false,
    List.isEmpty_nil, done]

theorem dspEvent_none (hout : (s.disp t.val).out = []) (hwork : work (s.dsp t.val) s = none) : dspEvent t.val func s work = .next s := by
  unfold dspEvent
  simp only [hout, hwork, List.isEmpty_nil, Bool.not_true, Bool.false_eq_true, if_false, idle, ite_self]

end

end Sys2Proof.Machine
end

section
/-! Dispatch, threshold routing and the loop gate (R181 to R185, R196, R197). -/
namespace Sys2Proof.Machine

/-! ### A dispatched token does not stop the unit -/

section
variable (d : Disp)

theorem holdBack_stuck (q : Nat) (es : List Entry) : (holdBack q es d).stuck = d.stuck := by
  unfold holdBack
  split <;> rfl

theorem foldl_disp_stuck {α : Type} (f : Disp → α → Disp) (hf : ∀ d x, (f d x).stuck = d.stuck) (l : List α) :
    (l.foldl f d).stuck = d.stuck := by
  induction l generalizing d with
  | nil => rfl
  | cons x xs ih => exact (ih (f d x)).trans (hf d x)

theorem releaseHeld_stuck : (releaseHeld d).stuck = d.stuck := by
  unfold releaseHeld
  exact foldl_disp_stuck d _ (fun d q => by dsimp only) _

theorem endFrame_stuck (sf : Nat) : (endFrame sf d).stuck = d.stuck := by
  unfold endFrame
  dsimp only

theorem sendToken_stuck (c : Dsp) (tk : Token) (pos : Nat) (bend eof : Bool) : (sendToken c tk pos bend eof d).stuck = d.stuck := by
  have hcopies : ∀ d' : Disp, ((List.range c.nexp).foldl (fun d e => if nbit tk.mask e then holdBack e (copies tk.es) d else d) d').stuck
      = d'.stuck := fun d' => foldl_disp_stuck d' _ (fun d e => by split; exacts [holdBack_stuck d e _, rfl]) _
  unfold sendToken
  dsimp only
  rw [releaseHeld_stuck]
  cases eof
  · rw [if_neg Bool.false_ne_true, hcopies]
  · rw [if_pos rfl, endFrame_stuck, hcopies]

theorem sendGrouped_stuck (t : Nat) (c : Dsp) (ts : List Token) (eof : Bool) : (sendGrouped t c ts eof d).stuck = d.stuck := by
  have htoks : ∀ (l : List (List Entry)) (d' : Disp), (l.foldl (fun d g => holdBack c.oa g d) d').stuck = d'.stuck :=
    fun l d' => foldl_disp_stuck d' _ (fun d g => holdBack_stuck d c.oa g) l
  unfold sendGrouped
  dsimp only
  rw [releaseHeld_stuck]
  cases eof
  · rw [if_neg Bool.false_ne_true, htoks]
  · rw [if_pos rfl, endFrame_stuck, htoks]

end

/-- What a token that is decided, or whose block is, sends. -/
def sendBlock (t : Nat) (c : Dsp) (block : List Token) (pos : Nat) (bend eof : Bool) (d : Disp) : Disp :=
  if c.grp then (if bend then sendGrouped t c block eof d else d)
  else if c.thresh then
    match block.getLast? with
    | some tk => sendToken c tk pos bend eof d
    | none => d
  else if bend then
    (List.range block.length).foldl (fun d i => match block[i]? with
      | some tk => sendToken c tk i (decide (i + 1 = block.length)) (eof && decide (i + 1 = block.length)) d
      | none => d) d
  else d

theorem sendBlock_stuck (t : Nat) (c : Dsp) (block : List Token) (pos : Nat) (bend eof : Bool) (d : Disp) :
    (sendBlock t c block pos bend eof d).stuck = d.stuck := by
  unfold sendBlock
  cases c.grp
  · rw [if_neg Bool.false_ne_true]
    cases c.thresh
    · rw [if_neg Bool.false_ne_true]
      cases bend
      · rfl
      · rw [if_pos rfl]
        refine foldl_disp_stuck d _ (fun d i => ?_) _
        cases block[i]? with
        | some tk => exact sendToken_stuck ..
        | none => rfl
    · rw [if_pos rfl]
      cases block.getLast? with
      | some tk => exact sendToken_stuck ..
      | none => rfl
  · rw [if_pos rfl]
    cases bend
    · rfl
    · exact sendGrouped_stuck ..

theorem facts_of_modDisp {t : Nat} {s u v : State} {d : Disp} (h : u.tiles = (v.modDisp t (fun _ => d)).tiles) (hv : v.tiles = s.tiles)
    (hd : d.stuck = (s.disp t).stuck) : (u.tile t).iq = (s.tile t).iq ∧ (u.disp t).stuck = (s.disp t).stuck := by
  have ht : u.tile t = { s.tile t with disp := d } := by
    rw [State.tile, h, ← State.tile, State.modDisp, State.tile_modTile, State.tile, hv, ← State.tile]
  exact ⟨by rw [ht], by rw [State.disp, ht, hd]⟩

theorem dispatchToken_facts (t : Nat) (c : Dsp) (es : List Entry) (route : Entry) (s : State) :
    ((dispatchToken t c es route s).tile t).iq = (s.tile t).iq ∧ ((dispatchToken t c es route s).disp t).stuck = (s.disp t).stuck := by
  have htrip : ∀ (b : Bool) n k v, (if b then tripReport t n k v else v).tiles = v.tiles := fun b n k v => by
    split
    · exact tripReport_tiles t n k v
    · rfl
  have hcount : ∀ n l, (countDsp t n l s).tiles = s.tiles := fun n l => countDsp_tiles t n l s
  unfold dispatchToken
  dsimp only
  refine facts_of_modDisp ((htrip ..).trans (htrip ..)) ?_ (sendBlock_stuck ..)
  generalize c.thresh = th
  generalize (_ || decide ((s.disp t).block.length + 1 = c.b)) = be
  cases th <;> cases be <;> simp [hcount]

/-! ### Dispatch and the loop gate -/

theorem two_of_length {α : Type} {l : List α} (h : 2 ≤ l.length) : ∃ a b r, l = a :: b :: r := by
  match l, h with
  | a :: b :: r, _ => exact ⟨a, b, r, rfl⟩

section
variable {t : TileIx} {s : State}

/-- An event's work popped what it says and pushed: what the command leaves of queues, stop and items. -/
theorem dspPush_facts (t : Nat) (s u : State) : (signal s (dspPush t u)).iq t = u.iq t
    ∧ ((signal s (dspPush t u)).disp t).stuck = (u.disp t).stuck ∧ ((signal s (dspPush t u)).disp t).items = (u.disp t).items := by
  have h := dspFlush_dsp t (u.disp t).out.length u
  rw [State.disp, signal_tile, ← State.disp]
  refine ⟨funext fun q => ?_, h.2.1, h.2.2⟩
  rw [State.iq, signal_tile, ← State.iq]
  exact h.iq q

/-- An event that sets the items and pushes: what the command leaves of queues and items. -/
theorem pushed_items {t : Nat} {s u v : State} {items : Disp → List (Word × Nat)} {out : Disp → List (Nat × Entry)}
    (hv : v.tiles = (u.modDisp t (fun d => { d with items := items d, out := out d })).tiles) :
    (signal s (dspPush t v)).iq t = u.iq t ∧ ((signal s (dspPush t v)).disp t).items = items (u.disp t) := by
  obtain ⟨hiq, -, hit⟩ := dspPush_facts t s v
  have ht : v.tile t = { u.tile t with disp := { u.disp t with items := items (u.disp t), out := out (u.disp t) } } := by
    rw [State.tile, hv, ← State.tile, State.modDisp, State.tile_modTile]
    rfl
  refine ⟨hiq.trans (funext fun q => ?_), hit.trans ?_⟩
  · rw [State.iq, ht, State.iq]
  · rw [State.disp, ht]

variable (hruns : s.runs t.val = true) (hen : (s.dsp t.val).en = true) (hstuck : (s.disp t.val).stuck = false)
  (hout : (s.disp t.val).out = [])
include hruns hen hstuck hout

/-- R181: a token whose route entry has another key stops the unit. -/
theorem dispatchToken_differs {a r : Entry} (hfunc : (s.dsp t.val).func = 0) (ha : s.headOf t.val (s.dsp t.val).qa = some a)
    (hr : s.headOf t.val (s.dsp t.val).qb = some r) (hkeys : keyOf a.side ≠ keyOf r.side) :
    ∃ u, exec (.dispatchToken t) s = .next u ∧ (u.disp t.val).stuck = true ∧ ∀ q, u.iq t.val q = s.iq t.val q := by
  obtain ⟨hst, hiq, -⟩ := dspFault_facts (t := t.val) (code := 0x02) [keyOf a.side, keyOf r.side] (s.dsp t.val).qa s
  generalize hw : dspFault t.val 0x02 [keyOf a.side, keyOf r.side] (s.dsp t.val).qa s = w at *
  obtain ⟨huiq, hust, -⟩ := dspPush_facts t.val s w
  refine ⟨signal s (dspPush t.val w), ?_, hust.trans hst, fun q => ?_⟩
  · change execDispatchToken t s = _
    rw [execDispatchToken]
    refine dspEvent_some hruns hen hfunc hstuck hout ?_
    simp only [ha, hr, if_pos hkeys, hw]
  · rw [huiq, State.iq, hiq, State.iq]

/-- R181: a token and its route entry are popped. -/
theorem dispatchToken_pops {a r : Entry} (hfunc : (s.dsp t.val).func = 0) (ha : s.headOf t.val (s.dsp t.val).qa = some a)
    (hr : s.headOf t.val (s.dsp t.val).qb = some r) (hne : (s.dsp t.val).qa ≠ (s.dsp t.val).qb) (hkeys : keyOf a.side = keyOf r.side)
    (hholds : s.holds t.val (s.dsp t.val).qa (s.dsp t.val).tu = true) :
    ∃ u, exec (.dispatchToken t) s = .next u ∧ (u.disp t.val).stuck = false ∧ ∀ q, u.iq t.val q
      = (s.iq t.val q).drop (if q = (s.dsp t.val).qa then (s.dsp t.val).tu else if q = (s.dsp t.val).qb then 1 else 0) := by
  obtain ⟨u, hpop, hu, huiq⟩ := popN_facts t.val (s.dsp t.val).qa (s.dsp t.val).tu s (holds_length hholds)
  obtain ⟨rest, hrest⟩ := headOf_cons hr
  have hub : u.iq t.val (s.dsp t.val).qb = r :: rest := by rw [huiq, if_neg (Ne.symm hne), hrest]
  obtain ⟨w, hpop', hw, hwiq⟩ := popN_facts t.val (s.dsp t.val).qb 1 u (by rw [hub]; simp)
  generalize hx : dispatchToken t.val (s.dsp t.val) ((s.iq t.val (s.dsp t.val).qa).take (s.dsp t.val).tu)
    (((u.iq t.val (s.dsp t.val).qb).take 1).headD ⟨0, 0⟩) w = x
  obtain ⟨hxiq, hxst⟩ := hx ▸ dispatchToken_facts t.val (s.dsp t.val) ((s.iq t.val (s.dsp t.val).qa).take (s.dsp t.val).tu)
    (((u.iq t.val (s.dsp t.val).qb).take 1).headD ⟨0, 0⟩) w
  obtain ⟨hpiq, hpst, -⟩ := dspPush_facts t.val s x
  refine ⟨signal s (dspPush t.val x), ?_, ?_, fun q => ?_⟩
  · change execDispatchToken t s = _
    rw [execDispatchToken]
    refine dspEvent_some hruns hen hfunc hstuck hout ?_
    simp only [ha, hr, if_neg (not_not.mpr hkeys), hholds, Bool.not_true, Bool.false_eq_true, if_false, hpop, hpop', hx]
  · rw [hpst, hxst, hw.disp, hu.disp, hstuck]
  · rw [hpiq, State.iq, hxiq, ← State.iq, hwiq, huiq, huiq]
    by_cases hqb : q = (s.dsp t.val).qb
    · rw [if_pos hqb, if_neg (Ne.symm hne), if_neg (hqb ▸ Ne.symm hne), if_pos hqb, hqb]
    · rw [if_neg hqb, if_neg hqb]
      by_cases hqa : q = (s.dsp t.val).qa
      · rw [if_pos hqa, if_pos hqa, hqa]
      · rw [if_neg hqa, if_neg hqa]
        rfl

/-- R197: whether an item goes on. -/
theorem loopGateDecision_facts (hfunc : (s.dsp t.val).func = 2)
    (hholds : s.holds t.val (s.dsp t.val).qb ((s.dsp t.val).tu + 1) = true) :
    let dec := nth (s.iq t.val (s.dsp t.val).qb) 0 ⟨0, 0⟩
    let key := keyOf (nth (s.iq t.val (s.dsp t.val).qb) 1 ⟨0, 0⟩).side
    let trips := (((s.disp t.val).items.find? (fun p => p.1 == key)).map (·.2)).getD 0
    let on := decide (nbits dec.pay.toNat 0 16 ≠ 0) && !psnOf dec.side && decide (trips < (s.dsp t.val).maxTrip)
    ∃ u, exec (.loopGateDecision t) s = .next u
      ∧ (∀ q, u.iq t.val q = (s.iq t.val q).drop (if q = (s.dsp t.val).qb then (s.dsp t.val).tu + 1 else 0))
      ∧ (u.disp t.val).items = (if on then (s.disp t.val).items.map (fun p => if p.1 = key then (p.1, p.2 + 1) else p)
          else (s.disp t.val).items.eraseP (fun p => p.1 == key)) := by
  intro dec key trips on
  have hlen := holds_length hholds
  have htu : 0 < (s.dsp t.val).tu := Nat.succ_pos _
  obtain ⟨u, hpop, hu, huiq⟩ := popN_facts t.val (s.dsp t.val).qb ((s.dsp t.val).tu + 1) s hlen
  obtain ⟨d, e, rest, hiq⟩ := two_of_length (Nat.le_trans (by omega : 2 ≤ (s.dsp t.val).tu + 1) hlen)
  have hdec : dec = d := by rw [show dec = nth (s.iq t.val (s.dsp t.val).qb) 0 ⟨0, 0⟩ from rfl, hiq]; rfl
  have hkey : key = keyOf e.side := by rw [show key = keyOf (nth (s.iq t.val (s.dsp t.val).qb) 1 ⟨0, 0⟩).side from rfl, hiq]; rfl
  have hitem : ((e :: rest).take (s.dsp t.val).tu).head? = some e := by
    rw [List.head?_take, if_neg (by omega), List.head?_cons]
  generalize hv : tripReport t.val (strOf key) (if on then 0 else 1) (u.modDisp t.val (fun d' => { d' with
    items := if on then (s.disp t.val).items.map (fun p => if p.1 = key then (p.1, p.2 + 1) else p)
      else (s.disp t.val).items.eraseP (fun p => p.1 == key),
    out := d'.out ++ ((e :: rest).take (s.dsp t.val).tu).map (fun e => (if on then (s.dsp t.val).oa else (s.dsp t.val).ob, e)) })) = v
  obtain ⟨hq, hi⟩ := pushed_items (s := s) (items := fun _ => if on then _ else _) (hv ▸ tripReport_tiles t.val (strOf key) (if on then 0 else 1) _)
  refine ⟨signal s (dspPush t.val v), ?_, fun q => ?_, hi⟩
  · change execLoopGateDecision t s = _
    rw [execLoopGateDecision]
    refine dspEvent_some hruns hen hfunc hstuck hout ?_
    simp only [hholds, Bool.not_true, Bool.false_eq_true, if_false, hpop, hiq, List.take_succ_cons, List.headD_cons, List.drop_succ_cons,
      List.drop_zero, hitem, Option.map_some, Option.getD_some, hu.disp, ← hkey, ← hdec]
    rw [← hv]
  · rw [hq, huiq]
    by_cases hq : q = (s.dsp t.val).qb
    · rw [if_pos hq, if_pos hq, hq]
    · rw [if_neg hq, if_neg hq]; rfl

/-- R196: a new item enters. -/
theorem loopGateAdmit_facts (hfunc : (s.dsp t.val).func = 2)
    (hnone : s.holds t.val (s.dsp t.val).qb ((s.dsp t.val).tu + 1) = false) (hholds : s.holds t.val (s.dsp t.val).qa (s.dsp t.val).tu = true)
    (hroom : (s.disp t.val).items.length < (s.dsp t.val).limit) :
    ∃ u, exec (.loopGateAdmit t) s = .next u
      ∧ (∀ q, u.iq t.val q = (s.iq t.val q).drop (if q = (s.dsp t.val).qa then (s.dsp t.val).tu else 0))
      ∧ (u.disp t.val).items = (s.disp t.val).items ++ [(keyOf (nth (s.iq t.val (s.dsp t.val).qa) 0 ⟨0, 0⟩).side, 1)] := by
  have hlen := holds_length hholds
  have htu : 0 < (s.dsp t.val).tu := Nat.succ_pos _
  obtain ⟨u, hpop, hu, huiq⟩ := popN_facts t.val (s.dsp t.val).qa (s.dsp t.val).tu s hlen
  obtain ⟨e, rest, hiq⟩ : ∃ e rest, s.iq t.val (s.dsp t.val).qa = e :: rest :=
    List.exists_cons_of_length_pos (Nat.lt_of_lt_of_le htu hlen)
  have hhead : ((e :: rest).take (s.dsp t.val).tu).head? = some e := by rw [List.head?_take, if_neg (by omega), List.head?_cons]
  generalize hv : u.modDisp t.val (fun d => { d with
      items := d.items ++ [(keyOf e.side, 1)],
      out := d.out ++ ((e :: rest).take (s.dsp t.val).tu).map (fun e => ((s.dsp t.val).oa, e)) }) = v
  obtain ⟨hq, hi⟩ := pushed_items (s := s) (items := fun d => d.items ++ [(keyOf e.side, 1)]) (congrArg State.tiles hv.symm)
  refine ⟨signal s (dspPush t.val v), ?_, fun q => ?_, ?_⟩
  · change execLoopGateAdmit t s = _
    rw [execLoopGateAdmit]
    refine dspEvent_some hruns hen hfunc hstuck hout ?_
    simp only [hnone, hholds, Bool.not_true, Bool.or_self, Nat.not_le.mpr hroom, decide_false, Bool.false_eq_true, if_false, hpop, hiq,
      hhead, Option.map_some, Option.getD_some]
    rw [← hv]
  · rw [hq, huiq]
    by_cases hq : q = (s.dsp t.val).qa
    · rw [if_pos hq, if_pos hq, hq]
    · rw [if_neg hq, if_neg hq]; rfl
  · rw [hi, hu.disp, hiq]; rfl

end

/-- The gate's two events exclude each other. -/
theorem loopGateAdmit_waits {t : TileIx} {s : State} (hout : (s.disp t.val).out = [])
    (hholds : s.holds t.val (s.dsp t.val).qb ((s.dsp t.val).tu + 1) = true) : exec (.loopGateAdmit t) s = .next s := by
  change execLoopGateAdmit t s = _
  rw [execLoopGateAdmit]
  refine dspEvent_none hout ?_
  simp only [hholds, Bool.true_or, if_true]

theorem loopGateDecision_waits {t : TileIx} {s : State} (hout : (s.disp t.val).out = [])
    (hnone : s.holds t.val (s.dsp t.val).qb ((s.dsp t.val).tu + 1) = false) : exec (.loopGateDecision t) s = .next s := by
  change execLoopGateDecision t s = _
  rw [execLoopGateDecision]
  refine dspEvent_none hout ?_
  simp only [hnone, Bool.not_false, if_true]

end Sys2Proof.Machine
end

section
/-! Threshold routing, the spatial gather and the group table (R183, R189 to R191). -/
namespace Sys2Proof.Machine

/-! ### Threshold routing (R183) -/

theorem mem_rankIn {x y : Int × Nat} {l : List (Int × Nat)} (h : y ∈ rankIn x l) : y = x ∨ y ∈ l := by
  induction l with
  | nil => exact .inl (List.mem_singleton.mp h)
  | cons z zs ih =>
    unfold rankIn at h
    split at h
    · exact List.mem_cons.mp h
    · rcases List.mem_cons.mp h with h | h
      · exact .inr (h ▸ List.mem_cons_self)
      · exact (ih h).imp_right (List.mem_cons_of_mem z)

theorem mem_ranked {e : Nat} {l : List (Int × Nat)} (h : e ∈ ranked l) : ∃ p ∈ l, p.2 = e := by
  have hfold : ∀ (l a : List (Int × Nat)) p, p ∈ l.foldl (fun a x => rankIn x a) a → p ∈ a ∨ p ∈ l := by
    intro l
    induction l with
    | nil => exact fun a p h => .inl h
    | cons x xs ih =>
      intro a p h
      rcases ih (rankIn x a) p h with h | h
      · exact (mem_rankIn h).elim (fun h => .inr (h ▸ List.mem_cons_self)) .inl
      · exact .inr (List.mem_cons_of_mem x h)
  obtain ⟨p, hp, rfl⟩ := List.mem_map.mp h
  exact ⟨p, (hfold l [] p hp).resolve_left List.not_mem_nil, rfl⟩

/-- The experts a token is offered to, best first. -/
def candidates (d : Dsp) (r : Entry) : List Nat :=
  if psnOf r.side then [] else
    (ranked (((List.range d.nexp).filter (fun e => d.thr ≤ score r e)).map (fun e => (score r e, e)))).take d.kmax

theorem candidates_length (d : Dsp) (r : Entry) : (candidates d r).length ≤ d.kmax := by
  unfold candidates
  split
  · exact Nat.zero_le _
  · exact List.length_take_le _ _

theorem of_mem_candidates {d : Dsp} {r : Entry} {e : Nat} (h : e ∈ candidates d r) :
    e < d.nexp ∧ d.thr ≤ score r e ∧ psnOf r.side = false := by
  unfold candidates at h
  split at h
  · exact absurd h List.not_mem_nil
  · next hpsn =>
    obtain ⟨p, hp, hpe⟩ := mem_ranked (List.mem_of_mem_take h)
    obtain ⟨e', he', hpair⟩ := List.mem_map.mp hp
    have hee : e' = e := by rw [← hpe, ← hpair]
    obtain ⟨hlt, hthr⟩ := List.mem_filter.mp he'
    rw [← hee]
    exact ⟨List.mem_range.mp hlt, of_decide_eq_true hthr, by simpa using hpsn⟩

theorem nbit_or_two_pow {m k e : Nat} (h : nbit (m ||| 2 ^ k) e = true) : nbit m e = true ∨ e = k := by
  rw [nbit_eq_testBit, Nat.testBit_or, Nat.testBit_two_pow, Bool.or_eq_true, decide_eq_true_iff, ← nbit_eq_testBit] at h
  exact h.imp_right Eq.symm

/-- An expert in the mask was a candidate with capacity left. -/
theorem routeOne_mask {d : Dsp} {load : Tab Nat} {r : Entry} {e : Nat} (h : nbit (routeOne d load r).1 e = true) :
    e ∈ candidates d r ∧ tget 0 load e < d.cap := by
  have hfold : ∀ (cand : List Nat) (m : Nat) (l : Tab Nat) (o : List Nat),
      nbit (cand.foldl (fun (p : Nat × Tab Nat × List Nat) e =>
        if tget 0 p.2.1 e < d.cap then (p.1 ||| 2 ^ e, tset 0 p.2.1 e (tget 0 p.2.1 e + 1), p.2.2) else (p.1, p.2.1, p.2.2 ++ [e]))
        (m, l, o)).1 e = true → nbit m e = true ∨ (e ∈ cand ∧ tget 0 l e < d.cap) := by
    intro cand
    induction cand with
    | nil => exact fun m l o h => .inl h
    | cons x xs ih =>
      intro m l o h
      rw [List.foldl_cons] at h
      split at h
      · next hx =>
        rcases ih _ _ _ h with h | ⟨hmem, hlt⟩
        · exact (nbit_or_two_pow h).imp_right fun (hex : e = x) => ⟨hex ▸ List.mem_cons_self, hex ▸ hx⟩
        · refine .inr ⟨List.mem_cons_of_mem x hmem, ?_⟩
          rw [tget_tset] at hlt
          split at hlt
          · next hex => rw [hex]; exact hx
          · exact hlt
      · exact (ih _ _ _ h).imp_right fun h => ⟨List.mem_cons_of_mem x h.1, h.2⟩
  exact (hfold (candidates d r) 0 load [] h).resolve_left (by simp [nbit])

theorem routeOne_count (d : Dsp) (load : Tab Nat) (r : Entry) :
    ((List.range 8).filter (fun e => nbit (routeOne d load r).1 e)).length ≤ d.kmax := by
  have hnodup : ((List.range 8).filter (fun e => nbit (routeOne d load r).1 e)).Nodup := List.Nodup.filter _ List.nodup_range
  have hsub : ((List.range 8).filter (fun e => nbit (routeOne d load r).1 e)) ⊆ candidates d r :=
    fun e he => (routeOne_mask (List.mem_filter.mp he).2).1
  exact (List.subperm_of_subset hnodup hsub).length_le.trans (candidates_length d r)

/-! ### The spatial gather (R189, R190) -/

/-- One pop from each of several IQs. -/
theorem popEach_facts (t n : Nat) (es : List Nat) (acc : List (Nat × List Entry)) (s : State) (hnodup : es.Nodup)
    (hlen : ∀ e ∈ es, n ≤ (s.iq t e).length) :
    ∃ u, es.foldl (fun (a : List (Nat × List Entry) × State) e => (a.1 ++ [(e, (popN t e n a.2).1)], (popN t e n a.2).2)) (acc, s)
        = (acc ++ es.map (fun e => (e, (s.iq t e).take n)), u)
      ∧ Popped t s u ∧ ∀ j, u.iq t j = if j ∈ es then (s.iq t j).drop n else s.iq t j := by
  induction es generalizing acc s with
  | nil => exact ⟨s, by simp, Popped.refl t s, fun j => by simp⟩
  | cons e es ih =>
    obtain ⟨he, hnodup'⟩ := List.nodup_cons.mp hnodup
    obtain ⟨u, hpop, hu, huiq⟩ := popN_facts t e n s (hlen e List.mem_cons_self)
    have hother : ∀ j ∈ es, u.iq t j = s.iq t j := fun j hj => by rw [huiq, if_neg fun (h : j = e) => he (h ▸ hj)]
    obtain ⟨w, hfold, hw, hwiq⟩ := ih (acc ++ [(e, (s.iq t e).take n)]) u hnodup'
      (fun j hj => by rw [hother j hj]; exact hlen j (List.mem_cons_of_mem e hj))
    refine ⟨w, ?_, hu.trans hw, fun j => ?_⟩
    · rw [List.foldl_cons, hpop, hfold, List.map_congr_left fun j hj => by rw [hother j hj], List.map_cons, List.append_assoc]
      rfl
    · rw [hwiq, huiq]
      by_cases hje : j = e
      · rw [if_neg (hje ▸ he), if_pos hje, if_pos (hje ▸ List.mem_cons_self), hje]
      · simp [hje]

theorem lanes_get (w k n i : Nat) (h : i < k) : (lanes w k n)[i]? = some (nbits n (w * i) w) := by
  induction k generalizing n i with
  | zero => omega
  | succ k ih =>
    cases i with
    | zero => simp [lanes, nbits]
    | succ i =>
      rw [lanes, List.getElem?_cons_succ, ih (n / 2 ^ w) i (by omega), nbits, nbits, Nat.div_div_eq_div_mul, ← Nat.pow_add,
        Nat.mul_succ, Nat.add_comm w]

theorem lanes8_nth (p : Pay) {i : Nat} (h : i < 32) : nth (lanes8 p) i 0 = sgn 8 (nbits p.toNat (8 * i) 8) := by
  rw [nth, lanes8, List.getElem?_map, lanes_get 8 32 _ i h]
  rfl

theorem sum_map_filter {α : Type} (p : α → Bool) (f : α → Int) (l : List α) :
    ((l.filter p).map f).sum = (l.map (fun x => if p x then f x else 0)).sum := by
  induction l with
  | nil => rfl
  | cons x xs ih => cases h : p x <;> simp [h, ih]

theorem keyOf_withFlags (w : Word) (es : List Entry) : keyOf (withFlags w es) = keyOf w := by
  have ha := b2n_le (govOf w || es.any (fun e => govOf e.side))
  have hb := b2n_le (psnOf w || es.any (fun e => psnOf e.side))
  have hw := w.isLt
  have h : (withFlags w es).toNat = w.toNat / 4 * 4 + 2 * b2n (govOf w || es.any (fun e => govOf e.side))
      + b2n (psnOf w || es.any (fun e => psnOf e.side)) := by
    rw [withFlags, BitVec.toNat_ofNat, Nat.mod_eq_of_lt (by omega)]
  rw [keyOf, keyOf, h]
  congr 1
  omega

/-- What the spatial gather pushes for a token of one entry. -/
def gathered (r res : Entry) (xs : List (Nat × List Entry)) (fed : List Entry) : Entry :=
  ⟨vpay 0 (((List.range 32).map (fun i => 256 * nth (lanes8 res.pay) i 0
      + isum (xs.map (fun p => gateWeight r p.1 * nth (lanes8 (nth p.2 0 ⟨0, 0⟩).pay) i 0)))).map combine), withFlags res.side fed⟩

section
variable {t : Nat} {s : State}

/-- The push that waits finds room. -/
theorem dspPush_one {q : Nat} {e : Entry} (hout : (s.disp t).out = [(q, e)]) (hbound : (s.qbind t (8 + q)).bound = true)
    (hroom : (s.oq t q).length < 64) :
    dspPush t s = (s.modDisp t (fun d => { d with out := [] })).setOq t q ((s.modDisp t (fun d => { d with out := [] })).oq t q ++ [e]) := by
  rw [dspPush, hout, List.length_singleton, dspFlush, hout]
  simp only [hbound, Bool.not_true, Bool.false_eq_true, if_false, Nat.not_le.mpr hroom]
  rfl

theorem oq_modDisp (t q : Nat) (f : Disp → Disp) (s : State) : (s.modDisp t f).oq t q = s.oq t q := by
  rw [State.oq, State.modDisp, State.tile_modTile, State.oq]

end

section
variable {t : TileIx} {s : State} {c : Dsp} {r : Entry}

/-- R189: a record's token whose parts are all there. -/
theorem gatherSpatial_pops (htu : c.tu = 1) (hr : s.headOf t.val c.qa = some r)
    (hexp : ∀ e ∈ setBits (nbits r.pay.toNat 0 8), e < c.nexp ∧ (s.qbind t.val e).bound = true ∧ e ≠ c.qa ∧ s.holds t.val e 1 = true
      ∧ ∀ x, s.headOf t.val e = some x → keyOf x.side = keyOf r.side)
    (hholds : s.holds t.val c.qa 2 = true) :
    ∃ u fed, gatherSpatial t.val c s = some (u.modDisp t.val (fun d => { d with out := d.out ++ [(c.oa,
        gathered r (nth (s.iq t.val c.qa) 1 ⟨0, 0⟩) ((setBits (nbits r.pay.toNat 0 8)).map (fun e => (e, (s.iq t.val e).take 1))) fed)] }))
      ∧ Popped t.val s u ∧ ∀ q, u.iq t.val q = if q ∈ setBits (nbits r.pay.toNat 0 8) then (s.iq t.val q).drop 1
          else if q = c.qa then (s.iq t.val q).drop 2 else s.iq t.val q := by
  obtain ⟨v, hpop, hv, hviq⟩ := popN_facts t.val c.qa 2 s (holds_length hholds)
  have hvo : ∀ e ∈ setBits (nbits r.pay.toNat 0 8), v.iq t.val e = s.iq t.val e := fun e he => by
    rw [hviq, if_neg (hexp e he).2.2.1]
  obtain ⟨u, hfold, hu, huiq⟩ := popEach_facts t.val 1 (setBits (nbits r.pay.toNat 0 8)) [] v (setBits_nodup _)
    (fun e he => by rw [hvo e he]; exact holds_length (hexp e he).2.2.2.1)
  rw [List.map_congr_left (g := fun e => (e, (s.iq t.val e).take 1)) fun e he => by rw [hvo e he]] at hfold
  have hany : (setBits (nbits r.pay.toNat 0 8)).any (fun e => decide (c.nexp ≤ e)) = false :=
    List.any_eq_false.mpr fun e he => by simpa using (hexp e he).1
  have hunbound : (setBits (nbits r.pay.toNat 0 8)).find? (fun e => !(s.qbind t.val e).bound) = none :=
    List.find?_eq_none.mpr fun e he => by simp [(hexp e he).2.1]
  have hwait : (setBits (nbits r.pay.toNat 0 8)).any (fun e => !s.holds t.val e 1) = false :=
    List.any_eq_false.mpr fun e he => by simp [(hexp e he).2.2.2.1]
  have hres : nth ((s.iq t.val c.qa).take 2) 1 ⟨0, 0⟩ = nth (s.iq t.val c.qa) 1 ⟨0, 0⟩ := by
    rw [nth, List.getElem?_take_of_lt (by decide), nth]
  refine ⟨u, (s.iq t.val c.qa).take 2 ++ ((setBits (nbits r.pay.toNat 0 8)).map (fun e => (e, (s.iq t.val e).take 1))).flatMap (·.2),
    ?_, hv.trans hu, fun q => ?_⟩
  · unfold gatherSpatial
    simp only [hr, hany, Bool.false_eq_true, if_false, hunbound]
    split
    · next e hfind =>
      have he := List.find?_some hfind
      have hmem := List.mem_of_find?_eq_some hfind
      split at he
      · next x hx => exact absurd ((hexp e hmem).2.2.2.2 x hx) (of_decide_eq_true he)
      · cases he
    · simp only [htu, hholds, hwait, Bool.not_true, Bool.or_self, Bool.false_eq_true, if_false, hpop, hfold, List.nil_append]
      simp only [List.range_one, List.map_cons, List.map_nil, hres]
      rfl
  · rw [huiq, hviq]
    by_cases hq : q = c.qa
    · rw [if_neg fun h => (hexp q h).2.2.1 hq, if_pos hq, if_neg fun h => (hexp q h).2.2.1 hq, if_pos hq, hq]
    · rw [if_neg hq, if_neg hq]

end

/-- The lanes of what a gather pushes. -/
theorem gathered_pay {t : Nat} {s : State} {r res : Entry} {fed : List Entry} {mask : Nat}
    (hheads : ∀ e ∈ setBits mask, s.iq t e ≠ []) :
    (gathered r res ((setBits mask).map (fun e => (e, (s.iq t e).take 1))) fed).pay
      = vpay 0 (((List.range 32).map (fun i => 256 * sgn 8 (nbits res.pay.toNat (8 * i) 8) + ((List.range 8).map (fun e =>
          if nbit mask e then (nbits r.pay.toNat (64 + 8 * e) 8 : Int) * sgn 8 (nbits (headPay s t e).toNat (8 * i) 8) else 0)).sum)).map
          (fun x => pat 8 (satS 8 ((x + 128) / 256)))) := by
  have hcombine : combine = fun x => pat 8 (satS 8 ((x + 128) / 256)) := rfl
  have hlane : ∀ e ∈ setBits mask, ∀ i < 32, gateWeight r e * nth (lanes8 (nth ((s.iq t e).take 1) 0 ⟨0, 0⟩).pay) i 0
      = (nbits r.pay.toNat (64 + 8 * e) 8 : Int) * sgn 8 (nbits (headPay s t e).toNat (8 * i) 8) := fun e he i hi => by
    obtain ⟨x, rest, hiq⟩ := List.exists_cons_of_ne_nil (hheads e he)
    have hpay : headPay s t e = x.pay := by rw [headPay, hiq]; rfl
    rw [hpay, hiq, ← lanes8_nth _ hi]
    rfl
  rw [gathered, hcombine]
  refine congrArg (vpay 0) (congrArg (List.map _) (List.map_congr_left fun i hi => ?_))
  have hi := List.mem_range.mp hi
  rw [lanes8_nth _ hi, isum_eq_sum, List.map_map, ← sum_map_filter (fun e => nbit mask e)]
  exact congrArg (fun l : List Int => _ + l.sum) (List.map_congr_left fun e he => hlane e he i hi)

section
variable {t : TileIx} {s : State}

/-- R189, R190: a gather pops and pushes. -/
theorem gatherToken_facts (hruns : s.runs t.val = true) (hen : (s.dsp t.val).en = true) (hstuck : (s.disp t.val).stuck = false)
    (hout : (s.disp t.val).out = []) {r : Entry} (hfunc : (s.dsp t.val).func = 1) (hgrp : (s.dsp t.val).grp = false)
    (htu : (s.dsp t.val).tu = 1) (hr : s.headOf t.val (s.dsp t.val).qa = some r)
    (hexp : ∀ e ∈ setBits (nbits r.pay.toNat 0 8), e < (s.dsp t.val).nexp ∧ (s.qbind t.val e).bound = true ∧ e ≠ (s.dsp t.val).qa
      ∧ s.holds t.val e 1 = true ∧ ∀ x, s.headOf t.val e = some x → keyOf x.side = keyOf r.side)
    (hholds : s.holds t.val (s.dsp t.val).qa 2 = true) (hbound : (s.qbind t.val (8 + (s.dsp t.val).oa)).bound = true)
    (hroom : (s.oq t.val (s.dsp t.val).oa).length < 64) :
    ∃ u fed, exec (.gatherToken t) s = .next u
      ∧ u.oq t.val (s.dsp t.val).oa = s.oq t.val (s.dsp t.val).oa ++ [gathered r (nth (s.iq t.val (s.dsp t.val).qa) 1 ⟨0, 0⟩)
          ((setBits (nbits r.pay.toNat 0 8)).map (fun e => (e, (s.iq t.val e).take 1))) fed]
      ∧ ∀ q, u.iq t.val q = if q ∈ setBits (nbits r.pay.toNat 0 8) then (s.iq t.val q).drop 1
          else if q = (s.dsp t.val).qa then (s.iq t.val q).drop 2 else s.iq t.val q := by
  obtain ⟨u, fed, hgather, hu, huiq⟩ := gatherSpatial_pops htu hr hexp hholds
  generalize hg : gathered r (nth (s.iq t.val (s.dsp t.val).qa) 1 ⟨0, 0⟩) ((setBits (nbits r.pay.toNat 0 8)).map (fun e =>
    (e, (s.iq t.val e).take 1))) fed = e at hgather
  generalize hv : u.modDisp t.val (fun d => { d with out := d.out ++ [((s.dsp t.val).oa, e)] }) = v at hgather
  have hvout : (v.disp t.val).out = [((s.dsp t.val).oa, e)] := by rw [← hv, disp_modDisp, hu.disp, hout]; rfl
  have hvoq : v.oq t.val (s.dsp t.val).oa = s.oq t.val (s.dsp t.val).oa := by rw [← hv, oq_modDisp, hu.oq]
  have hvbind : v.qbind t.val (8 + (s.dsp t.val).oa) = s.qbind t.val (8 + (s.dsp t.val).oa) := by rw [← hu.qbind, ← hv]; rfl
  have hpush := dspPush_one hvout (by rw [hvbind]; exact hbound) (by rw [hvoq]; exact hroom)
  obtain ⟨hpiq, -, -⟩ := dspPush_facts t.val s v
  refine ⟨signal s (dspPush t.val v), fed, ?_, ?_, fun q => ?_⟩
  · change execGatherToken t s = _
    rw [execGatherToken]
    refine dspEvent_some hruns hen hfunc hstuck hout ?_
    rw [hgrp]
    exact hgather
  · rw [State.oq, signal_tile, ← State.oq, hpush, State.oq_setOq, if_pos rfl, oq_modDisp, hvoq, hg]
  · rw [hpiq, State.iq, ← hv, iq_modDisp, ← State.iq, huiq]

/-- R191: the oldest entry of the group table's IQ enters the table. -/
theorem groupTablePop_facts {q : Nat} {e : Entry} (hq : q = nbits (s.act (aTileGtCfg t.val)).toNat 28 3) (hruns : s.runs t.val = true)
    (hon : nbit (s.act (aTileGtCfg t.val)).toNat 31 = true) (hhead : s.headOf t.val q = some e) (hroom : (s.tile t.val).gt.length < 16)
    (hengs : s.gtEngs t.val ≠ 0) : ∃ u, exec (.groupTablePop t) s = .next u ∧ (u.tile t.val).gt = (s.tile t.val).gt ++ [(e, [])]
      ∧ ∀ j, u.iq t.val j = (s.iq t.val j).drop (if j = q then 1 else 0) := by
  obtain ⟨rest, hiq⟩ := headOf_cons hhead
  obtain ⟨u, hpop, hu, -, huiq⟩ := popIq_cons hiq
  have hexec : exec (.groupTablePop t) s = .next (signal s (u.modTile t.val (fun x => { x with gt := x.gt ++ [(e, [])] }))) := by
    change execGroupTablePop t s = _
    simp only [execGroupTablePop, ← hq, hruns, hon, hhead, Option.isSome_some, decide_eq_true hroom, Bool.and_self, Bool.not_true,
      Bool.false_eq_true, if_false, hpop, if_neg hengs, done]
  refine ⟨_, hexec, ?_, fun j => ?_⟩
  · rw [signal_tile, State.tile_modTile, hu.gt]
  · rw [State.iq, signal_tile, State.tile_modTile, huiq, tget_tset]
    by_cases hj : j = q
    · rw [if_pos hj, if_pos hj, hj, hiq]; rfl
    · rw [if_neg hj, if_neg hj]; rfl

end

theorem mem_setBits {m q : Nat} : q ∈ setBits m ↔ q < 8 ∧ nbit m q = true := by
  rw [setBits, List.mem_filter, List.mem_range]

/-- Settles O29. -/
theorem dispatchUnit : Obligations.DispatchUnit := by
  intro t s c d iqAfter
  refine ⟨fun hruns hen hstuck hout => ⟨?_, ?_, ?_, ?_⟩, ?_, ?_, fun load r => routeOne_count c load r⟩
  · intro a r hfunc ha hr hne
    refine ⟨fun hkeys => ?_, fun hkeys hholds => ?_⟩
    · obtain ⟨u, hu, hst, hiq⟩ := dispatchToken_differs hruns hen hstuck hout hfunc ha hr hkeys
      exact ⟨u, hu, hst, fun q _ => hiq q⟩
    · obtain ⟨u, hu, hst, hiq⟩ := dispatchToken_pops hruns hen hstuck hout hfunc ha hr hne hkeys hholds
      exact ⟨u, hu, hst, fun q _ => hiq q⟩
  · intro r hfunc hgrp htu hr mask hexp hholds hbound hroom res lane sums
    have hexp' : ∀ e ∈ setBits mask, _ := fun e he => hexp e (mem_setBits.mp he).1 (mem_setBits.mp he).2
    obtain ⟨u, fed, hu, hoq, hiq⟩ := gatherToken_facts hruns hen hstuck hout hfunc hgrp htu hr hexp' hholds hbound hroom
    have hpay : (gathered r res ((setBits mask).map (fun e => (e, (s.iq t.val e).take 1))) fed).pay
        = vpay 0 (sums.map (fun x => pat 8 (satS 8 ((x + 128) / 256)))) := gathered_pay fun e he hnil => by
      have hlen := holds_length (hexp' e he).2.2.2.1
      rw [hnil] at hlen
      exact absurd hlen (by decide)
    refine ⟨u, _, hu, hoq.trans (congrArg (fun p => _ ++ [(⟨p, withFlags res.side fed⟩ : Entry)]) hpay), keyOf_withFlags _ _, fun q hq => ?_⟩
    change _ = (s.iq t q).drop (if q = c.qa then 2 else if nbit mask q then 1 else 0)
    rw [hiq]
    by_cases hm : nbit mask q = true
    · rw [if_pos (mem_setBits.mpr ⟨hq, hm⟩), if_neg (hexp q hq hm).2.2.1, if_pos hm]
    · rw [if_neg fun h => hm (mem_setBits.mp h).2]
      by_cases hqa : q = c.qa
      · rw [if_pos hqa, if_pos hqa]
      · rw [if_neg hqa, if_neg hqa, if_neg hm, List.drop_zero]
  · intro hfunc hholds es dec key trips on
    obtain ⟨u, hu, hiq, hitems⟩ := loopGateDecision_facts hruns hen hstuck hout hfunc hholds
    have hon : on ↔ (decide (nbits dec.pay.toNat 0 16 ≠ 0) && !psnOf dec.side && decide (trips < c.maxTrip)) = true := by
      simp only [on, Bool.and_eq_true, decide_eq_true_eq, Bool.not_eq_true', and_assoc]
    exact ⟨u, hu, fun q _ => hiq q, fun h => hitems.trans (if_pos (hon.mp h)), fun h => hitems.trans (if_neg (mt hon.mpr h)),
      loopGateAdmit_waits hout hholds⟩
  · intro hfunc hnone hholds hroom
    obtain ⟨u, hu, hiq, hitems⟩ := loopGateAdmit_facts hruns hen hstuck hout hfunc hnone hholds hroom
    exact ⟨u, hu, fun q _ => hiq q, hitems, loopGateDecision_waits hout hnone⟩
  · intro e hruns hon hhead hroom hengs
    obtain ⟨u, hu, hgt, hiq⟩ := groupTablePop_facts rfl hruns hon hhead hroom hengs
    exact ⟨u, hu, hgt, fun q _ => hiq q⟩
  · intro load r e he
    obtain ⟨hmem, hcap⟩ := routeOne_mask he
    obtain ⟨hlt, hthr, hpsn⟩ := of_mem_candidates hmem
    exact ⟨hlt, hthr, hcap, hpsn⟩

end Sys2Proof.Machine
end

section
/-! Ferries: kicks, blocks, reads, writes (R280 to R290). -/
namespace Sys2Proof.Machine

/-! ### Writes to words whose check bits are clean, and to whole words -/

/-- A write that meets no word in part that is in error stores its bytes, and nothing else changes. -/
theorem State.basinWrite_of_parts {s : State} {a : Nat} {bs : List Byte} (ha : a < basinSize) (hn : a + bs.length ≤ basinSize)
    (hparts : ∀ w ∈ partWords a bs.length, s.mem.basin.state w = .clean) (psn : Bool) :
    s.basinWrite a bs psn = (false, { s with mem := { s.mem with basin := s.mem.basin.write a bs psn } }) := by
  have hbad : (partWords a bs.length).any (fun w => s.mem.basin.state w == .double) = false :=
    List.any_eq_false.mpr fun w hw => by simp [hparts w hw]
  rw [State.basinWrite_eq ha hn, State.basinWrite1]
  dsimp only
  generalize hu : each (partWords a bs.length) s _ = u
  have hsame : u = s := by
    rw [← hu, each]
    have hfold : ∀ ws : List Nat, (∀ w ∈ ws, s.mem.basin.state w = .clean) → ∀ f : State → Nat → State,
        (∀ w, s.mem.basin.state w = .clean → f s w = s) → ws.foldl f s = s := by
      intro ws hws f hf
      induction ws with
      | nil => rfl
      | cons w ws ih =>
        rw [List.foldl_cons, hf w (hws w List.mem_cons_self)]
        exact ih fun v hv => hws v (List.mem_cons_of_mem w hv)
    exact hfold _ hparts _ fun w hw => by rw [hw]
  rw [hbad, hsame]

theorem State.basinWrite_of_clean {s : State} {a : Nat} {bs : List Byte} (ha : a < basinSize) (hn : a + bs.length ≤ basinSize)
    (hclean : s.mem.basin.CleanOn a bs.length) (psn : Bool) :
    s.basinWrite a bs psn = (false, { s with mem := { s.mem with basin := s.mem.basin.write a bs psn } }) := by
  refine State.basinWrite_of_parts ha hn (fun w hw => ?_) psn
  unfold partWords at hw
  split at hw
  · exact absurd hw List.not_mem_nil
  · obtain ⟨hmem, -⟩ := List.mem_filter.mp hw
    obtain ⟨i, hi, rfl⟩ := List.mem_map.mp hmem
    have hlt := List.mem_range.mp hi
    exact hclean _ (by omega) (by omega)

theorem partWords_of_whole {a n : Nat} (ha : a % 8 = 0) (hn : n % 8 = 0) : partWords a n = [] := by
  unfold partWords
  split
  · rfl
  · refine List.filter_eq_nil_iff.mpr fun w hw => ?_
    obtain ⟨i, hi, rfl⟩ := List.mem_map.mp hw
    have hlt := List.mem_range.mp hi
    simp only [Bool.not_eq_true', Bool.not_eq_false, Bool.and_eq_true, decide_eq_true_eq]
    omega

theorem State.basinWrite_of_whole {s : State} {a : Nat} {bs : List Byte} (ha : a < basinSize) (hn : a + bs.length ≤ basinSize)
    (halign : a % 8 = 0) (hwhole : bs.length % 8 = 0) (psn : Bool) :
    s.basinWrite a bs psn = (false, { s with mem := { s.mem with basin := s.mem.basin.write a bs psn } }) :=
  State.basinWrite_of_parts ha hn (by rw [partWords_of_whole halign hwhole]; exact fun w hw => absurd hw List.not_mem_nil) psn

theorem Ram.CleanOn.mono {r : Ram} {a n m : Nat} (h : r.CleanOn a n) (hm : m ≤ n) : r.CleanOn a m :=
  fun w hlo hhi => h w (by omega) hhi

/-- The state with bytes of the basin stored, clean. -/
def State.basinStored (s : State) (a : Nat) (bs : List Byte) : State :=
  { s with mem := { s.mem with basin := s.mem.basin.write a bs false } }

/-! ### Kicks and blocks (R281 to R284) -/

section
variable {f : FerryIx} {s : State}

theorem exec_ferryKick (list : BitVec 21) (hs : Served s) : exec (.ferryKick .pf f list) s
    = .next (signal s (ferryKickOp f.val list.toNat none none s)) := by
  change execFerryKick .pf f list s = _
  simp only [execFerryKick, Fn.wellFormed, State.seesReg, Bool.not_true, Bool.false_eq_true, if_false, if_true, hostRow_of_served hs, done]

variable {n : Nat} (howner : s.ferryOwner f.val = some n) (list : Nat) (key : Option Word) (spec : Option (Nat × Nat))
include howner

theorem ferryKickOp_of_room (hon : s.bit (aFerryCtl f.val) 31 = true) (hroom : (s.ferry f.val).kicks.length < 8) :
    ferryKickOp f.val list key spec s
      = s.setFerry f.val { s.ferry f.val with kicks := (s.ferry f.val).kicks ++ [⟨list, key, spec⟩] } := by
  simp only [ferryKickOp, hon, howner, Option.isNone_some, Bool.not_true, Bool.or_self, Bool.false_eq_true, if_false,
    Nat.not_le.mpr hroom]

theorem ferryKickOp_of_full (hon : s.bit (aFerryCtl f.val) 31 = true) (hfull : 8 ≤ (s.ferry f.val).kicks.length) :
    ferryKickOp f.val list key spec s = ferryFault f.val 6 s := by
  simp only [ferryKickOp, hon, howner, Option.isNone_some, Bool.not_true, Bool.or_self, Bool.false_eq_true, if_false, hfull, if_true]

omit howner in
theorem ferryKickOp_of_off (hoff : s.bit (aFerryCtl f.val) 31 = false) : ferryKickOp f.val list key spec s = s := by
  simp only [ferryKickOp, hoff, Bool.not_false, Bool.true_or, if_true]

end

/-- The four words of a block, from its 32 bytes. -/
theorem pieces_words (g : Nat → Byte) : (pieces 8 32 ((List.range 32).map g)).map (fun p => BitVec.ofNat 64 (ofBytes p))
    = (List.range 4).map (fun i => BitVec.ofNat 64 (ofBytes ((List.range 8).map (fun j => g (8 * i + j))))) := rfl

section
variable {f : FerryIx} {s : State} {k : Kick} {ks : List Kick} (hquota : s.f (aFerryCtl f.val) 0 7 ≠ 0)
  (hcause : s.f (aFerryStatus f.val) 8 5 = 0) (hblock : (s.ferry f.val).block = none) (hcur : (s.ferry f.val).cur = none)
  (hkicks : (s.ferry f.val).kicks = k :: ks)
include hquota hcause hblock hcur hkicks

/-- R284: a list outside the window is a fault. -/
theorem exec_ferryBlockStart_of_out (hout : inWin (s.ferryWin f.val 0) k.list 32 = false) : exec (.ferryBlockStart f) s
    = .next (signal s (ferryFault f.val 1 (s.setFerry f.val { s.ferry f.val with cur := some k, kicks := ks, at_ := k.list }))) := by
  change execFerryBlockStart f s = _
  simp only [execFerryBlockStart, hquota, hcause, hblock, hcur, hkicks, hout, Option.isSome_none, Bool.false_eq_true, or_self, if_false,
    not_true, Bool.not_false, if_true, done, ne_eq]

/-- R282 to R284: the first block of the list is read, checked and started. -/
theorem exec_ferryBlockStart_of_good {four : List DWord} (hin : inWin (s.ferryWin f.val 0) k.list 32 = true) (halign : k.list % 32 = 0)
    (hfit : k.list + 32 ≤ basinSize) (hclean : s.mem.basin.CleanOn k.list 32)
    (hfour : four = (List.range 4).map (fun i => BitVec.ofNat 64 (ofBytes ((List.range 8).map (fun j =>
      s.mem.basin.byte (k.list + 8 * i + j))))))
    (hgood : blkBad s (blkOf four) k.key = false)
    (hsrc : sideIn s f.val (blkOf four).ss (blkOf four).saddr (blkOf four).len (blkOf four).count (blkOf four).sstr = true)
    (hdst : sideIn s f.val (blkOf four).ds (blkOf four).daddr ((blkOf four).out (blkOf four).len) (blkOf four).count (blkOf four).dstr = true) :
    exec (.ferryBlockStart f) s = .next (signal s ((s.setFerry f.val { s.ferry f.val with cur := some k, kicks := ks, at_ := k.list }).setFerry
      f.val { s.ferry f.val with cur := some k, kicks := ks, at_ := k.list, block := some four, started := true, rd := 0, wr := 0,
                                 inflight := 0 })) := by
  have hread := State.basinRead_of_clean (s := s.setFerry f.val { s.ferry f.val with cur := some k, kicks := ks, at_ := k.list })
    (a := k.list) (n := 32) hclean (by omega) hfit
  have hwords : (pieces 8 32 ((List.range 32).map (fun i => s.mem.basin.byte (k.list + i)))).map (fun p => BitVec.ofNat 64 (ofBytes p))
      = four := by
    rw [pieces_words, hfour]
    simp only [Nat.add_assoc]
  simp only [hblock] at hread
  change execFerryBlockStart f s = _
  simp only [execFerryBlockStart, hquota, hcause, hblock, hcur, hkicks, hin, Option.isSome_none, Bool.false_eq_true, or_self, if_false,
    not_true, Bool.not_true, halign, hread, State.setFerry_mem, hwords, hgood, hsrc, hdst, Bool.and_self, State.ferry_setFerry, if_true, done,
    ne_eq]

end

/-! ### Reads and writes -/

/-- A read that is next lies within its row. -/
theorem nextRead_facts {x : Ferry} {ws : List DWord} {b b' : Blk} {p m : Nat} (hblock : x.block = some ws) (hb : blkOf ws = b)
    (hnext : x.nextRead = some (b', p, m)) (hspace : b.ss ≠ 3) (hcount : b.count = 1) : 0 < m ∧ m ≤ 64 ∧ p + m ≤ b.len := by
  unfold Ferry.nextRead at hnext
  rw [hblock] at hnext
  dsimp only at hnext
  rw [hb] at hnext
  split at hnext
  · cases hnext
  · next hn =>
    simp only [Option.some.injEq, Prod.mk.injEq] at hnext
    obtain ⟨-, hp, hm⟩ := hnext
    rw [not_or] at hn
    obtain ⟨hpos, -⟩ := hn
    rw [hp] at hm hpos
    unfold Blk.chunk at hm hpos
    split at hm
    · next hzero => rw [if_pos hzero] at hpos; exact absurd rfl hpos
    · next hnz =>
      rw [if_neg hnz] at hpos
      simp only [if_neg hspace] at hm hpos
      rw [not_or, Blk.total, hcount, Nat.mul_one] at hnz
      rw [Nat.mod_eq_of_lt (by omega)] at hm hpos
      omega

theorem rowAddr_of_first {a len p : Nat} (str : Int) (hp : p < len) : rowAddr a len p str = a + p := by
  rw [rowAddr, Nat.div_eq_of_lt hp, Nat.mod_eq_of_lt hp]
  simp only [Nat.cast_zero, zero_mul, add_zero]
  omega

theorem readFlags_of_clean {r : Ram} {a m : Nat} (h : r.CleanOn a m) :
    readFlags r a ((List.range m).map (fun i => r.byte (a + i))) = (List.range m).map (fun i => (r.byte (a + i), false)) := by
  unfold readFlags
  rw [List.length_map, List.length_range]
  refine List.map_congr_left fun i hi => ?_
  have hi := List.mem_range.mp hi
  rw [h _ (by omega) (by omega), nth, List.getElem?_map, List.getElem?_range hi]
  rfl

theorem ferryStage_facts (f : Nat) (bs : List (Byte × Bool)) (s : State) : (ferryStage f bs false s).regs = s.regs
    ∧ (ferryStage f bs false s).mem = s.mem ∧ (ferryStage f bs false s).ferry f
      = { s.ferry f with rd := (s.ferry f).rd + bs.length, staged := (s.ferry f).staged ++ bs } := by
  have hset := State.ferry_setFerry s f f { s.ferry f with staged := (s.ferry f).staged ++ bs, rd := (s.ferry f).rd + bs.length,
                                                           inflight := (s.ferry f).inflight }
  rw [if_pos rfl] at hset
  unfold ferryStage
  dsimp only
  rw [if_neg Bool.false_ne_true]
  split
  · exact ⟨State.count_regs .., State.count_mem .., by rw [State.ferry, State.count_ferries, ← State.ferry, hset]⟩
  · refine ⟨(State.count_regs ..).trans (State.count_regs ..), (State.count_mem ..).trans (State.count_mem ..), ?_⟩
    rw [State.ferry, State.count_ferries, State.count_ferries, ← State.ferry, hset]

section
variable {f : FerryIx} {s : State} {ws : List DWord} {b : Blk} (hblock : (s.ferry f.val).block = some ws) (hb : blkOf ws = b)
include hblock hb

/-- R286: a basin read of a one-row block enters staging. -/
theorem exec_ferryReadComplete {b' : Blk} {p m : Nat} (hnext : (s.ferry f.val).nextRead = some (b', p, m)) (hquota : s.quota f.val ≠ 0)
    (hsrc : b.ss = 0) (hfit : b.saddr + b.len ≤ basinSize) (hcount : b.count = 1)
    (hclean : s.mem.basin.CleanOn (rowAddr b.saddr b.len p b.sstr) 64) : exec (.ferryReadComplete f .abort) s
      = .next (signal s (ferryStage f.val ((List.range m).map (fun i =>
          (s.mem.basin.byte (rowAddr b.saddr b.len p b.sstr + i), false))) false s)) := by
  obtain ⟨hpos, hm, hrow⟩ := nextRead_facts hblock hb hnext (by omega) hcount
  have haddr := rowAddr_of_first (a := b.saddr) b.sstr (show p < b.len by omega)
  have hread := State.basinRead_of_clean (hclean.mono hm) (by omega) (by omega)
  have hflags := readFlags_of_clean (hclean.mono hm)
  change execFerryReadComplete f .abort s = _
  simp only [execFerryReadComplete, hblock, hb, hsrc, hnext, hquota, hread, hflags, Bool.false_eq_true, if_false, if_true, done,
    Nat.zero_ne_one]

omit hblock hb in
/-- Bytes free of poison make one run. -/
theorem runs_of_clean (o : Nat) (x : Byte × Bool) (xs : List (Byte × Bool)) (hclean : ∀ p ∈ x :: xs, p.2 = false) :
    runs o (x :: xs) = [(o, (x :: xs).map (·.1), false)] := by
  induction xs generalizing o x with
  | nil =>
    have hx := hclean x List.mem_cons_self
    obtain ⟨b, p⟩ := x
    rw [show p = false from hx]
    rfl
  | cons y ys ih =>
    have hx := hclean x List.mem_cons_self
    obtain ⟨b, p⟩ := x
    rw [show p = false from hx, runs, ih (o + 1) y fun q hq => hclean q (List.mem_cons_of_mem _ hq)]
    simp

/-- R286: a write of a one-row block to the basin, byte for byte. -/
theorem exec_ferryWrite (hds : b.ds = 0) (hcodec : b.codec = 0) (hfit : b.daddr + b.len ≤ basinSize)
    (hcommitted : (s.ferry f.val).committed = true) (hmore : (s.ferry f.val).wr < b.len) {k : Nat}
    (hmin : min 64 (b.len - (s.ferry f.val).wr) = k) (hstaged : k ≤ (s.ferry f.val).staged.length)
    (hflags : ∀ p ∈ (s.ferry f.val).staged, p.2 = false) (hclean : s.mem.basin.CleanOn (b.daddr + (s.ferry f.val).wr) 64) :
    exec (.ferryWrite f (.ok [])) s = .next (signal s (((s.setFerry f.val { s.ferry f.val with
      staged := (s.ferry f.val).staged.drop k, wr := (s.ferry f.val).wr + k }).basinStored (b.daddr + (s.ferry f.val).wr)
        (((s.ferry f.val).staged.take k).map (·.1))).count (cFerry f.val 1) k)) := by
  have hk : 0 < k := by omega
  have hlen : ((s.ferry f.val).staged.take k).length = k := by rw [List.length_take]; omega
  generalize hv : s.setFerry f.val { s.ferry f.val with staged := (s.ferry f.val).staged.drop k, wr := (s.ferry f.val).wr + k } = v
  have hvmem : v.mem = s.mem := by rw [← hv]; rfl
  obtain ⟨x, xs, hxs⟩ := List.exists_cons_of_length_pos (by rw [hlen]; exact hk : 0 < ((s.ferry f.val).staged.take k).length)
  have hruns := runs_of_clean 0 x xs (by rw [← hxs]; exact fun p hp => hflags p (List.mem_of_mem_take hp))
  rw [← hxs] at hruns
  have haddr : rowAddr b.daddr (max b.len 1) (s.ferry f.val).wr b.dstr = b.daddr + (s.ferry f.val).wr :=
    rowAddr_of_first b.dstr (by omega)
  have hlen' : (((s.ferry f.val).staged.take k).map (·.1)).length = k := by rw [List.length_map, hlen]
  have hwrite := State.basinWrite_of_clean (s := v) (a := b.daddr + (s.ferry f.val).wr) (bs := ((s.ferry f.val).staged.take k).map (·.1))
    (by omega) (by rw [hlen']; omega) (by rw [hlen', hvmem]; exact hclean.mono (by omega)) false
  have hquantum : b.quantum = 64 := by simp [Blk.quantum, hds, hcodec]
  have hshift : ∀ ys, b.shiftBad ys = false := fun ys => by simp [Blk.shiftBad, hcodec]
  have hconvert : ∀ ys, b.convert ys = ys := fun ys => by simp [Blk.convert, hcodec]
  have hout : ∀ n, b.out n = n := fun n => by simp [Blk.out, hcodec]
  have hput : ferryPut f.val b (s.ferry f.val).wr ((s.ferry f.val).staged.take k) (decide (((s.ferry f.val).wr + k) % b.len = 0))
      (decide (b.total ≤ (s.ferry f.val).wr + k)) (.ok []) v
      = some (none, v.basinStored (b.daddr + (s.ferry f.val).wr) (((s.ferry f.val).staged.take k).map (·.1))) := by
    simp only [ferryPut, hds, hout, haddr, hruns, List.foldl_cons, List.foldl_nil, Nat.add_zero, hwrite, Bool.or_self, Bool.false_eq_true,
      if_false]
    rfl
  change execFerryWrite f (.ok []) s = _
  have hzero : b.len ≠ 0 := by omega
  simp only [hblock] at hv
  simp only [execFerryWrite, hblock, hb, hzero, if_false, hquantum, Nat.div_eq_of_lt hmore, Nat.mod_eq_of_lt hmore, hmin, Nat.ne_of_gt hk,
    Nat.not_lt.mpr hstaged, hcommitted, decide_false, Bool.not_true, Bool.or_self, Bool.false_eq_true, hshift, hconvert, hout, Nat.zero_mul,
    Nat.zero_add, hv, hput, hlen, done]

/-- R285: a block whose writes are made ends, goes on to the next or ends the list. -/
theorem exec_ferryBlockComplete (hover : b.total ≤ (s.ferry f.val).wr) (hcommitted : (s.ferry f.val).committed = true)
    (hfills : b.ds = 1 → s.mem.fills = []) {n : Nat} (howner : s.ferryOwner f.val = some n) :
    ∃ t, exec (.ferryBlockComplete f) s = .next t ∧ t.regs = s.regs ∧ t.mem = s.mem
      ∧ t.ferry f.val = { s.ferry f.val with
          block := none, started := false, rd := 0, wr := 0, inflight := 0,
          cur := if b.last then none else (s.ferry f.val).cur, at_ := if b.last then 0 else (s.ferry f.val).at_ + 32 }
      ∧ t.tmq = s.tmq ++ (if b.tmen then [⟨.ferry f.val, b.tmi, n, some 1⟩] else []) := by
  have hfilling : (decide (b.ds = 1) && s.mem.fills.any (fun _ => true)) = false := by
    by_cases hd : b.ds = 1
    · rw [hfills hd, List.any_nil, Bool.and_false]
    · rw [decide_eq_false hd, Bool.false_and]
  generalize hx : ({ s.ferry f.val with
    block := none, started := false, rd := 0, wr := 0, inflight := 0,
    cur := if b.last then none else (s.ferry f.val).cur, at_ := if b.last then 0 else (s.ferry f.val).at_ + 32 } : Ferry) = x
  have hexec : exec (.ferryBlockComplete f) s = .next (signal s (if b.tmen then
      { (s.count (cFerry f.val 2) 1).setFerry f.val x with tmq := s.tmq ++ [⟨.ferry f.val, b.tmi, n, some 1⟩] }
      else (s.count (cFerry f.val 2) 1).setFerry f.val x)) := by
    change execFerryBlockComplete f s = _
    simp only [execFerryBlockComplete, hblock, hb, Nat.not_lt.mpr hover, decide_false, hcommitted, hfilling, Bool.not_true, Bool.or_self,
      Bool.false_eq_true, if_false, howner, hx, done, State.setFerry_tmq, State.count_tmq]
    cases b.tmen <;> rfl
  have hferry : ((s.count (cFerry f.val 2) 1).setFerry f.val x).ferry f.val = x := by rw [State.ferry_setFerry, if_pos rfl]
  refine ⟨_, hexec, ?_, ?_, ?_, ?_⟩
  · rw [signal_regs]; split <;> exact State.count_regs ..
  · rw [signal_mem]; split <;> exact State.count_mem ..
  · rw [signal_ferry]; split <;> exact hferry
  · rw [signal_tmq]
    split
    · rfl
    · exact (State.count_tmq ..).trans (List.append_nil _).symm

end

end Sys2Proof.Machine
end

section
/-! The DRAM read port and the rings of edge ports (R267, R268, R287). -/
namespace Sys2Proof.Machine

/-- R287: the picked ferry has one more tag out. -/
theorem dramReadPortPick_facts {f : Nat} {s : State} (hup : s.dramUp = true) (hpick : s.dramPick = some f) :
    ∃ t, exec .dramReadPortPick s = .next t ∧ t.regs = s.regs ∧ t.ferry f = { s.ferry f with inflight := (s.ferry f).inflight + 1 } := by
  generalize hx : ({ s.ferry f with inflight := (s.ferry f).inflight + 1 } : Ferry) = x
  have hexec : exec .dramReadPortPick s = .next (signal s (if s.rate f = 0 then
      { s.setFerry f x with mem := { s.mem with ferryRr := f } } else s.setFerry f x)) := by
    change execDramReadPortPick s = _
    simp only [execDramReadPortPick, hup, hpick, hx, Bool.not_true, Bool.false_eq_true, if_false, State.setFerry_mem, done]
  have hferry : (s.setFerry f x).ferry f = x := by rw [State.ferry_setFerry, if_pos rfl]
  refine ⟨_, hexec, ?_, ?_⟩
  · rw [signal_regs]; split <;> rfl
  · rw [signal_ferry]; split <;> exact hferry

/-! ### The record an out-port writes (R267) -/

theorem payBytes_length (p : Pay) : (payBytes p).length = 32 := toBytes_length 32 _

/-- The 64 bytes of a record: payload, sideband, zeros. -/
def ringBytes (en : Entry) : List Byte := payBytes en.pay ++ toBytes 4 en.side.toNat ++ List.replicate 28 0

/-- A record's two writes store its bytes. -/
theorem byte_ringWrite (r : Ram) (a : Nat) (en : Entry) (psn : Bool) (b : Nat) :
    ((r.write a (payBytes en.pay) psn).write (a + 32) (toBytes 4 en.side.toNat ++ List.replicate 28 0) false).byte b
      = if a ≤ b ∧ b < a + 64 then nth (ringBytes en) (b - a) 0 else r.byte b := by
  have hhead : (toBytes 4 en.side.toNat ++ List.replicate 28 (0 : Byte)).length = 32 := by
    rw [List.length_append, toBytes_length, List.length_replicate]
  rw [Ram.byte_write, Ram.byte_write, hhead, payBytes_length, nth, ringBytes, List.append_assoc,
    List.getElem?_append (l₁ := payBytes en.pay), payBytes_length]
  by_cases hin : a ≤ b ∧ b < a + 64
  · rw [if_pos hin]
    by_cases hlow : b < a + 32
    · rw [if_neg (by omega), if_pos (by omega), if_pos (by omega)]
    · rw [if_pos (by omega), if_neg (by omega), show b - a - 32 = b - (a + 32) by omega]
  · rw [if_neg hin, if_neg (by omega), if_neg (by omega)]

theorem credit_mem (o : Option Nat) (s : State) : (credit o 1 s).mem = s.mem := by rw [credit_eq]
theorem credit_edge (o : Option Nat) (s : State) (e : Nat) : (credit o 1 s).edge e = s.edge e := by rw [credit_eq]; rfl

theorem edgeTile_outside : ∀ e : Fin 40, neighbour (edgeTile e.val) (edgeDir e.val) = none
    ∧ laneDepth (edgeTile e.val) (edgeDir e.val) = 64 := by decide

section
variable {e : Fin 40} {s : State}

theorem ringSlot_setInq (rest : List Entry) : (s.setEdge e.val { s.edge e.val with inq := rest }).ringSlot e.val = s.ringSlot e.val := by
  have hedge : (s.setEdge e.val { s.edge e.val with inq := rest }).edge e.val = { s.edge e.val with inq := rest } := by
    rw [State.edge_setEdge, if_pos rfl]
  simp only [State.ringSlot, hedge]
  rfl

/-- R267: the oldest entry of an out-port becomes a record. -/
theorem outPortRecordWrite_facts {k : Nat} {en : Entry} {rest : List Entry} (hinq : (s.edge e.val).inq = en :: rest)
    (hmode : s.edgeMode e.val = 1) (hslot : s.ringSlot e.val = some k) (hfit : s.ringBase e.val + k * 64 + 64 ≤ basinSize) :
    ∃ u, exec (.outPortRecordWrite e) s = .next u ∧ (u.edge e.val).inq = rest ∧ (u.edge e.val).recs = (s.edge e.val).recs ++ [k]
      ∧ u.mem.dram = s.mem.dram ∧ u.tiles = s.tiles
      ∧ ∀ b, u.mem.basin.byte b = if s.ringBase e.val + k * 64 ≤ b ∧ b < s.ringBase e.val + k * 64 + 64
          then nth (ringBytes en) (b - (s.ringBase e.val + k * 64)) 0 else s.mem.basin.byte b := by
  have hslot' := ringSlot_setInq (e := e) (s := s) rest
  have hbase : (s.setEdge e.val { s.edge e.val with inq := rest }).ringBase e.val = s.ringBase e.val := rfl
  have hedge : (s.setEdge e.val { s.edge e.val with inq := rest }).edge e.val = { s.edge e.val with inq := rest } := by
    rw [State.edge_setEdge, if_pos rfl]
  generalize hv : s.setEdge e.val { s.edge e.val with inq := rest } = v at *
  have hvm : v.mem = s.mem := by rw [← hv]; rfl
  have hvt : v.tiles = s.tiles := by rw [← hv]; rfl
  generalize ha : s.ringBase e.val + k * 64 = a at *
  have halign : a % 8 = 0 := by rw [← ha, State.ringBase]; omega
  have hhead : (toBytes 4 en.side.toNat ++ List.replicate 28 (0 : Byte)).length = 32 := by
    rw [List.length_append, toBytes_length, List.length_replicate]
  have hfirst := State.basinWrite_of_whole (s := v) (a := a) (bs := payBytes en.pay) (by omega) (by rw [payBytes_length]; omega) halign
    (by rw [payBytes_length]) (psnOf en.side)
  generalize hw : ({ v with mem := { v.mem with basin := v.mem.basin.write a (payBytes en.pay) (psnOf en.side) } } : State) = w at hfirst
  have hwe : w.edge e.val = v.edge e.val := by rw [← hw]; rfl
  have hwt : w.tiles = v.tiles := by rw [← hw]
  have hwm : w.mem = { v.mem with basin := v.mem.basin.write a (payBytes en.pay) (psnOf en.side) } := by rw [← hw]
  have hsecond := State.basinWrite_of_whole (s := w) (a := a + 32) (bs := toBytes 4 en.side.toNat ++ List.replicate 28 0) (by omega)
    (by rw [hhead]; omega) (by omega) (by rw [hhead]) false
  generalize hx : ({ w with mem := { w.mem with basin := w.mem.basin.write (a + 32) (toBytes 4 en.side.toNat ++ List.replicate 28 0) false } }
    : State) = x at hsecond
  have hxe : x.edge e.val = v.edge e.val := by rw [← hwe, ← hx]; rfl
  have hxt : x.tiles = s.tiles := by rw [← hx, ← hvt, ← hwt]
  have hxm : x.mem = { s.mem with
      basin := (s.mem.basin.write a (payBytes en.pay) (psnOf en.side)).write (a + 32)
        (toBytes 4 en.side.toNat ++ List.replicate 28 0) false } := by rw [← hx, hwm, hvm]
  have hwrite : ringWrite e.val en v = some (x.setEdge e.val { x.edge e.val with
      recs := (x.edge e.val).recs ++ [k], wr := (k + 1) % max (x.ringSize e.val) 1 }) := by
    rw [ringWrite, hslot', hslot, Option.map_some]
    dsimp only
    rw [hbase, ha, hfirst]
    dsimp only
    rw [hsecond]
  have hexec : exec (.outPortRecordWrite e) s = .next (signal s (credit (s.linkSender (edgeTile e.val) (edgeDir e.val)) 1 (x.setEdge e.val
      { x.edge e.val with recs := (x.edge e.val).recs ++ [k], wr := (k + 1) % max (x.ringSize e.val) 1 }))) := by
    change execOutPortRecordWrite e s = _
    simp only [execOutPortRecordWrite, hinq]
    rw [if_neg (not_not.mpr hmode), hv, hwrite]
    rfl
  refine ⟨_, hexec, ?_, ?_, ?_, ?_, fun b => ?_⟩
  · rw [signal_edge, credit_edge, State.edge_setEdge, if_pos rfl, hxe, hedge]
  · rw [signal_edge, credit_edge, State.edge_setEdge, if_pos rfl, hxe, hedge]
  · rw [signal_mem, credit_mem, State.setEdge_mem, hxm]
  · rw [signal_tiles, (credit_keeps _ _).1, State.setEdge_tiles, hxt]
  · rw [signal_mem, credit_mem, State.setEdge_mem, hxm]
    exact byte_ringWrite s.mem.basin a en (psnOf en.side) b

/-- R268: an in-port takes the oldest record of its ring, and its entry enters lane 0 of the edge tile. -/
theorem inPortRecordSend_facts {k : Nat} {rest : List Nat} (hmode : s.edgeMode e.val = 2) (hgsr : s.gsr (regionOf (edgeTile e.val)) = false)
    (hused : (s.edge e.val).used < 64) (hrecs : (s.edge (s.inRing e.val)).recs = k :: rest) {a : Nat}
    (ha : s.ringBase (s.inRing e.val) + k * 64 = a) (hfit : a + 64 ≤ basinSize) (hclean : s.mem.basin.CleanOn a 64) {side : Word}
    (hside : BitVec.ofNat 32 (ofBytes ((List.range 4).map (fun i => s.mem.basin.byte (a + 32 + i)))) = side)
    (hpurge : s.purging (strOf side) = false) (hroom : (s.lane (edgeTile e.val) (edgeDir e.val) 0).length < 64) :
    ∃ u, exec (.inPortRecordSend e) s = .next u ∧ (u.edge e.val).used = (s.edge e.val).used + 1 ∧ (u.edge (s.inRing e.val)).recs = rest
      ∧ u.mem = s.mem ∧ u.lane (edgeTile e.val) (edgeDir e.val) 0 = s.lane (edgeTile e.val) (edgeDir e.val) 0
          ++ [⟨payOfBytes ((List.range 32).map (fun i => s.mem.basin.byte (a + i))), side⟩] := by
  have hread := State.basinRead_of_clean (s := s) (hclean.mono (show 32 ≤ 64 by decide)) (by omega) (by omega)
  have hread' := State.basinRead_of_clean (s := s) (a := a + 32) (n := 4) (fun w hlo hhi => hclean w (by omega) (by omega)) (by omega)
    (by omega)
  generalize hr : s.inRing e.val = r at *
  generalize hen : (⟨payOfBytes ((List.range 32).map (fun i => s.mem.basin.byte (a + i))), side⟩ : Entry) = en
  have htake : ringTake r s = some (en, false, s.setEdge r { s.edge r with recs := rest }) := by
    simp only [ringTake, hrecs, ha, hread, hread', hside, Bool.or_self, Bool.false_eq_true, if_false, hen]
  generalize hv : s.setEdge r { s.edge r with recs := rest } = v at htake
  have hvr : (v.edge r).recs = rest := by rw [← hv, State.edge_setEdge, if_pos rfl]
  have hvu : (v.edge e.val).used = (s.edge e.val).used := by
    rw [← hv, State.edge_setEdge]
    split
    · next h => rw [h]
    · rfl
  generalize hw : v.setEdge e.val { v.edge e.val with used := (v.edge e.val).used + 1 } = w
  have hwr : (w.edge r).recs = rest := by
    rw [← hw, State.edge_setEdge]
    split
    · next h => rw [← h, hvr]
    · exact hvr
  have hwu : (w.edge e.val).used = (s.edge e.val).used + 1 := by rw [← hw, State.edge_setEdge, if_pos rfl, hvu]
  have hwm : w.mem = s.mem := by rw [← hw, ← hv]; rfl
  have hwl : w.lane (edgeTile e.val) (edgeDir e.val) 0 = s.lane (edgeTile e.val) (edgeDir e.val) 0 := by rw [← hw, ← hv]; rfl
  have hwgsr : w.gsr (regionOf (edgeTile e.val)) = false := by rw [← hgsr, ← hw, ← hv]; rfl
  have hwpurge : w.purging (strOf side) = false := by rw [← hpurge, ← hw, ← hv]; rfl
  obtain ⟨hnone, hdepth⟩ := edgeTile_outside e
  have harrive : laneArrive (edgeTile e.val) (edgeDir e.val) 0 en w
      = w.setLane (edgeTile e.val) (edgeDir e.val) 0 (s.lane (edgeTile e.val) (edgeDir e.val) 0 ++ [en]) := by
    have hstr : w.purging (strOf en.side) = false := by rw [← hen]; exact hwpurge
    simp only [laneArrive, hnone, hwgsr, hstr, hdepth, hwl, Nat.not_le.mpr hroom, Bool.or_self, Bool.false_eq_true, if_false]
  have hexec : exec (.inPortRecordSend e) s = .next (signal s (w.setLane (edgeTile e.val) (edgeDir e.val) 0
      (s.lane (edgeTile e.val) (edgeDir e.val) 0 ++ [en]))) := by
    change execInPortRecordSend e s = _
    simp only [execInPortRecordSend, hmode, hgsr, hused, decide_true, Bool.not_false, Bool.and_self, Bool.not_true, Bool.false_eq_true,
      if_false, hr, htake, hw, harrive, done]
  refine ⟨_, hexec, ?_, ?_, ?_, ?_⟩
  · rw [signal_edge]; exact hwu
  · rw [signal_edge]; exact hwr
  · rw [signal_mem]; exact hwm
  · rw [State.lane, signal_fabric]
    exact tget_tset_same [] w.fabric.lanes _ _

end

/-- Settles O30. -/
theorem ferriesAndEdgePorts : Obligations.FerriesAndEdgePorts := by
  refine ⟨?_, ?_⟩
  · intro f list n b ws s x clean
    refine ⟨fun hs howner => ⟨fun hon hroom => ?_, fun hon hfull => ?_, fun hoff => ?_⟩, ?_, ?_, fun hup hpick => ?_⟩
    · rw [exec_ferryKick list hs, ferryKickOp_of_room howner list.toNat none none hon hroom]
      refine ⟨_, rfl, signal_regs .., signal_mem .., ?_⟩
      rw [signal_ferry, State.ferry_setFerry, if_pos rfl]
    · rw [exec_ferryKick list hs, ferryKickOp_of_full howner list.toNat none none hon hfull]
    · rw [exec_ferryKick list hs, ferryKickOp_of_off list.toNat none none hoff]
    · intro k ks hquota hcause hblock hcur hkicks
      refine ⟨exec_ferryBlockStart_of_out hquota hcause hblock hcur hkicks, fun hin halign hfit hclean => ?_⟩
      intro four blk hgood hsrc hdst
      refine ⟨_, exec_ferryBlockStart_of_good hquota hcause hblock hcur hkicks hin halign hfit
        (fun w hlo hhi => hclean w (by omega) (by omega)) rfl hgood hsrc hdst, signal_regs .., signal_mem .., ?_⟩
      rw [signal_ferry, State.ferry_setFerry, if_pos rfl]
    · intro hblock hb
      refine ⟨?_, ?_, fun hover hcommitted hfills howner => exec_ferryBlockComplete hblock hb hover hcommitted hfills howner⟩
      · intro p m hnext hquota hsrc hfit hcount hclean
        obtain ⟨hregs, hmem, hferry⟩ := ferryStage_facts f.val ((List.range m).map (fun i =>
          (s.mem.basin.byte (rowAddr b.saddr b.len p b.sstr + i), false))) s
        refine ⟨_, exec_ferryReadComplete hblock hb hnext hquota hsrc hfit hcount hclean, (signal_regs ..).trans hregs,
          (signal_mem ..).trans hmem, ?_⟩
        rw [signal_ferry, hferry, List.length_map, List.length_range]
      · intro hds hcodec hcount hfit hcommitted hmore k hstaged hflags hclean
        have hexec := exec_ferryWrite hblock hb hds hcodec hfit hcommitted hmore rfl hstaged hflags hclean
        have hferry := State.ferry_setFerry s f.val f.val { x with staged := x.staged.drop k, wr := x.wr + k }
        rw [if_pos rfl] at hferry
        generalize hv : s.setFerry f.val { x with staged := x.staged.drop k, wr := x.wr + k } = v at hexec hferry
        have hvr : v.regs = s.regs := by rw [← hv]; rfl
        have hvm : v.mem = s.mem := by rw [← hv]; rfl
        have hvh : v.hostMem = s.hostMem := by rw [← hv]; rfl
        refine ⟨_, hexec, ?_, ?_, ?_, ?_, fun a => ?_⟩
        · rw [signal_regs, State.count_regs]; exact hvr
        · rw [signal_mem, State.count_mem, State.basinStored]; dsimp only; rw [hvm]
        · rw [signal_hostMem, State.count_hostMem]; exact hvh
        · rw [signal_ferry, State.ferry, State.count_ferries]; exact hferry
        · rw [signal_mem, State.count_mem, State.basinStored]
          dsimp only
          have hlen : ((x.staged.take k).map (·.1)).length = k := by rw [List.length_map, List.length_take]; omega
          rw [hvm, Ram.byte_write, hlen]
          refine ite_congr rfl (fun ha => ?_) (fun _ => rfl)
          have hlow : b.daddr + x.wr ≤ a := ha.1
          have hhigh : a < b.daddr + x.wr + k := ha.2
          rw [List.getElem?_map, List.getElem?_take_of_lt (show a - (b.daddr + x.wr) < k by omega), nth]
          cases x.staged[a - (b.daddr + x.wr)]? <;> rfl
    · exact dramReadPortPick_facts hup hpick
  · intro e k s x r a t
    refine ⟨fun en rest hinq hmode hslot hfit => outPortRecordWrite_facts hinq hmode hslot hfit, ?_⟩
    intro rest hmode hgsr hused hrecs hfit hclean side hpurge hroom
    exact inPortRecordSend_facts hmode hgsr hused hrecs rfl hfit hclean rfl hpurge hroom

end Sys2Proof.Machine
end

section
/-! Rules of the region sequencer (10): what a trace record, a WAIT code and an issue change, and what the issue of an
instruction comes to in a state in which its sequencer issues. -/
namespace Sys2Proof.Machine

/-! ### The state outside one sequencer -/

/-- From s to t nothing but the sequencer of region g, tiles and counters has changed. -/
def SeqRest (g : Nat) (s t : State) : Prop :=
  (∀ h, h ≠ g → t.seq h = s.seq h) ∧ t.regs = s.regs ∧ t.active = s.active ∧ t.mem = s.mem ∧ t.hostMem = s.hostMem
    ∧ t.streams = s.streams

theorem SeqRest.refl (g : Nat) (s : State) : SeqRest g s s := ⟨fun _ _ => rfl, rfl, rfl, rfl, rfl, rfl⟩

theorem SeqRest.trans {g : Nat} {s t u : State} (hst : SeqRest g s t) (htu : SeqRest g t u) : SeqRest g s u := by
  obtain ⟨h1, h2, h3, h4, h5, h6⟩ := hst
  obtain ⟨k1, k2, k3, k4, k5, k6⟩ := htu
  exact ⟨fun h hh => (k1 h hh).trans (h1 h hh), k2.trans h2, k3.trans h3, k4.trans h4, k5.trans h5, k6.trans h6⟩

theorem SeqRest.modTile (g : Nat) (s : State) (t : Nat) (f : Tile → Tile) : SeqRest g s (s.modTile t f) :=
  ⟨fun _ _ => rfl, rfl, rfl, rfl, rfl, rfl⟩

@[simp] theorem State.seq_modSeq (s : State) (g : Nat) (f : Seq → Seq) : (s.modSeq g f).seq g = f (s.seq g) := by
  rw [State.modSeq, State.seq_setSeq, if_pos rfl]

theorem State.seq_modSeq_ne (s : State) {g h : Nat} (f : Seq → Seq) (hne : h ≠ g) : (s.modSeq g f).seq h = s.seq h := by
  rw [State.modSeq, State.seq_setSeq, if_neg hne]

theorem SeqRest.modSeq (g : Nat) (s : State) (f : Seq → Seq) : SeqRest g s (s.modSeq g f) :=
  ⟨fun _ => s.seq_modSeq_ne f, rfl, rfl, rfl, rfl, rfl⟩

@[simp] theorem State.count_seq (s : State) (off k g : Nat) : (s.count off k).seq g = s.seq g := by
  simp only [State.seq, State.count_seqs]

theorem SeqRest.count (g : Nat) (s : State) (off k : Nat) : SeqRest g s (s.count off k) :=
  ⟨fun _ _ => State.count_seq .., State.count_regs .., State.count_active .., State.count_mem .., State.count_hostMem ..,
    State.count_streams ..⟩

/-! ### Trace records and WAIT codes -/

/-- A record of a sequencer enters its FIFO, or is counted as lost, or is not wanted. -/
theorem seqTrace_cases (g type : Nat) (key : Word) (detail tag : Nat) (s : State) :
    seqTrace g type key detail tag s = s
      ∨ (∃ b, seqTrace g type key detail tag s = s.modSeq g (fun q => { q with trace := b }))
      ∨ seqTrace g type key detail tag s = s.count cTraceLost 1 := by
  unfold seqTrace State.trace
  split
  · exact .inl rfl
  · rw [if_pos rfl]
    split
    · exact .inr (.inl ⟨_, rfl⟩)
    · exact .inr (.inr rfl)

section
variable (g type : Nat) (key : Word) (detail tag : Nat) (s : State)

theorem SeqRest.seqTrace : SeqRest g s (seqTrace g type key detail tag s) := by
  rcases seqTrace_cases g type key detail tag s with h | ⟨b, h⟩ | h <;> rw [h]
  · exact .refl g s
  · exact .modSeq g s _
  · exact .count g s _ _

@[simp] theorem seqTrace_tiles : (seqTrace g type key detail tag s).tiles = s.tiles := by
  rcases seqTrace_cases g type key detail tag s with h | ⟨b, h⟩ | h <;> rw [h]
  · rfl
  · exact State.count_tiles ..

theorem seqTrace_seq : ∃ tr, (seqTrace g type key detail tag s).seq g = { s.seq g with trace := tr } := by
  rcases seqTrace_cases g type key detail tag s with h | ⟨b, h⟩ | h <;> rw [h]
  · exact ⟨_, rfl⟩
  · exact ⟨b, s.seq_modSeq g _⟩
  · exact ⟨(s.seq g).trace, State.count_seq ..⟩

end

/-- A WAIT code shown with its trace records: the sequencer's WAIT and FIFO, and a counter, are all that changes. -/
theorem seqWait_facts (g code : Nat) (s : State) : SeqRest g s (seqWait g code s) ∧ (seqWait g code s).tiles = s.tiles
    ∧ ∃ tr, (seqWait g code s).seq g = { s.seq g with wait := code, trace := tr } := by
  unfold seqWait
  dsimp only
  split
  next h => exact ⟨.refl g s, rfl, (s.seq g).trace, by rw [← h]⟩
  next =>
    have hend : ∀ (p : Prop) [Decidable p] (type detail : Nat) (u : State), SeqRest g s u → u.tiles = s.tiles →
        (∃ tr, u.seq g = { s.seq g with trace := tr }) →
        let v := if p then seqTrace g type (s.seq g).key detail 0 u else u
        SeqRest g s v ∧ v.tiles = s.tiles ∧ ∃ tr, v.seq g = { s.seq g with trace := tr } := by
      intro p _ type detail u hu htiles hseq v
      by_cases hp : p
      · obtain ⟨tr, htr⟩ := seqTrace_seq g type (s.seq g).key detail 0 u
        obtain ⟨tr', htr'⟩ := hseq
        simp only [v, if_pos hp]
        exact ⟨hu.trans (.seqTrace ..), (seqTrace_tiles ..).trans htiles, tr, by rw [htr, htr']⟩
      · simp only [v, if_neg hp]
        exact ⟨hu, htiles, hseq⟩
    obtain ⟨hr1, ht1, hs1⟩ := hend ((s.seq g).wait ≠ 0) 7 0 s (.refl g s) rfl ⟨_, rfl⟩
    obtain ⟨hr2, ht2, tr, hs2⟩ := hend (code ≠ 0) 6 code _ hr1 ht1 hs1
    exact ⟨hr2.trans (.modSeq ..), ht2, tr, by rw [State.seq_modSeq, hs2]⟩

/-- A counted issue: the sequencer goes on at address a. -/
theorem seqGo_facts (g a : Nat) (s : State) : SeqRest g s (seqGo g a s) ∧ (seqGo g a s).tiles = s.tiles
    ∧ ∃ tr, (seqGo g a s).seq g = { s.seq g with pc := a % 0x20000, step := false, wait := 0, trace := tr } := by
  obtain ⟨hrest, htiles, tr, hseq⟩ := seqWait_facts g 0 (s.count (cSeq g 0) 1)
  refine ⟨((SeqRest.count g s _ _).trans hrest).trans (.modSeq ..), ?_, tr, ?_⟩
  · exact htiles.trans (State.count_tiles ..)
  · unfold seqGo
    rw [State.seq_modSeq, hseq, State.count_seq]

theorem seqGoes_of_rest {g : Nat} {x : Seq} {s u : State} (a : Nat) (hrest : SeqRest g s u) (hx : u.seq g = x) :
    SeqGoes g x a s (signal s (seqGo g a u)) := by
  obtain ⟨hgo, -, tr, hseq⟩ := seqGo_facts g a u
  obtain ⟨h1, h2, h3, h4, h5, h6⟩ := hrest.trans hgo
  refine ⟨⟨tr, by rw [signal_seq, hseq, hx]⟩, fun h hh => by rw [signal_seq, h1 h hh], ?_⟩
  rw [signal_regs, signal_active, signal_mem, signal_hostMem, signal_streams]
  exact ⟨h2, h3, h4, h5, h6⟩

theorem seqHolds_of_rest {g : Nat} {x : Seq} {s u : State} (code : Nat) (hrest : SeqRest g s u) (htiles : u.tiles = s.tiles)
    (hx : u.seq g = x) : SeqHolds g code x s (signal s (seqWait g code u)) := by
  obtain ⟨hgo, ht, tr, hseq⟩ := seqWait_facts g code u
  obtain ⟨h1, h2, -, h4, -, h6⟩ := hrest.trans hgo
  refine ⟨⟨tr, by rw [signal_seq, hseq, hx]⟩, fun h hh => by rw [signal_seq, h1 h hh], ?_⟩
  rw [signal_regs, signal_mem, signal_streams, signal_tiles]
  exact ⟨h2, h4, h6, ht.trans htiles⟩

theorem seqGo_signal_tiles (g a : Nat) (s u : State) : (signal s (seqGo g a u)).tiles = u.tiles := by
  rw [signal_tiles, (seqGo_facts g a u).2.1]

/-! ### Issue (R203, R214, R215) -/

theorem seqRead_of_clean {g a : Nat} {s : State} (h : tget .clean (s.seq g).ecc (a / 4) = .clean) :
    seqRead g a s = (tget 0 (s.seq g).mem (a / 4), false, s) := by
  simp only [seqRead, h, Seq.ldw]

section
variable {g op : Nat} {n : Word} {legal : Nat → Bool} {key : Bool} {cp : Nat → Bool} {body : Nat → State → SeqRes} {s u : State}

/-- The instruction at PC issues: what is left is its body's result. -/
theorem SeqAt.issue (h : SeqAt g n s) (hop : nbits n.toNat 26 6 = op) (hleg : legal n.toNat = true)
    (hkey : (key && !(s.seq g).keyOk) = false) {r : SeqRes} (hbody : body n.toNat s = r) :
    seqIssue g op legal key cp body s = match r with
      | .next s2 => done s (seqGo g (fallThrough (s.seq g).pc (s2.seq g).loops).1
          (s2.modSeq g (fun x => { x with loops := (fallThrough (s.seq g).pc (s2.seq g).loops).2 })))
      | .jump a s2 => done s (seqGo g a s2)
      | .hold c s2 => done s (seqWait g c s2)
      | .illegal => done s (seqFault g 0x06 0 n s)
      | .lost s2 => done s (seqFaultG g 0x04 false n s2)
      | .ended s2 => done s s2 := by
  obtain ⟨hruns, hbreak, hsids, hpc, hecc, hmem⟩ := h
  have hread : seqRead g (s.seq g).pc s = (n, false, s) := by rw [seqRead_of_clean hecc, hmem]
  have hpc' : ¬ 0xC000 ≤ (s.seq g).pc := by omega
  simp only [seqIssue, hruns, hbreak, hsids, hpc', hread, hop, hleg, hkey, hbody, Bool.not_true, Bool.false_eq_true, if_false,
    List.isEmpty_nil, Bool.false_and, ne_eq, not_true_eq_false]
  cases r <;> rfl

theorem SeqAt.skips (h : SeqAt g n s) (hop : nbits n.toNat 26 6 ≠ op) : seqIssue g op legal key cp body s = .next s := by
  obtain ⟨hruns, hbreak, hsids, hpc, hecc, hmem⟩ := h
  have hread : seqRead g (s.seq g).pc s = (n, false, s) := by rw [seqRead_of_clean hecc, hmem]
  have hpc' : ¬ 0xC000 ≤ (s.seq g).pc := by omega
  simp only [seqIssue, hruns, hbreak, hpc', hread, hop, Bool.not_true, Bool.false_eq_true, if_false, ne_eq, not_false_eq_true,
    if_true, idle]

theorem SeqAt.reserved (h : SeqAt g n s) (hop : nbits n.toNat 26 6 = op) (hleg : legal n.toNat = false) :
    seqIssue g op legal key cp body s = .next (signal s (seqFault g 0x01 7 n s)) := by
  obtain ⟨hruns, hbreak, hsids, hpc, hecc, hmem⟩ := h
  have hread : seqRead g (s.seq g).pc s = (n, false, s) := by rw [seqRead_of_clean hecc, hmem]
  have hpc' : ¬ 0xC000 ≤ (s.seq g).pc := by omega
  simp only [seqIssue, hruns, hbreak, hsids, hpc', hread, hop, hleg, Bool.not_true, Bool.not_false, Bool.false_eq_true, if_false,
    List.isEmpty_nil, ne_eq, not_true_eq_false, if_true, done]

theorem SeqAt.keyless (h : SeqAt g n s) (hop : nbits n.toNat 26 6 = op) (hleg : legal n.toNat = true)
    (hkey : (s.seq g).keyOk = false) : seqIssue g op legal true cp body s = .next (signal s (seqFault g 0x06 0 n s)) := by
  obtain ⟨hruns, hbreak, hsids, hpc, hecc, hmem⟩ := h
  have hread : seqRead g (s.seq g).pc s = (n, false, s) := by rw [seqRead_of_clean hecc, hmem]
  have hpc' : ¬ 0xC000 ≤ (s.seq g).pc := by omega
  simp only [seqIssue, hruns, hbreak, hsids, hpc', hread, hop, hleg, hkey, Bool.not_true, Bool.not_false, Bool.false_eq_true,
    if_false, List.isEmpty_nil, ne_eq, not_true_eq_false, Bool.false_and, Bool.and_self, if_true, done]

theorem seqIssue_of_not_runs (h : s.seqRuns g = false) : seqIssue g op legal key cp body s = .next s := by
  simp only [seqIssue, h, Bool.not_false, if_true, idle]

/-- An instruction that goes on leaves its sequencer at the next address of its loops. -/
theorem SeqAt.goes_next (h : SeqAt g n s) (hop : nbits n.toNat 26 6 = op) (hleg : legal n.toNat = true)
    (hkey : (key && !(s.seq g).keyOk) = false) {x : Seq} (hbody : body n.toNat s = .next u) (hrest : SeqRest g s u)
    (hx : u.seq g = x) :
    ∃ t, seqIssue g op legal key cp body s = .next t ∧ t.tiles = u.tiles ∧ SeqGoes g
      { x with loops := (fallThrough (s.seq g).pc x.loops).2 } (fallThrough (s.seq g).pc x.loops).1 s t := by
  refine ⟨_, h.issue hop hleg hkey hbody, (seqGo_signal_tiles ..).trans rfl, ?_⟩
  subst hx
  exact seqGoes_of_rest _ (hrest.trans (.modSeq ..)) (State.seq_modSeq ..)

/-- An instruction that goes on and leaves the loop stack alone. -/
theorem SeqAt.goes_on (h : SeqAt g n s) (hop : nbits n.toNat 26 6 = op) (hleg : legal n.toNat = true)
    (hkey : (key && !(s.seq g).keyOk) = false) {x : Seq} (hbody : body n.toNat s = .next u) (hrest : SeqRest g s u)
    (hx : u.seq g = x) (hloops : x.loops = (s.seq g).loops) :
    ∃ t, seqIssue g op legal key cp body s = .next t ∧ t.tiles = u.tiles ∧ SeqGoes g
      { x with loops := (fallThrough (s.seq g).pc (s.seq g).loops).2 } (fallThrough (s.seq g).pc (s.seq g).loops).1 s t := by
  have hgoes := h.goes_next (cp := cp) hop hleg hkey hbody hrest hx
  rwa [hloops] at hgoes

/-- An instruction that jumps leaves its sequencer at its target. -/
theorem SeqAt.goes_jump (h : SeqAt g n s) (hop : nbits n.toNat 26 6 = op) (hleg : legal n.toNat = true)
    (hkey : (key && !(s.seq g).keyOk) = false) {a : Nat} {x : Seq} (hbody : body n.toNat s = .jump a u) (hrest : SeqRest g s u)
    (hx : u.seq g = x) :
    ∃ t, seqIssue g op legal key cp body s = .next t ∧ t.tiles = u.tiles ∧ SeqGoes g x a s t :=
  ⟨_, h.issue hop hleg hkey hbody, seqGo_signal_tiles .., seqGoes_of_rest a hrest hx⟩

/-- An instruction that waits shows its WAIT code. -/
theorem SeqAt.holds (h : SeqAt g n s) (hop : nbits n.toNat 26 6 = op) (hleg : legal n.toNat = true)
    (hkey : (key && !(s.seq g).keyOk) = false) {c : Nat} {x : Seq} (hbody : body n.toNat s = .hold c u) (hrest : SeqRest g s u)
    (htiles : u.tiles = s.tiles) (hx : u.seq g = x) :
    ∃ t, seqIssue g op legal key cp body s = .next t ∧ SeqHolds g c x s t :=
  ⟨_, h.issue hop hleg hkey hbody, seqHolds_of_rest c hrest htiles hx⟩

theorem SeqAt.illegal (h : SeqAt g n s) (hop : nbits n.toNat 26 6 = op) (hleg : legal n.toNat = true)
    (hkey : (key && !(s.seq g).keyOk) = false) (hbody : body n.toNat s = .illegal) :
    seqIssue g op legal key cp body s = .next (signal s (seqFault g 0x06 0 n s)) := h.issue hop hleg hkey hbody

theorem SeqAt.ended (h : SeqAt g n s) (hop : nbits n.toNat 26 6 = op) (hleg : legal n.toNat = true)
    (hkey : (key && !(s.seq g).keyOk) = false) (hbody : body n.toNat s = .ended u) :
    seqIssue g op legal key cp body s = .next (signal s u) := h.issue hop hleg hkey hbody

end

/-! ### Registers and windows (R207) -/

/-- Two windows side by side: the p registers of one are the q registers of the one below. -/
theorem winIx_inj {w m n : Nat} (hm : 8 ≤ m) (hm' : m < 24) (hn : 8 ≤ n) (hn' : n < 24) : winIx w m = winIx w n ↔ m = n := by
  unfold winIx
  split <;> split <;> omega

theorem Seq.reg_setReg (x : Seq) (n m : Nat) (v : Word) : (x.setReg n v).reg m = if m = n ∧ m < 24 then v else x.reg m := by
  unfold Seq.setReg
  by_cases hn : n < 8
  · rw [if_pos hn]
    unfold Seq.reg
    dsimp only
    by_cases hm : m < 8
    · rw [if_pos hm, if_pos hm, tget_tset]
      by_cases he : m = n
      · rw [if_pos he, if_pos ⟨he, by omega⟩]
      · rw [if_neg he, if_neg (fun h => he h.1)]
    · rw [if_neg hm, if_neg (fun (h : m = n ∧ m < 24) => hm (by omega)), if_neg hm]
  rw [if_neg hn]
  by_cases hn' : n < 24
  · rw [if_pos hn']
    unfold Seq.reg
    dsimp only
    by_cases hm : m < 8
    · rw [if_pos hm, if_pos hm, if_neg (by omega)]
    rw [if_neg hm]
    by_cases hm' : m < 24
    · rw [if_pos hm', tget_tset]
      by_cases he : m = n
      · rw [he, if_pos rfl, if_pos ⟨rfl, hn'⟩]
      · rw [if_neg (fun h => he ((winIx_inj (by omega) hm' (by omega) hn').mp h)), if_neg (fun h => he h.1), if_neg hm, if_pos hm']
    · rw [if_neg hm', if_neg (fun h => hm' h.2), if_neg hm, if_neg hm']
  · rw [if_neg hn', if_neg (by omega)]

theorem Seq.setReg_loops (x : Seq) (n : Nat) (v : Word) : (x.setReg n v).loops = x.loops := by
  unfold Seq.setReg
  split
  · rfl
  · split <;> rfl

theorem tileOf_inj {g i j : Nat} : tileOf g i = tileOf g j ↔ i = j := by
  unfold tileOf
  omega

end Sys2Proof.Machine
end

section
/-! Sequencer instructions on registers and memory (10; R201, R204, R205, R225, R239). -/
namespace Sys2Proof.Machine

/-! ### Immediates and values -/

theorem sgn_nbits {w : Nat} (hw : 0 < w) (n : Word) : sgn w (nbits n.toNat 0 w) = (n.setWidth w : BitVec w).toInt := by
  have hpow : 2 ^ w = 2 ^ (w - 1) * 2 := by rw [← Nat.pow_succ, Nat.succ_eq_add_one, Nat.sub_add_cancel hw]
  have hv : nbits n.toNat 0 w = (n.setWidth w : BitVec w).toNat := by
    rw [BitVec.toNat_setWidth, nbits, Nat.pow_zero, Nat.div_one]
  have hlt : (n.setWidth w : BitVec w).toNat < 2 ^ (w - 1) * 2 := hpow ▸ (n.setWidth w : BitVec w).isLt
  have hcast : ((2 ^ w : Nat) : Int) = 2 * 2 ^ (w - 1) := by rw [hpow]; push_cast; ring
  rw [hv, sgn_eq hw, Nat.mod_eq_of_lt hlt, BitVec.toInt_eq_toNat_cond, hcast, hpow]
  by_cases h : 2 ^ (w - 1) ≤ (n.setWidth w : BitVec w).toNat
  · rw [if_pos h, if_neg (by omega)]
  · rw [if_neg h, if_pos (by omega)]

theorem immS_eq (n : Word) : immS n.toNat = (n.setWidth 16 : BitVec 16).signExtend 32 := by
  rw [immS, sgn_nbits (by omega), BitVec.signExtend]

theorem immF_eq (n : Word) : BitVec.ofNat 32 (immF n.toNat) = (n.setWidth 16 : BitVec 16).setWidth 32 := by
  refine BitVec.eq_of_toNat_eq ?_
  simp [immF, nbits]

theorem ite_slt (a b : Word) : (if a.slt b then 1 else 0 : Word) = if a.toInt < b.toInt then 1 else 0 := by
  simp [BitVec.slt]

theorem ite_ult (a b : Word) : (if a.ult b then 1 else 0 : Word) = if a.toNat < b.toNat then 1 else 0 := by
  simp [BitVec.ult]

theorem nbits_low_five (b : Word) : nbits b.toNat 0 5 = b.toNat % 32 := by
  simp only [nbits, Nat.pow_zero, Nat.div_one, Nat.reducePow]

theorem lui_eq (n : Word) : BitVec.ofNat 32 (immF n.toNat * 65536) = (n.setWidth 16 : BitVec 16).setWidth 32 <<< 16 := by
  refine BitVec.eq_of_toNat_eq ?_
  simp [immF, nbits, Nat.shiftLeft_eq]

/-- AFF sums index times stride over the active levels. -/
theorem affSum_eq (l : List (Nat × Nat × Nat × Nat × Nat)) (a : Word) :
    l.foldl (fun a l => a + BitVec.ofNat 32 (l.2.1 * l.2.2.1)) a
      = (l.map (fun l => BitVec.ofNat 32 l.2.1 * BitVec.ofNat 32 l.2.2.1)).foldl (· + ·) a := by
  rw [List.foldl_map]
  congr 1
  funext a l
  rw [BitVec.ofNat_mul]

/-! ### Value instructions -/

theorem exec_seqAff (g : RegionIx) (s : State) : exec (.seqAff g) s = seqValue g.val 0x1C (fun n => legR n && decide (rbF n = 0))
    (fun n x => x.loops.foldl (fun a l => a + BitVec.ofNat 32 (l.2.1 * l.2.2.1)) (x.reg (raF n))) s := rfl

section
variable {g : Nat} {n : Word} {s : State} (h : SeqAt g n s)
include h

/-- A value instruction writes RD and goes on; no other register changes. -/
theorem SeqAt.value {i : Instr} {op : Nat} {legal : Nat → Bool} (v : Nat → Seq → Word) {w : Word}
    (hi : exec i s = seqValue g op legal v s) (hv : v n.toNat (s.seq g) = w)
    (hop : nbits n.toNat 26 6 = op) (hleg : legal n.toNat = true) :
    ∃ t, exec i s = .next t
      ∧ SeqGoes g { (s.seq g).setReg (rdF n.toNat) w with loops := (fallThrough (s.seq g).pc (s.seq g).loops).2 }
          (fallThrough (s.seq g).pc (s.seq g).loops).1 s t ∧ t.tiles = s.tiles
      ∧ ∀ m, (t.seq g).reg m = if m = rdF n.toNat ∧ m < 24 then w else (s.seq g).reg m := by
  have hx : (s.modSeq g (fun x => x.setReg (rdF n.toNat) (v n.toNat x))).seq g = (s.seq g).setReg (rdF n.toNat) w := by
    rw [State.seq_modSeq, hv]
  obtain ⟨t, hexec, htiles, hgoes⟩ := h.goes_next (op := op) (legal := legal) (key := false) (cp := fun _ => false)
    (body := fun n s => .next (s.modSeq g (fun x => x.setReg (rdF n) (v n x)))) hop hleg rfl rfl (.modSeq ..) hx
  rw [Seq.setReg_loops] at hgoes
  refine ⟨t, hi.trans hexec, hgoes, htiles, fun m => ?_⟩
  obtain ⟨⟨tr, hseq⟩, -⟩ := hgoes
  rw [hseq, ← Seq.reg_setReg]
  rfl

/-- An instruction that writes RD with a function of RA and RB. -/
theorem SeqAt.alu {i : Instr} {op : Nat} (f : Word → Word → Word) {w : Word} (hi : exec i s = seqAlu g op f s)
    (hw : f ((s.seq g).reg (raF n.toNat)) ((s.seq g).reg (rbF n.toNat)) = w)
    (hop : nbits n.toNat 26 6 = op) (hleg : legR n.toNat = true) :
    ∃ t, exec i s = .next t
      ∧ SeqGoes g { (s.seq g).setReg (rdF n.toNat) w with loops := (fallThrough (s.seq g).pc (s.seq g).loops).2 }
          (fallThrough (s.seq g).pc (s.seq g).loops).1 s t ∧ t.tiles = s.tiles
      ∧ ∀ m, (t.seq g).reg m = if m = rdF n.toNat ∧ m < 24 then w else (s.seq g).reg m :=
  h.value (v := fun n x => f (x.reg (raF n)) (x.reg (rbF n))) hi hw hop hleg

end

/-- What every value instruction's row gives (10, Instructions). -/
theorem seqValues_facts (g : RegionIx) (n : Word) (s : State) (h : SeqAt g.val n s) :
      let x := s.seq g.val
      let k := n.toNat
      let a := x.reg (raF k)
      let b := x.reg (rbF k)
      let imm : BitVec 16 := n.setWidth 16
      let go := fallThrough x.pc x.loops
      (∀ p ∈ ([(.seqAdd g, 0x01, legR k, a + b), (.seqSub g, 0x02, legR k, a - b), (.seqAnd g, 0x03, legR k, a &&& b),
          (.seqOr g, 0x04, legR k, a ||| b), (.seqXor g, 0x05, legR k, a ^^^ b), (.seqSll g, 0x06, legR k, a <<< (b.toNat % 32)),
          (.seqSrl g, 0x07, legR k, a >>> (b.toNat % 32)), (.seqSra g, 0x08, legR k, a.sshiftRight (b.toNat % 32)),
          (.seqMul g, 0x09, legR k, a * b), (.seqSlt g, 0x0A, legR k, if a.toInt < b.toInt then 1 else 0),
          (.seqSltu g, 0x0B, legR k, if a.toNat < b.toNat then 1 else 0), (.seqAddi g, 0x0C, legI k, a + imm.signExtend 32),
          (.seqAndi g, 0x0D, legI k, a &&& imm.setWidth 32), (.seqOri g, 0x0E, legI k, a ||| imm.setWidth 32),
          (.seqLui g, 0x0F, regOk (rdF k) && decide (raF k = 0), imm.setWidth 32 <<< 16),
          (.seqAff g, 0x1C, legR k && decide (rbF k = 0),
            (x.loops.map (fun l => BitVec.ofNat 32 l.2.1 * BitVec.ofNat 32 l.2.2.1)).foldl (· + ·) a),
          (.seqMfs g, 0x29, regOk (rdF k) && decide (raF k = 0 ∧ rbF k < 12 ∧ nbits k 0 11 = 0), (x.special (rbF k)).getD 0)]
          : List (Instr × Nat × Bool × Word)),
        nbits k 26 6 = p.2.1 → p.2.2.1 = true →
        ∃ t, exec p.1 s = .next t ∧ SeqGoes g.val { x.setReg (rdF k) p.2.2.2 with loops := go.2 } go.1 s t ∧ t.tiles = s.tiles
          ∧ ∀ m, (t.seq g.val).reg m = if m = rdF k ∧ m < 24 then p.2.2.2 else x.reg m) := by
  intro x k a b imm go
  simp only [List.forall_mem_cons, List.not_mem_nil, false_implies, implies_true, and_true]
  refine ⟨?_, ?_, ?_, ?_, ?_, ?_, ?_, ?_, ?_, ?_, ?_, ?_, ?_, ?_, ?_, ?_, ?_⟩
  · exact h.alu (i := .seqAdd g) (fun a b => a + b) rfl rfl
  · exact h.alu (i := .seqSub g) (fun a b => a - b) rfl rfl
  · exact h.alu (i := .seqAnd g) (fun a b => a &&& b) rfl rfl
  · exact h.alu (i := .seqOr g) (fun a b => a ||| b) rfl rfl
  · exact h.alu (i := .seqXor g) (fun a b => a ^^^ b) rfl rfl
  · exact h.alu (i := .seqSll g) (fun a b => a <<< nbits b.toNat 0 5) rfl (congrArg (a <<< ·) (nbits_low_five b))
  · exact h.alu (i := .seqSrl g) (fun a b => a >>> nbits b.toNat 0 5) rfl (congrArg (a >>> ·) (nbits_low_five b))
  · exact h.alu (i := .seqSra g) (fun a b => a.sshiftRight (nbits b.toNat 0 5)) rfl (congrArg a.sshiftRight (nbits_low_five b))
  · exact h.alu (i := .seqMul g) (fun a b => a * b) rfl rfl
  · exact h.alu (i := .seqSlt g) (fun a b => if a.slt b then 1 else 0) rfl (ite_slt a b)
  · exact h.alu (i := .seqSltu g) (fun a b => if a.ult b then 1 else 0) rfl (ite_ult a b)
  · exact h.value (i := .seqAddi g) (fun n x => x.reg (raF n) + immS n) rfl (congrArg (a + ·) (immS_eq n))
  · exact h.value (i := .seqAndi g) (fun n x => x.reg (raF n) &&& BitVec.ofNat 32 (immF n)) rfl (congrArg (a &&& ·) (immF_eq n))
  · exact h.value (i := .seqOri g) (fun n x => x.reg (raF n) ||| BitVec.ofNat 32 (immF n)) rfl (congrArg (a ||| ·) (immF_eq n))
  · exact h.value (i := .seqLui g) (legal := fun n => regOk (rdF n) && decide (raF n = 0))
      (fun n _ => BitVec.ofNat 32 (immF n * 65536)) rfl (lui_eq n)
  · exact h.value _ (exec_seqAff g s) (affSum_eq x.loops a)
  · intro hop hleg
    refine h.value (i := .seqMfs g)
      (legal := fun n => regOk (rdF n) && decide (raF n = 0) && decide (rbF n < 12) && decide (nbits n 0 11 = 0))
      (fun n x => (x.special (rbF n)).getD 0) rfl rfl hop ?_
    simpa [Bool.and_eq_true, and_assoc] using hleg

/-! ### Memory (R201, R205) -/

theorem lwOk_eq {a : Nat} : lwOk a = true ↔ a % 4 = 0 ∧ (a < 0xC000 ∨ 0x18000 ≤ a ∧ a < 0x20000) := decide_eq_true_iff

theorem swOk_eq {a : Nat} : swOk a = true ↔ a % 4 = 0 ∧ 0x18000 ≤ a ∧ a < 0x1FFC0 := decide_eq_true_iff

section
variable {g : RegionIx} {n : Word} {s : State} (h : SeqAt g.val n s)
include h

theorem SeqAt.nop (hn : n.toNat = 0) :
    ∃ t, exec (.seqNop g) s = .next t
      ∧ SeqGoes g.val { s.seq g.val with loops := (fallThrough (s.seq g.val).pc (s.seq g.val).loops).2 }
          (fallThrough (s.seq g.val).pc (s.seq g.val).loops).1 s t ∧ t.tiles = s.tiles := by
  change ∃ t, execSeqNop g s = .next t ∧ _
  unfold execSeqNop
  obtain ⟨t, hexec, htiles, hgoes⟩ := h.goes_on (op := 0x00) (legal := legZero) (key := false) (cp := fun _ => false)
    (body := fun _ s => .next s) (by rw [hn]; decide) (by rw [hn]; decide) rfl rfl (.refl ..) rfl rfl
  exact ⟨t, hexec, hgoes, htiles⟩

/-- LW writes RD with the word it reads. -/
theorem SeqAt.lw {ea : Nat} (hea : ((s.seq g.val).reg (raF n.toNat) + immS n.toNat).toNat = ea) (hop : nbits n.toNat 26 6 = 0x10)
    (hleg : legI n.toNat = true) (hok : lwOk ea = true) (hclean : tget .clean (s.seq g.val).ecc (ea / 4) = .clean) :
    ∃ t, exec (.seqLw g) s = .next t ∧ t.tiles = s.tiles
      ∧ SeqGoes g.val { (s.seq g.val).setReg (rdF n.toNat) (tget 0 (s.seq g.val).mem (ea / 4)) with
            loops := (fallThrough (s.seq g.val).pc (s.seq g.val).loops).2 }
          (fallThrough (s.seq g.val).pc (s.seq g.val).loops).1 s t := by
  change ∃ t, execSeqLw g s = .next t ∧ _
  unfold execSeqLw
  refine h.goes_on (u := s.modSeq g.val (fun x => x.setReg (rdF n.toNat) (tget 0 (s.seq g.val).mem (ea / 4)))) hop hleg rfl ?_
    (.modSeq ..) (State.seq_modSeq ..) (Seq.setReg_loops ..)
  simp only [hea, hok, seqRead_of_clean hclean, Bool.not_true, Bool.false_eq_true, if_false]

theorem SeqAt.lw_illegal {ea : Nat} (hea : ((s.seq g.val).reg (raF n.toNat) + immS n.toNat).toNat = ea)
    (hop : nbits n.toNat 26 6 = 0x10) (hleg : legI n.toNat = true) (hok : lwOk ea = false) :
    exec (.seqLw g) s = .next (signal s (seqFault g.val 0x06 0 n s)) := by
  change execSeqLw g s = _
  unfold execSeqLw
  refine h.illegal hop hleg rfl ?_
  simp only [hea, hok, Bool.not_false, if_true]

/-- SW writes one word of scratch. -/
theorem SeqAt.sw {ea : Nat} (hea : ((s.seq g.val).reg (raF n.toNat) + immS n.toNat).toNat = ea) (hop : nbits n.toNat 26 6 = 0x11)
    (hleg : legI n.toNat = true) (hok : swOk ea = true) :
    ∃ t, exec (.seqSw g) s = .next t ∧ t.tiles = s.tiles
      ∧ SeqGoes g.val { (s.seq g.val).stw ea ((s.seq g.val).reg (rdF n.toNat)) with
            loops := (fallThrough (s.seq g.val).pc (s.seq g.val).loops).2 }
          (fallThrough (s.seq g.val).pc (s.seq g.val).loops).1 s t := by
  change ∃ t, execSeqSw g s = .next t ∧ _
  unfold execSeqSw
  refine h.goes_on (u := s.modSeq g.val (fun x => x.stw ea (x.reg (rdF n.toNat)))) hop hleg rfl ?_ (.modSeq ..)
    (State.seq_modSeq ..) rfl
  simp only [hea, hok, Bool.not_true, Bool.false_eq_true, if_false]

theorem SeqAt.sw_illegal {ea : Nat} (hea : ((s.seq g.val).reg (raF n.toNat) + immS n.toNat).toNat = ea)
    (hop : nbits n.toNat 26 6 = 0x11) (hleg : legI n.toNat = true) (hok : swOk ea = false) :
    exec (.seqSw g) s = .next (signal s (seqFault g.val 0x06 0 n s)) := by
  change execSeqSw g s = _
  unfold execSeqSw
  refine h.illegal hop hleg rfl ?_
  simp only [hea, hok, Bool.not_false, if_true]

end

/-! ### The broadcast of a tile word (R225) -/

/-- The words BCW reads, each uncorrectable or not. -/
def bcwRead (g a : Nat) (s : State) : List Nat × Bool × State :=
  (List.range 8).foldl (fun (r : List Nat × Bool × State) i =>
    let (v, bad, s) := seqRead g (a + 4 * i) r.2.2
    (r.1 ++ [v.toNat], r.2.1 || bad, s)) ([], false, s)

theorem bcwRead_of_clean {g a : Nat} {s : State} (h : ∀ i < 8, tget .clean (s.seq g).ecc (a / 4 + i) = .clean) :
    bcwRead g a s = ((List.range 8).map (fun j => (tget 0 (s.seq g).mem (a / 4 + j)).toNat), false, s) := by
  have hread : ∀ i < 8, seqRead g (a + 4 * i) s = (tget 0 (s.seq g).mem (a / 4 + i), false, s) := by
    intro i hi
    have hdiv : (a + 4 * i) / 4 = a / 4 + i := by omega
    rw [seqRead_of_clean (by rw [hdiv]; exact h i hi), hdiv]
  have hall : ∀ m ≤ 8, (List.range m).foldl (fun (r : List Nat × Bool × State) i =>
      let (v, bad, s) := seqRead g (a + 4 * i) r.2.2
      (r.1 ++ [v.toNat], r.2.1 || bad, s)) ([], false, s)
      = ((List.range m).map (fun j => (tget 0 (s.seq g).mem (a / 4 + j)).toNat), false, s) := by
    intro m
    induction m with
    | zero => intro _; rfl
    | succ m ih =>
      intro hm
      rw [List.range_succ, List.foldl_append, ih (by omega), List.map_append]
      simp only [List.foldl_cons, List.foldl_nil, hread m (by omega), Bool.or_self, List.map_cons, List.map_nil]
  exact hall 8 (Nat.le_refl 8)

/-- The tiles TMASK selects are the tiles of the region whose bit is set. -/
theorem Seq.mem_tiles {x : Seq} {g i : Nat} (hi : i < 16) : tileOf g i ∈ x.tiles g ↔ nbit x.tmask i = true := by
  unfold Seq.tiles
  simp only [List.mem_map, List.mem_filter, List.mem_range]
  constructor
  · rintro ⟨j, ⟨-, hj⟩, he⟩
    rwa [← tileOf_inj.mp he]
  · exact fun h => ⟨i, ⟨hi, h⟩, rfl⟩

theorem Seq.tiles_nodup (x : Seq) (g : Nat) : (x.tiles g).Nodup :=
  (List.nodup_range.filter _).map (fun _ _ h => tileOf_inj.mp h)

/-- A change made once to each tile of a list. -/
theorem tile_each_modTile {l : List Nat} (hl : l.Nodup) (f : Tile → Tile) (s : State) (t : Nat) :
    (each l s (fun s t => s.modTile t f)).tile t = if t ∈ l then f (s.tile t) else s.tile t := by
  unfold each
  induction l generalizing s with
  | nil => rfl
  | cons a l ih =>
    obtain ⟨ha, hl⟩ := List.nodup_cons.mp hl
    rw [List.foldl_cons, ih hl]
    by_cases ht : t = a
    · rw [ht, if_neg ha, if_pos List.mem_cons_self, State.tile_modTile]
    · rw [State.modTile, State.tile_setTile, if_neg ht]
      simp only [List.mem_cons, ht, false_or]

theorem seqRest_each_modTile (g : Nat) (l : List Nat) (f : Tile → Tile) (s : State) :
    SeqRest g s (each l s (fun s t => s.modTile t f)) :=
  each_keep (SeqRest g s) _ (fun u t hu => hu.trans (.modTile g u t f)) l s (.refl g s)

theorem seq_each_modTile (g : Nat) (l : List Nat) (f : Tile → Tile) (s : State) :
    (each l s (fun s t => s.modTile t f)).seq g = s.seq g :=
  each_eq (fun u => u.seq g) (fun s t => s.modTile t f) (fun _ _ => rfl) l s

/-- A tile with the word w in its shadow plane at address i. -/
def shadowWord (i : Nat) (w : BitVec 256) (y : Tile) : Tile := { y with imemSh := tset 0 y.imemSh i w }

theorem SeqAt.bcw {g : RegionIx} {n : Word} {s : State} (h : SeqAt g.val n s) {a : Nat}
    (ha : ((s.seq g.val).reg (raF n.toNat)).toNat = a) (hop : nbits n.toNat 26 6 = 0x21) (hleg : legRaRb n.toNat = true)
    (halign : a % 32 = 0) (hok : lwOk a = true) (hclean : ∀ i < 8, tget .clean (s.seq g.val).ecc (a / 4 + i) = .clean) :
    ∃ t, exec (.seqBcw g) s = .next t
      ∧ SeqGoes g.val { s.seq g.val with loops := (fallThrough (s.seq g.val).pc (s.seq g.val).loops).2 }
          (fallThrough (s.seq g.val).pc (s.seq g.val).loops).1 s t
      ∧ ∀ i < 16, ∀ m, tget 0 (t.tile (tileOf g.val i)).imemSh m =
          if nbit (s.seq g.val).tmask i = true ∧ m = nbits ((s.seq g.val).reg (rbF n.toNat)).toNat 0 9 then
            BitVec.ofNat 256 (ofLanes 32 ((List.range 8).map (fun j => (tget 0 (s.seq g.val).mem (a / 4 + j)).toNat)))
          else tget 0 (s.tile (tileOf g.val i)).imemSh m := by
  generalize hw : BitVec.ofNat 256 (ofLanes 32 ((List.range 8).map (fun j => (tget 0 (s.seq g.val).mem (a / 4 + j)).toNat))) = w
  generalize hm : nbits ((s.seq g.val).reg (rbF n.toNat)).toNat 0 9 = m
  have hread := bcwRead_of_clean hclean
  unfold bcwRead at hread
  obtain ⟨t, hexec, htiles, hgoes⟩ : ∃ t, execSeqBcw g s = .next t
      ∧ t.tiles = (each ((s.seq g.val).tiles g.val) s (fun s t => s.modTile t (shadowWord m w))).tiles
      ∧ SeqGoes g.val { s.seq g.val with loops := (fallThrough (s.seq g.val).pc (s.seq g.val).loops).2 }
          (fallThrough (s.seq g.val).pc (s.seq g.val).loops).1 s t := by
    unfold execSeqBcw
    refine h.goes_on (u := each ((s.seq g.val).tiles g.val) s (fun s t => s.modTile t (shadowWord m w))) hop hleg rfl ?_
      (seqRest_each_modTile ..) (seq_each_modTile ..) rfl
    simp only [ha, hok, halign, decide_true, Bool.and_self, Bool.not_true, Bool.false_eq_true, if_false, hread, hw, hm]
    rfl
  refine ⟨t, hexec, hgoes, fun i hi k => ?_⟩
  have htile : t.tile (tileOf g.val i) = if nbit (s.seq g.val).tmask i = true then shadowWord m w (s.tile (tileOf g.val i))
      else s.tile (tileOf g.val i) := by
    rw [State.tile, htiles, ← State.tile, tile_each_modTile (Seq.tiles_nodup _ _)]
    simp only [Seq.mem_tiles hi]
  rw [htile]
  by_cases hbit : nbit (s.seq g.val).tmask i = true
  · rw [if_pos hbit, shadowWord, tget_tset]
    simp only [hbit, true_and]
  · rw [if_neg hbit, if_neg (fun hc => hbit hc.1)]

/-! ### SEQ_MEM_DATA (R239) -/

theorem seqMemWrite_facts (g : RegionIx) (v : Word) {s : State} (h : Served s) :
    ∃ t, exec (.seqMemDataAccess g (some v)) s = .next t
      ∧ t.f (aSeqMemAddr g.val) 2 15 = (s.f (aSeqMemAddr g.val) 2 15 + 1) % 2 ^ 15
      ∧ RegsBut [aSeqMemAddr g.val] s t ∧ t.tiles = s.tiles
      ∧ ∀ w, tget 0 (t.seq g.val).mem w = if w = s.f (aSeqMemAddr g.val) 2 15 ∧ 0x3000 ≤ w ∧ w < 0x7FF0 then v
          else tget 0 (s.seq g.val).mem w := by
  generalize hk : s.f (aSeqMemAddr g.val) 2 15 = k
  generalize hs1 : s.setF (aSeqMemAddr g.val) 2 15 (k + 1) = s1
  have hexec : exec (.seqMemDataAccess g (some v)) s = .next (signal s
      (if k * 4 < 0xC000 ∨ trapBase ≤ k * 4 then s1 else s1.modSeq g.val (fun x => x.stw (k * 4) v))) := by
    change execSeqMemDataAccess g (some v) s = _
    simp only [execSeqMemDataAccess, h.dozing_eq, h.deaf_eq, Bool.false_eq_true, if_false, seqMemAccess, hk,
      Nat.mul_div_cancel k (by omega : 0 < 4), hs1, done]
  have hfield : s1.f (aSeqMemAddr g.val) 2 15 = (k + 1) % 2 ^ 15 := by rw [← hs1]; exact State.f_setF_same _ _ _ (by omega)
  have hseq : s1.seq g.val = s.seq g.val := by rw [← hs1]; rfl
  refine ⟨_, hexec, ?_, ?_, ?_, fun w => ?_⟩
  · rw [signal_f]; split <;> exact hfield
  · intro j hj
    rw [signal_rd]
    have hrd : s1.rd j = s.rd j := by rw [← hs1]; exact State.rd_setF_ne _ _ _ _ (by simpa using hj)
    split <;> exact hrd
  · rw [signal_tiles]; split <;> (rw [← hs1]; rfl)
  · rw [signal_seq]
    by_cases hc : k * 4 < 0xC000 ∨ trapBase ≤ k * 4
    · rw [if_pos hc, hseq, if_neg]
      unfold trapBase at hc
      omega
    · rw [if_neg hc, State.seq_modSeq, hseq, Seq.stw, tget_tset, Nat.mul_div_cancel k (by omega)]
      unfold trapBase at hc
      by_cases hw : w = k
      · rw [if_pos hw, if_pos (by omega)]
      · rw [if_neg hw, if_neg (fun hc' => hw hc'.1)]

theorem seqMemRead_facts (g : RegionIx) {s : State} (h : Served s)
    (hclean : tget .clean (s.seq g.val).ecc (s.f (aSeqMemAddr g.val) 2 15) = .clean) :
    ∃ t, exec (.seqMemDataAccess g none) s = .next t
      ∧ t.f (aSeqMemAddr g.val) 2 15 = (s.f (aSeqMemAddr g.val) 2 15 + 1) % 2 ^ 15
      ∧ RegsBut [aSeqMemAddr g.val] s t ∧ t.seqs = s.seqs
      ∧ .data 0 (toBytes 4 (tget 0 (s.seq g.val).mem (s.f (aSeqMemAddr g.val) 2 15)).toNat) ∈ t.outbox := by
  generalize hk : s.f (aSeqMemAddr g.val) 2 15 = k at hclean ⊢
  generalize hs1 : s.setF (aSeqMemAddr g.val) 2 15 (k + 1) = s1
  have hdiv : k * 4 / 4 = k := Nat.mul_div_cancel k (by omega)
  have hseq : s1.seqs = s.seqs := by rw [← hs1]; rfl
  have hread : seqRead g.val (k * 4) s1 = (tget 0 (s.seq g.val).mem k, false, s1) := by
    rw [seqRead_of_clean, State.seq, hseq, hdiv]
    · rfl
    · rw [State.seq, hseq, hdiv]; exact hclean
  have hexec : exec (.seqMemDataAccess g none) s
      = .next (signal s (s1.emit (.data 0 (toBytes 4 (tget 0 (s.seq g.val).mem k).toNat)))) := by
    change execSeqMemDataAccess g none s = _
    simp only [execSeqMemDataAccess, h.dozing_eq, h.deaf_eq, Bool.false_eq_true, if_false, seqMemAccess, hk, hdiv, hs1,
      hread, done]
  have hfield : s1.f (aSeqMemAddr g.val) 2 15 = (k + 1) % 2 ^ 15 := by rw [← hs1]; exact State.f_setF_same _ _ _ (by omega)
  have hrd : ∀ j, j ≠ aSeqMemAddr g.val → s1.rd j = s.rd j := fun j hj => by
    rw [← hs1]; exact State.rd_setF_ne _ _ _ _ hj
  refine ⟨_, hexec, ?_, ?_, ?_, ?_⟩
  · rw [signal_f]; exact hfield
  · intro j hj
    rw [signal_rd]
    exact hrd j (by simpa using hj)
  · rw [signal_seqs]; exact hseq
  · exact mem_outbox_signal (State.mem_outbox_emit _ _) s

theorem wordAddr_eq (x : Seq) (n : Word) :
    (x.reg (raF n.toNat) + immS n.toNat).toNat = (x.reg (raF n.toNat) + (n.setWidth 16 : BitVec 16).signExtend 32).toNat := by
  rw [immS_eq]

/-- Settles O32: by the rule of issue and one rule per instruction; the windows of a sequencer never overlap in its registers. -/
theorem seqValuesAndMemory : Obligations.SeqValuesAndMemory := by
  unfold Obligations.SeqValuesAndMemory
  refine ⟨fun g n s h => ⟨seqValues_facts g n s h, h.nop⟩, fun g n v s => ⟨fun h hleg => ⟨?_, ?_, ?_, ?_⟩, ?_, fun h =>
    ⟨seqMemWrite_facts g v h, seqMemRead_facts g h⟩⟩⟩
  · exact fun hop hok hclean => h.lw (wordAddr_eq ..) hop hleg (lwOk_eq.mpr hok) hclean
  · exact fun hop hok => h.lw_illegal (wordAddr_eq ..) hop hleg (Bool.eq_false_iff.mpr fun hc => hok (lwOk_eq.mp hc))
  · rintro hop halign hlo hhi
    obtain ⟨t, hexec, htiles, ⟨⟨tr, hseq⟩, -, hregs, -, hmem, -⟩⟩ :=
      h.sw (wordAddr_eq ..) hop hleg (swOk_eq.mpr ⟨halign, hlo, hhi⟩)
    exact ⟨t, hexec, htiles, by rw [hseq]; rfl, by rw [hseq]; rfl, by rw [hseq], hregs, hmem, fun w => by
      rw [hseq]; exact tget_tset ..⟩
  · exact fun hop hok => h.sw_illegal (wordAddr_eq ..) hop hleg (Bool.eq_false_iff.mpr fun hc => hok (swOk_eq.mp hc))
  · exact fun h hop hleg halign hok hclean => h.bcw rfl hop hleg halign (lwOk_eq.mpr hok) hclean

end Sys2Proof.Machine
end

section
/-! Branches, jumps, loops, calls and windows of the sequencer (10; R204, R205, R207 to R211, R214, R215). -/
namespace Sys2Proof.Machine

/-! ### Targets -/

theorem seqTarget_eq {w : Nat} (hw : 0 < w) (pc : Nat) (n : Word) :
    seqTarget pc w (nbits n.toNat 0 w) = (((pc : Int) + 4 + 4 * (n.setWidth w : BitVec w).toInt) % 0x20000).toNat := by
  rw [seqTarget, sgn_nbits hw]
  push_cast
  rfl

theorem immF_eq_mod (k : Nat) : immF k = k % 65536 := by simp only [immF, nbits, Nat.pow_zero, Nat.div_one, Nat.reducePow]

theorem jrTarget_mod (b : Nat) : nbits b 2 15 * 4 % 0x20000 = b / 4 * 4 % 0x20000 := by
  unfold nbits
  omega

/-- Two addresses equal modulo the sequencer's memory are one place to go on at. -/
theorem seqGoes_congr {g : Nat} {x : Seq} {a b : Nat} {s t : State} (hab : a % 0x20000 = b % 0x20000) (h : SeqGoes g x a s t) :
    SeqGoes g x b s t := by
  unfold SeqGoes at h ⊢
  rwa [hab] at h

/-- The encoding of LOOP: a body of at least one instruction. -/
theorem loopLegal {n : Word} (hleg : legI n.toNat = true) (himm : n.setWidth 16 ≠ (0 : BitVec 16)) :
    (legI n.toNat && decide (immF n.toNat ≠ 0)) = true := by
  have hne : immF n.toNat ≠ 0 := by
    intro hz
    refine himm (BitVec.eq_of_toNat_eq ?_)
    rw [BitVec.toNat_setWidth]
    rw [immF_eq_mod] at hz
    exact hz
  rw [hleg, decide_eq_true hne]
  rfl

section
variable {g : RegionIx} {n : Word} {s : State} (h : SeqAt g.val n s)
include h

/-! ### Branches, jumps and loops -/

/-- A conditional branch goes to its target where its condition holds, and on where it does not. -/
theorem SeqAt.branch {i : Instr} {op : Nat} (p : Word → Word → Bool) {b : Bool} (hi : exec i s = seqBranch g.val op p s)
    (hb : p ((s.seq g.val).reg (rdF n.toNat)) ((s.seq g.val).reg (raF n.toNat)) = b) (hop : nbits n.toNat 26 6 = op)
    (hleg : legI n.toNat = true) :
    ∃ t, exec i s = .next t ∧ t.tiles = s.tiles
      ∧ (b = true → SeqGoes g.val (s.seq g.val)
          ((((s.seq g.val).pc : Int) + 4 + 4 * (n.setWidth 16 : BitVec 16).toInt) % 0x20000).toNat s t)
      ∧ (b = false → SeqGoes g.val { s.seq g.val with loops := (fallThrough (s.seq g.val).pc (s.seq g.val).loops).2 }
          (fallThrough (s.seq g.val).pc (s.seq g.val).loops).1 s t) := by
  rw [hi]
  unfold seqBranch
  cases b with
  | true =>
    obtain ⟨t, hexec, htiles, hgoes⟩ := h.goes_jump (op := op) (legal := fun n => legI n) (key := false) (cp := fun _ => false)
      (body := fun n s =>
        let x := s.seq g.val
        if p (x.reg (rdF n)) (x.reg (raF n)) then .jump (seqTarget x.pc 16 (immF n)) s else .next s)
      hop hleg rfl (by simp only [hb, if_true]; rfl) (.refl ..) rfl
    rw [immF, seqTarget_eq (by omega)] at hgoes
    exact ⟨t, hexec, htiles, fun _ => hgoes, fun hc => absurd hc (by decide)⟩
  | false =>
    obtain ⟨t, hexec, htiles, hgoes⟩ := h.goes_on (op := op) (legal := fun n => legI n) (key := false) (cp := fun _ => false)
      (body := fun n s =>
        let x := s.seq g.val
        if p (x.reg (rdF n)) (x.reg (raF n)) then .jump (seqTarget x.pc 16 (immF n)) s else .next s)
      hop hleg rfl (by simp only [hb, Bool.false_eq_true, if_false]) (.refl ..) rfl rfl
    exact ⟨t, hexec, htiles, fun hc => absurd hc (by decide), fun _ => hgoes⟩

theorem SeqAt.jmp (hop : nbits n.toNat 26 6 = 0x16) :
    ∃ t, exec (.seqJmp g) s = .next t ∧ t.tiles = s.tiles ∧ SeqGoes g.val (s.seq g.val)
      ((((s.seq g.val).pc : Int) + 4 + 4 * (n.setWidth 26 : BitVec 26).toInt) % 0x20000).toNat s t := by
  change ∃ t, execSeqJmp g s = .next t ∧ _
  unfold execSeqJmp
  rw [← seqTarget_eq (by omega)]
  exact h.goes_jump hop rfl rfl rfl (.refl ..) rfl

theorem SeqAt.jr (hop : nbits n.toNat 26 6 = 0x18) (hleg : legRa n.toNat = true) :
    ∃ t, exec (.seqJr g) s = .next t ∧ t.tiles = s.tiles
      ∧ SeqGoes g.val (s.seq g.val) (((s.seq g.val).reg (raF n.toNat)).toNat / 4 * 4) s t := by
  change ∃ t, execSeqJr g s = .next t ∧ _
  unfold execSeqJr
  obtain ⟨t, hexec, htiles, hgoes⟩ := h.goes_jump (op := 0x18) (legal := legRa) (key := false) (cp := fun _ => false)
    (body := fun n s => .jump (nbits ((s.seq g.val).reg (raF n)).toNat 2 15 * 4) s) hop hleg rfl rfl (.refl ..) rfl
  exact ⟨t, hexec, htiles, seqGoes_congr (jrTarget_mod _) hgoes⟩

theorem SeqAt.loop_skip (hop : nbits n.toNat 26 6 = 0x1A) (hleg : legI n.toNat = true) (himm : n.setWidth 16 ≠ (0 : BitVec 16))
    (hz : (s.seq g.val).reg (rdF n.toNat) = 0) :
    ∃ t, exec (.seqLoop g) s = .next t ∧ t.tiles = s.tiles
      ∧ SeqGoes g.val (s.seq g.val) ((s.seq g.val).pc + 4 + 4 * (n.toNat % 65536)) s t := by
  change ∃ t, execSeqLoop g s = .next t ∧ _
  unfold execSeqLoop
  refine h.goes_jump hop (loopLegal hleg himm) rfl ?_ (.refl ..) rfl
  rw [← immF_eq_mod]
  have htrips : ((s.seq g.val).reg (rdF n.toNat)).toNat = 0 := by rw [hz]; rfl
  simp only [htrips, if_true]

theorem SeqAt.loop_opens (hop : nbits n.toNat 26 6 = 0x1A) (hleg : legI n.toNat = true)
    (himm : n.setWidth 16 ≠ (0 : BitVec 16)) (hz : (s.seq g.val).reg (rdF n.toNat) ≠ 0) (hroom : (s.seq g.val).loops.length < 6) :
    ∃ t, exec (.seqLoop g) s = .next t ∧ t.tiles = s.tiles
      ∧ SeqGoes g.val { s.seq g.val with
          loops := (((s.seq g.val).reg (rdF n.toNat)).toNat - 1, 0, ((s.seq g.val).reg (raF n.toNat)).toNat, (s.seq g.val).pc + 4,
            (s.seq g.val).pc + 4 * (n.toNat % 65536)) :: (s.seq g.val).loops } ((s.seq g.val).pc + 4) s t := by
  have htrips : ((s.seq g.val).reg (rdF n.toNat)).toNat ≠ 0 := fun hc => hz (BitVec.eq_of_toNat_eq hc)
  change ∃ t, execSeqLoop g s = .next t ∧ _
  unfold execSeqLoop
  rw [← immF_eq_mod]
  refine h.goes_jump (u := s.modSeq g.val (fun x => { x with
      loops := (((s.seq g.val).reg (rdF n.toNat)).toNat - 1, 0, (x.reg (raF n.toNat)).toNat, x.pc + 4,
        x.pc + 4 * immF n.toNat) :: x.loops })) hop (loopLegal hleg himm) rfl ?_ (.modSeq ..) (State.seq_modSeq ..)
  simp only [htrips, Nat.not_le.mpr hroom, if_false]

theorem SeqAt.loop_illegal (hop : nbits n.toNat 26 6 = 0x1A) (hleg : legI n.toNat = true)
    (himm : n.setWidth 16 ≠ (0 : BitVec 16)) (hz : (s.seq g.val).reg (rdF n.toNat) ≠ 0)
    (hfull : 6 ≤ (s.seq g.val).loops.length) :
    exec (.seqLoop g) s = .next (signal s (seqFault g.val 0x06 0 n s)) := by
  have htrips : ((s.seq g.val).reg (rdF n.toNat)).toNat ≠ 0 := fun hc => hz (BitVec.eq_of_toNat_eq hc)
  change execSeqLoop g s = _
  unfold execSeqLoop
  refine h.illegal hop (loopLegal hleg himm) rfl ?_
  simp only [htrips, hfull, if_false, if_true]

theorem SeqAt.lpop (hop : nbits n.toNat 26 6 = 0x1B) (hleg : nbits n.toNat 0 26 = 0) {l : Nat × Nat × Nat × Nat × Nat}
    {ls : List (Nat × Nat × Nat × Nat × Nat)} (hl : (s.seq g.val).loops = l :: ls) :
    ∃ t, exec (.seqLpop g) s = .next t ∧ t.tiles = s.tiles
      ∧ SeqGoes g.val { s.seq g.val with loops := (fallThrough (s.seq g.val).pc ls).2 }
          (fallThrough (s.seq g.val).pc ls).1 s t := by
  change ∃ t, execSeqLpop g s = .next t ∧ _
  unfold execSeqLpop
  refine h.goes_next (u := s.modSeq g.val (fun x => { x with loops := x.loops.drop 1 })) (x := { s.seq g.val with loops := ls }) hop
    (decide_eq_true hleg) rfl ?_ (.modSeq ..) ?_
  · simp only [hl, List.isEmpty_cons, Bool.false_eq_true, if_false]
  · rw [State.seq_modSeq, hl]
    rfl

theorem SeqAt.lpop_illegal (hop : nbits n.toNat 26 6 = 0x1B) (hleg : nbits n.toNat 0 26 = 0) (hl : (s.seq g.val).loops = []) :
    exec (.seqLpop g) s = .next (signal s (seqFault g.val 0x06 0 n s)) := by
  change execSeqLpop g s = _
  unfold execSeqLpop
  refine h.illegal hop (decide_eq_true hleg) rfl ?_
  simp only [hl, List.isEmpty_nil, if_true]

end

/-- The end of a loop's body (R215). -/
theorem fallThrough_facts {a : Nat} {c i st first last : Nat} {ls : List (Nat × Nat × Nat × Nat × Nat)} :
    (last ≠ a → fallThrough a ((c, i, st, first, last) :: ls) = (a + 4, (c, i, st, first, last) :: ls))
    ∧ (last = a → 0 < c → fallThrough a ((c, i, st, first, last) :: ls) = (first, (c - 1, i + 1, st, first, last) :: ls))
    ∧ (last = a → c = 0 → fallThrough a ((c, i, st, first, last) :: ls) = fallThrough a ls) := by
  refine ⟨fun h => ?_, fun h hc => ?_, fun h hc => ?_⟩ <;> rw [fallThrough]
  · rw [if_neg h]
  · rw [if_pos h, if_pos hc]
  · rw [if_pos h, if_neg (by omega)]

/-! ### Several words written at once -/

/-- A table with places f 0, …, f (n − 1) set, in this order. -/
def tsets {α : Type} [DecidableEq α] (d : α) (f : Nat → Nat) (v : Nat → α) (n : Nat) (t : Tab α) : Tab α :=
  (List.range n).foldl (fun m i => tset d m (f i) (v i)) t

section
variable {α : Type} [DecidableEq α] {d : α} {f : Nat → Nat} {v : Nat → α} {n : Nat} {t : Tab α}

theorem tsets_succ : tsets d f v (n + 1) t = tset d (tsets d f v n t) (f n) (v n) := by
  rw [tsets, List.range_succ, List.foldl_append]
  rfl

theorem tget_tsets_other {k : Nat} (hk : ∀ i < n, k ≠ f i) : tget d (tsets d f v n t) k = tget d t k := by
  induction n with
  | zero => rfl
  | succ n ih => rw [tsets_succ, tget_tset, if_neg (hk n (by omega)), ih (fun i hi => hk i (by omega))]

theorem tget_tsets (hf : ∀ i < n, ∀ j < n, f i = f j → i = j) {i : Nat} (hi : i < n) : tget d (tsets d f v n t) (f i) = v i := by
  induction n with
  | zero => omega
  | succ n ih =>
    rw [tsets_succ, tget_tset]
    by_cases he : f i = f n
    · rw [if_pos he, hf i hi n (by omega) he]
    · have hne : i ≠ n := fun hc => he (by rw [hc])
      rw [if_neg he, ih (fun a ha b hb => hf a (by omega) b (by omega)) (by omega)]

end

/-- The words ws written from byte address p on. -/
def Seq.stws (x : Seq) (p : Nat) (ws : List Word) : Seq :=
  (List.range 16).foldl (fun x i => x.stw (p + 4 * i) (nth ws i 0)) x

theorem Seq.stws_eq (x : Seq) (p : Nat) (ws : List Word) : x.stws p ws =
    { x with
      mem := tsets 0 (fun i => (p + 4 * i) / 4) (fun i => nth ws i 0) 16 x.mem
      ecc := tsets .clean (fun i => (p + 4 * i) / 4) (fun _ => .clean) 16 x.ecc } := by
  have hall : ∀ m, (List.range m).foldl (fun x i => x.stw (p + 4 * i) (nth ws i 0)) x =
      { x with
        mem := tsets 0 (fun i => (p + 4 * i) / 4) (fun i => nth ws i 0) m x.mem
        ecc := tsets .clean (fun i => (p + 4 * i) / 4) (fun _ => .clean) m x.ecc } := by
    intro m
    induction m with
    | zero => rfl
    | succ m ih =>
      rw [List.range_succ, List.foldl_append, ih, tsets_succ, tsets_succ]
      rfl
  exact hall 16

theorem Seq.stws_other {x : Seq} {p k : Nat} {ws : List Word} (hk : ∀ i < 16, k ≠ (p + 4 * i) / 4) :
    tget 0 (x.stws p ws).mem k = tget 0 x.mem k ∧ tget .clean (x.stws p ws).ecc k = tget .clean x.ecc k := by
  rw [Seq.stws_eq]
  dsimp only
  rw [tget_tsets_other hk, tget_tsets_other hk]
  exact ⟨rfl, rfl⟩

theorem Seq.stws_at (x : Seq) (p : Nat) (ws : List Word) {i : Nat} (hi : i < 16) :
    tget 0 (x.stws p ws).mem (p / 4 + i) = nth ws i 0 := by
  have hix : p / 4 + i = (p + 4 * i) / 4 := by omega
  rw [Seq.stws_eq, hix]
  dsimp only
  exact tget_tsets (f := fun i => (p + 4 * i) / 4) (fun a _ b _ hab => by omega) hi

theorem Seq.stws_same (x : Seq) (p : Nat) (ws : List Word) : ∃ m c, x.stws p ws = { x with mem := m, ecc := c } :=
  ⟨_, _, Seq.stws_eq ..⟩

/-- The words of the trap save frame (R212). -/
def Seq.trapWords (x : Seq) (code kind : Nat) (word : Word) : List Word :=
  [BitVec.ofNat 32 x.pc, word, BitVec.ofNat 32 (code * 256 + kind),
    BitVec.ofNat 32 (x.cwp * 2 ^ 16 + x.resident * 2 ^ 12 + x.loops.length * 2 ^ 8 + x.spst % 16),
    x.reg 7, BitVec.ofNat 32 x.spill, x.key, BitVec.ofNat 32 x.tmask]

theorem saveFrame_eq (code kind : Nat) (word : Word) (x : Seq) :
    saveFrame code kind word x = x.stws trapBase (x.trapWords code kind word) := rfl

/-! ### The next window (R207) -/

theorem enterWindow_kept (x : Seq) :
    (enterWindow x).resident = x.resident + 1 ∧ (enterWindow x).spill = x.spill ∧ (enterWindow x).mem = x.mem := ⟨rfl, rfl, rfl⟩

theorem enterWindow_win (x : Seq) :
    (enterWindow x).win = tsets 0 (fun i => (x.cwp + 1) % 7 * 16 + i) (fun _ => 0) 12 x.win := rfl

/-- The own registers of a window that is entered are zero. -/
theorem enterWindow_own (x : Seq) {i : Nat} (hi : i < 12) : (enterWindow x).reg (12 + i) = 0 := by
  have hix : winIx ((x.cwp + 1) % 7) (12 + i) = (x.cwp + 1) % 7 * 16 + i := by
    unfold winIx
    rw [if_neg (by omega), Nat.add_sub_cancel_left]
  rw [Seq.reg, if_neg (by omega), if_pos (by omega), enterWindow_win]
  change tget 0 _ (winIx ((x.cwp + 1) % 7) (12 + i)) = 0
  rw [hix]
  exact tget_tsets (f := fun i => (x.cwp + 1) % 7 * 16 + i) (fun a _ b _ h => by omega) hi

/-- Its p registers are the q registers of the window below. -/
theorem enterWindow_passed (x : Seq) {i : Nat} (hi : i < 4) :
    (enterWindow x).reg (8 + i) = tget 0 x.win (x.cwp % 7 * 16 + 8 + i) := by
  have hix : winIx ((x.cwp + 1) % 7) (8 + i) = x.cwp % 7 * 16 + 8 + i := by
    unfold winIx
    rw [if_pos (by omega)]
    omega
  rw [Seq.reg, if_neg (by omega), if_pos (by omega), enterWindow_win]
  change tget 0 _ (winIx ((x.cwp + 1) % 7) (8 + i)) = _
  rw [hix, tget_tsets_other (fun j hj => by omega)]

/-- What a CALL from x to tgt leaves of its window. -/
def Entered (x : Seq) (tgt : Nat) (y : Seq) : Prop :=
  y.pc = tgt ∧ y.cwp = (x.cwp + 1) % 7 ∧ y.depth = x.depth + 1 ∧ y.g = x.g ∧ tget 0 y.ra y.cwp = x.pc + 4
    ∧ (∀ i < 12, y.reg (12 + i) = 0) ∧ ∀ i < 4, y.reg (8 + i) = tget 0 x.win (x.cwp % 7 * 16 + 8 + i)

theorem enterWindow_ra (x : Seq) : tget 0 (enterWindow x).ra ((x.cwp + 1) % 7) = x.pc + 4 := by
  simp only [enterWindow, tget_tset_same]

/-- The window entered from a sequencer that agrees with x in its registers. -/
theorem entered_of_go {x y z : Seq} {a tgt : Nat} {tr : List (List Byte)} (hz : enterWindow y = z) (ha : a % 0x20000 = tgt)
    (hpc : y.pc = x.pc) (hcwp : y.cwp = x.cwp) (hdepth : y.depth = x.depth) (hg : y.g = x.g) (hwin : y.win = x.win) :
    Entered x tgt { z with pc := a % 0x20000, step := false, wait := 0, trace := tr } := by
  have hzcwp : z.cwp = (x.cwp + 1) % 7 := by rw [← hz, ← hcwp]; rfl
  have hzdepth : z.depth = x.depth + 1 := by rw [← hz, ← hdepth]; rfl
  have hzg : z.g = x.g := by rw [← hz, ← hg]; rfl
  have hra : tget 0 z.ra z.cwp = x.pc + 4 := by rw [hzcwp, ← hz, ← hcwp, ← hpc]; exact enterWindow_ra y
  have hown : ∀ i < 12, z.reg (12 + i) = 0 := fun i hi => by rw [← hz]; exact enterWindow_own y hi
  have hpass : ∀ i < 4, z.reg (8 + i) = tget 0 x.win (x.cwp % 7 * 16 + 8 + i) := fun i hi => by
    rw [← hz, ← hcwp, ← hwin]; exact enterWindow_passed y hi
  exact ⟨ha, hzcwp, hzdepth, hzg, hra, hown, hpass⟩

theorem seqTarget_mod (pc w off : Nat) : seqTarget pc w off % 0x20000 = seqTarget pc w off := by
  unfold seqTarget
  omega

/-- The oldest window's frame written at SPILL_PTR, which moves on (R209). -/
def spillOldest (x y : Seq) : Seq :=
  { y.stws x.spill (x.frame ((x.cwp + 8 - x.resident) % 7)) with spill := x.spill + 64, resident := x.resident - 1 }

theorem spillOldest_facts (x y : Seq) :
    (spillOldest x y).pc = y.pc ∧ (spillOldest x y).cwp = y.cwp ∧ (spillOldest x y).depth = y.depth ∧ (spillOldest x y).g = y.g
      ∧ (spillOldest x y).win = y.win ∧ (spillOldest x y).resident = x.resident - 1 ∧ (spillOldest x y).spill = x.spill + 64
      ∧ ∀ i < 16, tget 0 (spillOldest x y).mem (x.spill / 4 + i) = nth (x.frame ((x.cwp + 8 - x.resident) % 7)) i 0 := by
  obtain ⟨m, c, hsame⟩ := y.stws_same x.spill (x.frame ((x.cwp + 8 - x.resident) % 7))
  have hmem : ∀ i < 16, tget 0 (spillOldest x y).mem (x.spill / 4 + i) = nth (x.frame ((x.cwp + 8 - x.resident) % 7)) i 0 :=
    fun i hi => by unfold spillOldest; dsimp only; exact Seq.stws_at y x.spill _ hi
  refine ⟨?_, ?_, ?_, ?_, ?_, rfl, rfl, hmem⟩ <;> rw [spillOldest, hsame]

/-- The window that RET returns to, its frame read back as the words ws (R209). -/
def refilled (ws : List Word) (x y : Seq) : Seq :=
  { y with
    win := tsets 0 (fun i => winIx ((x.cwp + 6) % 7) (8 + i)) (fun i => nth ws i 0) 12 y.win
    ra := tset 0 y.ra ((x.cwp + 6) % 7) (nth ws 12 0).toNat
    spill := x.spill - 64
    cwp := (x.cwp + 6) % 7
    depth := x.depth - 1 }

theorem refilled_facts (ws : List Word) (x y : Seq) :
    (refilled ws x y).cwp = (x.cwp + 6) % 7 ∧ (refilled ws x y).spill = x.spill - 64 ∧ (refilled ws x y).depth = x.depth - 1
      ∧ (refilled ws x y).resident = y.resident
      ∧ (∀ i < 12, tget 0 (refilled ws x y).win (winIx ((x.cwp + 6) % 7) (8 + i)) = nth ws i 0)
      ∧ tget 0 (refilled ws x y).ra ((x.cwp + 6) % 7) = (nth ws 12 0).toNat := by
  refine ⟨rfl, rfl, rfl, rfl, fun i hi => ?_, ?_⟩
  · refine tget_tsets (f := fun i => winIx ((x.cwp + 6) % 7) (8 + i)) (fun a ha b hb hab => ?_) hi
    have := (winIx_inj (by omega) (by omega) (by omega) (by omega)).mp hab
    omega
  · simp only [refilled, tget_tset_same]

/-- RET's encoding has no fields. -/
theorem ret_word {k : Nat} (hk : k = 0x19 * 2 ^ 26) : nbits k 26 6 = 0x19 ∧ legZero k = true := by
  subst hk
  decide

/-- The trap save frame stands in memory; the rest of the sequencer is as it was. -/
theorem saveFrame_same (code kind : Nat) (word : Word) (x : Seq) : ∃ m c, saveFrame code kind word x = { x with mem := m, ecc := c } :=
  Seq.stws_same x trapBase (x.trapWords code kind word)

section
variable {g : RegionIx} {n : Word} {s : State} (h : SeqAt g.val n s)
include h

theorem SeqAt.ldw_pc : (s.seq g.val).ldw (s.seq g.val).pc = n := by
  obtain ⟨-, -, -, -, -, hmem⟩ := h
  exact hmem

/-! ### CALL (R205, R207, R209, R210) -/

theorem SeqAt.call_illegal (hop : nbits n.toNat 26 6 = 0x17) (hdeep : 65535 ≤ (s.seq g.val).depth) :
    exec (.seqCall g) s = .next (signal s (seqFault g.val 0x06 0 n s)) := by
  change execSeqCall g s = _
  unfold execSeqCall
  refine h.illegal hop rfl rfl ?_
  simp only [hdeep, if_true]

theorem SeqAt.call_resident (hop : nbits n.toNat 26 6 = 0x17) (hdepth : (s.seq g.val).depth < 65535)
    (hres : (s.seq g.val).resident < 6) :
    ∃ t, exec (.seqCall g) s = .next t ∧ t.tiles = s.tiles
      ∧ SeqGoes g.val (enterWindow (s.seq g.val)) (seqTarget (s.seq g.val).pc 26 (nbits n.toNat 0 26)) s t := by
  change ∃ t, execSeqCall g s = .next t ∧ _
  unfold execSeqCall
  refine h.goes_jump (u := s.modSeq g.val enterWindow) hop rfl rfl ?_ (.modSeq ..) (State.seq_modSeq ..)
  simp only [Nat.not_le.mpr hdepth, hres, if_false, if_true]

theorem SeqAt.call_spills (hop : nbits n.toNat 26 6 = 0x17) (hdepth : (s.seq g.val).depth < 65535)
    (hres : 6 ≤ (s.seq g.val).resident) (hok : s.frameOk g.val (s.seq g.val).spill = true) :
    ∃ t, exec (.seqCall g) s = .next t ∧ t.tiles = s.tiles
      ∧ SeqGoes g.val (enterWindow (spillOldest (s.seq g.val) (saveFrame 0 0 n (s.seq g.val))))
        (seqTarget (s.seq g.val).pc 26 (nbits n.toNat 0 26)) s t := by
  have hword := h.ldw_pc
  have hok' : (s.modSeq g.val (saveFrame 0 0 n)).frameOk g.val (s.seq g.val).spill = true := hok
  generalize hu : ((s.modSeq g.val (saveFrame 0 0 n)).count (cSeq g.val 11) 1).modSeq g.val
    (fun y => enterWindow (spillOldest (s.seq g.val) y)) = u
  have hrest : SeqRest g.val s u := hu ▸ ((SeqRest.modSeq ..).trans (.count ..)).trans (.modSeq ..)
  have hseq : u.seq g.val = enterWindow (spillOldest (s.seq g.val) (saveFrame 0 0 n (s.seq g.val))) := by
    rw [← hu, State.seq_modSeq, State.count_seq, State.seq_modSeq]
  have htiles : u.tiles = s.tiles := by rw [← hu]; exact State.count_tiles ..
  obtain ⟨t, hexec, ht, hgoes⟩ : ∃ t, execSeqCall g s = .next t ∧ t.tiles = u.tiles
      ∧ SeqGoes g.val (enterWindow (spillOldest (s.seq g.val) (saveFrame 0 0 n (s.seq g.val))))
        (seqTarget (s.seq g.val).pc 26 (nbits n.toNat 0 26)) s t := by
    unfold execSeqCall
    refine h.goes_jump hop rfl rfl ?_ hrest hseq
    simp only [Nat.not_le.mpr hdepth, Nat.not_lt.mpr hres, if_false, hword, hok', Bool.not_true, Bool.false_eq_true]
    rw [← hu]
    rfl
  exact ⟨t, hexec, ht.trans htiles, hgoes⟩

theorem SeqAt.call_fault (hop : nbits n.toNat 26 6 = 0x17) (hdepth : (s.seq g.val).depth < 65535)
    (hres : 6 ≤ (s.seq g.val).resident) (hok : s.frameOk g.val (s.seq g.val).spill = false) :
    exec (.seqCall g) s = .next (signal s (seqFaultG g.val 0x08 true n (s.modSeq g.val (saveFrame 0 0 n)))) := by
  have hword := h.ldw_pc
  have hok' : (s.modSeq g.val (saveFrame 0 0 n)).frameOk g.val (s.seq g.val).spill = false := hok
  change execSeqCall g s = _
  unfold execSeqCall
  refine h.ended hop rfl rfl ?_
  simp only [Nat.not_le.mpr hdepth, Nat.not_lt.mpr hres, if_false, hword, hok', Bool.not_false, if_true]

/-! ### RET (R205, R208 to R211) -/

theorem SeqAt.ret_illegal (hn : n.toNat = 0x19 * 2 ^ 26) (hdepth : (s.seq g.val).depth = 0) :
    exec (.seqRet g) s = .next (signal s (seqFault g.val 0x06 0 n s)) := by
  change execSeqRet g s = _
  unfold execSeqRet
  refine h.illegal (ret_word hn).1 (ret_word hn).2 rfl ?_
  simp only [hdepth, if_true]

theorem SeqAt.ret_resident (hn : n.toNat = 0x19 * 2 ^ 26) (hdepth : (s.seq g.val).depth ≠ 0) (hres : 1 < (s.seq g.val).resident) :
    ∃ t, exec (.seqRet g) s = .next t ∧ t.tiles = s.tiles
      ∧ SeqGoes g.val { s.seq g.val with
          cwp := ((s.seq g.val).cwp + 6) % 7, resident := (s.seq g.val).resident - 1, depth := (s.seq g.val).depth - 1 }
        (tget 0 (s.seq g.val).ra (s.seq g.val).cwp) s t := by
  change ∃ t, execSeqRet g s = .next t ∧ _
  unfold execSeqRet
  refine h.goes_jump (u := s.modSeq g.val (fun x => { x with
      cwp := ((s.seq g.val).cwp + 6) % 7, resident := x.resident - 1, depth := x.depth - 1 }))
    (ret_word hn).1 (ret_word hn).2 rfl ?_ (.modSeq ..) (State.seq_modSeq ..)
  simp only [hdepth, hres, if_false, if_true]

theorem SeqAt.ret_fault (hn : n.toNat = 0x19 * 2 ^ 26) (hdepth : (s.seq g.val).depth ≠ 0) (hres : (s.seq g.val).resident ≤ 1)
    (hbad : (s.seq g.val).spill < 64 ∨ s.frameOk g.val ((s.seq g.val).spill - 64) = false) :
    exec (.seqRet g) s = .next (signal s (seqFaultG g.val 0x08 true n (s.modSeq g.val (saveFrame 0 1 n)))) := by
  have hword := h.ldw_pc
  have hbad' : (decide ((s.seq g.val).spill < 64)
      || !(s.modSeq g.val (saveFrame 0 1 n)).frameOk g.val ((s.seq g.val).spill - 64)) = true := by
    change (decide ((s.seq g.val).spill < 64) || !s.frameOk g.val ((s.seq g.val).spill - 64)) = true
    rcases hbad with hlow | hlow
    · rw [decide_eq_true hlow]; rfl
    · rw [hlow]; exact Bool.or_true _
  change execSeqRet g s = _
  unfold execSeqRet
  refine h.ended (ret_word hn).1 (ret_word hn).2 rfl ?_
  simp only [hdepth, Nat.not_lt.mpr hres, if_false, hword, hbad', if_true]

theorem SeqAt.ret_refills (hn : n.toNat = 0x19 * 2 ^ 26) (hdepth : (s.seq g.val).depth ≠ 0) (hres : (s.seq g.val).resident ≤ 1)
    (hspill : 64 ≤ (s.seq g.val).spill) (hok : s.frameOk g.val ((s.seq g.val).spill - 64) = true) {ws : List Word}
    (hread : readFrame g.val ((s.seq g.val).spill - 64) (s.modSeq g.val (saveFrame 0 1 n))
      = (ws, false, s.modSeq g.val (saveFrame 0 1 n))) :
    ∃ t, exec (.seqRet g) s = .next t ∧ t.tiles = s.tiles
      ∧ SeqGoes g.val (refilled ws (s.seq g.val) (saveFrame 0 1 n (s.seq g.val)))
        (tget 0 (s.seq g.val).ra (s.seq g.val).cwp) s t := by
  have hword := h.ldw_pc
  have hgood : (decide ((s.seq g.val).spill < 64)
      || !(s.modSeq g.val (saveFrame 0 1 n)).frameOk g.val ((s.seq g.val).spill - 64)) = false := by
    change (decide ((s.seq g.val).spill < 64) || !s.frameOk g.val ((s.seq g.val).spill - 64)) = false
    rw [decide_eq_false (Nat.not_lt.mpr hspill), hok]
    rfl
  generalize hu : ((s.modSeq g.val (saveFrame 0 1 n)).count (cSeq g.val 12) 1).modSeq g.val (refilled ws (s.seq g.val)) = u
  have hrest : SeqRest g.val s u := hu ▸ ((SeqRest.modSeq ..).trans (.count ..)).trans (.modSeq ..)
  have hseq : u.seq g.val = refilled ws (s.seq g.val) (saveFrame 0 1 n (s.seq g.val)) := by
    rw [← hu, State.seq_modSeq, State.count_seq, State.seq_modSeq]
  have htiles : u.tiles = s.tiles := by rw [← hu]; exact State.count_tiles ..
  obtain ⟨t, hexec, ht, hgoes⟩ : ∃ t, execSeqRet g s = .next t ∧ t.tiles = u.tiles
      ∧ SeqGoes g.val (refilled ws (s.seq g.val) (saveFrame 0 1 n (s.seq g.val)))
        (tget 0 (s.seq g.val).ra (s.seq g.val).cwp) s t := by
    unfold execSeqRet
    refine h.goes_jump (ret_word hn).1 (ret_word hn).2 rfl ?_ hrest hseq
    simp only [hdepth, Nat.not_lt.mpr hres, if_false, hword, hgood, Bool.false_eq_true, hread]
    rw [← hu]
    rfl
  exact ⟨t, hexec, ht.trans htiles, hgoes⟩

end

/-- A frame whose 13 words read clean is read back as they stand. -/
theorem readFrame_of_clean {g p : Nat} {s : State} (h : ∀ i < 13, tget .clean (s.seq g).ecc (p / 4 + i) = .clean) :
    readFrame g p s = ((List.range 13).map (fun i => tget 0 (s.seq g).mem (p / 4 + i)), false, s) := by
  have hread : ∀ i < 13, seqRead g (p + 4 * i) s = (tget 0 (s.seq g).mem (p / 4 + i), false, s) := by
    intro i hi
    have hdiv : (p + 4 * i) / 4 = p / 4 + i := by omega
    rw [seqRead_of_clean (by rw [hdiv]; exact h i hi), hdiv]
  have hall : ∀ m ≤ 13, (List.range m).foldl (fun (a : List Word × Bool × State) i =>
      let (v, bad, s) := seqRead g (p + 4 * i) a.2.2
      (a.1 ++ [v], a.2.1 || bad, s)) ([], false, s)
      = ((List.range m).map (fun i => tget 0 (s.seq g).mem (p / 4 + i)), false, s) := by
    intro m
    induction m with
    | zero => intro _; rfl
    | succ m ih =>
      intro hm
      rw [List.range_succ, List.foldl_append, ih (by omega), List.map_append]
      simp only [List.foldl_cons, List.foldl_nil, hread m (by omega), Bool.or_self, List.map_cons, List.map_nil]
  exact hall 13 (Nat.le_refl 13)

/-- A frame within its area lies below the trap save frame. -/
theorem frameOk_below {s : State} {g p : Nat} (h : s.frameOk g p = true) : p + 64 ≤ 0x1FFC0 := by
  obtain ⟨-, -, -, hbelow⟩ := of_decide_eq_true h
  exact hbelow

/-- The words below the trap save frame stay as they are when it is written. -/
theorem saveFrame_below (code kind : Nat) (word : Word) (x : Seq) {k : Nat} (hk : k < 0x7FF0) :
    tget 0 (saveFrame code kind word x).mem k = tget 0 x.mem k
      ∧ tget .clean (saveFrame code kind word x).ecc k = tget .clean x.ecc k := by
  rw [saveFrame_eq]
  exact Seq.stws_other (fun i _ => by unfold trapBase; omega)

theorem nth_map_range {α : Type} {f : Nat → α} {i m : Nat} {d : α} (hi : i < m) : nth ((List.range m).map f) i d = f i := by
  simp [nth, hi]

theorem SeqAt.ret_reads {g : RegionIx} {n : Word} {s : State} (h : SeqAt g.val n s) (hn : n.toNat = 0x19 * 2 ^ 26)
    (hdepth : (s.seq g.val).depth ≠ 0) (hres : (s.seq g.val).resident ≤ 1) (hspill : 64 ≤ (s.seq g.val).spill) {u w : Nat}
    (hu : (s.seq g.val).spill - 64 = u) (hw : ((s.seq g.val).cwp + 6) % 7 = w) (hok : s.frameOk g.val u = true)
    (hclean : ∀ i < 13, tget .clean (s.seq g.val).ecc (u / 4 + i) = .clean) :
    ∃ t, exec (.seqRet g) s = .next t
      ∧ (t.seq g.val).pc = tget 0 (s.seq g.val).ra (s.seq g.val).cwp % 0x20000 ∧ (t.seq g.val).cwp = w ∧ (t.seq g.val).spill = u
      ∧ (t.seq g.val).depth = (s.seq g.val).depth - 1 ∧ (t.seq g.val).resident = (s.seq g.val).resident ∧ t.regs = s.regs
      ∧ t.tiles = s.tiles
      ∧ (∀ i < 12, tget 0 (t.seq g.val).win (winIx w (8 + i)) = tget 0 (s.seq g.val).mem (u / 4 + i))
      ∧ tget 0 (t.seq g.val).ra w = (tget 0 (s.seq g.val).mem (u / 4 + 12)).toNat := by
  have hbelow := frameOk_below hok
  have hsame : ∀ i < 13, tget 0 (saveFrame 0 1 n (s.seq g.val)).mem (u / 4 + i) = tget 0 (s.seq g.val).mem (u / 4 + i)
      ∧ tget .clean (saveFrame 0 1 n (s.seq g.val)).ecc (u / 4 + i) = tget .clean (s.seq g.val).ecc (u / 4 + i) :=
    fun i hi => saveFrame_below 0 1 n _ (by omega)
  obtain ⟨ws, hread, hnth⟩ : ∃ ws, readFrame g.val u (s.modSeq g.val (saveFrame 0 1 n))
      = (ws, false, s.modSeq g.val (saveFrame 0 1 n)) ∧ ∀ i < 13, nth ws i 0 = tget 0 (s.seq g.val).mem (u / 4 + i) := by
    refine ⟨_, readFrame_of_clean (fun i hi => ?_), fun i hi => ?_⟩
    · rw [State.seq_modSeq, (hsame i hi).2]
      exact hclean i hi
    · rw [nth_map_range hi, State.seq_modSeq, (hsame i hi).1]
  obtain ⟨t, hexec, htiles, ⟨⟨tr, hseq⟩, -, hregs, -⟩⟩ := h.ret_refills hn hdepth hres hspill (hu ▸ hok) (hu ▸ hread)
  obtain ⟨hcwp, hsp, hdep, hresident, hwin, hra⟩ := refilled_facts ws (s.seq g.val) (saveFrame 0 1 n (s.seq g.val))
  generalize refilled ws (s.seq g.val) (saveFrame 0 1 n (s.seq g.val)) = z at hseq hcwp hsp hdep hresident hwin hra
  obtain ⟨m, c, hframe⟩ := saveFrame_same 0 1 n (s.seq g.val)
  refine ⟨t, hexec, ?_⟩
  rw [hseq]
  refine ⟨rfl, hcwp.trans hw, hsp.trans hu, hdep, ?_, hregs, htiles, fun i hi => ?_, ?_⟩
  · rw [hframe] at hresident
    exact hresident
  · rw [← hnth i (by omega), ← hw]
    exact hwin i hi
  · rw [← hnth 12 (by omega), ← hw]
    exact hra

/-! ### The obligation -/

theorem SeqAt.call_enters {g : RegionIx} {n : Word} {s : State} (h : SeqAt g.val n s) (hop : nbits n.toNat 26 6 = 0x17)
    (hdepth : (s.seq g.val).depth < 65535) (hres : (s.seq g.val).resident < 6) :
    ∃ t, exec (.seqCall g) s = .next t
      ∧ Entered (s.seq g.val) ((((s.seq g.val).pc : Int) + 4 + 4 * (n.setWidth 26 : BitVec 26).toInt) % 0x20000).toNat (t.seq g.val)
      ∧ (t.seq g.val).resident = (s.seq g.val).resident + 1 ∧ (t.seq g.val).mem = (s.seq g.val).mem ∧ t.regs = s.regs
      ∧ t.tiles = s.tiles := by
  obtain ⟨t, hexec, htiles, ⟨⟨tr, hseq⟩, -, hregs, -⟩⟩ := h.call_resident hop hdepth hres
  refine ⟨t, hexec, ?_, by rw [hseq]; rfl, by rw [hseq]; rfl, hregs, htiles⟩
  rw [hseq]
  refine entered_of_go rfl ?_ rfl rfl rfl rfl rfl
  rw [seqTarget_mod, seqTarget_eq (by omega)]

theorem SeqAt.call_spills_oldest {g : RegionIx} {n : Word} {s : State} (h : SeqAt g.val n s) (hop : nbits n.toNat 26 6 = 0x17)
    (hdepth : (s.seq g.val).depth < 65535) (hres : 6 ≤ (s.seq g.val).resident)
    (hok : s.frameOk g.val (s.seq g.val).spill = true) :
    ∃ t, exec (.seqCall g) s = .next t
      ∧ Entered (s.seq g.val) ((((s.seq g.val).pc : Int) + 4 + 4 * (n.setWidth 26 : BitVec 26).toInt) % 0x20000).toNat (t.seq g.val)
      ∧ (t.seq g.val).resident = (s.seq g.val).resident ∧ (t.seq g.val).spill = (s.seq g.val).spill + 64 ∧ t.regs = s.regs
      ∧ t.tiles = s.tiles
      ∧ ∀ i < 16, tget 0 (t.seq g.val).mem ((s.seq g.val).spill / 4 + i)
          = nth ((s.seq g.val).frame (((s.seq g.val).cwp + 8 - (s.seq g.val).resident) % 7)) i 0 := by
  obtain ⟨t, hexec, htiles, ⟨⟨tr, hseq⟩, -, hregs, -⟩⟩ := h.call_spills hop hdepth hres hok
  obtain ⟨m, c, hsame⟩ := saveFrame_same 0 0 n (s.seq g.val)
  obtain ⟨hpc, hcwp, hdep, hg, hwin, hresident, hspill, hmem⟩ := spillOldest_facts (s.seq g.val) (saveFrame 0 0 n (s.seq g.val))
  generalize spillOldest (s.seq g.val) (saveFrame 0 0 n (s.seq g.val)) = y at hseq hpc hcwp hdep hg hwin hresident hspill hmem
  rw [hsame] at hpc hcwp hdep hg hwin
  refine ⟨t, hexec, ?_, ?_, ?_, hregs, htiles, fun i hi => ?_⟩
  · rw [hseq]
    refine entered_of_go rfl ?_ hpc hcwp hdep hg hwin
    rw [seqTarget_mod, seqTarget_eq (by omega)]
  · rw [hseq]
    exact (enterWindow_kept y).1.trans (by omega)
  · rw [hseq]
    exact (enterWindow_kept y).2.1.trans hspill
  · rw [hseq, ← hmem i hi, ← (enterWindow_kept y).2.2]

theorem bne_eq_decide (a b : Word) : (a != b) = decide (a ≠ b) := by
  by_cases hab : a = b <;> simp [hab]

theorem not_slt_eq (a b : Word) : (!a.slt b) = decide (b.toInt ≤ a.toInt) := by
  rw [BitVec.slt, ← decide_not]
  exact decide_eq_decide.mpr Int.not_lt

/-- Settles O33: by the rule of issue, one rule per instruction, and the place of each window's registers. -/
theorem seqFlow : Obligations.SeqFlow := by
  unfold Obligations.SeqFlow
  refine ⟨fun g n s h => ?_, fun g n s h => ?_⟩
  · intro x k a b go tgt
    refine ⟨?_, h.jmp, h.jr, fun hop hleg himm => ⟨h.loop_skip hop hleg himm, h.loop_opens hop hleg himm,
      h.loop_illegal hop hleg himm⟩, fun hop hleg => ⟨fun l ls => h.lpop hop hleg, h.lpop_illegal hop hleg⟩, ?_, ?_⟩
    · simp only [List.forall_mem_cons, List.not_mem_nil, false_implies, implies_true, and_true]
      refine ⟨?_, ?_, ?_, ?_⟩
      · exact h.branch (i := .seqBeq g) (fun a b => a == b) rfl rfl
      · exact h.branch (i := .seqBne g) (fun a b => a != b) rfl (bne_eq_decide _ _)
      · exact h.branch (i := .seqBlt g) (fun a b => a.slt b) rfl rfl
      · exact h.branch (i := .seqBge g) (fun a b => !a.slt b) rfl (not_slt_eq _ _)
    · intro c i st first last ls hl
      change x.loops = _ at hl
      simp only [go, hl]
      exact fallThrough_facts
    · intro hl
      change fallThrough x.pc x.loops = _
      rw [hl]
      rfl
  · intro x k u w tgt entered
    refine ⟨fun hop => ⟨h.call_illegal hop, h.call_enters hop, h.call_spills_oldest hop, h.call_fault hop⟩, fun hn =>
      ⟨h.ret_illegal hn, h.ret_resident hn, fun hdepth hres hspill hok hclean => h.ret_reads hn hdepth hres hspill rfl rfl hok hclean,
        h.ret_fault hn⟩⟩

end Sys2Proof.Machine
end

section
/-! REPLAY under a key whose FRAME is not zero: a started replay carries stream and frame, not the stream alone (R124, R222). -/
namespace Sys2Proof.Machine

/-- A sequencer at a REPLAY of address 0, with KEY of stream 0 and frame 1, and one tile selected. -/
def replaySeq : Seq :=
  { Seq.init with key := BitVec.ofNat 32 (2 ^ 20 + 1), tmask := 1, pc := 0, mem := [(0, BitVec.ofNat 32 (0x1E * 2 ^ 26))] }

/-- Region 0 runs, and its sequencer is at the REPLAY. -/
def replayState : State :=
  { State.reset with regs := [(aRegionClk 0, BitVec.ofNat 32 (2 ^ 16))], seqs := [(0, replaySeq)] }

theorem replayState_at : SeqAt 0 (BitVec.ofNat 32 (0x1E * 2 ^ 26)) replayState :=
  ⟨rfl, rfl, rfl, by decide, rfl, rfl⟩

/-- What the REPLAY leaves of tiles and counts. -/
def replayStarted : State :=
  ((each [0] replayState (fun s t => s.modTile t (fun y => { y with pendStart := some (sfOf replaySeq.key, 0, (s.patchesFor t).length) }))).count
    (cSeq 0 9) 1).modSeq 0 (fun x => { x with started := x.started + 1 })

theorem replayStarted_pend : (replayStarted.tile 0).pendStart = some (256, 0, 0) := by rfl

theorem replayStarted_rest : SeqRest 0 replayState replayStarted := by
  unfold replayStarted
  refine (SeqRest.trans ?_ (.count ..)).trans (.modSeq ..)
  exact each_keep (SeqRest 0 replayState) _ (fun _ _ hu => hu.trans (.modTile ..)) _ _ (.refl ..)

theorem replayState_exec : ∃ t, exec (.seqReplay 0) replayState = .next t ∧ t.tiles = replayStarted.tiles := by
  obtain ⟨t, hexec, htiles, -⟩ : ∃ t, execSeqReplay 0 replayState = .next t ∧ t.tiles = replayStarted.tiles ∧ _ := by
    unfold execSeqReplay
    exact replayState_at.goes_on (u := replayStarted) rfl rfl rfl rfl replayStarted_rest rfl rfl
  exact ⟨t, hexec, htiles⟩

/-- Refutes O34: the statement says a replay is started for KEY.STREAM; it is started for KEY's stream and frame (R124), which
differ as numbers once FRAME is not zero. -/
theorem not_seqCommandsAndReplays : ¬ Obligations.SeqCommandsAndReplays := by
  unfold Obligations.SeqCommandsAndReplays
  intro h
  obtain ⟨-, hreplay, -⟩ := h 0 _ replayState replayState_at
  obtain ⟨-, hstart, -⟩ := hreplay rfl rfl rfl
  obtain ⟨u, hexec, -, -, hpend⟩ := hstart (by decide) rfl (fun i _ _ => rfl)
  obtain ⟨t, hexec', htiles⟩ := replayState_exec
  rw [hexec, Host.Outcome.next.injEq] at hexec'
  have hpend0 : (u.tile 0).pendStart = some (0, 0, 0) := hpend 0 (by decide)
  rw [State.tile, hexec', htiles, ← State.tile, replayStarted_pend] at hpend0
  cases hpend0

end Sys2Proof.Machine
end

section
/-! What a fault changes (R341, R344, R347): its records, its counts, the drains it asks for, and nothing else. -/
namespace Sys2Proof.Machine

/-- Nothing but registers, counters, streams and the journal has changed. -/
def OnlyFault (s t : State) : Prop :=
  t = { s with regs := t.regs, src := t.src, outbox := t.outbox, waiting := t.waiting, counters := t.counters,
               streams := t.streams, journal := t.journal }

section
variable {s t u : State}

theorem OnlyFault.refl (s : State) : OnlyFault s s := rfl

theorem OnlyFault.trans (h : OnlyFault s t) (h' : OnlyFault t u) : OnlyFault s u := by
  unfold OnlyFault at *
  rw [h', h]

theorem OnlyRegs.onlyFault (h : OnlyRegs s t) : OnlyFault s t := by
  unfold OnlyRegs at h
  unfold OnlyFault
  rw [h]

theorem OnlyFault.count (h : OnlyFault s t) (off k : Nat) : OnlyFault s (t.count off k) := by
  obtain ⟨c, hc⟩ := t.count_eq off k
  rw [hc]
  exact h.trans rfl

theorem OnlyFault.journalPut (h : OnlyFault s t) (type : Nat) (body : List Word) : OnlyFault s (t.journalPut type body) := by
  unfold State.journalPut
  dsimp only
  split <;> exact h.trans rfl

theorem OnlyFault.seqs (h : OnlyFault s t) : t.seqs = s.seqs := by unfold OnlyFault at h; rw [h]
theorem OnlyFault.tiles (h : OnlyFault s t) : t.tiles = s.tiles := by unfold OnlyFault at h; rw [h]
theorem OnlyFault.active (h : OnlyFault s t) : t.active = s.active := by unfold OnlyFault at h; rw [h]
theorem OnlyFault.mem (h : OnlyFault s t) : t.mem = s.mem := by unfold OnlyFault at h; rw [h]
theorem OnlyFault.images (h : OnlyFault s t) : t.images = s.images := by unfold OnlyFault at h; rw [h]
theorem OnlyFault.power (h : OnlyFault s t) : t.power = s.power := by unfold OnlyFault at h; rw [h]
theorem OnlyFault.ferries (h : OnlyFault s t) : t.ferries = s.ferries := by unfold OnlyFault at h; rw [h]
theorem OnlyFault.fabric (h : OnlyFault s t) : t.fabric = s.fabric := by unfold OnlyFault at h; rw [h]
theorem OnlyFault.tmq (h : OnlyFault s t) : t.tmq = s.tmq := by unfold OnlyFault at h; rw [h]
theorem OnlyFault.time (h : OnlyFault s t) : t.time = s.time := by unfold OnlyFault at h; rw [h]

theorem OnlyFault.seq (h : OnlyFault s t) (g : Nat) : t.seq g = s.seq g := by rw [State.seq, h.seqs, State.seq]
theorem OnlyFault.tile (h : OnlyFault s t) (i : Nat) : t.tile i = s.tile i := by rw [State.tile, h.tiles, State.tile]
theorem OnlyFault.act (h : OnlyFault s t) (off : Nat) : t.act off = s.act off := by rw [State.act, h.active, State.act]

/-! ### Records (R344) -/

theorem ringPut_onlyRegs (n : Nat) (ws : List Word) (s : State) : OnlyRegs s (ringPut n ws s) := by
  unfold ringPut
  dsimp only
  refine OnlyRegs.cause ?_ n 2
  split
  · exact (OnlyRegs.refl s).addSat ..
  · exact ((OnlyRegs.refl s).wrs ..).setF ..

theorem logPut_onlyRegs (ws : List Word) (s : State) : OnlyRegs s (logPut ws s) := by
  unfold logPut
  dsimp only
  split
  · exact (OnlyRegs.refl s).addSat ..
  · exact ((OnlyRegs.refl s).wrs ..).setF ..

/-- The registers outside lo to hi are as they were. -/
def RegsOff (lo hi : Nat) (s t : State) : Prop := ∀ j, ¬ (lo ≤ j ∧ j < hi) → t.rd j = s.rd j

section
variable {lo hi : Nat}

theorem RegsOff.refl (lo hi : Nat) (s : State) : RegsOff lo hi s s := fun _ _ => rfl

theorem RegsOff.trans (h : RegsOff lo hi s t) (h' : RegsOff lo hi t u) : RegsOff lo hi s u :=
  fun j hj => (h' j hj).trans (h j hj)

theorem RegsOff.mono {lo' hi' : Nat} (h : RegsOff lo hi s t) (hlo : lo' ≤ lo) (hhi : hi ≤ hi') : RegsOff lo' hi' s t :=
  fun j hj => h j (by omega)

theorem RegsOff.wr (h : RegsOff lo hi s t) {off : Nat} (hoff : lo ≤ off ∧ off < hi) (w : Word) : RegsOff lo hi s (t.wr off w) :=
  fun j hj => (State.rd_wr_ne t w fun hjo => hj (by rwa [hjo])).trans (h j hj)

theorem RegsOff.setF (h : RegsOff lo hi s t) {off : Nat} (hoff : lo ≤ off ∧ off < hi) (a len v : Nat) :
    RegsOff lo hi s (t.setF off a len v) := h.wr hoff _

theorem RegsOff.addSat (h : RegsOff lo hi s t) {off : Nat} (hoff : lo ≤ off ∧ off < hi) (a len v : Nat) :
    RegsOff lo hi s (t.addSat off a len v) := h.setF hoff _ _ _

theorem RegsOff.wrs (h : RegsOff lo hi s t) {off : Nat} {ws : List Word} (hlo : lo ≤ off) (hhi : off + 4 * ws.length < hi + 4) :
    RegsOff lo hi s (t.wrs off ws) := by
  induction ws generalizing t off with
  | nil => exact h
  | cons w ws ih =>
    rw [List.length_cons] at hhi
    exact ih (h.wr ⟨hlo, by omega⟩ w) (by omega) (by omega)

theorem RegsOff.cause (h : RegsOff lo hi s t) {n : Nat} (hoff : lo ≤ aStreamIntCause n ∧ aStreamIntCause n < hi) (k : Nat) :
    RegsOff lo hi s (t.cause n k) := by
  unfold State.cause
  dsimp only
  split
  · exact h.setF hoff _ _ _
  · intro j hj
    exact (State.rd_msix ..).trans (h.setF hoff _ _ _ j hj)

theorem RegsOff.f_eq (h : RegsOff lo hi s t) {j : Nat} (hj : ¬ (lo ≤ j ∧ j < hi)) (a len : Nat) : t.f j a len = s.f j a len :=
  State.f_congr (h j hj) _ _

theorem RegsOff.bit_eq (h : RegsOff lo hi s t) {j : Nat} (hj : ¬ (lo ≤ j ∧ j < hi)) (i : Nat) : t.bit j i = s.bit j i :=
  State.bit_congr (h j hj) _

end

theorem State.f_lt (s : State) (off lo len : Nat) : s.f off lo len < 2 ^ len := nbits_lt _ _ _

theorem FaultAt.words_length (x : FaultAt) (stamp : Nat) : (x.words stamp).length = 4 := rfl

theorem ringPut_regsOff (n : Nat) {ws : List Word} (hws : ws.length = 4) (s : State) :
    RegsOff (streamPage n + 0xc) (streamPage n + 0x200) s (ringPut n ws s) := by
  have htail : s.f (aFaultTail n) 0 4 < 16 := s.f_lt ..
  unfold ringPut
  dsimp only
  refine RegsOff.cause ?_ (by unfold aStreamIntCause; omega) 2
  split
  · refine RegsOff.addSat (.refl _ _ _) ?_ _ _ _
    unfold aFaultTail; omega
  · refine RegsOff.setF (.wrs (.refl _ _ _) (by omega) (by omega)) ?_ _ _ _
    unfold aFaultTail; omega

theorem logPut_regsOff {ws : List Word} (hws : ws.length = 4) (s : State) : RegsOff 0x12000 0x12428 s (logPut ws s) := by
  have htail : s.f aFlogTail 0 6 < 64 := s.f_lt ..
  unfold logPut
  dsimp only
  split
  · refine RegsOff.addSat (.refl _ _ _) ?_ _ _ _
    unfold aFlogTail; omega
  · refine RegsOff.setF (.wrs (.refl _ _ _) (by omega) (by omega)) ?_ _ _ _
    unfold aFlogTail; omega

/-! ### Drains -/

theorem reqDrain_onlyFault (k : DrainKind) (s : State) (n : Nat) : OnlyFault s (reqDrain k s n) := by
  unfold reqDrain
  split
  · split <;> rfl
  · rfl

theorem reqDrain_regs (k : DrainKind) (s : State) (n : Nat) : (reqDrain k s n).regs = s.regs := by
  unfold reqDrain
  split
  · split <;> rfl
  · rfl

/-! ### A fault of class S -/

section
variable (x : FaultAt) (n : Nat) (s : State)

theorem raiseS_onlyFault : OnlyFault s (raiseS x n s) := by
  unfold raiseS
  dsimp only
  exact ((((ringPut_onlyRegs n _ s).onlyFault.count ..).trans (logPut_onlyRegs _ _).onlyFault)).trans (reqDrain_onlyFault ..)

/-- The registers a class S fault writes: the ring of its stream and the device log. -/
theorem raiseS_rd {j : Nat} (hpage : ¬ (streamPage n + 0xc ≤ j ∧ j < streamPage n + 0x200)) (hlog : ¬ (0x12000 ≤ j ∧ j < 0x12428)) :
    (raiseS x n s).rd j = s.rd j := by
  unfold raiseS
  dsimp only
  rw [State.rd, reqDrain_regs, ← State.rd, logPut_regsOff (FaultAt.words_length ..) _ j hlog, State.count_rd,
    ringPut_regsOff n (FaultAt.words_length ..) s j hpage]

theorem raiseS_st (m : Nat) : (raiseS x n s).st m = s.st m := by
  refine State.f_congr (raiseS_rd x n s ?_ ?_) _ _ <;> unfold aStreamStatus streamPage <;> omega

/-- A running or stopping stream without a request is asked to drain. -/
theorem raiseS_drainReq (hst : s.st n = 1 ∨ s.st n = 2) (hreq : (s.stream n).drainReq = none) :
    ((raiseS x n s).stream n).drainReq = some .fault := by
  unfold raiseS
  dsimp only
  generalize hu : logPut _ ((ringPut n _ s).count (cStream n 7) 1) = u
  have hrd : ∀ j, ¬ (streamPage n + 0xc ≤ j ∧ j < streamPage n + 0x200) → ¬ (0x12000 ≤ j ∧ j < 0x12428) → u.rd j = s.rd j := by
    intro j hpage hlog
    rw [← hu, logPut_regsOff (FaultAt.words_length ..) _ j hlog, State.count_rd,
      ringPut_regsOff n (FaultAt.words_length ..) s j hpage]
  have hstream : u.stream n = s.stream n := by
    rw [← hu, (logPut_onlyRegs _ _).stream, State.stream, State.count_streams, ← State.stream, (ringPut_onlyRegs ..).stream]
  have hstu : u.st n = s.st n := by
    refine State.f_congr (hrd _ ?_ ?_) _ _ <;> unfold aStreamStatus streamPage <;> omega
  rw [reqDrain_of_none (by rwa [hstu]) (by rw [hstream]; exact hreq), State.stream_setStream, if_pos rfl]

end

end

/-! ### Before a region halts (R351, R358) -/

/-- The records, the journal entry and the drains of a class G fault in region g. -/
def faultNoted (x : FaultAt) (g : Nat) (s : State) : State :=
  let ws := x.words s.now
  let ns := s.streamsIn g
  let s := each ns s (fun s n => (ringPut n ws s).count (cStream n 7) 1)
  each ns ((logPut ws s).journalPut 1 ws) (reqDrain .fault)

section
variable (x : FaultAt) (g : Nat) (s : State)

theorem faultNoted_onlyFault : OnlyFault s (faultNoted x g s) := by
  unfold faultNoted
  dsimp only
  refine each_keep (OnlyFault s) _ (fun _ _ h => h.trans (reqDrain_onlyFault ..)) _ _ ?_
  refine OnlyFault.journalPut (OnlyFault.trans ?_ (logPut_onlyRegs _ _).onlyFault) _ _
  exact each_keep (OnlyFault s) _ (fun _ _ h => (h.trans (ringPut_onlyRegs ..).onlyFault).count ..) _ _ (.refl s)

theorem State.journalPut_rd (type : Nat) (body : List Word) (j : Nat) : (s.journalPut type body).rd j = s.rd j := by
  unfold State.journalPut
  dsimp only
  split <;> rfl

/-- Of the registers beyond the streams' pages none is written. -/
theorem faultNoted_rd (hns : ∀ m ∈ s.streamsIn g, m < 256) {j : Nat} (hj : 0x200000 ≤ j) : (faultNoted x g s).rd j = s.rd j := by
  unfold faultNoted
  dsimp only
  refine (each_eq (fun u => u.rd j) (reqDrain .fault) (fun u n => ?_) _ _).trans ?_
  · rw [State.rd, reqDrain_regs, State.rd]
  rw [State.journalPut_rd, logPut_regsOff (FaultAt.words_length ..) _ j (by omega)]
  generalize s.streamsIn g = ns at hns
  suffices h : ∀ u, (each ns u (fun u n => (ringPut n (x.words s.now) u).count (cStream n 7) 1)).rd j = u.rd j from h s
  unfold each
  induction ns with
  | nil => exact fun _ => rfl
  | cons m ms ih =>
    intro u
    have hm := hns m List.mem_cons_self
    rw [List.foldl_cons, ih (fun k hk => hns k (List.mem_cons_of_mem _ hk)), State.count_rd,
      ringPut_regsOff m (FaultAt.words_length ..) u j (by unfold streamPage; omega)]

/-- The sequencer of a region that halts. -/
def haltedSeq (ws : List Word) (clk : Word) (q : Seq) : Seq :=
  { q with halted := true, fault := ws, savedDiv := nbits clk.toNat 16 4 }

theorem tilesOf_nodup (g : Nat) : (tilesOf g).Nodup := List.nodup_range.map (fun _ _ h => tileOf_inj.mp h)

theorem mem_tilesOf {g i : Nat} (hi : i < 16) : tileOf g i ∈ tilesOf g := List.mem_map.mpr ⟨i, List.mem_range.mpr hi, rfl⟩

theorem each_modTile_only (l : List Nat) (f : Tile → Tile) (u : State) :
    each l u (fun s t => s.modTile t f) = { u with tiles := (each l u (fun s t => s.modTile t f)).tiles } :=
  each_keep (fun v : State => v = { u with tiles := v.tiles }) _ (fun v t hv => by rw [hv]; rfl) l u rfl

/-- A region halts in three places: its tiles, its sequencer, REGION_FSTATUS. -/
theorem haltRegion_parts (code : Nat) (ws : List Word) (u : State) (g : Nat) : ∃ v : State,
    haltRegion code ws u g
      = ((v.modSeq g (haltedSeq ws (u.rd (aRegionClk g)))).setF (aRegionFstatus g) 28 4 1).setF (aRegionFstatus g) 8 8 code
    ∧ v = { u with tiles := v.tiles }
    ∧ ∀ t, v.tile t = if t ∈ tilesOf g then { u.tile t with halted := true } else u.tile t := by
  obtain ⟨v, hv⟩ : ∃ v, each (tilesOf g) u (fun s t => s.modTile t (fun x => { x with halted := true })) = v := ⟨_, rfl⟩
  have hkept : v = { u with tiles := v.tiles } := by
    rw [← hv]
    exact each_modTile_only ..
  have hrd : v.rd (aRegionClk g) = u.rd (aRegionClk g) := by rw [hkept]; rfl
  refine ⟨v, ?_, hkept, fun t => ?_⟩
  · unfold haltRegion
    dsimp only
    rw [hv, ← hrd]
    rfl
  · rw [← hv]
    exact tile_each_modTile (tilesOf_nodup g) (fun x => { x with halted := true }) u t

theorem haltRegion_rd (code : Nat) (ws : List Word) (u : State) {j : Nat} (hj : j ≠ aRegionFstatus g) :
    (haltRegion code ws u g).rd j = u.rd j := by
  obtain ⟨v, hv, hkept, -⟩ := haltRegion_parts code ws u g
  rw [hv, State.rd_setF_ne _ _ _ _ hj, State.rd_setF_ne _ _ _ _ hj, State.modSeq, State.rd_setSeq, hkept]
  rfl

/-- A first fault of class G in a region whose recovery is not automatic halts it. -/
theorem raiseG_halts (hns : ∀ m ∈ s.streamsIn g, m < 256) (hphase : s.phase g = 0) (hauto : s.bit (aRegionFctl g) 29 = false) :
    raiseG x g s = haltRegion x.code (x.words s.now) (faultNoted x g s) g := by
  have hphase' : (faultNoted x g s).phase g = 0 := by
    refine Eq.trans (State.f_congr (faultNoted_rd x g s hns ?_) _ _) hphase
    unfold aRegionFstatus seqPage; omega
  have hauto' : (haltRegion x.code (x.words s.now) (faultNoted x g s) g).bit (aRegionFctl g) 29 = false := by
    refine Eq.trans (State.bit_congr ((haltRegion_rd g _ _ _ ?_).trans (faultNoted_rd x g s hns ?_)) _) hauto
    · unfold aRegionFctl aRegionFstatus; omega
    · unfold aRegionFctl seqPage; omega
  unfold raiseG
  simp only [hphase, ne_eq, not_true_eq_false, decide_false, Bool.false_and, Bool.false_eq_true, if_false]
  exact if_neg (Bool.eq_false_iff.mp hauto')

end

/-! ### Halted regions (R351) -/

section
variable (code : Nat) (ws : List Word) (u : State) (g : Nat)

theorem haltRegion_phase : (haltRegion code ws u g).phase g = 1 := by
  obtain ⟨v, hv, -, -⟩ := haltRegion_parts code ws u g
  rw [hv]
  exact (State.f_setF_of_disjoint _ 8 8 _ (by decide) (by decide)).trans (State.f_setF_same _ _ _ (by decide))

theorem haltRegion_phase_ne {h : Nat} (hne : h ≠ g) : (haltRegion code ws u g).phase h = u.phase h :=
  State.f_congr (haltRegion_rd g code ws u (by unfold aRegionFstatus seqPage; omega)) _ _

theorem haltRegion_seq : (haltRegion code ws u g).seq g = haltedSeq ws (u.rd (aRegionClk g)) (u.seq g) := by
  obtain ⟨v, hv, hkept, -⟩ := haltRegion_parts code ws u g
  rw [hv, State.seq, State.setF_seqs, State.setF_seqs, ← State.seq, State.seq_modSeq, hkept]
  rfl

theorem haltRegion_seq_ne {h : Nat} (hne : h ≠ g) : (haltRegion code ws u g).seq h = u.seq h := by
  obtain ⟨v, hv, hkept, -⟩ := haltRegion_parts code ws u g
  rw [hv, State.seq, State.setF_seqs, State.setF_seqs, ← State.seq, State.seq_modSeq_ne _ _ hne, hkept]
  rfl

theorem haltRegion_tile (t : Nat) : (haltRegion code ws u g).tile t
    = if t ∈ tilesOf g then { u.tile t with halted := true } else u.tile t := by
  obtain ⟨v, hv, -, htile⟩ := haltRegion_parts code ws u g
  rw [hv, State.tile, State.setF_tiles, State.setF_tiles]
  exact htile t

theorem haltRegion_journal : (haltRegion code ws u g).journal = u.journal := by
  obtain ⟨v, hv, hkept, -⟩ := haltRegion_parts code ws u g
  rw [hv, State.setF_journal, State.setF_journal, hkept]
  rfl

end

/-! ### A fault of class F (R341, R355) -/

/-- A region halted by a class F fault. -/
def HaltedAt (g : Nat) (t : State) : Prop := t.phase g = 1 ∧ (t.seq g).halted = true

/-- A step over a list makes P true of every element, and each step keeps it of the others. -/
theorem each_all {α σ : Type} {P : α → σ → Prop} {f : σ → α → σ} (hmake : ∀ s x, P x (f s x))
    (hkeep : ∀ s x y, x ≠ y → P x s → P x (f s y)) {l : List α} {x : α} (hx : x ∈ l) (s : σ) : P x (each l s f) := by
  refine each_of_mem (P x) f (fun s => hmake s x) (fun s y h => ?_) hx s
  by_cases hxy : x = y
  · rw [← hxy]; exact hmake s x
  · exact hkeep s x y hxy h

section
variable (x : FaultAt) (s : State)

/-- Records, journal entry and FATAL of a class F fault. -/
def fatalNoted : State :=
  let ws := x.words s.now
  let live := (s.streams.map (·.1)).filter (fun n => s.st n ≠ 0)
  let s := each live s (fun s n => ringPut n ws s)
  let s := logPut ws s
  let s := if s.rd 0x12410 = 0 then s.wrs 0x12410 ws else s
  (s.journalPut 1 ws).setB aGlobalStatus 28 true

theorem raiseF_eq : raiseF x s = each ((s.streams.map (·.1)).filter (fun n => s.st n ≠ 0))
    (each (List.range 25) (fatalNoted x s) (fun u g => haltRegion x.code (x.words s.now) u g)) (reqDrain .fault) := rfl

theorem raiseF_kept {P : State → Prop} (hP : ∀ u n, P u → P (reqDrain .fault u n))
    (h : P (each (List.range 25) (fatalNoted x s) (fun u g => haltRegion x.code (x.words s.now) u g))) : P (raiseF x s) := by
  rw [raiseF_eq]
  exact each_keep P _ hP _ _ h

theorem raiseF_halts {g : Nat} (hg : g < 25) : HaltedAt g (raiseF x s) := by
  refine raiseF_kept x s (fun u n hu => ?_) ?_
  · obtain ⟨hphase, hhalt⟩ := hu
    refine ⟨?_, ?_⟩
    · rw [State.phase, State.f, State.rd, reqDrain_regs]
      exact hphase
    · rwa [(reqDrain_onlyFault ..).seq]
  · refine each_all (P := HaltedAt) (fun u g => ?_) (fun u g h hne hu => ?_) (List.mem_range.mpr hg) _
    · exact ⟨haltRegion_phase .., by rw [haltRegion_seq]; rfl⟩
    · obtain ⟨hphase, hhalt⟩ := hu
      exact ⟨by rw [haltRegion_phase_ne _ _ _ _ hne, hphase], by rw [haltRegion_seq_ne _ _ _ _ hne, hhalt]⟩

theorem raiseF_fatal : (raiseF x s).bit aGlobalStatus 28 = true := by
  refine raiseF_kept x s (P := fun u => u.bit aGlobalStatus 28 = true) (fun u n hu => ?_) ?_
  · rw [State.bit, State.rd, reqDrain_regs]
    exact hu
  · refine each_keep (fun u : State => u.bit aGlobalStatus 28 = true) _ (fun u g hu => ?_) _ _ ?_
    · rw [State.bit_congr (haltRegion_rd g _ _ u (by unfold aGlobalStatus aRegionFstatus seqPage; omega))]
      exact hu
    · exact State.bit_setB_same _ _ _ (by decide)

end

end Sys2Proof.Machine
end

section
/-! What a discard of commands and SIDs changes (R230, R231, R234): command queues, staging, and notes of completion. -/
namespace Sys2Proof.Machine

/-! ### Loops over a list without repetition -/

/-- Each element's observation is changed once, by its own step. -/
theorem each_once {α σ β : Type} {obs : σ → β} {F : β → β} {f : σ → α → σ} {x : α} (hmake : ∀ s, obs (f s x) = F (obs s))
    (hkeep : ∀ s y, y ≠ x → obs (f s y) = obs s) {l : List α} (hl : l.Nodup) (hx : x ∈ l) (s : σ) :
    obs (each l s f) = F (obs s) := by
  unfold each
  induction l generalizing s with
  | nil => exact absurd hx List.not_mem_nil
  | cons a l ih =>
    obtain ⟨ha, hl⟩ := List.nodup_cons.mp hl
    rw [List.foldl_cons]
    rcases List.mem_cons.mp hx with hxa | hxl
    · subst hxa
      have hrest : ∀ (m : List α) (u : σ), x ∉ m → obs (m.foldl f u) = obs u := by
        intro m
        induction m with
        | nil => exact fun _ _ => rfl
        | cons b m ihm =>
          intro u hm
          obtain ⟨hb, hm⟩ := not_or.mp (fun h => hm (List.mem_cons.mpr h))
          rw [List.foldl_cons, ihm _ hm, hkeep _ _ (fun h => hb h.symm)]
      rw [hrest l _ ha, hmake]
    · have hne : a ≠ x := fun h => ha (h ▸ hxl)
      rw [ih hl hxl, hkeep _ _ hne]

/-- An element outside the list keeps its observation. -/
theorem each_never {α σ β : Type} {obs : σ → β} {f : σ → α → σ} {l : List α} (hkeep : ∀ s, ∀ y ∈ l, obs (f s y) = obs s) (s : σ) :
    obs (each l s f) = obs s := by
  unfold each
  induction l generalizing s with
  | nil => rfl
  | cons a l ih =>
    rw [List.foldl_cons, ih (fun s y hy => hkeep s y (List.mem_cons_of_mem _ hy)), hkeep s a List.mem_cons_self]

/-! ### What stays of a sequencer -/

/-- A sequencer keeps everything but its trace and its count of done replays. -/
def SeqKept (g : Nat) (s u : State) : Prop := ∃ tr dr, u.seq g = { s.seq g with trace := tr, doneReplays := dr }

section
variable {g : Nat} {s t u : State}

theorem SeqKept.of_seq (h : u.seq g = s.seq g) : SeqKept g s u := ⟨_, _, h⟩

theorem SeqKept.of_seqs (h : u.seqs = s.seqs) : SeqKept g s u := .of_seq (by rw [State.seq, h, State.seq])

theorem SeqKept.refl (g : Nat) (s : State) : SeqKept g s s := .of_seq rfl

theorem SeqKept.trans (h : SeqKept g s t) (h' : SeqKept g t u) : SeqKept g s u := by
  obtain ⟨tr, dr, ht⟩ := h
  obtain ⟨tr', dr', hu⟩ := h'
  exact ⟨tr', dr', by rw [hu, ht]⟩

theorem SeqKept.modSeq (s : State) (h : Nat) {f : Seq → Seq} (hf : ∀ x, ∃ tr dr, f x = { x with trace := tr, doneReplays := dr }) :
    SeqKept g s (s.modSeq h f) := by
  by_cases hgh : g = h
  · obtain ⟨tr, dr, hx⟩ := hf (s.seq g)
    exact ⟨tr, dr, by rw [← hgh, State.seq_modSeq, hx]⟩
  · exact .of_seq (State.seq_modSeq_ne s f hgh)

theorem SeqKept.trace (s : State) (r : TraceRec) : SeqKept g s (s.trace r) := by
  rcases s.trace_cases r with h | ⟨b, h⟩ | ⟨b, h⟩ | h <;> rw [h]
  · exact .refl g s
  · exact .modSeq s _ fun x => ⟨b, x.doneReplays, rfl⟩
  · exact .of_seqs rfl
  · exact .of_seqs (State.count_seqs ..)

end

/-- A tile but t is not touched by a change of t. -/
theorem TileKept.modTile_ne {t t' : Nat} (hne : t' ≠ t) (s : State) (f : Tile → Tile) : TileKept t' s (s.modTile t f) :=
  .of_tile (by rw [State.modTile, State.tile_setTile, if_neg hne])

/-- Nothing of the configuration in effect or of the streams has changed. -/
def ConfigKept (s u : State) : Prop := u.active = s.active ∧ u.streams = s.streams

section
variable {s t u : State}

theorem ConfigKept.refl (s : State) : ConfigKept s s := ⟨rfl, rfl⟩

theorem ConfigKept.trans (h : ConfigKept s t) (h' : ConfigKept t u) : ConfigKept s u := ⟨h'.1.trans h.1, h'.2.trans h.2⟩

theorem ConfigKept.count (s : State) (off k : Nat) : ConfigKept s (s.count off k) := ⟨State.count_active .., State.count_streams ..⟩

theorem ConfigKept.trace (s : State) (r : TraceRec) : ConfigKept s (s.trace r) := by
  rcases s.trace_cases r with h | ⟨b, h⟩ | ⟨b, h⟩ | h <;> rw [h]
  · exact .refl s
  · exact ⟨rfl, rfl⟩
  · exact ⟨rfl, rfl⟩
  · exact .count s _ _

end

/-! ### Completion noted -/

section
variable (t : Nat) (s : State)

theorem reportDone_facts : (∀ g, SeqKept g s (reportDone t s)) ∧ ConfigKept s (reportDone t s) := by
  unfold reportDone
  dsimp only
  split
  · exact ⟨fun g => .refl g s, .refl s⟩
  · refine each_keep (fun u => (∀ g, SeqKept g s u) ∧ ConfigKept s u) _ (fun u d hu => ?_) _ _ ⟨fun g => ?_, rfl, rfl⟩
    · exact ⟨fun g => (hu.1 g).trans (.trace ..), hu.2.trans (.trace ..)⟩
    · exact (SeqKept.of_seqs rfl).trans (.modSeq _ _ fun x => ⟨x.trace, _, rfl⟩)

theorem reportDone_kept_all (t' : Nat) : TileKept t' s (reportDone t s) := by
  by_cases ht : t' = t
  · rw [ht]
    exact reportDone_kept _ _
  unfold reportDone
  dsimp only
  split
  · exact .refl t' s
  · refine each_keep (TileKept t' s) _ (fun _ _ h => h.trans (tileTrace_kept _ _ _ _ _ _ _ _)) _ _ ?_
    exact (TileKept.modTile_ne ht s _).trans (.of_tiles (State.setSeq_tiles ..))

end

/-! ### Commands discarded -/

/-- The commands of engine e that `gone` picks leave the queue of tile t. -/
def discardEngine (t : Nat) (squash : Bool) (gone : QCmd → Nat → Bool) (s : State) (e : Nat) : State :=
  let out := ((s.tile t).queue e).filter (fun c => gone c e)
  let s := s.modTile t (fun x =>
    { (x.setQueue e ((x.queue e).filter (fun c => !gone c e))) with
      awaits := x.awaits.filter (fun a => !a.cmds.any (fun p => p.1 == e && out.any (fun c => c.bound.isSome && c.tag == p.2))) })
  if squash then
    each out (s.count (cTile t (22 + e)) out.length) (fun s c => tileTrace t 3 e c.tag c.key 0 s)
  else s

section
variable (t : Nat) (squash : Bool) (gone : QCmd → Nat → Bool) (s : State)

theorem discardCmds_eq : discardCmds t squash gone s = reportDone t (each (List.range 4) s (discardEngine t squash gone)) := rfl

/-- The change of tile t alone, before counts and traces. -/
theorem discardEngine_parts (e : Nat) : ∃ aw : Tile → List Await, let v := s.modTile t (fun x =>
      { (x.setQueue e ((x.queue e).filter (fun c => !gone c e))) with awaits := aw x })
    (∀ t', TileKept t' v (discardEngine t squash gone s e)) ∧ (∀ g, SeqKept g v (discardEngine t squash gone s e))
      ∧ ConfigKept v (discardEngine t squash gone s e) := by
  refine ⟨fun x => x.awaits.filter (fun a => !a.cmds.any (fun p => p.1 == e
    && (((s.tile t).queue e).filter (fun c => gone c e)).any (fun c => c.bound.isSome && c.tag == p.2))), ?_⟩
  unfold discardEngine
  dsimp only
  generalize s.modTile t _ = v
  cases squash with
  | false => exact ⟨fun t' => .refl t' v, fun g => .refl g v, .refl v⟩
  | true =>
    rw [if_pos rfl]
    exact each_keep (fun u => (∀ t', TileKept t' v u) ∧ (∀ g, SeqKept g v u) ∧ ConfigKept v u) _
      (fun u c hu => ⟨fun t' => (hu.1 t').trans (tileTrace_kept ..), fun g => (hu.2.1 g).trans (.trace ..),
        hu.2.2.trans (.trace ..)⟩) _ _
      ⟨fun t' => .of_tiles (State.count_tiles ..), fun g => .of_seqs (State.count_seqs ..), .count ..⟩

theorem discardEngine_queue (e t' f : Nat) : ((discardEngine t squash gone s e).tile t').queue f
    = if t' = t ∧ f = e then ((s.tile t').queue f).filter (fun c => !gone c e) else (s.tile t').queue f := by
  obtain ⟨aw, htile, -⟩ := discardEngine_parts t squash gone s e
  rw [Tile.queue, (htile t').cq, ← Tile.queue, State.modTile, State.tile_setTile]
  by_cases ht : t' = t
  · rw [if_pos ht, ht]
    by_cases hf : f = e
    · rw [if_pos ⟨rfl, hf⟩, hf]
      exact Tile.queue_setQueue ..
    · rw [if_neg (fun h => hf h.2)]
      exact (tget_tset ..).trans (if_neg hf)
  · rw [if_neg ht, if_neg (fun h => ht h.1)]

theorem discardEngine_staged (e t' : Nat) : ((discardEngine t squash gone s e).tile t').staged = (s.tile t').staged := by
  obtain ⟨aw, htile, -⟩ := discardEngine_parts t squash gone s e
  rw [(htile t').staged, State.modTile, State.tile_setTile]
  split
  next h => rw [h]; rfl
  next => rfl

theorem discardEngine_rest (e : Nat) : (∀ g, SeqKept g s (discardEngine t squash gone s e))
    ∧ ConfigKept s (discardEngine t squash gone s e) := by
  obtain ⟨aw, -, hseq, hconf⟩ := discardEngine_parts t squash gone s e
  exact ⟨fun g => (SeqKept.of_seqs rfl).trans (hseq g), ConfigKept.trans ⟨rfl, rfl⟩ hconf⟩

/-- The queues after a discard. -/
theorem discardCmds_queue (t' : Nat) {e : Nat} (he : e < 4) : ((discardCmds t squash gone s).tile t').queue e
    = if t' = t then ((s.tile t').queue e).filter (fun c => !gone c e) else (s.tile t').queue e := by
  rw [discardCmds_eq, Tile.queue, (reportDone_kept_all ..).cq, ← Tile.queue]
  have hmine : ((each (List.range 4) s (discardEngine t squash gone)).tile t').queue e
      = (fun l => if t' = t then List.filter (fun c => !gone c e) l else l) ((s.tile t').queue e) :=
    each_once (obs := fun u : State => (u.tile t').queue e)
      (F := fun l => if t' = t then List.filter (fun c => !gone c e) l else l) (fun u => by simp only [discardEngine_queue, and_true])
      (fun u f hf => by rw [discardEngine_queue, if_neg (fun h => hf h.2.symm)]) List.nodup_range (List.mem_range.mpr he) s
  exact hmine

theorem discardCmds_staged (t' : Nat) : ((discardCmds t squash gone s).tile t').staged = (s.tile t').staged := by
  rw [discardCmds_eq, (reportDone_kept_all ..).staged]
  exact each_eq (fun u => (u.tile t').staged) _ (fun u e => discardEngine_staged t squash gone u e t') _ s

theorem discardCmds_rest : (∀ g, SeqKept g s (discardCmds t squash gone s)) ∧ ConfigKept s (discardCmds t squash gone s) := by
  obtain ⟨hseq, hconf⟩ := reportDone_facts t (each (List.range 4) s (discardEngine t squash gone))
  obtain ⟨hseq', hconf'⟩ := each_keep (fun u => (∀ g, SeqKept g s u) ∧ ConfigKept s u) (discardEngine t squash gone)
    (fun u e hu => ⟨fun g => (hu.1 g).trans ((discardEngine_rest ..).1 g), hu.2.trans (discardEngine_rest ..).2⟩) (List.range 4) s
    ⟨fun g => .refl g s, .refl s⟩
  rw [discardCmds_eq]
  exact ⟨fun g => (hseq' g).trans (hseq g), hconf'.trans hconf⟩

end

/-! ### Staging discarded -/

section
variable (t : Nat) (gone : Nat × Nat × Nat × Staged → Bool) (s : State)

theorem discardStaged_queue (t' e : Nat) : ((discardStaged t gone s).tile t').queue e = (s.tile t').queue e := by
  unfold discardStaged
  rw [State.modTile, State.tile_setTile]
  split
  next h => rw [h]; rfl
  next => rfl

theorem discardStaged_rest : (discardStaged t gone s).seqs = s.seqs ∧ ConfigKept s (discardStaged t gone s) := ⟨rfl, rfl, rfl⟩

theorem discardStaged_staged (t' : Nat) : ((discardStaged t gone s).tile t').staged
    = if t' = t then (s.tile t').staged.filter (fun p => !gone p) else (s.tile t').staged := by
  unfold discardStaged
  rw [State.modTile, State.tile_setTile]
  split
  next h => rw [h]
  next => rfl

end

/-! ### SIDs dropped (R230, R234) -/

theorem cancelKicks_facts (gone : Nat × Nat → Bool) (s : State) : (cancelKicks gone s).tiles = s.tiles
    ∧ (cancelKicks gone s).seqs = s.seqs ∧ ConfigKept s (cancelKicks gone s) := by
  unfold cancelKicks
  dsimp only
  refine each_keep (fun u => u.tiles = s.tiles ∧ u.seqs = s.seqs ∧ ConfigKept s u) _ (fun u f hu => ?_) _ s ⟨rfl, rfl, .refl s⟩
  obtain ⟨htiles, hseqs, hact, hstr⟩ := hu
  split
  · split
    · exact ⟨(State.count_tiles ..).trans htiles, (State.count_seqs ..).trans hseqs, (State.count_active ..).trans hact,
        (State.count_streams ..).trans hstr⟩
    · exact ⟨htiles, hseqs, hact, hstr⟩
  · exact ⟨htiles, hseqs, hact, hstr⟩

/-- The discard of one tile's speculative commands and staging of the SIDs ds. -/
def dropTile (ds : List Nat) (s : State) (t : Nat) : State :=
  discardStaged t (fun p => ds.contains p.1) (discardCmds t true (fun c _ => c.spec && ds.contains c.sid) s)

section
variable (g : Nat) (ds : List Nat) (s : State)

/-- The traces and counts of the dropped SIDs. -/
def sidsTraced : State :=
  each ds (cancelKicks (fun p => p.1 == g && ds.contains p.2) (each (tilesOf g) s (dropTile ds)))
    (fun s d => seqTrace g 10 (s.seq g).key d 0 (s.count (cSeq g 14) 1))

theorem dropSids_eq : dropSids g ds s
    = (sidsTraced g ds s).modSeq g (fun x => { x with sids := x.sids.filter (fun d => !ds.contains d.sid) }) := rfl

theorem sidsTraced_facts : let v := each (tilesOf g) s (dropTile ds)
    (sidsTraced g ds s).tiles = v.tiles ∧ SeqKept g v (sidsTraced g ds s) ∧ ConfigKept v (sidsTraced g ds s) := by
  intro v
  obtain ⟨htiles, hseqs, hconf⟩ := cancelKicks_facts (fun p => p.1 == g && ds.contains p.2) v
  refine each_keep (fun u => u.tiles = v.tiles ∧ SeqKept g v u ∧ ConfigKept v u) _ (fun u d hu => ?_) ds _
    ⟨htiles, .of_seqs hseqs, hconf⟩
  obtain ⟨ht, hq, hc⟩ := hu
  refine ⟨(seqTrace_tiles ..).trans ((State.count_tiles ..).trans ht), ?_, (hc.trans (.count ..)).trans (.trace ..)⟩
  exact (hq.trans (.of_seqs (State.count_seqs ..))).trans (.trace ..)

theorem dropTile_queue (t t' : Nat) {e : Nat} (he : e < 4) : ((dropTile ds s t).tile t').queue e
    = if t' = t then ((s.tile t').queue e).filter (fun c => !(c.spec && ds.contains c.sid)) else (s.tile t').queue e := by
  rw [dropTile, discardStaged_queue, discardCmds_queue _ _ _ _ _ he]

theorem dropTile_staged (t t' : Nat) : ((dropTile ds s t).tile t').staged
    = if t' = t then (s.tile t').staged.filter (fun p => !ds.contains p.1) else (s.tile t').staged := by
  rw [dropTile, discardStaged_staged, discardCmds_staged]

theorem dropTile_rest (t : Nat) : SeqKept g s (dropTile ds s t) ∧ ConfigKept s (dropTile ds s t) := by
  obtain ⟨hseq, hconf⟩ := discardCmds_rest t true (fun c _ => c.spec && ds.contains c.sid) s
  obtain ⟨hseqs, hconf'⟩ := discardStaged_rest t (fun p => ds.contains p.1) (discardCmds t true (fun c _ => c.spec && ds.contains c.sid) s)
  exact ⟨(hseq g).trans (.of_seqs hseqs), hconf.trans hconf'⟩

/-- The commands of the dropped SIDs leave the queues of the region's tiles. -/
theorem dropSids_queue {i e : Nat} (hi : i < 16) (he : e < 4) : ((dropSids g ds s).tile (tileOf g i)).queue e
    = ((s.tile (tileOf g i)).queue e).filter (fun c => !(c.spec && ds.contains c.sid)) := by
  have htile : (dropSids g ds s).tile (tileOf g i) = (each (tilesOf g) s (dropTile ds)).tile (tileOf g i) := by
    rw [dropSids_eq, State.tile, State.tile, ← (sidsTraced_facts g ds s).1]
    rfl
  rw [htile]
  exact each_once (obs := fun u : State => (u.tile (tileOf g i)).queue e) (F := List.filter (fun c => !(c.spec && ds.contains c.sid)))
    (fun u => by rw [dropTile_queue _ _ _ _ he, if_pos rfl])
    (fun u y hy => by rw [dropTile_queue _ _ _ _ he, if_neg hy.symm]) (tilesOf_nodup g) (mem_tilesOf hi) s

theorem dropSids_staged {i : Nat} (hi : i < 16) : ((dropSids g ds s).tile (tileOf g i)).staged
    = (s.tile (tileOf g i)).staged.filter (fun p => !ds.contains p.1) := by
  have htile : (dropSids g ds s).tile (tileOf g i) = (each (tilesOf g) s (dropTile ds)).tile (tileOf g i) := by
    rw [dropSids_eq, State.tile, State.tile, ← (sidsTraced_facts g ds s).1]
    rfl
  rw [htile]
  exact each_once (obs := fun u : State => (u.tile (tileOf g i)).staged) (F := List.filter (fun p => !ds.contains p.1))
    (fun u => by rw [dropTile_staged, if_pos rfl])
    (fun u y hy => by rw [dropTile_staged, if_neg hy.symm]) (tilesOf_nodup g) (mem_tilesOf hi) s

/-- Of the sequencer only its SIDs change, and its notes of traces and replays. -/
theorem dropSids_seq : ∃ tr dr, (dropSids g ds s).seq g =
    { s.seq g with
      sids := (s.seq g).sids.filter (fun d => !ds.contains d.sid)
      trace := tr
      doneReplays := dr } := by
  obtain ⟨-, hseq, -⟩ := sidsTraced_facts g ds s
  have hall : SeqKept g s (each (tilesOf g) s (dropTile ds)) :=
    each_keep (SeqKept g s) _ (fun u t hu => hu.trans (dropTile_rest g ds u t).1) _ s (.refl g s)
  obtain ⟨tr, dr, hx⟩ := hall.trans hseq
  exact ⟨tr, dr, by rw [dropSids_eq, State.seq_modSeq, hx]⟩

theorem dropSids_config : ConfigKept s (dropSids g ds s) := by
  obtain ⟨-, -, hconf⟩ := sidsTraced_facts g ds s
  have hall : ConfigKept s (each (tilesOf g) s (dropTile ds)) :=
    each_keep (ConfigKept s) _ (fun u t hu => hu.trans (dropTile_rest g ds u t).2) _ s (.refl s)
  exact (hall.trans hconf).trans ⟨rfl, rfl⟩

end

end Sys2Proof.Machine
end

section
/-! Issue of a sequencer instruction, and its faults (R203 to R206, R235). -/
namespace Sys2Proof.Machine

/-! ### Every row is issued by its opcode, its encoding and its need of a key -/

/-- An outcome is that of the issue of an instruction with this opcode: `legal` at the word n, `key` where it needs KEY. -/
def Issues (g op : Nat) (legal key : Bool) (n : Word) (s : State) (o : Host.Outcome State Fault Refusal) : Prop :=
  ∃ lg cp body, o = seqIssue g op lg key cp body s ∧ lg n.toNat = legal

section
variable {g op : Nat} {legal key : Bool} {n : Word} {s : State} {o : Host.Outcome State Fault Refusal} (hi : Issues g op legal key n s o)
include hi

theorem Issues.stops (h : s.seqRuns g = false) : o = .next s := by
  obtain ⟨lg, cp, body, ho, -⟩ := hi
  rw [ho, seqIssue_of_not_runs h]

theorem Issues.skips (h : SeqAt g n s) (hop : nbits n.toNat 26 6 ≠ op) : o = .next s := by
  obtain ⟨lg, cp, body, ho, -⟩ := hi
  rw [ho, h.skips hop]

theorem Issues.reserved (h : SeqAt g n s) (hop : nbits n.toNat 26 6 = op) (hleg : legal = false) :
    o = .next (signal s (seqFault g 0x01 7 n s)) := by
  obtain ⟨lg, cp, body, ho, hlg⟩ := hi
  rw [ho, h.reserved hop (hlg.trans hleg)]

theorem Issues.keyless (h : SeqAt g n s) (hop : nbits n.toNat 26 6 = op) (hleg : legal = true) (hkey : key = true)
    (hvalid : (s.seq g).keyOk = false) : o = .next (signal s (seqFault g 0x06 0 n s)) := by
  obtain ⟨lg, cp, body, ho, hlg⟩ := hi
  rw [ho, hkey, h.keyless hop (hlg.trans hleg) hvalid]

end

/-- The rows of the instruction table (10): opcode, encoding, need of KEY. -/
def seqRows (g : RegionIx) (k : Nat) : List (Instr × Nat × Bool × Bool) :=
  [(.seqNop g, 0x00, legZero k, false), (.seqAdd g, 0x01, legR k, false), (.seqSub g, 0x02, legR k, false),
   (.seqAnd g, 0x03, legR k, false), (.seqOr g, 0x04, legR k, false), (.seqXor g, 0x05, legR k, false),
   (.seqSll g, 0x06, legR k, false), (.seqSrl g, 0x07, legR k, false), (.seqSra g, 0x08, legR k, false),
   (.seqMul g, 0x09, legR k, false), (.seqSlt g, 0x0A, legR k, false), (.seqSltu g, 0x0B, legR k, false),
   (.seqAddi g, 0x0C, legI k, false), (.seqAndi g, 0x0D, legI k, false), (.seqOri g, 0x0E, legI k, false),
   (.seqLui g, 0x0F, regOk (rdF k) && decide (raF k = 0), false), (.seqLw g, 0x10, legI k, false),
   (.seqSw g, 0x11, legI k, false), (.seqBeq g, 0x12, legI k, false), (.seqBne g, 0x13, legI k, false),
   (.seqBlt g, 0x14, legI k, false), (.seqBge g, 0x15, legI k, false), (.seqJmp g, 0x16, true, false),
   (.seqCall g, 0x17, true, false), (.seqJr g, 0x18, legRa k, false), (.seqRet g, 0x19, legZero k, false),
   (.seqLoop g, 0x1A, legI k && decide (immF k ≠ 0), false), (.seqLpop g, 0x1B, legZero k, false),
   (.seqAff g, 0x1C, legR k && decide (rbF k = 0), false),
   (.seqCmd g, 0x1D, regOk (raF k) && regOk (rbF k) && decide (nbits k 0 11 = 0), true), (.seqReplay g, 0x1E, legRa k, true),
   (.seqRwait g, 0x1F, legZero k, false), (.seqPatch g, 0x20, legRaRb k, false), (.seqBcw g, 0x21, legRaRb k, false),
   (.seqTminc g, 0x22, legRaRb k, true), (.seqTmwait g, 0x23, legRa k, true),
   (.seqKeyget g, 0x24, regOk (rdF k) && decide (nbits k 0 21 = 0), false), (.seqKeyi g, 0x25, legRa k, true),
   (.seqSetkey g, 0x26, legRa k, false), (.seqSpecbr g, 0x27, legI k, false), (.seqFkick g, 0x28, legRaRb k, true),
   (.seqMfs g, 0x29, regOk (rdF k) && decide (raF k = 0) && decide (rbF k < 12) && decide (nbits k 0 11 = 0), false),
   (.seqMts g, 0x2A, regOk (raF k) && decide (rdF k = 0) && decide (rbF k = 0 ∨ rbF k = 3) && decide (nbits k 0 11 = 0), false)]

theorem seqRows_issue (g : RegionIx) (n : Word) (s : State) :
    ∀ p ∈ seqRows g n.toNat, Issues g.val p.2.1 p.2.2.1 p.2.2.2 n s (exec p.1 s) := by
  unfold seqRows
  simp only [List.forall_mem_cons, List.not_mem_nil, false_implies, implies_true, and_true]
  refine ⟨?_, ?_, ?_, ?_, ?_, ?_, ?_, ?_, ?_, ?_, ?_, ?_, ?_, ?_, ?_, ?_, ?_, ?_, ?_, ?_, ?_, ?_, ?_, ?_, ?_, ?_, ?_, ?_, ?_, ?_, ?_, ?_, ?_, ?_, ?_, ?_, ?_, ?_, ?_, ?_, ?_, ?_, ?_⟩
  · change Issues g.val _ _ _ n s (execSeqNop g s)
    unfold execSeqNop
    exact ⟨_, _, _, rfl, rfl⟩
  · change Issues g.val _ _ _ n s (execSeqAdd g s)
    unfold execSeqAdd seqAlu seqValue
    exact ⟨_, _, _, rfl, rfl⟩
  · change Issues g.val _ _ _ n s (execSeqSub g s)
    unfold execSeqSub seqAlu seqValue
    exact ⟨_, _, _, rfl, rfl⟩
  · change Issues g.val _ _ _ n s (execSeqAnd g s)
    unfold execSeqAnd seqAlu seqValue
    exact ⟨_, _, _, rfl, rfl⟩
  · change Issues g.val _ _ _ n s (execSeqOr g s)
    unfold execSeqOr seqAlu seqValue
    exact ⟨_, _, _, rfl, rfl⟩
  · change Issues g.val _ _ _ n s (execSeqXor g s)
    unfold execSeqXor seqAlu seqValue
    exact ⟨_, _, _, rfl, rfl⟩
  · change Issues g.val _ _ _ n s (execSeqSll g s)
    unfold execSeqSll seqAlu seqValue
    exact ⟨_, _, _, rfl, rfl⟩
  · change Issues g.val _ _ _ n s (execSeqSrl g s)
    unfold execSeqSrl seqAlu seqValue
    exact ⟨_, _, _, rfl, rfl⟩
  · change Issues g.val _ _ _ n s (execSeqSra g s)
    unfold execSeqSra seqAlu seqValue
    exact ⟨_, _, _, rfl, rfl⟩
  · change Issues g.val _ _ _ n s (execSeqMul g s)
    unfold execSeqMul seqAlu seqValue
    exact ⟨_, _, _, rfl, rfl⟩
  · change Issues g.val _ _ _ n s (execSeqSlt g s)
    unfold execSeqSlt seqAlu seqValue
    exact ⟨_, _, _, rfl, rfl⟩
  · change Issues g.val _ _ _ n s (execSeqSltu g s)
    unfold execSeqSltu seqAlu seqValue
    exact ⟨_, _, _, rfl, rfl⟩
  · change Issues g.val _ _ _ n s (execSeqAddi g s)
    unfold execSeqAddi seqValue
    exact ⟨_, _, _, rfl, rfl⟩
  · change Issues g.val _ _ _ n s (execSeqAndi g s)
    unfold execSeqAndi seqValue
    exact ⟨_, _, _, rfl, rfl⟩
  · change Issues g.val _ _ _ n s (execSeqOri g s)
    unfold execSeqOri seqValue
    exact ⟨_, _, _, rfl, rfl⟩
  · change Issues g.val _ _ _ n s (execSeqLui g s)
    unfold execSeqLui seqValue
    exact ⟨_, _, _, rfl, rfl⟩
  · change Issues g.val _ _ _ n s (execSeqLw g s)
    unfold execSeqLw
    exact ⟨_, _, _, rfl, rfl⟩
  · change Issues g.val _ _ _ n s (execSeqSw g s)
    unfold execSeqSw
    exact ⟨_, _, _, rfl, rfl⟩
  · change Issues g.val _ _ _ n s (execSeqBeq g s)
    unfold execSeqBeq seqBranch
    exact ⟨_, _, _, rfl, rfl⟩
  · change Issues g.val _ _ _ n s (execSeqBne g s)
    unfold execSeqBne seqBranch
    exact ⟨_, _, _, rfl, rfl⟩
  · change Issues g.val _ _ _ n s (execSeqBlt g s)
    unfold execSeqBlt seqBranch
    exact ⟨_, _, _, rfl, rfl⟩
  · change Issues g.val _ _ _ n s (execSeqBge g s)
    unfold execSeqBge seqBranch
    exact ⟨_, _, _, rfl, rfl⟩
  · change Issues g.val _ _ _ n s (execSeqJmp g s)
    unfold execSeqJmp
    exact ⟨_, _, _, rfl, rfl⟩
  · change Issues g.val _ _ _ n s (execSeqCall g s)
    unfold execSeqCall
    exact ⟨_, _, _, rfl, rfl⟩
  · change Issues g.val _ _ _ n s (execSeqJr g s)
    unfold execSeqJr
    exact ⟨_, _, _, rfl, rfl⟩
  · change Issues g.val _ _ _ n s (execSeqRet g s)
    unfold execSeqRet
    exact ⟨_, _, _, rfl, rfl⟩
  · change Issues g.val _ _ _ n s (execSeqLoop g s)
    unfold execSeqLoop
    exact ⟨_, _, _, rfl, rfl⟩
  · change Issues g.val _ _ _ n s (execSeqLpop g s)
    unfold execSeqLpop
    exact ⟨_, _, _, rfl, rfl⟩
  · change Issues g.val _ _ _ n s (execSeqAff g s)
    unfold execSeqAff seqValue
    exact ⟨_, _, _, rfl, rfl⟩
  · change Issues g.val _ _ _ n s (execSeqCmd g s)
    unfold execSeqCmd
    exact ⟨_, _, _, rfl, rfl⟩
  · change Issues g.val _ _ _ n s (execSeqReplay g s)
    unfold execSeqReplay
    exact ⟨_, _, _, rfl, rfl⟩
  · change Issues g.val _ _ _ n s (execSeqRwait g s)
    unfold execSeqRwait
    exact ⟨_, _, _, rfl, rfl⟩
  · change Issues g.val _ _ _ n s (execSeqPatch g s)
    unfold execSeqPatch
    exact ⟨_, _, _, rfl, rfl⟩
  · change Issues g.val _ _ _ n s (execSeqBcw g s)
    unfold execSeqBcw
    exact ⟨_, _, _, rfl, rfl⟩
  · change Issues g.val _ _ _ n s (execSeqTminc g s)
    unfold execSeqTminc
    exact ⟨_, _, _, rfl, rfl⟩
  · change Issues g.val _ _ _ n s (execSeqTmwait g s)
    unfold execSeqTmwait
    exact ⟨_, _, _, rfl, rfl⟩
  · change Issues g.val _ _ _ n s (execSeqKeyget g s)
    unfold execSeqKeyget
    exact ⟨_, _, _, rfl, rfl⟩
  · change Issues g.val _ _ _ n s (execSeqKeyi g s)
    unfold execSeqKeyi
    exact ⟨_, _, _, rfl, rfl⟩
  · change Issues g.val _ _ _ n s (execSeqSetkey g s)
    unfold execSeqSetkey
    exact ⟨_, _, _, rfl, rfl⟩
  · change Issues g.val _ _ _ n s (execSeqSpecbr g s)
    unfold execSeqSpecbr
    exact ⟨_, _, _, rfl, rfl⟩
  · change Issues g.val _ _ _ n s (execSeqFkick g s)
    unfold execSeqFkick
    exact ⟨_, _, _, rfl, rfl⟩
  · change Issues g.val _ _ _ n s (execSeqMfs g s)
    unfold execSeqMfs seqValue
    exact ⟨_, _, _, rfl, rfl⟩
  · change Issues g.val _ _ _ n s (execSeqMts g s)
    unfold execSeqMts
    exact ⟨_, _, _, rfl, rfl⟩

/-! ### What a fault saves and where it restarts (R206, R212) -/

theorem saveFrame_words (code kind : Nat) (word : Word) (x : Seq) :
    (saveFrame code kind word x).ldw 0x1FFC0 = BitVec.ofNat 32 x.pc ∧ (saveFrame code kind word x).ldw 0x1FFC4 = word
      ∧ (saveFrame code kind word x).ldw 0x1FFC8 = BitVec.ofNat 32 (code * 256 + kind) := by
  have hat : ∀ i < 16, tget 0 (saveFrame code kind word x).mem (trapBase / 4 + i) = nth (x.trapWords code kind word) i 0 :=
    fun i hi => by rw [saveFrame_eq]; exact Seq.stws_at x trapBase _ hi
  exact ⟨hat 0 (by decide), hat 1 (by decide), hat 2 (by decide)⟩

theorem key_cleared (k : Word) : nbit (BitVec.ofNat 32 (k.toNat / 2 * 2)).toNat 0 = false := by
  have hlt := k.isLt
  rw [BitVec.toNat_ofNat, Nat.mod_eq_of_lt (by omega), nbit]
  simp

/-- Where a fault leaves the sequencer x (R206). -/
def restarted (base pc : Nat) (x : Seq) : Seq :=
  { x with
    loops := []
    key := BitVec.ofNat 32 (x.key.toNat / 2 * 2)
    depth := 0
    spill := base
    cwp := 0
    resident := 1
    pc := pc
    wait := 0
    waitIdx := none
    granted := false }

theorem seqRestart_eq (g : Nat) (s : State) : seqRestart g s = (dropSids g ((s.seq g).sids.map (·.sid)) s).modSeq g
    (restarted (nbits (s.act (aSeqSpillBase g)).toNat 6 11 * 64) (nbits (s.act (aSeqRestart g)).toNat 2 15 * 4)) := by
  have hact : ∀ off, (dropSids g ((s.seq g).sids.map (·.sid)) s).act off = s.act off := fun off => by
    rw [State.act, (dropSids_config ..).1, State.act]
  unfold seqRestart
  dsimp only
  rw [hact, hact]
  rfl

/-- The state a fault has noted: the trap save frame and a trace record. -/
def trapNoted (g code : Nat) (word : Word) (s : State) : State :=
  seqTrace g 9 (s.seq g).key code 0 (s.modSeq g (saveFrame code 2 word))

section
variable (g code detail : Nat) (word : Word) (s : State)

theorem trapNoted_seq : ∃ tr, (trapNoted g code word s).seq g = { saveFrame code 2 word (s.seq g) with trace := tr } := by
  obtain ⟨tr, h⟩ := seqTrace_seq g 9 (s.seq g).key code 0 (s.modSeq g (saveFrame code 2 word))
  exact ⟨tr, by rw [trapNoted, h, State.seq_modSeq]⟩

theorem trapNoted_rest : SeqRest g s (trapNoted g code word s) := (SeqRest.modSeq ..).trans (.seqTrace ..)

theorem trapNoted_streamsIn : (trapNoted g code word s).streamsIn g = s.streamsIn g := by
  unfold trapNoted
  rcases seqTrace_cases g 9 (s.seq g).key code 0 (s.modSeq g (saveFrame code 2 word)) with h | ⟨b, h⟩ | h <;> rw [h]
  · rfl
  · rfl
  · obtain ⟨c, hc⟩ := (s.modSeq g (saveFrame code 2 word)).count_eq cTraceLost 1
    rw [hc]
    rfl

theorem trapNoted_tiles : (trapNoted g code word s).tiles = s.tiles := seqTrace_tiles ..

theorem seqFault_of_key (h : (s.seq g).keyOk = true) : seqFault g code detail word s
    = seqRestart g (raiseS (seqRecord g 1 code detail (s.seq g)) (strOf (s.seq g).key) (trapNoted g code word s)) := if_pos h

theorem seqFault_of_no_key (h : (s.seq g).keyOk = false) : seqFault g code detail word s
    = raiseG (seqRecord g 2 code detail (s.seq g)) g (trapNoted g code word s) := if_neg (Bool.eq_false_iff.mp h)

end

/-- A fault under a valid KEY with no speculation open (R206). -/
theorem seqFault_restarts (g code detail : Nat) (word : Word) (s : State) (hkey : (s.seq g).keyOk = true)
    (hsids : (s.seq g).sids = []) :
    (∀ i < 16, ∀ e < 4, ((seqFault g code detail word s).tile (tileOf g i)).queue e = (s.tile (tileOf g i)).queue e)
    ∧ (∃ tr dr m c, (seqFault g code detail word s).seq g = restarted (nbits (s.act (aSeqSpillBase g)).toNat 6 11 * 64)
        (nbits (s.act (aSeqRestart g)).toNat 2 15 * 4) { s.seq g with mem := m, ecc := c, trace := tr, doneReplays := dr }
        ∧ m = (saveFrame code 2 word (s.seq g)).mem)
    ∧ (s.st (strOf (s.seq g).key) = 1 → (s.stream (strOf (s.seq g).key)).drainReq = none →
        ((seqFault g code detail word s).stream (strOf (s.seq g).key)).drainReq = some .fault) := by
  generalize hn : strOf (s.seq g).key = n
  obtain ⟨-, hregs, hact, -, -, hstreams⟩ := trapNoted_rest g code word s
  obtain ⟨tr, hseq⟩ := trapNoted_seq g code word s
  have htiles := trapNoted_tiles g code word s
  obtain ⟨m, c, hsame⟩ := saveFrame_same code 2 word (s.seq g)
  rw [seqFault_of_key g code detail word s hkey, hn]
  generalize trapNoted g code word s = u at *
  have hraised := raiseS_onlyFault (seqRecord g 1 code detail (s.seq g)) n u
  have hdrain : s.st n = 1 → (s.stream n).drainReq = none →
      ((raiseS (seqRecord g 1 code detail (s.seq g)) n u).stream n).drainReq = some .fault := fun hst hreq =>
    raiseS_drainReq _ n u (.inl (by rw [State.st, State.f, State.rd, hregs]; exact hst))
      (by rw [State.stream, hstreams]; exact hreq)
  generalize raiseS (seqRecord g 1 code detail (s.seq g)) n u = v at *
  have hvseq : v.seq g = { saveFrame code 2 word (s.seq g) with trace := tr } := by rw [hraised.seq, hseq]
  have hvsids : (v.seq g).sids.map (·.sid) = [] := by rw [hvseq, hsame, hsids]; rfl
  have hvact : ∀ off, v.act off = s.act off := fun off => by rw [hraised.act, State.act, hact, State.act]
  have hvtile : ∀ t, v.tile t = s.tile t := fun t => by rw [hraised.tile, State.tile, htiles, State.tile]
  rw [seqRestart_eq, hvsids, hvact, hvact]
  have hqueue : ∀ i < 16, ∀ e < 4, ((dropSids g [] v).tile (tileOf g i)).queue e = (s.tile (tileOf g i)).queue e := by
    intro i hi e he
    rw [dropSids_queue g [] v hi he, hvtile]
    exact List.filter_eq_self.mpr fun c _ => by simp
  obtain ⟨tr', dr', hdropped⟩ := dropSids_seq g [] v
  obtain ⟨-, hstr⟩ := dropSids_config g [] v
  generalize dropSids g [] v = w at *
  have hw : w.seq g = { s.seq g with mem := m, ecc := c, trace := tr', doneReplays := dr' } := by
    rw [hdropped, hvseq, hsame]
    simp only [hsids, List.filter_nil]
  refine ⟨hqueue, ⟨tr', dr', m, c, ?_, by rw [hsame]⟩, fun hst hreq => ?_⟩
  · rw [State.seq_modSeq, hw]
  · rw [State.modSeq, State.stream, State.setSeq_streams, hstr]
    exact hdrain hst hreq

theorem haltedSeq_halted (ws : List Word) (clk : Word) (q : Seq) : (haltedSeq ws clk q).halted = true := rfl

theorem haltedSeq_mem (ws : List Word) (clk : Word) (q : Seq) : (haltedSeq ws clk q).mem = q.mem := rfl

/-- A fault without a valid KEY (R206, R351): the region halts. -/
theorem seqFault_halts (g code detail : Nat) (word : Word) (s : State) (hkey : (s.seq g).keyOk = false)
    (hns : ∀ m ∈ s.streamsIn g, m < 256) (hphase : s.phase g = 0) (hauto : s.bit (aRegionFctl g) 29 = false) :
    (seqFault g code detail word s).phase g = 1 ∧ ((seqFault g code detail word s).seq g).halted = true
      ∧ ((seqFault g code detail word s).seq g).mem = (saveFrame code 2 word (s.seq g)).mem
      ∧ ∀ i < 16, ((seqFault g code detail word s).tile (tileOf g i)).halted = true := by
  obtain ⟨-, hregs, -⟩ := trapNoted_rest g code word s
  obtain ⟨tr, hseq⟩ := trapNoted_seq g code word s
  have hstreams := trapNoted_streamsIn g code word s
  rw [seqFault_of_no_key g code detail word s hkey]
  generalize trapNoted g code word s = u at *
  have hrd : ∀ j, u.rd j = s.rd j := fun j => by rw [State.rd, hregs, State.rd]
  rw [raiseG_halts _ g u (hstreams ▸ hns) ((State.f_congr (hrd _) _ _).trans hphase) ((State.bit_congr (hrd _) _).trans hauto)]
  have hnoted := faultNoted_onlyFault (seqRecord g 2 code detail (s.seq g)) g u
  refine ⟨haltRegion_phase .., ?_, ?_, fun i hi => ?_⟩
  · rw [haltRegion_seq, haltedSeq_halted]
  · rw [haltRegion_seq, haltedSeq_mem, hnoted.seq, hseq]
  · rw [haltRegion_tile, if_pos (mem_tilesOf hi)]

/-! ### The obligation -/

theorem SeqAt.no_sids {g : Nat} {n : Word} {s : State} (h : SeqAt g n s) : (s.seq g).sids = [] := by
  obtain ⟨-, -, hsids, -⟩ := h
  exact hsids

theorem SeqAt.reservedOpcode {g : RegionIx} {n : Word} {s : State} (h : SeqAt g.val n s) (hop : 0x2B ≤ nbits n.toNat 26 6) :
    exec (.seqReservedOpcode g) s = .next (signal s (seqFault g.val 0x01 7 n s)) := by
  change execSeqReservedOpcode g s = _
  unfold execSeqReservedOpcode
  rw [h.ldw_pc]
  exact (if_neg (Nat.not_lt.mpr hop)).trans (h.reserved rfl rfl)

/-- R235: under speculation the fault waits. -/
theorem seqReservedOpcode_waits {g : RegionIx} {n : Word} {s : State} (hruns : s.seqRuns g.val = true)
    (hbreak : s.seqBreak g.val = false) (hsids : (s.seq g.val).sids ≠ []) (hpc : (s.seq g.val).pc < 0xC000)
    (hecc : tget .clean (s.seq g.val).ecc ((s.seq g.val).pc / 4) = .clean)
    (hmem : tget 0 (s.seq g.val).mem ((s.seq g.val).pc / 4) = n) (hop : 0x2B ≤ nbits n.toNat 26 6) :
    exec (.seqReservedOpcode g) s = .next (signal s (seqWait g.val 5 s)) := by
  have hread : seqRead g.val (s.seq g.val).pc s = (n, false, s) := by rw [seqRead_of_clean hecc, hmem]
  have hldw : (s.seq g.val).ldw (s.seq g.val).pc = n := hmem
  have hpc' : ¬ 0xC000 ≤ (s.seq g.val).pc := by omega
  have hspec : (!(s.seq g.val).sids.isEmpty) = true := by simpa using hsids
  change execSeqReservedOpcode g s = _
  unfold execSeqReservedOpcode
  rw [hldw]
  refine (if_neg (Nat.not_lt.mpr hop)).trans ?_
  simp only [seqIssue, hruns, hbreak, hspec, hpc', hread, Bool.not_true, Bool.not_false, Bool.false_eq_true, if_false, ne_eq,
    not_true_eq_false, if_true, done]

/-- Settles O36: every row is an issue by opcode, encoding and KEY; a fault saves the trap frame, and restarts or halts. -/
theorem seqIssueAndFaults : Obligations.SeqIssueAndFaults := by
  unfold Obligations.SeqIssueAndFaults
  intro g n s x k ra rows
  refine ⟨fun p hp => (seqRows_issue g n s p hp).stops, fun h p hp => ?_, fun h hop => ⟨fun hkey => ?_, fun hkey hns hphase hauto =>
    ?_⟩, fun hruns hbreak hsids hpc hecc hmem hop => ?_⟩
  · have hi := seqRows_issue g n s p hp
    exact ⟨hi.skips h, hi.reserved h, hi.keyless h⟩
  · obtain ⟨hqueue, ⟨tr, dr, m, c, hseq, hm⟩, hdrain⟩ := seqFault_restarts g.val 0x01 7 n s hkey h.no_sids
    obtain ⟨hw0, hw1, hw2⟩ := saveFrame_words 0x01 2 n x
    refine ⟨_, h.reservedOpcode hop, fun i hi e he => ?_, ?_, fun hst hreq => ?_⟩
    · rw [signal_tile, hqueue i hi e he]
    · rw [signal_seq, hseq]
      subst hm
      exact ⟨rfl, rfl, rfl, rfl, rfl, key_cleared _, hw0, hw1, hw2⟩
    · rw [signal_stream]
      exact hdrain hst hreq
  · obtain ⟨hph, hhalt, hmem, htile⟩ := seqFault_halts g.val 0x01 7 n s hkey hns hphase hauto
    refine ⟨_, h.reservedOpcode hop, ?_, ?_, ?_, fun i hi => ?_⟩
    · rw [signal_phase, hph]
    · rw [signal_seq, hhalt]
    · rw [signal_seq, Seq.ldw, hmem]
      exact (saveFrame_words 0x01 2 n x).1
    · rw [signal_tile, htile i hi]
  · exact ⟨_, seqReservedOpcode_waits hruns hbreak hsids hpc hecc hmem hop, seqHolds_of_rest 5 (.refl ..) rfl rfl⟩

end Sys2Proof.Machine
end

section
/-! Keys, special registers, speculation and frame notices of the sequencer (R204, R205, R216, R217, R227 to R232). -/
namespace Sys2Proof.Machine

/-! ### Key words -/

theorem key_iter (k b : Word) :
    BitVec.ofNat 32 (nput k.toNat 12 8 b.toNat) = k &&& (0xFFF00FFF : Word) ||| (b &&& (0xFF : Word)) <<< 12 := by
  refine BitVec.eq_of_getLsbD_eq fun i hi => ?_
  have hmask : (0xFFF00FFF : Word).getLsbD i = decide (i < 12 ∨ 20 ≤ i) := by interval_cases i <;> rfl
  have hlow : (0xFF : Word).getLsbD (i - 12) = decide (i - 12 < 8) := by interval_cases i <;> rfl
  rw [BitVec.getLsbD_ofNat, testBit_nput, BitVec.getLsbD_or, BitVec.getLsbD_and, BitVec.getLsbD_shiftLeft, BitVec.getLsbD_and,
    hmask, hlow, BitVec.testBit_toNat, BitVec.testBit_toNat]
  by_cases hin : 12 ≤ i ∧ i < 12 + 8
  · simp [hin, hi, show i - 12 < 8 by omega, show ¬ i < 12 by omega]
  · have hout : i < 12 ∨ 20 ≤ i := by omega
    rcases hout with h | h
    · simp [hin, hi, h]
    · simp [hin, hi, h, show ¬ i - 12 < 8 by omega]

theorem key_set (b : Word) : BitVec.ofNat 32 (b.toNat / 16 * 16 + 1) = b &&& 0xFFFFFFF0 ||| 1 := by
  have hput : b.toNat / 16 * 16 + 1 = nput b.toNat 0 4 1 := by
    simp only [nput, nbits, Nat.pow_zero, Nat.div_one, Nat.mul_one, Nat.reducePow]
    omega
  refine BitVec.eq_of_getLsbD_eq fun i hi => ?_
  have hmask : (0xFFFFFFF0 : Word).getLsbD i = decide (4 ≤ i) := by interval_cases i <;> rfl
  have hone : (1 : Word).getLsbD i = decide (i = 0) := by interval_cases i <;> rfl
  rw [hput, BitVec.getLsbD_ofNat, testBit_nput, BitVec.getLsbD_or, BitVec.getLsbD_and, hmask, hone, BitVec.testBit_toNat]
  by_cases hin : i < 4
  · have hbit : Nat.testBit 1 i = decide (i = 0) := by interval_cases i <;> rfl
    rw [if_pos (by omega), Nat.sub_zero, hbit, decide_eq_false (by omega : ¬ 4 ≤ i), decide_eq_true hi]
    simp
  · rw [if_neg (by omega)]
    simp [hi, show 4 ≤ i by omega, show i ≠ 0 by omega]

/-! ### Instructions -/

section
variable {g : RegionIx} {n : Word} {s : State} (h : SeqAt g.val n s)
include h

theorem SeqAt.keyget_waits (hop : nbits n.toNat 26 6 = 0x24) (hrd : regOk (rdF n.toNat) = true) (hz : nbits n.toNat 0 21 = 0)
    (hnone : (s.seq g.val).notices = []) : ∃ t, exec (.seqKeyget g) s = .next t ∧ SeqHolds g.val 4 (s.seq g.val) s t := by
  change ∃ t, execSeqKeyget g s = .next t ∧ _
  unfold execSeqKeyget
  refine h.holds hop (by simp only [hrd, hz, decide_true, Bool.and_self]) rfl ?_ (.refl ..) rfl rfl
  simp only [hnone]

theorem SeqAt.keyget_takes (hop : nbits n.toNat 26 6 = 0x24) (hrd : regOk (rdF n.toNat) = true) (hz : nbits n.toNat 0 21 = 0)
    {c : Word} {cs : List Word} (hsome : (s.seq g.val).notices = c :: cs) :
    ∃ t, exec (.seqKeyget g) s = .next t ∧ t.tiles = s.tiles
      ∧ SeqGoes g.val { { s.seq g.val with notices := cs, key := c ||| 1 }.setReg (rdF n.toNat) c with
            loops := (fallThrough (s.seq g.val).pc (s.seq g.val).loops).2 }
          (fallThrough (s.seq g.val).pc (s.seq g.val).loops).1 s t := by
  change ∃ t, execSeqKeyget g s = .next t ∧ _
  unfold execSeqKeyget
  refine h.goes_on (u := s.modSeq g.val (fun x => { x with notices := cs, key := c ||| 1 }.setReg (rdF n.toNat) c)) hop
    (by simp only [hrd, hz, decide_true, Bool.and_self]) rfl ?_ (.modSeq ..) (State.seq_modSeq ..) (Seq.setReg_loops ..)
  simp only [hsome]

theorem SeqAt.keyi (hkey : (s.seq g.val).keyOk = true) (hop : nbits n.toNat 26 6 = 0x25) (hleg : legRa n.toNat = true) :
    ∃ t, exec (.seqKeyi g) s = .next t ∧ t.tiles = s.tiles
      ∧ SeqGoes g.val { s.seq g.val with
            key := (s.seq g.val).key &&& (0xFFF00FFF : Word) ||| ((s.seq g.val).reg (raF n.toNat) &&& (0xFF : Word)) <<< 12
            loops := (fallThrough (s.seq g.val).pc (s.seq g.val).loops).2 }
          (fallThrough (s.seq g.val).pc (s.seq g.val).loops).1 s t := by
  change ∃ t, execSeqKeyi g s = .next t ∧ _
  unfold execSeqKeyi
  rw [← key_iter]
  exact h.goes_on (u := s.modSeq g.val (fun x => { x with
      key := BitVec.ofNat 32 (nput x.key.toNat 12 8 (x.reg (raF n.toNat)).toNat) }))
    hop hleg (by simp only [hkey, Bool.not_true, Bool.and_false]) rfl (.modSeq ..) (State.seq_modSeq ..) rfl

theorem SeqAt.setkey (hop : nbits n.toNat 26 6 = 0x26) (hleg : legRa n.toNat = true) :
    ∃ t, exec (.seqSetkey g) s = .next t ∧ t.tiles = s.tiles
      ∧ SeqGoes g.val { s.seq g.val with
            key := (s.seq g.val).reg (raF n.toNat) &&& 0xFFFFFFF0 ||| 1
            loops := (fallThrough (s.seq g.val).pc (s.seq g.val).loops).2 }
          (fallThrough (s.seq g.val).pc (s.seq g.val).loops).1 s t := by
  change ∃ t, execSeqSetkey g s = .next t ∧ _
  unfold execSeqSetkey
  rw [← key_set]
  exact h.goes_on (u := s.modSeq g.val (fun x => { x with
      key := BitVec.ofNat 32 ((x.reg (raF n.toNat)).toNat / 16 * 16 + 1) })) hop hleg rfl rfl (.modSeq ..) (State.seq_modSeq ..) rfl

theorem SeqAt.mts_tmask (hop : nbits n.toNat 26 6 = 0x2A) (hra : regOk (raF n.toNat) = true) (hrd : rdF n.toNat = 0)
    (hz : nbits n.toNat 0 11 = 0) (hrb : rbF n.toNat = 0) :
    ∃ t, exec (.seqMts g) s = .next t ∧ t.tiles = s.tiles
      ∧ SeqGoes g.val { s.seq g.val with
            tmask := ((s.seq g.val).reg (raF n.toNat)).toNat % 65536
            loops := (fallThrough (s.seq g.val).pc (s.seq g.val).loops).2 }
          (fallThrough (s.seq g.val).pc (s.seq g.val).loops).1 s t := by
  change ∃ t, execSeqMts g s = .next t ∧ _
  unfold execSeqMts
  refine h.goes_on (u := s.modSeq g.val (fun x => { x with tmask := (x.reg (raF n.toNat)).toNat % 65536 })) hop
    (by simp only [hra, hrd, hz, hrb, true_or, decide_true, Bool.and_self]) rfl ?_ (.modSeq ..) (State.seq_modSeq ..) rfl
  simp only [hrb, if_true, nbits, Nat.pow_zero, Nat.div_one, Nat.reducePow]

theorem SeqAt.mts_spill (hop : nbits n.toNat 26 6 = 0x2A) (hra : regOk (raF n.toNat) = true) (hrd : rdF n.toNat = 0)
    (hz : nbits n.toNat 0 11 = 0) (hrb : rbF n.toNat = 3) :
    ∃ t, exec (.seqMts g) s = .next t ∧ t.tiles = s.tiles
      ∧ SeqGoes g.val { s.seq g.val with
            spill := ((s.seq g.val).reg (raF n.toNat)).toNat % 2 ^ 17 / 64 * 64
            loops := (fallThrough (s.seq g.val).pc (s.seq g.val).loops).2 }
          (fallThrough (s.seq g.val).pc (s.seq g.val).loops).1 s t := by
  have hfield : ∀ v : Nat, nbits v 6 11 * 64 = v % 2 ^ 17 / 64 * 64 := fun v => by unfold nbits; omega
  change ∃ t, execSeqMts g s = .next t ∧ _
  unfold execSeqMts
  refine h.goes_on (u := s.modSeq g.val (fun x => { x with spill := (x.reg (raF n.toNat)).toNat % 2 ^ 17 / 64 * 64 })) hop
    (by simp only [hra, hrd, hz, hrb, or_true, decide_true, Bool.and_self]) rfl ?_ (.modSeq ..) (State.seq_modSeq ..) rfl
  simp only [hrb, hfield, OfNat.ofNat_ne_zero, if_false]

/-- The speculation that SPECBR opens. -/
def specOpened (n : Word) (x : Seq) : Sid :=
  { sid := nbits n.toNat 14 2
    cIdx := nbits (x.reg (rdF n.toNat)).toNat 0 13
    sIdx := nbits (x.reg (rdF n.toNat)).toNat 16 13
    cTgt := (x.reg (raF n.toNat)).toNat % 65536
    sTgt := (x.reg (raF n.toNat)).toNat / 65536
    onSquash := (((x.pc : Int) + 4 + 4 * (n.setWidth 14 : BitVec 14).toInt) % 0x20000).toNat
    committed := false
    regs := (List.range 16).map (fun i => x.reg (8 + i))
    g := x.g
    loops := x.loops
    key := x.key
    tmask := x.tmask
    spill := x.spill }

theorem SeqAt.specbr (hop : nbits n.toNat 26 6 = 0x27) (hleg : legI n.toNat = true) :
    ∃ t, exec (.seqSpecbr g) s = .next t ∧ t.tiles = s.tiles
      ∧ SeqGoes g.val { s.seq g.val with
            loops := (fallThrough (s.seq g.val).pc (s.seq g.val).loops).2
            sids := [specOpened n (s.seq g.val)] }
          (fallThrough (s.seq g.val).pc (s.seq g.val).loops).1 s t := by
  have hsids := h.no_sids
  have hlow : ∀ b : Word, nbits b.toNat 0 16 = b.toNat % 65536 := fun b => by simp only [nbits, Nat.pow_zero, Nat.div_one, Nat.reducePow]
  have hhigh : ∀ b : Word, nbits b.toNat 16 16 = b.toNat / 65536 := fun b => by
    have := b.isLt
    unfold nbits
    omega
  change ∃ t, execSeqSpecbr g s = .next t ∧ _
  unfold execSeqSpecbr
  refine h.goes_on (u := s.modSeq g.val (fun x => { x with sids := x.sids ++ [specOpened n (s.seq g.val)] }))
    (x := { s.seq g.val with sids := [specOpened n (s.seq g.val)] }) hop hleg rfl ?_ (.modSeq ..) ?_ rfl
  · simp only [hsids, List.any_nil, Bool.false_eq_true, if_false, hlow, hhigh, seqTarget_eq (by omega : 0 < 14)]
    rfl
  · rw [State.seq_modSeq, hsids, List.nil_append]

end

/-! ### Frame notices (R216) -/

theorem regionOf_tileOf {g k : Nat} (hk : k < 16) : regionOf (tileOf g k) = g := by
  unfold regionOf tileOf
  omega

theorem frameNoticePost_facts (g : RegionIx) {s : State} {e : Entry}
    (hen : nbit (s.act (aSeqWatch g.val)).toNat 31 = true) (hlive : s.live g.val = true) (hkeys : (s.seq g.val).keys.length < 4)
    (hnotices : (s.seq g.val).notices.length < 16)
    (hnext : (s.iqAll (tileOf g.val (nbits (s.act (aSeqWatch g.val)).toNat 3 4)) (nbits (s.act (aSeqWatch g.val)).toNat 0 3)).drop
      (s.seq g.val).seen = [e]) (heof : nbit e.side.toNat 2 = false) :
    ∃ t, exec (.frameNoticePost g) s = .next t ∧ t.tiles = s.tiles ∧ t.regs = s.regs
      ∧ t.seq g.val =
        { s.seq g.val with
          notices := (s.seq g.val).notices ++ [keyOf e.side]
          keys := (s.seq g.val).keys ++ [sfWord e.side]
          seen := (s.seq g.val).seen + 1 } := by
  generalize hy : ({ s.seq g.val with
      notices := (s.seq g.val).notices ++ [keyOf e.side]
      keys := (s.seq g.val).keys ++ [sfWord e.side]
      seen := (s.seq g.val).seen + 1 } : Seq) = y
  have hpass : { s.seq g.val with
      notices := (s.seq g.val).notices ++ [keyOf e.side], keys := (s.seq g.val).keys ++ [sfWord e.side] }.pass e = y := by
    rw [Seq.pass, heof, ← hy]
    rfl
  have hseen : y.seen = (s.seq g.val).seen + 1 := by rw [← hy]
  generalize ht : tileOf g.val (nbits (s.act (aSeqWatch g.val)).toNat 3 4) = t at hnext
  generalize hq : nbits (s.act (aSeqWatch g.val)).toNat 0 3 = q at hnext
  have hget : (s.iqAll t q)[(s.seq g.val).seen]? = some e := by
    rw [← List.head?_drop, hnext]
    rfl
  have hwatch : (s.setSeq g.val y).watcher t q = some g.val := by
    have hreg : regionOf t = g.val := by rw [← ht]; exact regionOf_tileOf (nbits_lt _ 3 4)
    unfold State.watcher
    simp only [hreg]
    change (if nbit (s.act (aSeqWatch g.val)).toNat 31 && decide (tileOf g.val (nbits (s.act (aSeqWatch g.val)).toNat 3 4) = t
      ∧ nbits (s.act (aSeqWatch g.val)).toNat 0 3 = q) then some g.val else none) = _
    rw [hen, decide_eq_true ⟨ht, hq⟩]
    rfl
  have hscan : watchScan t q (s.setSeq g.val y) = (s.setSeq g.val y).modSeq g.val (fun x => x) := by
    unfold watchScan
    rw [hwatch]
    have hrest : ((s.setSeq g.val y).iqAll t q).drop y.seen = [] := by
      change (s.iqAll t q).drop y.seen = []
      rw [hseen, ← List.drop_drop, hnext]
      rfl
    change (s.setSeq g.val y).modSeq g.val (fun x => watchEntries (((s.setSeq g.val y).iqAll t q).drop x.seen) x) = _
    rw [State.modSeq, State.modSeq, State.seq_setSeq, if_pos rfl, hrest]
    rfl
  have hexec : exec (.frameNoticePost g) s = .next (signal s (watchScan t q (s.setSeq g.val y))) := by
    change execFrameNoticePost g s = _
    simp only [execFrameNoticePost, ht, hq, hget, hen, hlive, hkeys, hnotices, decide_true, Bool.and_self, Bool.not_true,
      Bool.false_eq_true, if_false, hpass, done]
  refine ⟨_, hexec, ?_, ?_, ?_⟩
  · rw [signal_tiles, hscan]; rfl
  · rw [signal_regs, hscan]; rfl
  · rw [signal_seq, hscan, State.seq_modSeq, State.seq_setSeq, if_pos rfl]

/-! ### Commits (R229, R232) -/

theorem mgmtSend_seqs (p : MPkt) (s : State) : (mgmtSend p s).seqs = s.seqs := by
  unfold mgmtSend mgmtDeliver
  split
  · dsimp only
    split <;> split <;> rfl
  · rfl

theorem finish_kept_all (t e tag : Nat) (s : State) (t' : Nat) : TileKept t' s (finish t e tag s) := by
  by_cases ht : t' = t
  · rw [ht]
    exact finish_kept t s e tag
  · exact (TileKept.modTile_ne ht s _).trans
      (each_keep (TileKept t' _) _ (fun _ _ h => h.trans (.of_tiles (mgmtSend_tiles _ _ rfl))) _ _ (.refl t' _))

theorem finish_seq (t e tag : Nat) (s : State) (g : Nat) : SeqKept g s (finish t e tag s) :=
  SeqKept.trans (.of_seqs rfl) (each_keep (SeqKept g _) _ (fun _ _ h => h.trans (.of_seqs (mgmtSend_seqs ..))) _ _ (.refl g _))

/-- An effect performed at tile t leaves command queues and staging of every tile, and the sequencers. -/
theorem perform_keeps (t : Nat) (y : Staged) (s : State) :
    (∀ t', ((perform t y s).tile t').cq = (s.tile t').cq ∧ ((perform t y s).tile t').staged = (s.tile t').staged)
    ∧ ∀ g, SeqKept g s (perform t y s) := by
  have hmod : ∀ f : Tile → Tile, (∀ x, (f x).cq = x.cq ∧ (f x).staged = x.staged) →
      (∀ t', ((s.modTile t f).tile t').cq = (s.tile t').cq ∧ ((s.modTile t f).tile t').staged = (s.tile t').staged)
      ∧ ∀ g, SeqKept g s (s.modTile t f) := by
    refine fun f hf => ⟨fun t' => ?_, fun g => .of_seqs rfl⟩
    rw [State.modTile, State.tile_setTile]
    split
    next ht => rw [ht]; exact hf _
    next => exact ⟨rfl, rfl⟩
  have hsee : ∀ z : Staged, (∀ x : Tile, (x.see (s.gtEngs t) z).cq = x.cq ∧ (x.see (s.gtEngs t) z).staged = x.staged) := by
    intro z x
    cases z <;> exact ⟨rfl, rfl⟩
  cases y with
  | push q e => exact hmod _ fun x => ⟨rfl, rfl⟩
  | fin e tag => exact ⟨fun t' => ⟨(finish_kept_all t e tag s t').cq, (finish_kept_all t e tag s t').staged⟩, finish_seq t e tag s⟩
  | fault code unit w stream tag =>
    refine ⟨fun t' => ⟨(tileS_kept t s _ _ _ _ _ _ t').cq, (tileS_kept t s _ _ _ _ _ _ t').staged⟩, fun g => ?_⟩
    exact (SeqKept.of_seqs (raiseS_onlyFault ..).seqs).trans (.trace ..)
  | vreg i p => exact hmod _ (hsee (.vreg i p))
  | row b r ls => exact hmod _ (hsee (.row b r ls))
  | bank b st => exact hmod _ (hsee (.bank b st))
  | standby ps psn => exact hmod _ (hsee (.standby ps psn))
  | gtTake e => exact hmod _ (hsee (.gtTake e))

/-- From s to u staging of tile t has shrunk from its front; no queue and no other tile's staging has changed. -/
def Retired (t : Nat) (s u : State) : Prop :=
  (∀ t', (u.tile t').cq = (s.tile t').cq) ∧ (∀ t', t' ≠ t → (u.tile t').staged = (s.tile t').staged)
    ∧ (∀ p ∈ (u.tile t).staged, p ∈ (s.tile t).staged) ∧ ∀ g, SeqKept g s u

theorem Retired.refl (t : Nat) (s : State) : Retired t s s := ⟨fun _ => rfl, fun _ _ => rfl, fun _ h => h, fun g => .refl g s⟩

theorem Retired.trans {t : Nat} {s u v : State} (h : Retired t s u) (h' : Retired t u v) : Retired t s v := by
  obtain ⟨hcq, hother, hmine, hseq⟩ := h
  obtain ⟨hcq', hother', hmine', hseq'⟩ := h'
  exact ⟨fun t' => (hcq' t').trans (hcq t'), fun t' ht => (hother' t' ht).trans (hother t' ht), fun p hp => hmine p (hmine' p hp),
    fun g => (hseq g).trans (hseq' g)⟩

theorem Retired.perform (t : Nat) (y : Staged) (s : State) : Retired t s (perform t y s) := by
  obtain ⟨htile, hseq⟩ := perform_keeps t y s
  exact ⟨fun t' => (htile t').1, fun t' _ => (htile t').2, fun p hp => by rwa [← (htile t).2], hseq⟩

/-- The front of the staging list taken off. -/
theorem Retired.pop {t : Nat} {s : State} {y : Nat × Nat × Nat × Staged} {rest : List (Nat × Nat × Nat × Staged)}
    (hst : (s.tile t).staged = y :: rest) : Retired t s (s.modTile t (fun x => { x with staged := rest })) := by
  refine ⟨fun t' => ?_, fun t' ht => ?_, fun p hp => ?_, fun g => .of_seqs rfl⟩
  · rw [State.modTile, State.tile_setTile]
    split
    next ht => rw [ht]
    next => rfl
  · rw [State.modTile, State.tile_setTile, if_neg ht]
  · rw [State.tile_modTile] at hp
    rw [hst]
    exact List.mem_cons_of_mem _ hp

theorem retire_succ (t f : Nat) (s : State) : retire t (f + 1) s = s ∨ ∃ d e y rest, (s.tile t).staged = (4, d, e, y) :: rest
    ∧ retire t (f + 1) s = retire t f (perform t y (s.modTile t (fun x => { x with staged := rest }))) := by
  rw [retire]
  split
  next d e y rest hst => exact (ite_eq_or_eq _ _ _).imp id fun h => ⟨d, e, y, rest, hst, h⟩
  next => exact .inl rfl

theorem retire_retired (t f : Nat) (s : State) : Retired t s (retire t f s) := by
  induction f generalizing s with
  | zero => exact .refl t s
  | succ f ih =>
    rcases retire_succ t f s with h | ⟨d, e, y, rest, hst, h⟩
    · rw [h]
      exact .refl t s
    · rw [h]
      exact ((Retired.pop hst).trans (.perform ..)).trans (ih _)

/-- The SPEC bit of a command of SID `sid` cleared. -/
def unspec (sid : Nat) (c : QCmd) : QCmd :=
  if c.spec && c.sid == sid then { c with cmd := c.cmd &&& ~~~(BitVec.ofNat 128 (2 ^ 103)) } else c

/-- A tile's commands and staging of SID `sid`, committed. -/
def committedTile (sid : Nat) (x : Tile) : Tile :=
  let x := { x with staged := x.staged.map (fun p => if p.1 = sid then (4, p.2) else p) }
  (List.range 4).foldl (fun x e => x.setQueue e ((x.queue e).map (unspec sid))) x

theorem committedTile_queue (sid : Nat) (x : Tile) {e : Nat} (he : e < 4) :
    (committedTile sid x).queue e = (x.queue e).map (unspec sid) :=
  each_once (obs := fun x : Tile => x.queue e) (F := List.map (unspec sid))
    (f := fun x e => x.setQueue e ((x.queue e).map (unspec sid))) (fun x => Tile.queue_setQueue ..) (fun x f hf => (tget_tset ..).trans (if_neg hf.symm)) List.nodup_range (List.mem_range.mpr he)
    { x with staged := x.staged.map (fun p => if p.1 = sid then (4, p.2) else p) }

theorem committedTile_staged (sid : Nat) (x : Tile) :
    (committedTile sid x).staged = x.staged.map (fun p => if p.1 = sid then (4, p.2) else p) :=
  each_eq Tile.staged (fun x e => x.setQueue e ((x.queue e).map (unspec sid))) (fun _ _ => rfl) (List.range 4)
    { x with staged := x.staged.map (fun p => if p.1 = sid then (4, p.2) else p) }

/-- The commit of SID `sid` at one tile. -/
def commitTile (sid : Nat) (s : State) (t : Nat) : State :=
  retire t ((s.modTile t (committedTile sid)).tile t).staged.length (s.modTile t (committedTile sid))

section
variable (sid t : Nat) (s : State)

theorem commitTile_queue (t' : Nat) {e : Nat} (he : e < 4) : ((commitTile sid s t).tile t').queue e
    = if t' = t then ((s.tile t').queue e).map (unspec sid) else (s.tile t').queue e := by
  obtain ⟨hcq, -⟩ := retire_retired t ((s.modTile t (committedTile sid)).tile t).staged.length (s.modTile t (committedTile sid))
  rw [Tile.queue, commitTile, hcq, ← Tile.queue, State.modTile, State.tile_setTile]
  split
  next ht => rw [ht, committedTile_queue sid _ he]
  next => rfl

theorem commitTile_staged (hsid : sid < 4) : ∀ p ∈ ((commitTile sid s t).tile t).staged, p.1 ≠ sid := by
  obtain ⟨-, -, hmine, -⟩ := retire_retired t ((s.modTile t (committedTile sid)).tile t).staged.length
    (s.modTile t (committedTile sid))
  intro p hp
  have hin := hmine p hp
  rw [State.tile_modTile, committedTile_staged] at hin
  obtain ⟨q, -, rfl⟩ := List.mem_map.mp hin
  split
  next => exact fun h => by omega
  next hne => exact hne

theorem commitTile_staged_ne {t' : Nat} (ht : t' ≠ t) : ((commitTile sid s t).tile t').staged = (s.tile t').staged := by
  obtain ⟨-, hother, -⟩ := retire_retired t ((s.modTile t (committedTile sid)).tile t).staged.length (s.modTile t (committedTile sid))
  rw [commitTile, hother t' ht, State.modTile, State.tile_setTile, if_neg ht]

theorem commitTile_seq (g : Nat) : SeqKept g s (commitTile sid s t) := by
  obtain ⟨-, -, -, hseq⟩ := retire_retired t ((s.modTile t (committedTile sid)).tile t).staged.length (s.modTile t (committedTile sid))
  exact (SeqKept.of_seqs rfl).trans (hseq g)

end

section
variable (g sid : Nat) (s : State)

/-- The commit of SID `sid` but for its place among the SIDs. -/
def commitRest (v : State) : State :=
  let s := each (v.ferries.map (·.1)) v (fun s f =>
    let x := s.ferry f
    let free := fun (k : Kick) => if k.spec = some (g, sid) then { k with spec := none } else k
    s.setFerry f { x with kicks := x.kicks.map free, cur := x.cur.map free })
  seqTrace g 10 (s.seq g).key (256 + sid) 0 (s.count (cSeq g 13) 1)

theorem commitSid_eq : commitSid g sid s = (commitRest g sid (each (tilesOf g) s (commitTile sid))).modSeq g
    (fun x => { x with sids := x.sids.filter (fun d => d.sid != sid) }) := rfl

theorem commitRest_facts (v : State) : (commitRest g sid v).tiles = v.tiles ∧ SeqKept g v (commitRest g sid v) := by
  unfold commitRest
  dsimp only
  generalize hu : each (v.ferries.map (·.1)) v _ = u
  have hkept : u.tiles = v.tiles ∧ u.seqs = v.seqs := by
    rw [← hu]
    refine each_keep (fun u : State => u.tiles = v.tiles ∧ u.seqs = v.seqs) _ (fun _ _ h => ?_) _ v ⟨rfl, rfl⟩
    exact h
  exact ⟨(seqTrace_tiles ..).trans ((State.count_tiles ..).trans hkept.1),
    ((SeqKept.of_seqs hkept.2).trans (.of_seqs (State.count_seqs ..))).trans (.trace ..)⟩

theorem commitSid_tile (t : Nat) : (commitSid g sid s).tile t = (each (tilesOf g) s (commitTile sid)).tile t := by
  have htiles := (commitRest_facts g sid (each (tilesOf g) s (commitTile sid))).1
  rw [commitSid_eq, State.modSeq, State.tile, State.setSeq_tiles, htiles, State.tile]

/-- R229: the SID's commands lose SPEC. -/
theorem commitSid_queue {i e : Nat} (hi : i < 16) (he : e < 4) : ((commitSid g sid s).tile (tileOf g i)).queue e
    = ((s.tile (tileOf g i)).queue e).map (unspec sid) := by
  rw [commitSid_tile]
  exact each_once (obs := fun u : State => (u.tile (tileOf g i)).queue e) (F := List.map (unspec sid))
    (fun u => by rw [commitTile_queue _ _ _ _ he, if_pos rfl])
    (fun u y hy => by rw [commitTile_queue _ _ _ _ he, if_neg hy.symm]) (tilesOf_nodup g) (mem_tilesOf hi) s

/-- R232: none of its staging is left under it. -/
theorem commitSid_staged (hsid : sid < 4) {i : Nat} (hi : i < 16) : ∀ p ∈ ((commitSid g sid s).tile (tileOf g i)).staged, p.1 ≠ sid := by
  rw [commitSid_tile]
  exact each_all (P := fun t (u : State) => ∀ p ∈ (u.tile t).staged, p.1 ≠ sid) (fun u t => commitTile_staged sid t u hsid)
    (fun u t y hne h => by rwa [commitTile_staged_ne sid y u hne]) (mem_tilesOf hi) s

theorem commitSid_seq : ∃ tr dr, (commitSid g sid s).seq g =
    { s.seq g with
      sids := (s.seq g).sids.filter (fun d => d.sid != sid)
      trace := tr
      doneReplays := dr } := by
  have hall : SeqKept g s (each (tilesOf g) s (commitTile sid)) :=
    each_keep (SeqKept g s) _ (fun u t hu => hu.trans (commitTile_seq sid t u g)) _ s (.refl g s)
  obtain ⟨tr, dr, hx⟩ := hall.trans (commitRest_facts g sid _).2
  exact ⟨tr, dr, by rw [commitSid_eq, State.seq_modSeq, hx]⟩

end

/-- The one open SID, committed. -/
theorem settleSids_one {g : Nat} {s : State} {d : Sid} (hsids : (s.seq g).sids = [d]) (hd : d.committed = true) :
    settleSids g 4 s = commitSid g d.sid s := by
  obtain ⟨tr, dr, hseq⟩ := commitSid_seq g d.sid s
  have hempty : ((commitSid g d.sid s).seq g).sids = [] := by
    rw [hseq, hsids]
    simp
  rw [settleSids, hsids]
  dsimp only
  rw [if_pos hd, settleSids, hempty]

theorem sidCommit_facts (g : RegionIx) (sid : Fin 4) {d : Sid} {s : State} (hsids : (s.seq g.val).sids = [d]) (hd : d.sid = sid.val)
    (hopen : d.committed = false) (hlive : s.live g.val = true) (hreach : s.reaches d.cIdx d.cTgt = true) :
    ∃ t, exec (.sidCommit g sid) s = .next t ∧ (t.seq g.val).sids = [] ∧ (t.seq g.val).pc = (s.seq g.val).pc
      ∧ (∀ i < 16, ∀ e < 4, (t.tile (tileOf g.val i)).queue e = ((s.tile (tileOf g.val i)).queue e).map (unspec sid.val))
      ∧ ∀ i < 16, ∀ p ∈ (t.tile (tileOf g.val i)).staged, p.1 ≠ sid.val := by
  generalize hu : s.modSeq g.val (fun x =>
    { x with sids := x.sids.map (fun e => if e.sid = sid.val then { e with committed := true } else e) }) = u
  have husids : (u.seq g.val).sids = [{ d with committed := true }] := by
    rw [← hu, State.seq_modSeq, hsids]
    simp [hd]
  have hutile : ∀ t, u.tile t = s.tile t := fun t => by rw [← hu]; rfl
  have hupc : (u.seq g.val).pc = (s.seq g.val).pc := by rw [← hu, State.seq_modSeq]
  have hfind : (s.seq g.val).sids.find? (fun d => d.sid == sid.val) = some d := by rw [hsids]; simp [hd]
  have hexec : exec (.sidCommit g sid) s = .next (signal s (commitSid g.val sid.val u)) := by
    change execSidCommit g sid s = _
    simp only [execSidCommit, hfind, hopen, hreach, hlive, Bool.not_true, Bool.or_self, Bool.false_eq_true, if_false, hu, done]
    rw [settleSids_one husids rfl]
    rw [hd]
  obtain ⟨tr, dr, hseq⟩ := commitSid_seq g.val sid.val u
  refine ⟨_, hexec, ?_, ?_, fun i hi e he => ?_, fun i hi => ?_⟩
  · rw [signal_seq, hseq, husids]
    simp [hd]
  · rw [signal_seq, hseq]
    exact hupc
  · rw [signal_tile, commitSid_queue _ _ _ hi he, hutile]
  · rw [signal_tile]
    exact commitSid_staged _ _ _ sid.isLt hi

/-! ### Squashes (R230) -/

/-- The checkpoint of a SID, but for the windows. -/
def checkpoint (d : Sid) (x : Seq) : Seq :=
  { x with
    g := d.g
    loops := d.loops
    key := d.key
    tmask := d.tmask
    spill := d.spill
    pc := d.onSquash
    wait := 0
    waitIdx := none
    granted := false }

/-- The window registers of the checkpoint. -/
def windowRestored (d : Sid) (x : Seq) : Seq := (List.range 16).foldl (fun x i => x.setReg (8 + i) (nth d.regs i 0)) x

theorem windowRestored_reg (d : Sid) (x : Seq) {i : Nat} (hi : i < 16) : (windowRestored d x).reg (8 + i) = nth d.regs i 0 :=
  each_once (obs := fun x : Seq => x.reg (8 + i)) (F := fun _ => nth d.regs i 0)
    (fun x => by rw [Seq.reg_setReg, if_pos ⟨rfl, by omega⟩])
    (fun x j hj => by rw [Seq.reg_setReg, if_neg (by omega)]) List.nodup_range (List.mem_range.mpr hi) x

theorem windowRestored_only (d : Sid) (x : Seq) : windowRestored d x = { x with win := (windowRestored d x).win } := by
  refine each_keep (fun y : Seq => y = { x with win := y.win }) (fun x i => x.setReg (8 + i) (nth d.regs i 0)) (fun y i hy => ?_) _ x rfl
  unfold Seq.setReg
  rw [if_neg (by omega)]
  split
  · rw [hy]
  · exact hy

theorem squashSid_eq {g sid : Nat} {d : Sid} {s : State} (hsids : (s.seq g).sids = [d]) (hd : d.sid = sid) :
    squashSid g sid s = (dropSids g [sid] s).modSeq g (fun x => windowRestored d (checkpoint d x)) := by
  have hfind : (s.seq g).sids.find? (fun d => d.sid == sid) = some d := by rw [hsids]; simp [hd]
  have hfrom : (s.seq g).fromSid sid = [sid] := by
    rw [Seq.fromSid, hsids]
    simp [List.dropWhile, hd]
  rw [squashSid, hfind]
  dsimp only
  rw [hfrom]
  rfl

theorem sidSquash_facts (g : RegionIx) (sid : Fin 4) {d : Sid} {s : State} (hsids : (s.seq g.val).sids = [d]) (hd : d.sid = sid.val)
    (hopen : d.committed = false) (hlive : s.live g.val = true) (hno : s.reaches d.cIdx d.cTgt = false)
    (hreach : s.reaches d.sIdx d.sTgt = true) :
    ∃ t, exec (.sidSquash g sid) s = .next t ∧ (t.seq g.val).sids = [] ∧ (t.seq g.val).pc = d.onSquash
      ∧ (t.seq g.val).g = d.g ∧ (t.seq g.val).loops = d.loops ∧ (t.seq g.val).key = d.key ∧ (t.seq g.val).tmask = d.tmask
      ∧ (t.seq g.val).spill = d.spill ∧ (t.seq g.val).wait = 0 ∧ (∀ i < 16, (t.seq g.val).reg (8 + i) = nth d.regs i 0)
      ∧ (∀ i < 16, ∀ e < 4, (t.tile (tileOf g.val i)).queue e
          = ((s.tile (tileOf g.val i)).queue e).filter (fun c => !(c.spec && c.sid == sid.val)))
      ∧ ∀ i < 16, ∀ p ∈ (t.tile (tileOf g.val i)).staged, p.1 ≠ sid.val := by
  have hfind : (s.seq g.val).sids.find? (fun d => d.sid == sid.val) = some d := by rw [hsids]; simp [hd]
  have hexec : exec (.sidSquash g sid) s = .next (signal s (squashSid g.val sid.val s)) := by
    change execSidSquash g sid s = _
    simp only [execSidSquash, hfind, hopen, hno, hreach, hlive, Bool.not_false, Bool.and_self, when_, if_true, done]
  obtain ⟨tr, dr, hdropped⟩ := dropSids_seq g.val [sid.val] s
  have hqueue := fun i (hi : i < 16) e (he : e < 4) => dropSids_queue g.val [sid.val] s hi he
  have hstaged := fun i (hi : i < 16) => dropSids_staged g.val [sid.val] s hi
  have hsq := squashSid_eq hsids hd
  generalize dropSids g.val [sid.val] s = w at hdropped hqueue hstaged hsq
  have hempty : (w.seq g.val).sids = [] := by rw [hdropped, hsids]; simp [hd]
  have hseq : (squashSid g.val sid.val s).seq g.val = windowRestored d (checkpoint d (w.seq g.val)) := by
    rw [hsq, State.seq_modSeq]
  have htile : ∀ t, (squashSid g.val sid.val s).tile t = w.tile t := fun t => by rw [hsq]; rfl
  refine ⟨_, hexec, ?_⟩
  simp only [signal_seq, signal_tile, hseq, htile]
  refine ⟨?_, ?_, ?_, ?_, ?_, ?_, ?_, ?_, fun i hi => windowRestored_reg d _ hi, fun i hi e he => ?_, fun i hi p hp => ?_⟩
  · rw [windowRestored_only]; exact hempty
  · rw [windowRestored_only]; rfl
  · rw [windowRestored_only]; rfl
  · rw [windowRestored_only]; rfl
  · rw [windowRestored_only]; rfl
  · rw [windowRestored_only]; rfl
  · rw [windowRestored_only]; rfl
  · rw [windowRestored_only]; rfl
  · rw [hqueue i hi e he]
    exact List.filter_congr fun c _ => by simp only [List.contains_cons, List.contains_nil, Bool.or_false]
  · rw [hstaged i hi] at hp
    have := (List.mem_filter.mp hp).2
    simpa using this

/-- Settles O35: key and notice instructions by the rule of issue; a commit and a squash tile by tile. -/
theorem seqKeysAndSpeculation : Obligations.SeqKeysAndSpeculation := by
  unfold Obligations.SeqKeysAndSpeculation
  intro g n sid d s x k a b go q
  refine ⟨fun h => ⟨fun hop hrd hz => ⟨h.keyget_waits hop hrd hz, fun c cs => h.keyget_takes hop hrd hz⟩, h.keyi, h.setkey,
    fun hop hra hrd hz => ⟨h.mts_tmask hop hra hrd hz, h.mts_spill hop hra hrd hz⟩, h.specbr⟩,
    sidCommit_facts g sid, sidSquash_facts g sid, fun e es hen hlive hkeys hnotices hnext heof hes => ?_⟩
  rw [hes] at hnext
  exact frameNoticePost_facts g hen hlive hkeys hnotices hnext heof

end Sys2Proof.Machine
end

section
/-! Rejected requests, answers and host writes of the tidemark unit (R243, R249, R250, R254, R260). -/
namespace Sys2Proof.Machine

/-! ### Rejected requests (R249) -/

theorem tmReject_facts {kind i n : Nat} {s : State} (hfirst : s.bit aTmStatus 31 = false) (hi : i < 8192) (hn : n < 256)
    (hkind : kind < 4) :
    (tmReject kind i n s).tms = s.tms ∧ (tmReject kind i n s).tmq = s.tmq ∧ RegsBut [aTmStatus] s (tmReject kind i n s)
      ∧ (tmReject kind i n s).bit aTmStatus 31 = true ∧ (tmReject kind i n s).f aTmStatus 16 13 = i
      ∧ (tmReject kind i n s).f aTmStatus 8 8 = n ∧ (tmReject kind i n s).f aTmStatus 0 8 = 1
      ∧ (tmReject kind i n s).f aTmStatus 29 2 = kind := by
  obtain ⟨w, heq, hw⟩ : ∃ w, tmReject kind i n s = s.wr aTmStatus w ∧ w.toNat = 2 ^ 31 + kind * 2 ^ 29 + i * 2 ^ 16 + n * 256 + 1 := by
    refine ⟨BitVec.ofNat 32 (2 ^ 31 + kind % 4 * 2 ^ 29 + i % 8192 * 2 ^ 16 + n % 256 * 256 + 1),
      by simp only [tmReject, hfirst, Bool.false_eq_true, if_false], ?_⟩
    rw [BitVec.toNat_ofNat]
    omega
  rw [heq]
  refine ⟨rfl, rfl, (RegsBut.refl _ s).wr List.mem_cons_self _, ?_, ?_, ?_, ?_, ?_⟩
  · rw [State.bit, State.rd_wr_same, hw, nbit, beq_iff_eq]
    omega
  · rw [State.f, State.rd_wr_same, hw, nbits]
    omega
  · rw [State.f, State.rd_wr_same, hw, nbits]
    omega
  · rw [State.f, State.rd_wr_same, hw, nbits]
    omega
  · rw [State.f, State.rd_wr_same, hw, nbits]
    omega

/-- KIND of a rejected increment. -/
def incKind : Req → Nat
  | .ferry _ => 2
  | _ => 0

theorem incKind_lt (r : Req) : incKind r < 4 := by
  cases r <;> simp [incKind]

section
variable {k : Nat} {r : TmReq} {s : State}

theorem tmApply_of_invalid (hst : s.st r.stream ≠ 3) (hv : s.tmValid r.stream r.idx = false) (n : Nat) :
    tmApply r n s = tmReject (incKind r.req) r.idx r.stream s := by
  simp only [tmApply, hst, hv, if_false, Bool.not_false, if_true]
  rfl

theorem tmWait_of_invalid (hst : s.st r.stream ≠ 3) (hv : s.tmValid r.stream r.idx = false) :
    tmWait r s = tmReject 1 r.idx r.stream s := by
  simp only [tmWait, hst, hv, if_false, Bool.not_false, if_true]

/-- What a rejected request leaves. -/
def RejectedAs (k kind : Nat) (r : TmReq) (s t : State) : Prop :=
  t.tms = s.tms ∧ t.tmq = s.tmq.eraseIdx k ∧ RegsBut [aTmStatus] s t ∧ t.bit aTmStatus 31 = true ∧ t.f aTmStatus 16 13 = r.idx
    ∧ t.f aTmStatus 8 8 = r.stream ∧ t.f aTmStatus 0 8 = 1 ∧ t.f aTmStatus 29 2 = kind

theorem rejectedAs_signal {kind : Nat} (hfirst : s.bit aTmStatus 31 = false) (hi : r.idx < 8192) (hn : r.stream < 256)
    (hkind : kind < 4) : RejectedAs k kind r s (signal s (tmReject kind r.idx r.stream (s.dropReq k))) := by
  obtain ⟨htms, htmq, hregs, hrest⟩ := tmReject_facts (s := s.dropReq k) (kind := kind) hfirst hi hn hkind
  refine ⟨?_, ?_, ?_, ?_⟩
  · rw [signal_tms, htms]; rfl
  · rw [signal_tmq, htmq]; rfl
  · exact RegsBut.signal hregs
  · simp only [signal_bit, signal_f]
    exact hrest

theorem tidemarkIncrement_rejected (hr : s.nextReq k = some r) (hst : s.st r.stream ≠ 3)
    (hv : s.tmValid r.stream r.idx = false) (hfirst : s.bit aTmStatus 31 = false) (hi : r.idx < 8192) (hn : r.stream < 256)
    (hinc : r.inc.isSome = true) : ∃ t, exec (.tidemarkIncrement k) s = .next t ∧ RejectedAs k (incKind r.req) r s t := by
  obtain ⟨n, hinc⟩ := Option.isSome_iff_exists.mp hinc
  refine ⟨_, exec_tidemarkIncrement hr hinc, ?_⟩
  rw [tmApply_of_invalid (s := s.dropReq k) hst hv]
  exact rejectedAs_signal hfirst hi hn (incKind_lt _)

theorem tidemarkWait_rejected (hr : s.nextReq k = some r) (hst : s.st r.stream ≠ 3)
    (hv : s.tmValid r.stream r.idx = false) (hfirst : s.bit aTmStatus 31 = false) (hi : r.idx < 8192) (hn : r.stream < 256)
    (hinc : r.inc = none) (hnone : s.replies.any (fun q => q.1 == r.req && q.2.1 == r.idx) = false) :
    ∃ t, exec (.tidemarkWait k) s = .next t ∧ RejectedAs k 1 r s t := by
  refine ⟨_, exec_tidemarkWait hr hinc hnone, ?_⟩
  rw [tmWait_of_invalid (s := s.dropReq k) hst hv]
  exact rejectedAs_signal hfirst hi hn (by decide)

end

/-! ### Answers (R243, R250) -/

section
variable {k i p g : Nat} {s : State}

/-- A sequencer that waits on the tidemark goes on. -/
theorem tidemarkWaiterRelease_seq (hk : s.granted[k]? = some (.seq g, i)) (hwait : (s.seq g).waitIdx = some i)
    (hrec : (s.seq g).record = none) : exec (.tidemarkWaiterRelease k) s
      = .next (signal s ({ s with granted := s.granted.eraseIdx k }.setSeq g { s.seq g with granted := true })) := by
  have hrelease : ∀ u : State, (u.seq g).waitIdx = some i → (u.seq g).record = none →
      tmRelease (.seq g) i u = u.setSeq g { u.seq g with granted := true } := by
    intro u hw hr
    have hnone : u.record (.seq g) = none := hr
    unfold tmRelease
    rw [hnone]
    dsimp only
    rw [if_pos hw]
    rfl
  change execTidemarkWaiterRelease k s = _
  simp only [execTidemarkWaiterRelease, hk, done]
  rw [hrelease { s with granted := s.granted.eraseIdx k } hwait hrec]
  rfl

/-- A phase reply becomes the record of its sequencer. -/
theorem barrierPhaseReply_seq (hk : s.replies[k]? = some (.seq g, i, p)) : exec (.barrierPhaseReply k) s
    = .next (signal s ({ s with replies := s.replies.eraseIdx k }.setSeq g { s.seq g with record := some (i, p) })) := by
  change execBarrierPhaseReply k s = _
  simp only [execBarrierPhaseReply, hk, done]
  rfl

end

/-! ### Host writes (R254, R260) -/

section
variable {ix : Fin 8192} {v : Word} {s : State} (hs : Served s)
include hs

theorem tidemarkHostWrite_count (hix : ix.val < 8184) (hwaits : (s.tm ix.val).waits = []) (hmode : (s.tm ix.val).mode = 0) :
    exec (.tidemarkHostWrite ix false v) s = .next (signal s (s.setTm ix.val { s.tm ix.val with
      owner := nbits v.toNat 24 8, count := nbits v.toNat 0 24, phase := (s.tm ix.val).phase % 32,
      lay := (nbits v.toNat 0 24, (s.tm ix.val).target, nbits v.toNat 24 8, 0) })) := by
  have hix' : ¬ 8184 ≤ ix.val := by omega
  have hstored : ∀ x : Tm, x.mode = 0 → x.waits = [] →
      tmUpdate ix.val x s = s.setTm ix.val { x with phase := x.phase % 32 } := by
    intro x hm hw
    have hserve : ({ x with phase := x.phase % 32 } : Tm).serve = ([], { x with phase := x.phase % 32 }) := by
      rw [Tm.serve_of_counter (x := { x with phase := x.phase % 32 }) hm]
      change serveCounter x.waits _ = _
      cases x
      cases hw
      rfl
    rw [tmUpdate_of_counter hm, hserve, List.map_nil, List.append_nil]
  change execTidemarkHostWrite ix false v s = _
  simp only [execTidemarkHostWrite, hostRow_of_served hs, tmHostWrite, hix', Bool.false_and, Bool.false_eq_true, if_false, done]
  rw [hstored { s.tm ix.val with
    owner := nbits v.toNat 24 8, count := nbits v.toNat 0 24,
    lay := (nbits v.toNat 0 24, (s.tm ix.val).target, nbits v.toNat 24 8, (s.tm ix.val).mode) } hmode hwaits, hmode]

theorem tidemarkHostWrite_system (hix : 8184 ≤ ix.val) (cfg : Bool) :
    exec (.tidemarkHostWrite ix cfg v) s = .next (signal s s) := by
  change execTidemarkHostWrite ix cfg v s = _
  simp only [execTidemarkHostWrite, hostRow_of_served hs, tmHostWrite, hix, if_true, done]

end

/-- Settles O38: one rule for each kind of request, answer and host write. -/
theorem tidemarkAnswersAndHostWrites : Obligations.TidemarkAnswersAndHostWrites := by
  unfold Obligations.TidemarkAnswersAndHostWrites
  intro k i p r g ix v s
  refine ⟨fun hr hst hv hfirst hi hn => ⟨fun hinc => ?_, fun hinc hnone => ?_⟩, tidemarkWaiterRelease_seq, barrierPhaseReply_seq,
    fun hs => tidemarkHostWrite_count hs, fun hs => tidemarkHostWrite_system hs⟩
  · exact tidemarkIncrement_rejected hr hst hv hfirst hi hn hinc
  · exact tidemarkWait_rejected hr hst hv hfirst hi hn hinc hnone

end Sys2Proof.Machine
end

section
/-! Scrubs of the basin, of DRAM and of the tile stores (R87, R264, R275): single-bit words become clean, no byte changes. -/
namespace Sys2Proof.Machine

/-! ### Words in error -/

theorem Ram.state_mark (r : Ram) (w : Nat) (e : Ecc) (v : Nat) : (r.mark w e).state v = if v = w then e else r.state v :=
  tget_tset _ _ _ _ _

theorem Ram.mem_marked {r : Ram} {e : Ecc} {u m w : Nat} (hm : 0 < m) :
    w ∈ r.marked e (8 * u) (8 * m) ↔ r.state w = e ∧ u ≤ w ∧ w < u + m := by
  have hlen : (8 * u + 8 * m - 1) / 8 + 1 - 8 * u / 8 = m := by omega
  have hbase : 8 * u / 8 = u := by omega
  rw [Ram.marked, if_neg (by omega), hlen, hbase, List.mem_filter, List.mem_map, beq_iff_eq, and_comm]
  refine and_congr_right fun _ => ⟨?_, fun h => ⟨w - u, List.mem_range.mpr (by omega), by omega⟩⟩
  rintro ⟨i, hi, rfl⟩
  have hlt := List.mem_range.mp hi
  omega

/-- The store with its single-bit words in [8 u, 8 u + 32) rewritten. -/
def Ram.rewritten (r : Ram) (a : Nat) : Ram := each (r.marked .single a 32) r (fun r w => r.mark w .clean)

theorem Ram.each_mark_cells (ws : List Nat) (r : Ram) : (each ws r (fun r w => r.mark w .clean)).cells = r.cells :=
  each_eq Ram.cells (fun r w => r.mark w .clean) (fun _ _ => rfl) ws r

theorem Ram.each_mark_state (ws : List Nat) (r : Ram) (v : Nat) :
    (each ws r (fun r w => r.mark w .clean)).state v = if v ∈ ws then .clean else r.state v := by
  induction ws generalizing r with
  | nil => rfl
  | cons w ws ih =>
    change (each ws (r.mark w .clean) _).state v = _
    rw [ih, Ram.state_mark]
    by_cases hv : v = w <;> simp [hv]

theorem Ram.rewritten_state (r : Ram) (u v : Nat) :
    (r.rewritten (8 * u)).state v = if r.state v = .single ∧ u ≤ v ∧ v < u + 4 then .clean else r.state v := by
  rw [Ram.rewritten, Ram.each_mark_state]
  exact if_congr (Ram.mem_marked (m := 4) (by omega)) rfl rfl

/-! ### The basin's scrub (R264) -/

theorem OnlyRegs.basinErr {s t : State} (h : OnlyRegs s t) (w : Nat) (ue : Bool) : OnlyRegs s (t.basinErr w ue) := h.addSat _ _ _ _

theorem basinSee_onlyRegs (s : State) (a n : Nat) : OnlyRegs s (s.basinSee a n) :=
  each_keep (OnlyRegs s) _ (fun _ w h => h.basinErr w true) _ _
    (each_keep (OnlyRegs s) _ (fun _ w h => h.basinErr w false) _ _ (.refl s))

theorem each_basinErr_regsBut {s t : State} {offs : List Nat} {ws : List Nat} (ue : Bool)
    (hws : ∀ w ∈ ws, aBasinEccBank (bankOf (8 * w)) ∈ offs) (h : RegsBut offs s t) :
    RegsBut offs s (each ws t (fun s w => s.basinErr w ue)) := by
  induction ws generalizing t with
  | nil => exact h
  | cons w ws ih => exact ih (fun v hv => hws v (List.mem_cons_of_mem _ hv)) (h.addSat (hws w List.mem_cons_self) _ _ _)

section
variable (b : Fin 16) (p : Nat) (s : State)

/-- The first word of row p of bank b. -/
theorem basinRow_eq : basinRow b.val p = 8 * (basinRow b.val p / 8) := by
  unfold basinRow
  omega

theorem bankOf_of_marked {e : Ecc} {w : Nat} (hw : w ∈ s.mem.basin.marked e (basinRow b.val p) 32) : bankOf (8 * w) = b.val := by
  rw [basinRow_eq] at hw
  obtain ⟨_, hlo, hhi⟩ := (Ram.mem_marked (m := 4) (by omega)).mp hw
  have hb := b.isLt
  unfold bankOf
  unfold basinRow at hlo hhi
  omega

theorem basinSee_regsBut : RegsBut [aBasinEccBank b.val] s (s.basinSee (basinRow b.val p) 32) := by
  have hbank : ∀ e, ∀ w ∈ s.mem.basin.marked e (basinRow b.val p) 32, aBasinEccBank (bankOf (8 * w)) ∈ [aBasinEccBank b.val] := by
    intro e w hw
    rw [bankOf_of_marked b p s hw]
    exact List.mem_cons_self
  refine each_basinErr_regsBut true ?_ (each_basinErr_regsBut false (hbank _) (.refl _ s))
  rw [each_eq State.mem _ (fun s w => (OnlyRegs.basinErr (.refl s) w false).mem)]
  exact hbank _

theorem basinScrub_eq : basinScrub b.val s
    = { s.basinSee (basinRow b.val (tget 0 s.mem.scrub b.val)) 32 with
        mem := { s.mem with
          scrub := tset 0 s.mem.scrub b.val ((tget 0 s.mem.scrub b.val + 1) % 131072)
          basin := s.mem.basin.rewritten (basinRow b.val (tget 0 s.mem.scrub b.val)) } } := by
  unfold basinScrub
  dsimp only
  rw [(basinSee_onlyRegs s _ 32).mem]
  rfl

theorem basinPatrolScrub_rewrites : ∃ t, exec (.basinPatrolScrub b) s = .next t ∧ t.mem.basin.cells = s.mem.basin.cells
    ∧ t.mem.dram = s.mem.dram ∧ tget 0 t.mem.scrub b.val = (tget 0 s.mem.scrub b.val + 1) % 131072
    ∧ RegsBut [aBasinEccBank b.val] s t
    ∧ ∀ w, t.mem.basin.state w = if s.mem.basin.state w = .single
        ∧ basinRow b.val (tget 0 s.mem.scrub b.val) / 8 ≤ w ∧ w < basinRow b.val (tget 0 s.mem.scrub b.val) / 8 + 4
      then .clean else s.mem.basin.state w := by
  refine ⟨signal s (basinScrub b.val s), rfl, ?_, ?_, ?_, RegsBut.signal ?_, fun w => ?_⟩
  · rw [signal_mem, basinScrub_eq]
    exact Ram.each_mark_cells _ _
  · rw [signal_mem, basinScrub_eq]
  · rw [signal_mem, basinScrub_eq]
    exact tget_tset_same _ _ _ _
  · rw [basinScrub_eq]
    exact basinSee_regsBut b _ s
  · rw [signal_mem, basinScrub_eq]
    have h := Ram.rewritten_state s.mem.basin (basinRow b.val (tget 0 s.mem.scrub b.val) / 8) w
    rw [← basinRow_eq] at h
    exact h

theorem basinForcedScrub_above (h0 : s.f aBasinEcc 0 16 ≠ 0) (hth : s.f aBasinEcc 0 16 < s.f (aBasinEccBank b.val) 0 16) :
    exec (.basinForcedScrub b) s = exec (.basinPatrolScrub b) s := by
  change execBasinForcedScrub b s = done s (basinScrub b.val s)
  simp only [execBasinForcedScrub, when_, ne_eq, h0, not_false_eq_true, hth, and_self, decide_true, if_true]

theorem basinForcedScrub_off (h0 : s.f aBasinEcc 0 16 = 0) : exec (.basinForcedScrub b) s = .next s := by
  change execBasinForcedScrub b s = _
  simp only [execBasinForcedScrub, when_, ne_eq, h0, not_true_eq_false, false_and, decide_false, Bool.false_eq_true, if_false, idle]

end

/-! ### The scrub of DRAM (R275) -/

theorem OnlyRegs.dramErr {s t : State} (h : OnlyRegs s t) (w : Nat) (ue : Bool) : OnlyRegs s (t.dramErr w ue) :=
  (h.addSat _ _ _ _).wr _ _

/-- The errors that a scrub of unit u of DRAM counts and reports (R272, R275). -/
def dramScrubSee (u : Nat) (s : State) : State :=
  each (s.mem.dram.marked .double (u * 64) 64) (each (s.mem.dram.marked .single (u * 64) 64) s (fun s w => s.dramErr w false))
    (fun s w => raiseC { cls := 0, code := 0x0A, unit := 11 } (s.dramErr w true))

theorem dramScrubSee_onlyRegs (u : Nat) (s : State) : OnlyRegs s (dramScrubSee u s) :=
  each_keep (OnlyRegs s) _ (fun _ w h => raiseC_onlyRegs _ _ (h.dramErr w true)) _ _
    (each_keep (OnlyRegs s) _ (fun _ w h => h.dramErr w false) _ _ (.refl s))

section
variable {s : State} {u : Nat}

theorem dramPatrolScrub_rewrites (hen : s.bit aMemScrub 0 = true) (htrained : s.bit aMemDramStatus 0 = true)
    (hretrain : s.mem.retrain = false) (hu : s.scrubUnit = some u) :
    ∃ t, exec .dramPatrolScrub s = .next t ∧ t.mem.dram.cells = s.mem.dram.cells ∧ t.mem.dscrub = u + 1
      ∧ t.mem.touched = s.mem.touched ∧ t.mem.basin = s.mem.basin := by
  have hexec : exec .dramPatrolScrub s = done s { dramScrubSee u s with mem := { (dramScrubSee u s).mem with
      dram := each (s.mem.dram.marked .single (u * 64) 64) (dramScrubSee u s).mem.dram (fun d w => d.mark w .clean)
      dscrub := u + 1 } } := by
    change execDramPatrolScrub s = _
    simp only [execDramPatrolScrub, State.dramUp, hen, htrained, hretrain, hu, Bool.not_false, Bool.and_self, Bool.not_true,
      Bool.false_eq_true, if_false]
    rfl
  have honly := dramScrubSee_onlyRegs u s
  refine ⟨_, hexec, ?_, ?_, ?_, ?_⟩ <;> rw [signal_mem] <;> dsimp only
  · rw [Ram.each_mark_cells, honly.mem]
  · rw [honly.mem]
  · rw [honly.mem]

end

/-! ### The scrub of a tile store (R87) -/

section
variable (n : TileIx) (b : Fin 8) (s : State)

theorem storeSee_regsBut (t u : Nat) : RegsBut [aTileEccBank t (u % 8), aTileEccLast t] s (storeSee t u s) := by
  have hcount : RegsBut [aTileEccBank t (u % 8), aTileEccLast t] s
      ((s.addSat (aTileEccBank t (u % 8)) 0 16 ((s.tile t).store.marked .single (32 * u) 32).length).addSat
        (aTileEccBank t (u % 8)) 16 16 ((s.tile t).store.marked .double (32 * u) 32).length) :=
    ((RegsBut.refl _ s).addSat List.mem_cons_self _ _ _).addSat List.mem_cons_self _ _ _
  have hlast : aTileEccLast t ∈ [aTileEccBank t (u % 8), aTileEccLast t] := List.mem_cons_of_mem _ List.mem_cons_self
  unfold storeSee
  dsimp only
  split
  · exact hcount.wr hlast _
  · exact hcount.wr hlast _
  · exact hcount

/-- What a scrub of bank b leaves of tile n. -/
def Scrubbed (s t : State) : Prop :=
  (∀ k, k ≠ n.val → t.tile k = s.tile k) ∧ (t.tile n.val).store.cells = (s.tile n.val).store.cells
    ∧ tget 0 (t.tile n.val).scrub b.val = (tget 0 (s.tile n.val).scrub b.val + 1) % 1024
    ∧ RegsBut [aTileEccBank n.val b.val, aTileEccLast n.val] s t
    ∧ ∀ w, (t.tile n.val).store.state w = if (s.tile n.val).store.state w = .single
        ∧ (tget 0 (s.tile n.val).scrub b.val * 8 + b.val) * 4 ≤ w ∧ w < (tget 0 (s.tile n.val).scrub b.val * 8 + b.val) * 4 + 4
      then .clean else (s.tile n.val).store.state w

theorem scrubbed_tileScrub : Scrubbed n b s (signal s (tileScrub n.val b.val s)) := by
  obtain ⟨p, hp⟩ : ∃ p, tget 0 (s.tile n.val).scrub b.val = p := ⟨_, rfl⟩
  have hb := b.isLt
  have hbank : (p * 8 + b.val) % 8 = b.val := by omega
  have htile : ∀ k, (storeSee n.val (p * 8 + b.val) s).tile k = s.tile k := fun k => by
    rw [State.tile, storeSee_tiles, State.tile]
  have hsame : (tileScrub n.val b.val s).tile n.val = { s.tile n.val with
      scrub := tset 0 (s.tile n.val).scrub b.val ((p + 1) % 1024)
      store := (s.tile n.val).store.rewritten (32 * (p * 8 + b.val)) } := by
    unfold tileScrub
    dsimp only
    rw [State.tile_modTile, hp, htile]
    rfl
  have hregs : RegsBut [aTileEccBank n.val b.val, aTileEccLast n.val] s (tileScrub n.val b.val s) := by
    have h := storeSee_regsBut s n.val (p * 8 + b.val)
    rw [hbank] at h
    unfold tileScrub
    dsimp only
    rw [hp]
    exact h
  refine ⟨fun k hk => ?_, ?_, ?_, RegsBut.signal hregs, fun w => ?_⟩
  · rw [signal_tile]
    unfold tileScrub
    dsimp only
    rw [State.modTile, State.tile_setTile, if_neg hk, hp, htile]
  · rw [signal_tile, hsame]
    exact Ram.each_mark_cells _ _
  · rw [signal_tile, hsame, hp]
    exact tget_tset_same _ _ _ _
  · rw [signal_tile, hsame, hp]
    have h := Ram.rewritten_state (s.tile n.val).store ((p * 8 + b.val) * 4) w
    rw [show 8 * ((p * 8 + b.val) * 4) = 32 * (p * 8 + b.val) by omega] at h
    exact h

variable {n b s} (hclk : s.f (aRegionClk (regionOf n.val)) 16 4 ≠ 0)
include hclk

theorem tilePatrolScrub_rewrites (hen : s.bit (aTileCtl n.val) 0 = true) :
    ∃ t, exec (.tilePatrolScrub n b) s = .next t ∧ Scrubbed n b s t := by
  refine ⟨_, ?_, scrubbed_tileScrub n b s⟩
  change execTilePatrolScrub n b s = _
  simp only [execTilePatrolScrub, when_, hen, ne_eq, hclk, not_false_eq_true, decide_true, Bool.and_self, if_true, done]

theorem tileForcedScrub_rewrites (h0 : s.f (aTileEccThresh n.val) 0 16 ≠ 0)
    (hth : s.f (aTileEccThresh n.val) 0 16 < s.f (aTileEccBank n.val b.val) 0 16) :
    ∃ t, exec (.tileForcedScrub n b) s = .next t ∧ Scrubbed n b s t := by
  refine ⟨_, ?_, scrubbed_tileScrub n b s⟩
  change execTileForcedScrub n b s = _
  simp only [execTileForcedScrub, when_, ne_eq, h0, hth, hclk, not_false_eq_true, and_self, decide_true, if_true, done]

end

section
variable {n : TileIx} {b : Fin 8} {s : State}

theorem tilePatrolScrub_off (hen : s.bit (aTileCtl n.val) 0 = false) : exec (.tilePatrolScrub n b) s = .next s := by
  change execTilePatrolScrub n b s = _
  simp only [execTilePatrolScrub, when_, hen, Bool.false_and, Bool.false_eq_true, if_false, idle]

theorem tileForcedScrub_off (h0 : s.f (aTileEccThresh n.val) 0 16 = 0) : exec (.tileForcedScrub n b) s = .next s := by
  change execTileForcedScrub n b s = _
  simp only [execTileForcedScrub, when_, ne_eq, h0, not_true_eq_false, false_and, decide_false, Bool.false_eq_true, if_false, idle]

end

/-- Settles O39: a scrub visits one row, whose single-bit words it marks clean; the counts are registers of their own. -/
theorem scrubsChangeNoByte : Obligations.ScrubsChangeNoByte := by
  unfold Obligations.ScrubsChangeNoByte
  refine ⟨fun b u s => ⟨basinPatrolScrub_rewrites b s, basinForcedScrub_above b s, basinForcedScrub_off b s,
    dramPatrolScrub_rewrites⟩, fun n b s hclk => ⟨tilePatrolScrub_rewrites hclk, tileForcedScrub_rewrites hclk, ?_, ?_⟩⟩
  · exact tilePatrolScrub_off
  · exact tileForcedScrub_off

end Sys2Proof.Machine
end

section
/-! Refresh and retraining of DRAM (R273, R274), zero-fills and MEM_UNTOUCH (R278, R279). -/
namespace Sys2Proof.Machine

theorem State.bit_withMem (t : State) (m : Mem) (j i : Nat) : { t with mem := m }.bit j i = t.bit j i := rfl
theorem State.f_withMem (t : State) (m : Mem) (j lo len : Nat) : { t with mem := m }.f j lo len = t.f j lo len := rfl

theorem RegsBut.withMem {offs : List Nat} {s t : State} (h : RegsBut offs s t) (m : Mem) : RegsBut offs s { t with mem := m } := h

/-! ### Refresh and retraining -/

section
variable {s : State}

theorem dramRefresh_counts (htrained : s.bit aMemDramStatus 0 = true) (hfree : s.bit aObsCtl 0 = false) :
    exec .dramRefresh s = .next (signal s { s with
      free := s.free + 1
      counters := tset 0 s.counters (cMem 2) (s.cnt (cMem 2) + BitVec.ofNat 64 (Config.freeWord s.free).toNat) }) := by
  have hcount : ∀ u : State, u.bit aObsCtl 0 = false → ∀ n, u.count (cMem 2) n
      = { u with counters := tset 0 u.counters (cMem 2) (u.cnt (cMem 2) + BitVec.ofNat 64 n) } := by
    intro u hu n
    rw [State.count, if_neg (Bool.eq_false_iff.mp hu)]
  change execDramRefresh s = _
  simp only [execDramRefresh, State.draw, when_, htrained, if_true, done]
  rw [hcount { s with free := s.free + 1 } hfree]
  rfl

theorem retrainingDue_sets (htrained : s.bit aMemDramStatus 0 = true) :
    exec .retrainingDue s = .next (signal s (s.setB aMemDramStatus 1 true)) := by
  change execRetrainingDue s = _
  simp only [execRetrainingDue, when_, htrained, if_true, done]

theorem dramRetrain_at_lull (hdue : s.bit aMemDramStatus 1 = true) (hretrain : s.mem.retrain = false) (hlull : s.lull = true) :
    exec .dramRetrain s = .next (signal s { s with mem := { s.mem with retrain := true } }) := by
  change execDramRetrain s = _
  simp only [execDramRetrain, when_, hdue, hlull, hretrain, Bool.not_false, Bool.and_self, if_true, done]

theorem dramRetrain_waits (hlull : s.lull = false) : exec .dramRetrain s = .next s := by
  change execDramRetrain s = _
  simp only [execDramRetrain, when_, hlull, Bool.and_false, Bool.false_and, Bool.false_eq_true, if_false, idle]

theorem forcedRetraining_starts (hdue : s.bit aMemDramStatus 1 = true) (hretrain : s.mem.retrain = false)
    (hfree : s.bit aObsCtl 0 = false) : ∃ t, exec .forcedRetraining s = .next t
    ∧ t.mem = { s.mem with retrain := true, forced := true } ∧ t.bit aMemDramStatus 2 = true
    ∧ t.cnt (cMem 7) = s.cnt (cMem 7) + 1 ∧ RegsBut [aMemDramStatus] s t := by
  have hcnt : ((s.setB aMemDramStatus 2 true).count (cMem 7) 1).cnt (cMem 7) = s.cnt (cMem 7) + 1 :=
    State.cnt_count (s.setB aMemDramStatus 2 true) ((State.bit_setB_ne _ (by decide) 2 true 0).trans hfree) (cMem 7) 1
  have hbit : ((s.setB aMemDramStatus 2 true).count (cMem 7) 1).bit aMemDramStatus 2 = true :=
    (State.count_bit ..).trans (State.bit_setB_same s _ true (by omega))
  have hregs : RegsBut [aMemDramStatus] s ((s.setB aMemDramStatus 2 true).count (cMem 7) 1) := fun j hj =>
    (State.count_rd ..).trans (((RegsBut.refl _ s).setB List.mem_cons_self 2 true) j hj)
  have hexec : exec .forcedRetraining s = .next (signal s { ((s.setB aMemDramStatus 2 true).count (cMem 7) 1) with
      mem := { s.mem with retrain := true, forced := true } }) := by
    change execForcedRetraining s = _
    simp only [execForcedRetraining, when_, hdue, hretrain, Bool.not_false, Bool.and_self, if_true, done]
  generalize (s.setB aMemDramStatus 2 true).count (cMem 7) 1 = u at *
  exact ⟨_, hexec, signal_mem .., (signal_bit ..).trans ((State.bit_withMem ..).trans hbit), (signal_cnt ..).trans hcnt, (hregs.withMem _).signal⟩

/-- A retraining that took n cycles of mc is over. -/
def retrainEnded (n : Nat) (s : State) : State :=
  (({ s with free := s.free + 1 } : State).setB aMemDramStatus 1 false).count (cMem 3) n

theorem retrainEnded_facts (n : Nat) (s : State) : (retrainEnded n s).mem = s.mem
    ∧ (retrainEnded n s).bit aMemDramStatus 1 = false ∧ RegsBut [aMemDramStatus] s (retrainEnded n s) := by
  unfold retrainEnded
  refine ⟨State.count_mem .., ?_, fun j hj => ?_⟩
  · rw [State.count_bit]
    exact State.bit_setB_same _ _ false (by omega)
  · rw [State.count_rd]
    exact ((RegsBut.refl [aMemDramStatus] { s with free := s.free + 1 }).setB List.mem_cons_self 1 false) j hj

theorem dramRetrainComplete_clears (hretrain : s.mem.retrain = true) : ∃ t, exec .dramRetrainComplete s = .next t
    ∧ t.mem = { s.mem with retrain := false, forced := false } ∧ t.bit aMemDramStatus 1 = false
    ∧ RegsBut [aMemDramStatus] s t := by
  have hexec : exec .dramRetrainComplete s = .next (signal s { retrainEnded (Config.freeWord s.free).toNat s with
      mem := { (retrainEnded (Config.freeWord s.free).toNat s).mem with retrain := false, forced := false } }) := by
    change execDramRetrainComplete s = _
    simp only [execDramRetrainComplete, State.draw, when_, hretrain, if_true, done]
    rfl
  obtain ⟨hmem, hbit, hregs⟩ := retrainEnded_facts (Config.freeWord s.free).toNat s
  generalize retrainEnded (Config.freeWord s.free).toNat s = u at *
  refine ⟨_, hexec, ?_, (signal_bit ..).trans ((State.bit_withMem ..).trans hbit), (hregs.withMem _).signal⟩
  rw [signal_mem, hmem]

end

/-! ### Zero-fills (R278) -/

theorem tget_filter {α : Type} (d : α) (p : Nat → Bool) (t : Tab α) (k : Nat) :
    tget d (t.filter (fun c => p c.1)) k = if p k then tget d t k else d := by
  induction t with
  | nil => rw [List.filter_nil, tget, ite_self]
  | cons c t ih =>
    obtain ⟨a, x⟩ := c
    by_cases ha : p a <;> by_cases hk : k = a
    · subst hk; simp [ha, tget]
    · simp [ha, tget, hk, ih]
    · subst hk; simp [ha, ih]
    · simp [ha, tget, hk, ih]

/-- DRAM with one page zero and clean (R278). -/
def Ram.zeroPage (r : Ram) (page : Nat) : Ram :=
  ⟨r.cells.filter (fun c => c.1 < page * 4096 || page * 4096 + 4096 ≤ c.1),
   r.ecc.filter (fun c => c.1 * 8 < page * 4096 || page * 4096 + 4096 ≤ c.1 * 8)⟩

theorem Ram.byte_zeroPage (r : Ram) (page b : Nat) :
    (r.zeroPage page).byte b = if b < page * 4096 ∨ page * 4096 + 4096 ≤ b then r.byte b else 0 := by
  refine (tget_filter 0 (fun k => k < page * 4096 || page * 4096 + 4096 ≤ k) r.cells b).trans ?_
  simp only [Bool.or_eq_true, decide_eq_true_eq]
  rfl

theorem mem_insertNat (x y : Nat) (l : List Nat) : y ∈ insertNat x l ↔ y = x ∨ y ∈ l := by
  induction l with
  | nil => rw [insertNat, List.mem_singleton, or_iff_left List.not_mem_nil]
  | cons z zs ih =>
    rw [insertNat]
    split
    · next h => subst h; simp
    · split
      · rw [List.mem_cons]
      · rw [List.mem_cons, ih, List.mem_cons, or_left_comm]

section
variable {k : Nat} {f : Fill} {s : State}

theorem fillDone_of_one {a : Nat} {bs : List Byte} (hw : f.writes = [(a, bs, false)]) : fillDone f s
    = { s with mem := { s.mem with
        dram := (s.mem.dram.zeroPage f.page).write a bs false
        touched := insertNat f.page s.mem.touched
        fills := s.mem.fills.filter (fun x => x.page != f.page) } } := by
  unfold fillDone
  rw [hw]
  rfl

theorem zeroFillComplete_fills {a : Nat} {bs : List Byte} (hf : s.mem.fills[k]? = some f) (hw : f.writes = [(a, bs, false)])
    (hlo : f.page * 4096 ≤ a) (hhi : a + bs.length ≤ f.page * 4096 + 4096) (htrained : s.bit aMemDramStatus 0 = true)
    (hretrain : s.mem.retrain = false) : ∃ t, exec (.zeroFillComplete k) s = .next t ∧ f.page ∈ t.mem.touched
      ∧ t.regs = s.regs ∧ t.mem.basin = s.mem.basin
      ∧ (∀ p, p ∈ s.mem.touched → p ∈ t.mem.touched) ∧ t.mem.fills = s.mem.fills.filter (fun x => x.page != f.page)
      ∧ (∀ b, f.page * 4096 ≤ b → b < f.page * 4096 + 4096 →
          t.mem.dram.byte b = if a ≤ b ∧ b < a + bs.length then (bs[b - a]?).getD 0 else 0)
      ∧ (∀ b, b < f.page * 4096 ∨ f.page * 4096 + 4096 ≤ b → t.mem.dram.byte b = s.mem.dram.byte b) := by
  have hexec : exec (.zeroFillComplete k) s = .next (signal s (fillDone f s)) := by
    change execZeroFillComplete k s = _
    simp only [execZeroFillComplete, hf, State.dramUp, htrained, hretrain, Bool.not_false, Bool.and_self, when_, if_true, done]
  refine ⟨_, hexec, ?_⟩
  rw [signal_mem, signal_regs, fillDone_of_one hw]
  refine ⟨(mem_insertNat _ _ _).mpr (.inl rfl), rfl, rfl, fun p hp => (mem_insertNat _ _ _).mpr (.inr hp), rfl,
    fun b hb hb' => ?_, fun b hb => ?_⟩
  · rw [Ram.byte_write, Ram.byte_zeroPage, if_neg (c := b < _ ∨ _) (by omega)]
  · rw [Ram.byte_write, if_neg (by omega), Ram.byte_zeroPage, if_pos hb]

end

/-! ### MEM_UNTOUCH (R279) -/

section
variable {v : Word} {s : State}

/-- A write with GO: COUNT, then the bit that says the operation is under way. -/
def untouchSet (off n : Nat) (s : State) : State := (s.setF off 0 23 n).setB off 31 true

theorem untouchSet_facts {n : Nat} (hn : n < 2 ^ 23) (off : Nat) (s : State) : (untouchSet off n s).bit off 31 = true
    ∧ (untouchSet off n s).f off 0 23 = n ∧ RegsBut [off] s (untouchSet off n s) := by
  have hcount : (s.setF off 0 23 n).f off 0 23 = n := (State.f_setF_same s off n (by omega)).trans (Nat.mod_eq_of_lt hn)
  refine ⟨State.bit_setB_same _ _ _ (by omega), ?_, ?_⟩
  · exact (State.f_setB_of_disjoint (s.setF off 0 23 n) (by omega) (by omega) true).trans hcount
  · exact ((RegsBut.refl _ s).setF List.mem_cons_self 0 23 n).setB List.mem_cons_self 31 true

theorem memUntouchWrite_of_go (hgo : nbit v.toNat 31 = true) (hn : nbits v.toNat 0 23 ≠ 0)
    (hidle : s.bit aMemUntouch 31 = false) : memUntouchWrite v s = { untouchSet aMemUntouch (nbits v.toNat 0 23) s with
      mem := { s.mem with untouch := some (s.f aMemUntouchPage 0 23, nbits v.toNat 0 23) } } := by
  have hidle' : (s.setF aMemUntouch 0 23 (nbits v.toNat 0 23)).bit aMemUntouch 31 = false :=
    (State.bit_setF_of_disjoint _ _ _ _ (by omega) (by omega)).trans hidle
  have hpage : (s.setF aMemUntouch 0 23 (nbits v.toNat 0 23)).f aMemUntouchPage 0 23 = s.f aMemUntouchPage 0 23 :=
    State.f_setF_ne _ _ _ _ (by decide) _ _
  simp only [memUntouchWrite, hgo, hidle', hn, hpage, Bool.not_false, Bool.and_self, ne_eq, not_false_eq_true, decide_true,
    if_true]
  rfl

theorem memUntouch_starts (hs : Served s) (hgo : nbit v.toNat 31 = true) (hn : nbits v.toNat 0 23 ≠ 0)
    (hidle : s.bit aMemUntouch 31 = false) : ∃ t, exec (.memUntouch v) s = .next t
      ∧ t.mem = { s.mem with untouch := some (s.f aMemUntouchPage 0 23, nbits v.toNat 0 23) }
      ∧ t.bit aMemUntouch 31 = true ∧ t.f aMemUntouch 0 23 = nbits v.toNat 0 23 ∧ RegsBut [aMemUntouch] s t := by
  have hexec : exec (.memUntouch v) s = .next (signal s (memUntouchWrite v s)) := by
    change execMemUntouch v s = _
    rw [execMemUntouch, hostRow_of_served hs, done]
  obtain ⟨hbit, hf, hregs⟩ := untouchSet_facts (nbits_lt v.toNat 0 23) aMemUntouch s
  rw [memUntouchWrite_of_go hgo hn hidle] at hexec
  generalize untouchSet aMemUntouch (nbits v.toNat 0 23) s = u at *
  exact ⟨_, hexec, signal_mem .., (signal_bit ..).trans ((State.bit_withMem ..).trans hbit), (signal_f ..).trans ((State.f_withMem ..).trans hf), (hregs.withMem _).signal⟩

theorem memUntouchDone_untouches {p n : Nat} (hu : s.mem.untouch = some (p, n)) (hfills : s.mem.fills = []) :
    ∃ t, exec .memUntouchDone s = .next t ∧ t.bit aMemUntouch 31 = false ∧ RegsBut [aMemUntouch] s t
      ∧ t.mem.dram = s.mem.dram ∧ t.mem.untouch = none
      ∧ ∀ q, q ∈ t.mem.touched ↔ q ∈ s.mem.touched ∧ ¬ (p ≤ q ∧ q < p + n) := by
  have hexec : exec .memUntouchDone s = .next (signal s { s.setB aMemUntouch 31 false with
      mem := { (s.setB aMemUntouch 31 false).mem with
        touched := (s.setB aMemUntouch 31 false).mem.touched.filter (fun q => !decide (p ≤ q && q < p + n))
        untouch := none } }) := by
    change execMemUntouchDone s = _
    simp only [execMemUntouchDone, hu, hfills, List.filter_nil, each, List.foldl_nil, done]
  have hbit : (s.setB aMemUntouch 31 false).bit aMemUntouch 31 = false := State.bit_setB_same s _ false (by omega)
  have hregs : RegsBut [aMemUntouch] s (s.setB aMemUntouch 31 false) := (RegsBut.refl _ s).setB List.mem_cons_self 31 false
  have hmem : (s.setB aMemUntouch 31 false).mem = s.mem := ((OnlyRegs.refl s).setB _ _ _).mem
  generalize s.setB aMemUntouch 31 false = u at *
  refine ⟨_, hexec, (signal_bit ..).trans ((State.bit_withMem ..).trans hbit), (hregs.withMem _).signal, ?_⟩
  rw [signal_mem, hmem]
  refine ⟨rfl, rfl, fun q => ?_⟩
  simp only [List.mem_filter, Bool.not_eq_true', decide_eq_false_iff_not, Bool.and_eq_true, decide_eq_true_eq]

end

/-- Settles O40: one rule for each event of DRAM's upkeep. -/
theorem dramUpkeep : Obligations.DramUpkeep := by
  unfold Obligations.DramUpkeep
  refine ⟨fun s htrained hfree => ⟨dramRefresh_counts htrained hfree, retrainingDue_sets htrained, fun hdue hretrain =>
    ⟨dramRetrain_at_lull hdue hretrain, dramRetrain_waits, forcedRetraining_starts hdue hretrain hfree⟩,
    dramRetrainComplete_clears⟩, fun k v s => ⟨fun f a bs => zeroFillComplete_fills, memUntouch_starts,
    fun p n => memUntouchDone_untouches⟩⟩

end Sys2Proof.Machine
end

section
/-! What the completion path of a stream leaves of its frames and of the gate, wherever its entries go (R65, R66). -/
namespace Sys2Proof.Machine

theorem State.basinRead_counts (s : State) (a n : Nat) : BanksCount s (s.basinRead a n).2 := by
  unfold State.basinRead
  dsimp only
  split
  · exact (BanksCount.refl s).basinSee _ _
  · exact ((BanksCount.refl s).basinSee _ _).basinSee _ _

theorem streamStatus_notin {n : Nat} (hn : n < 256) : aStreamStatus n ∉ basinPutRegs := by
  have hlow : ∀ o ∈ basinPutRegs, o < 0x100000 := by decide
  intro hmem
  have hlt := hlow _ hmem
  unfold aStreamStatus streamPage at hlt
  omega

/-- A move of stream n's completion path: its frames, the gate and the last tag shown are as they were. -/
structure PathMoved (n : Nat) (s t : State) : Prop where
  gate : t.gate = s.gate
  pend : (t.stream n).pend = (s.stream n).pend
  slots : (t.stream n).slots = (s.stream n).slots
  admitted : (t.stream n).admitted = (s.stream n).admitted
  lastTag : t.f (aStreamStatus n) 20 12 = s.f (aStreamStatus n) 20 12

namespace PathMoved

theorem refl (n : Nat) (s : State) : PathMoved n s s := ⟨rfl, rfl, rfl, rfl, rfl⟩

variable {n : Nat} {s t u : State}

theorem trans (h : PathMoved n s t) (h' : PathMoved n t u) : PathMoved n s u :=
  ⟨h'.gate.trans h.gate, h'.pend.trans h.pend, h'.slots.trans h.slots, h'.admitted.trans h.admitted, h'.lastTag.trans h.lastTag⟩

/-- Nothing but registers, host memory or the basin. -/
theorem of_same (hgate : t.gate = s.gate) (hstreams : t.streams = s.streams)
    (hlast : t.f (aStreamStatus n) 20 12 = s.f (aStreamStatus n) 20 12) : PathMoved n s t := by
  have hstream : t.stream n = s.stream n := by rw [State.stream, hstreams, State.stream]
  exact ⟨hgate, by rw [hstream], by rw [hstream], by rw [hstream], hlast⟩

theorem of_onlyRegs (h : OnlyRegs s t) (hlast : t.f (aStreamStatus n) 20 12 = s.f (aStreamStatus n) 20 12) : PathMoved n s t :=
  of_same (by unfold OnlyRegs at h; rw [h]) h.streams hlast

theorem setStream (s : State) {x : Stream} (hpend : x.pend = (s.stream n).pend) (hslots : x.slots = (s.stream n).slots)
    (hadm : x.admitted = (s.stream n).admitted) : PathMoved n s (s.setStream n x) := by
  have hstream : (s.setStream n x).stream n = x := (State.stream_setStream ..).trans (if_pos rfl)
  exact ⟨rfl, by rw [hstream, hpend], by rw [hstream, hslots], by rw [hstream, hadm], State.f_congr (State.rd_setStream ..) _ _⟩

theorem count (s : State) (off k : Nat) : PathMoved n s (s.count off k) :=
  of_same (State.count_gate ..) (State.count_streams ..) (State.count_f ..)

theorem cause (s : State) (k : Nat) : PathMoved n s (s.cause n k) := by
  refine of_onlyRegs ((OnlyRegs.refl s).cause n k) ?_
  refine ((RegsBut.refl [aStreamIntCause n] s).cause List.mem_cons_self k).f_eq ?_ _ _
  rw [List.mem_singleton]
  unfold aStreamStatus aStreamIntCause
  omega

theorem basinPut (hn : n < 256) (s : State) (a : Nat) (bs : List Byte) : PathMoved n s (s.basinPut a bs) := by
  obtain ⟨r, honly, hregs⟩ := State.basinPut_stores s a bs
  refine of_same ?_ ?_ (hregs.f_eq (streamStatus_notin hn) _ _)
  · unfold OnlyRegs at honly
    rw [honly]
  · exact honly.streams

theorem basinRead (hn : n < 256) (s : State) (a k : Nat) : PathMoved n s (s.basinRead a k).2 := by
  obtain ⟨honly, hregs⟩ := State.basinRead_counts s a k
  exact of_onlyRegs honly (hregs.f_eq (fun hmem => streamStatus_notin hn (List.mem_append_left _ hmem)) _ _)

end PathMoved

section
variable {n : Nat} (s : State)

theorem cqPlaced_moved (ws : List Word) : PathMoved n s (cqPlaced n ws s) := by
  refine .of_same rfl rfl ?_
  refine (State.f_setF_ne _ _ _ _ ?_ _ _).trans rfl
  unfold aStreamStatus aCqTail
  omega

theorem cqWrite_moved (ws : List Word) : PathMoved n s (cqWrite n ws s) := by
  obtain ⟨u, hu, h⟩ := cqWrite_cases n ws s
  have hcounted : PathMoved n s u := by
    rw [hu]
    exact (cqPlaced_moved s ws).trans (.setStream _ (x := cqCounted n s ((cqPlaced n ws s).stream n)) rfl rfl rfl)
  rcases h with h | h <;> rw [h]
  · exact hcounted
  · exact hcounted.trans ((PathMoved.setStream u (x := { u.stream n with unsig := 0 }) rfl rfl rfl).trans (.cause _ 0))

theorem cqStep_moved : PathMoved n s (cqStep n s) := by
  unfold cqStep
  dsimp only
  split
  · next e es _ =>
    split
    · exact (PathMoved.setStream s (x := { s.stream n with held := es }) rfl rfl rfl).trans (cqWrite_moved _ e)
    · exact .refl n s
  · exact .refl n s

theorem cqStall_moved : PathMoved n s (cqStall n s) := by
  have hbit : ∀ b, PathMoved n s (s.setB (aStreamStatus n) 7 b) := fun b =>
    .of_same rfl rfl (s.f_setB_of_disjoint (by omega) (by omega) b)
  unfold cqStall
  dsimp only
  split
  · exact hbit true
  · split
    · exact hbit false
    · exact .refl n s

variable (hn : n < 256)
include hn

theorem cqRefill_moved : PathMoved n s (cqRefill n s) := by
  unfold cqRefill
  dsimp only
  split
  · split
    · split
      · next e es _ _ =>
        obtain ⟨u, hu⟩ : ∃ u, (s.basinPut (s.ovfAddr n ((s.stream n).ovfAt + (s.stream n).ovf)) (entryBytes e)).count (cStream n 8) 1 = u :=
          ⟨_, rfl⟩
        have h : PathMoved n s u := hu ▸ (PathMoved.basinPut hn s _ _).trans (.count _ _ _)
        rw [hu]
        exact h.trans (.setStream u (x := { s.stream n with waitq := es, ovf := (s.stream n).ovf + 1 }) h.pend.symm h.slots.symm
          h.admitted.symm)
      · exact .refl n s
    · exact .refl n s
  · split
    · have h := PathMoved.basinRead hn s (s.ovfAddr n (s.stream n).ovfAt) 64
      exact h.trans (.setStream _ h.pend.symm h.slots.symm h.admitted.symm)
    · split
      · next e es _ => exact .setStream s (x := { s.stream n with held := (s.stream n).held ++ [e], waitq := es }) rfl rfl rfl
      · exact .refl n s

theorem cqMoves_moved (f : Nat) : PathMoved n s (cqMoves n f s) := by
  induction f generalizing s with
  | zero => exact .refl n s
  | succ f ih => exact (cqStep_moved s).trans ((cqRefill_moved _ hn).trans (ih _))

theorem cqMove_moved : PathMoved n s (cqMove n s) := (cqMoves_moved s hn _).trans (cqStall_moved _)

/-- The path with one more entry behind. -/
def pathWith (n kind : Nat) (body : List Word) (x : Stream) : Stream :=
  let head := BitVec.ofNat 32 (x.cqSeq % 65536 * 65536 + n % 256 * 256 + kind % 16 * 16)
  { x with cqSeq := (x.cqSeq + 1) % 65536, waitq := x.waitq ++ [head :: (body ++ List.replicate (15 - body.length) 0)] }

theorem cqPut_moved (kind : Nat) (body : List Word) : PathMoved n s (cqPut n kind body s) :=
  (PathMoved.setStream s (x := pathWith n kind body (s.stream n)) rfl rfl rfl).trans (cqMove_moved _ hn)

end

end Sys2Proof.Machine
end

section
/-! The exit gate: final tokens (R317, R318), the record of a frame and LATE (R319, R323). -/
namespace Sys2Proof.Machine

/-! ### Frame slots -/

theorem Stream.slot_setSlot (x : Stream) (tag f : Nat) (y : Slot) : (x.setSlot tag y).slot f = if f = tag then y else x.slot f :=
  tget_tset _ _ _ _ _

section
variable (s : State) (n tag : Nat) (y : Slot)

theorem State.slot_setSlot_same : (s.setSlot n tag y).slot n tag = y := by
  rw [State.slot, State.setSlot, State.modStream, State.stream_setStream, if_pos rfl, Stream.slot_setSlot, if_pos rfl]

theorem State.slot_setSlot_ne {m f : Nat} (h : m ≠ n ∨ f ≠ tag) : (s.setSlot n tag y).slot m f = s.slot m f := by
  rw [State.slot, State.setSlot, State.modStream, State.stream_setStream]
  by_cases hm : m = n
  · rw [if_pos hm, Stream.slot_setSlot, if_neg (h.resolve_left (not_not_intro hm)), hm]
    rfl
  · rw [if_neg hm]
    rfl

end

theorem State.slot_congr {s t : State} (h : t.streams = s.streams) (n tag : Nat) : t.slot n tag = s.slot n tag := by
  rw [State.slot, State.stream, h, State.slot, State.stream]

/-! ### Final tokens (R317, R318) -/

section
variable (y : Fin 20) (e : Entry) (es : List Entry) (s : State)

/-- Port y without its oldest entry, whose credit is on its way. -/
def tokenPopped : State :=
  credit (s.linkSender (20 * y.val + 19) 1) 1 { s with gate := { s.gate with ports := tset [] s.gate.ports y.val es } }

theorem tokenPopped_facts : (tokenPopped y es s).streams = s.streams ∧ (tokenPopped y es s).regs = s.regs
    ∧ (tokenPopped y es s).counters = s.counters
    ∧ (tokenPopped y es s).gate = { s.gate with ports := tset [] s.gate.ports y.val es } := by
  unfold tokenPopped
  rw [credit_eq]
  exact ⟨rfl, rfl, rfl, rfl⟩

/-- What a token without PSN that finds a buffer place leaves in its slot. -/
def tokenSlot (sl : Slot) : Slot :=
  { sl with
    st := .filled, outcome := verdictOf sl.job e.pay, byToken := true, buffered := true, cls := tokClass e.pay
    tmask := if sl.job.mode = 1 then tmaskOf sl.job e.pay else 0
    scores := tokScores e.pay, user := tokUser e.pay, gov := nbit e.side.toNat 1, psn := false }

/-- A token counted, with a buffer place of its own. -/
def tokenTaken (sl : Slot) : State :=
  let t := s.count (cGate 0) 1
  let t := { t with gate := { t.gate with free := t.gate.free - 1 } }
  if sl.job.mode = 0 && decide (2 ≤ tokVcode e.pay) then t.count (cGate 2) 1 else t

theorem tokenTaken_facts (sl : Slot) (hfree : s.bit aObsCtl 0 = false) : (tokenTaken e s sl).streams = s.streams
    ∧ (tokenTaken e s sl).regs = s.regs ∧ (tokenTaken e s sl).gate = { s.gate with free := s.gate.free - 1 }
    ∧ (tokenTaken e s sl).cnt (cGate 0) = s.cnt (cGate 0) + 1 := by
  have hcnt : (s.count (cGate 0) 1).cnt (cGate 0) = s.cnt (cGate 0) + 1 := State.cnt_count s hfree _ 1
  obtain ⟨u, hu, hcu, hsu⟩ : ∃ u : State, u = { s.count (cGate 0) 1 with
      gate := { (s.count (cGate 0) 1).gate with free := (s.count (cGate 0) 1).gate.free - 1 } }
      ∧ u.cnt (cGate 0) = s.cnt (cGate 0) + 1
      ∧ u.streams = s.streams ∧ u.regs = s.regs ∧ u.gate = { s.gate with free := s.gate.free - 1 } :=
    ⟨_, rfl, hcnt, State.count_streams .., State.count_regs .., by rw [State.count_gate]⟩
  have heq : tokenTaken e s sl = if sl.job.mode = 0 && decide (2 ≤ tokVcode e.pay) then u.count (cGate 2) 1 else u := by
    rw [hu]; rfl
  rw [heq]
  clear heq hu
  obtain ⟨hstreams, hregs, hgate⟩ := hsu
  split
  · refine ⟨(State.count_streams ..).trans hstreams, (State.count_regs ..).trans hregs, (State.count_gate ..).trans hgate, ?_⟩
    rw [← hcu, State.count]
    split
    · rfl
    · exact tget_tset_ne _ _ _ _ (by decide)
  · exact ⟨hstreams, hregs, hgate, hcu⟩

variable {y e es s} (hport : tget [] s.gate.ports y.val = e :: es)
include hport

theorem finalTokenPop_purged (hpurge : s.purging (strOf e.side) = true) : ∃ t, exec (.finalTokenPop y) s = .next t
    ∧ t.streams = s.streams ∧ t.regs = s.regs ∧ tget [] t.gate.ports y.val = es := by
  obtain ⟨hstreams, hregs, -, hgate⟩ := tokenPopped_facts y es s
  have hexec : exec (.finalTokenPop y) s = .next (signal s (tokenPopped y es s)) := by
    change execFinalTokenPop y s = _
    simp only [execFinalTokenPop, hport, hpurge, if_true, done]
    rfl
  refine ⟨_, hexec, (signal_streams ..).trans hstreams, (signal_regs ..).trans hregs, ?_⟩
  rw [signal_gate, hgate]
  exact tget_tset_same _ _ _ _

variable (hpurge : s.purging (strOf e.side) = false)
include hpurge

/-- A final token goes to its slot as the slot stands. -/
theorem exec_finalTokenPop : exec (.finalTokenPop y) s = .next (signal s (gateToken y.val e (tokenPopped y es s))) := by
  change execFinalTokenPop y s = _
  simp only [execFinalTokenPop, hport, hpurge, Bool.false_eq_true, if_false, done]
  rfl

variable (hfinal : nbit e.side.toNat 2 = true)
include hfinal

theorem finalTokenPop_unknown (hst : (s.slot (strOf e.side) (frameOf e.side)).st = .free) :
    ∃ t u, exec (.finalTokenPop y) s = .next t ∧ t = signal s (gateS 0x03 y.val e u) ∧ u.streams = s.streams ∧ u.regs = s.regs
      ∧ tget [] u.gate.ports y.val = es := by
  obtain ⟨hstreams, hregs, -, hgate⟩ := tokenPopped_facts y es s
  refine ⟨_, (tokenPopped y es s).count (cGate 0) 1, exec_finalTokenPop hport hpurge, ?_,
    (State.count_streams ..).trans hstreams, (State.count_regs ..).trans hregs, ?_⟩
  · have hslot := (State.slot_congr hstreams (strOf e.side) (frameOf e.side)).symm ▸ hst
    simp only [gateToken, hfinal, hslot, Bool.not_true, Bool.false_eq_true, if_false]
  · rw [State.count_gate, hgate]
    exact tget_tset_same _ _ _ _

omit hport hpurge in
theorem gateToken_fills {u : State} (hpsn : psnOf e.side = false) (hfree : 0 < u.gate.free)
    (hst : (u.slot (strOf e.side) (frameOf e.side)).st = .opened) : gateToken y.val e u
      = (tokenTaken e u (u.slot (strOf e.side) (frameOf e.side))).setSlot (strOf e.side) (frameOf e.side)
          (tokenSlot e (u.slot (strOf e.side) (frameOf e.side))) := by
  have hslot : (u.count (cGate 0) 1).slot (strOf e.side) (frameOf e.side) = u.slot (strOf e.side) (frameOf e.side) :=
    State.slot_congr (State.count_streams ..) _ _
  have hroom : 0 < (u.count (cGate 0) 1).gate.free := by rw [State.count_gate]; exact hfree
  simp only [gateToken, tokenFill, hfinal, hst, hslot, hpsn, hroom, decide_true, Bool.not_true, Bool.false_eq_true, if_false, if_true]
  rfl

/-- A token on an OPEN slot of its own fills it. -/
theorem finalTokenPop_fills (hst : (s.slot (strOf e.side) (frameOf e.side)).st = .opened) (hpsn : psnOf e.side = false)
    (hroom : 0 < s.gate.free) (hfree : s.bit aObsCtl 0 = false) : ∃ t, exec (.finalTokenPop y) s = .next t ∧ t.regs = s.regs
      ∧ tget [] t.gate.ports y.val = es ∧ t.gate.free = s.gate.free - 1 ∧ t.cnt (cGate 0) = s.cnt (cGate 0) + 1
      ∧ t.slot (strOf e.side) (frameOf e.side) = tokenSlot e (s.slot (strOf e.side) (frameOf e.side))
      ∧ ∀ m f, m ≠ strOf e.side ∨ f ≠ frameOf e.side → t.slot m f = s.slot m f := by
  obtain ⟨hstreams, hregs, hcnt, hgate⟩ := tokenPopped_facts y es s
  have hslot := State.slot_congr hstreams (strOf e.side) (frameOf e.side)
  have hroom' : 0 < (tokenPopped y es s).gate.free := by rw [hgate]; exact hroom
  have hobs : (tokenPopped y es s).bit aObsCtl 0 = false := by rw [State.bit, State.rd, hregs]; exact hfree
  have hexec := exec_finalTokenPop hport hpurge
  rw [gateToken_fills hfinal hpsn hroom' (hslot.symm ▸ hst), hslot] at hexec
  obtain ⟨htstreams, htregs, htgate, htcnt⟩ := tokenTaken_facts e (tokenPopped y es s) (s.slot (strOf e.side) (frameOf e.side)) hobs
  generalize tokenTaken e (tokenPopped y es s) (s.slot (strOf e.side) (frameOf e.side)) = u at *
  refine ⟨_, hexec, (signal_regs ..).trans (htregs.trans hregs), ?_, ?_, ?_, ?_, fun m f hne => ?_⟩
  · rw [signal_gate]
    change tget [] u.gate.ports y.val = es
    rw [htgate, hgate]
    exact tget_tset_same _ _ _ _
  · rw [signal_gate]
    change u.gate.free = s.gate.free - 1
    rw [htgate, hgate]
  · rw [signal_cnt]
    change u.cnt (cGate 0) = s.cnt (cGate 0) + 1
    rw [htcnt, State.cnt, hcnt, State.cnt]
  · exact (State.slot_congr (signal_streams ..) _ _).trans (State.slot_setSlot_same ..)
  · rw [State.slot_congr (signal_streams ..), State.slot_setSlot_ne _ _ _ _ hne, State.slot_congr htstreams,
      State.slot_congr hstreams]

end

/-! ### The record of a frame (R323) -/

section
variable {n : StreamIx} {r : Answer} {s : State}

/-- The frame closed and its tag shown; its record still to be written. -/
def frameClosed (n : Nat) (r : Answer) (s : State) : State :=
  let y := s.slot n r.tag
  let t := { s with gate := { s.gate with answers := s.gate.answers.erase r, free := s.gate.free + b2n y.buffered } }
  let t := t.modStream n (fun x => { (x.setSlot r.tag { y with st := .closed }) with admitted := x.admitted.filter (fun u => u != r.tag) })
  t.setF (aStreamStatus n) 20 12 r.tag

theorem frameClosed_facts (n : Nat) (r : Answer) (s : State) (htag : r.tag < 4096) :
    (frameClosed n r s).gate.answers = s.gate.answers.erase r
    ∧ (frameClosed n r s).f (aStreamStatus n) 20 12 = r.tag
    ∧ (frameClosed n r s).stream n = { ((s.stream n).setSlot r.tag { s.slot n r.tag with st := .closed }) with
        admitted := (s.stream n).admitted.filter (fun u => u != r.tag) } := by
  refine ⟨rfl, ?_, ?_⟩
  · exact (State.f_setF_same _ _ _ (by omega)).trans (Nat.mod_eq_of_lt htag)
  · unfold frameClosed
    dsimp only
    rw [((OnlyRegs.refl _).setF _ _ _ _).stream, State.modStream, State.stream_setStream, if_pos rfl]
    rfl

theorem verdictRecordWrite_closes (hr : s.gate.answers.find? (fun a => a.stream == n.val) = some r)
    (hpend : (s.stream n.val).pend = none) (htag : r.tag < 4096) : ∃ t, exec (.verdictRecordWrite n) s = .next t
      ∧ t.gate.answers = s.gate.answers.erase r ∧ (t.slot n.val r.tag).st = .closed ∧ t.f (aStreamStatus n.val) 20 12 = r.tag
      ∧ (t.stream n.val).admitted = (s.stream n.val).admitted.filter (fun u => u != r.tag) := by
  obtain ⟨hans, hlast, hstream⟩ := frameClosed_facts n.val r s htag
  have hexec : exec (.verdictRecordWrite n) s = .next (signal s (coSettle n.val
      (cqPut n.val 0 (recordBody (s.slot n.val r.tag) r.tag r) (frameClosed n.val r s)))) := by
    change execVerdictRecordWrite n s = _
    simp only [execVerdictRecordWrite, hr, hpend, Bool.false_eq_true, if_false, done]
    rfl
  have hmoved := cqPut_moved (frameClosed n.val r s) n.isLt 0 (recordBody (s.slot n.val r.tag) r.tag r)
  generalize frameClosed n.val r s = u at *
  generalize cqPut n.val 0 _ u = v at *
  have hvpend : (v.stream n.val).pend = none := by
    rw [hmoved.pend, hstream]
    exact hpend
  have hsettle : coSettle n.val v = v := by rw [coSettle, hvpend]
  rw [hsettle] at hexec
  refine ⟨_, hexec, ?_, ?_, ?_, ?_⟩
  · rw [signal_gate, hmoved.gate, hans]
  · rw [State.slot, signal_stream, Stream.slot, hmoved.slots, hstream]
    change (((s.stream n.val).setSlot r.tag { s.slot n.val r.tag with st := .closed }).slot r.tag).st = .closed
    rw [Stream.slot_setSlot, if_pos rfl]
  · rw [signal_f, hmoved.lastTag, hlast]
  · rw [signal_stream, hmoved.admitted, hstream]

end

/-! ### LATE (R22, R319) -/

section
variable {n : StreamIx} {tm : Fin 64} {tag : Nat} {rest : List (Nat × Nat)} {s : State}

theorem deadlineReached_sends (hbusy : (s.timer tm.val).busy = true) (horphans : s.orphans tm.val = []) :
    ∃ t, exec (.deadlineReached tm) s = .next t ∧ t.gate = { s.gate with lates := s.gate.lates ++ s.lateFrames tm.val }
      ∧ t.regs = s.regs ∧ t.streams = s.streams ∧ t.press.timers = s.press.timers := by
  obtain ⟨l, hexec⟩ : ∃ l, exec (.deadlineReached tm) s = .next (signal s (State.setFifo
      { s with gate := { s.gate with lates := s.gate.lates ++ s.lateFrames tm.val } } (s.timer tm.val).trig l)) := by
    refine ⟨(s.fifo (s.timer tm.val).trig).filter (fun e => !([] : List Edge).contains e), ?_⟩
    change execDeadlineReached tm s = _
    simp only [execDeadlineReached, hbusy, horphans, Bool.not_true, Bool.false_eq_true, if_false, done, each, List.foldl_nil]
    rfl
  exact ⟨_, hexec, signal_gate .., signal_regs .., signal_streams .., by rw [signal_press]; rfl⟩

variable (hlate : s.gate.lates = (n.val, tag) :: rest)
include hlate

/-- The oldest LATE taken from the keel, and noted as class C. -/
def lateTaken (n tag : Nat) (rest : List (Nat × Nat)) (s : State) : State :=
  raiseC { cls := 0, code := 0x0E, stream := some n, frame := some tag, die := 2, unit := 15 }
    { s with gate := { s.gate with lates := rest } }

omit hlate in
theorem lateTaken_facts (n tag : Nat) (rest : List (Nat × Nat)) (s : State) :
    (lateTaken n tag rest s).gate = { s.gate with lates := rest } ∧ (lateTaken n tag rest s).streams = s.streams := by
  have h : OnlyRegs { s with gate := { s.gate with lates := rest } } (lateTaken n tag rest s) := raiseC_onlyRegs _ _ (.refl _)
  refine ⟨?_, h.streams⟩
  unfold OnlyRegs at h
  rw [h]

theorem lateReceive_opened (hst : (s.slot n.val tag).st = .opened) : ∃ t, exec .lateReceive s = .next t
    ∧ t.gate = { s.gate with lates := rest } ∧ (t.slot n.val tag).st = .filled ∧ (t.slot n.val tag).outcome = 4 := by
  obtain ⟨hgate, -⟩ := lateTaken_facts n.val tag rest s
  have hexec : exec .lateReceive s = .next (signal s ((lateTaken n.val tag rest s).setSlot n.val tag
      { s.slot n.val tag with st := .filled, outcome := 4 })) := by
    change execLateReceive s = _
    simp only [execLateReceive, hlate, hst, decide_true, Bool.true_or, if_true, done]
    rfl
  generalize lateTaken n.val tag rest s = u at *
  refine ⟨_, hexec, (signal_gate ..).trans hgate, ?_⟩
  rw [State.slot_congr (signal_streams ..), State.slot_setSlot_same]
  exact ⟨rfl, rfl⟩

theorem lateReceive_closed (hst : (s.slot n.val tag).st = .closed) : ∃ t, exec .lateReceive s = .next t
    ∧ t.streams = s.streams ∧ t.gate = { s.gate with lates := rest } := by
  obtain ⟨hgate, hstreams⟩ := lateTaken_facts n.val tag rest s
  have hexec : exec .lateReceive s = .next (signal s (lateTaken n.val tag rest s)) := by
    change execLateReceive s = _
    simp only [execLateReceive, hlate, hst, reduceCtorEq, decide_false, false_and, Bool.false_and, Bool.or_self, Bool.false_eq_true,
      if_false, done]
    rfl
  exact ⟨_, hexec, (signal_streams ..).trans hstreams, (signal_gate ..).trans hgate⟩

end

/-- Settles O43: a token by the state of its slot, a record, and LATE by the state of its slot. -/
theorem gateSlotsAndRecords : Obligations.GateSlotsAndRecords := by
  unfold Obligations.GateSlotsAndRecords
  refine ⟨fun y e es s hport hfree => ⟨finalTokenPop_purged hport, fun hpurge hfinal hst hpsn hroom => ?_,
    finalTokenPop_unknown hport⟩, fun n tm r tag rest s => ⟨verdictRecordWrite_closes, deadlineReached_sends, lateReceive_opened,
    lateReceive_closed⟩⟩
  obtain ⟨t, hexec, hregs, hes, hplaces, hcnt, hslot, hother⟩ := finalTokenPop_fills hport hpurge hfinal hst hpsn hroom hfree
  refine ⟨t, hexec, hregs, hes, hplaces, hcnt, ?_⟩
  rw [hslot]
  refine ⟨rfl, rfl, rfl, rfl, rfl, fun hmode => ⟨?_, ?_⟩, fun hmode => ⟨?_, ?_⟩, hother⟩
  · exact if_pos hmode
  · exact if_neg (by omega)
  · exact if_pos hmode
  · exact if_neg (by omega)

end Sys2Proof.Machine
end

section
/-! Actions leave in the order of admission, and what the keel decides on each (R22, R319, R321, R322). -/
namespace Sys2Proof.Machine

/-! ### Release (R319, R321) -/

section
variable {n : StreamIx} {tag : Nat} {s : State} (hnext : s.nextSlot n.val = some tag)
include hnext

theorem gateSlotRelease_filled (hst : (s.slot n.val tag).st = .filled) (hfree : s.bit aObsCtl 0 = false) :
    ∃ t, exec (.gateSlotRelease n) s = .next t
      ∧ t.gate = { s.gate with actions := s.gate.actions ++ [⟨n.val, tag, (s.slot n.val tag).outcome⟩] }
      ∧ t.streams = s.streams ∧ t.regs = s.regs
      ∧ t.cnt (cStream n.val (1 + (s.slot n.val tag).outcome)) = s.cnt (cStream n.val (1 + (s.slot n.val tag).outcome)) + 1 := by
  have hexec : exec (.gateSlotRelease n) s = .next (signal s (State.count
      { s with gate := { s.gate with actions := s.gate.actions ++ [⟨n.val, tag, (s.slot n.val tag).outcome⟩] } }
      (cStream n.val (1 + (s.slot n.val tag).outcome)) 1)) := by
    change execGateSlotRelease n s = _
    simp only [execGateSlotRelease, hnext, hst, decide_true, when_, if_true, done]
  refine ⟨_, hexec, (signal_gate ..).trans (State.count_gate ..), (signal_streams ..).trans (State.count_streams ..),
    (signal_regs ..).trans (State.count_regs ..), (signal_cnt ..).trans ?_⟩
  exact State.cnt_count { s with gate := { s.gate with actions := s.gate.actions ++ [⟨n.val, tag, (s.slot n.val tag).outcome⟩] } }
    hfree _ 1

theorem gateSlotRelease_opened (hst : (s.slot n.val tag).st = .opened) : exec (.gateSlotRelease n) s = .next s := by
  change execGateSlotRelease n s = _
  simp only [execGateSlotRelease, hnext, hst, reduceCtorEq, decide_false, when_, Bool.false_eq_true, if_false, idle]

end

/-! ### The keel's decision (R22, R322) -/

section
variable {a : Action} {rest : List Action} {s : State}

/-- The oldest action has left the gate. -/
def actionTaken (rest : List Action) (s : State) : State := { s with gate := { s.gate with actions := rest } }

theorem exec_keelActionDecision (hact : s.gate.actions = a :: rest) : exec .keelActionDecision s
    = .next (signal s { (decideAction a (actionTaken rest s)).2 with
        gate := { (decideAction a (actionTaken rest s)).2.gate with
          answers := (decideAction a (actionTaken rest s)).2.gate.answers ++ [(decideAction a (actionTaken rest s)).1] } }) := by
  change execKeelActionDecision s = _
  simp only [execKeelActionDecision, hact, done]
  rfl

theorem keelActionDecision_unbound (hact : s.gate.actions = a :: rest) (hedge : (s.slot a.stream a.tag).edge = none) :
    ∃ t r, exec .keelActionDecision s = .next t ∧ t.gate = { s.gate with actions := rest, answers := s.gate.answers ++ [r] }
      ∧ r.stream = a.stream ∧ r.tag = a.tag ∧ r.verdict = a.outcome ∧ r.fire = false ∧ r.ebb = s.bit aPwrStatus 24
      ∧ t.press = s.press ∧ t.regs = s.regs ∧ t.streams = s.streams := by
  have hedge' : ((actionTaken rest s).slot a.stream a.tag).edge = none := hedge
  have hdecide : (decideAction a (actionTaken rest s)).2 = actionTaken rest s := by simp only [decideAction, hedge']
  have hexec := exec_keelActionDecision hact
  rw [hdecide] at hexec
  refine ⟨_, (decideAction a (actionTaken rest s)).1, hexec, signal_gate .., ?_⟩
  simp only [decideAction, hedge', signal_press, signal_regs, signal_streams]
  exact ⟨trivial, trivial, trivial, trivial, rfl, rfl, rfl, rfl⟩

end

/-! A bound frame's action -/

section
variable (a : Action) (e : Edge) (s : State)

/-- The answer to a verdict comes too late. -/
def State.actionLate : Bool := decide (a.outcome < 2) && s.frameLate (s.slot a.stream a.tag) e

/-- The frame's own timer is armed, not shared, and without slip: its firing may be stopped. -/
def State.mayStop : Bool :=
  !(e.slip || s.bit (aTrigStatus (s.slot a.stream a.tag).trig) 23)
  && !(e.coal || (match s.frameTimer a.stream a.tag e with | some k => !(s.timer k).coal.isEmpty | none => false))
  && (match s.frameTimer a.stream a.tag e with
      | some k => (s.timer k).armed && !(s.timer k).hot && !(s.timer k).slip
      | none => false)

/-- The action stops the firing. -/
def State.stops : Bool :=
  !s.actionLate a e && s.mayStop a e
  && (decide (a.outcome = 0) || (decide (a.outcome = 5) && !(s.slot a.stream a.tag).job.skipReject))

/-- The timer after the decision. -/
def timerDecided : State :=
  match s.frameTimer a.stream a.tag e with
  | none => s
  | some k =>
    if s.stops a e then s.setTimer k Timer.init
    else s.modTimer k (fun x =>
      { x with accepted := true, st := if x.armed && a.outcome == 1 && !s.actionLate a e && x.st != 5 then 3 else x.st })

/-- Class C for a late verdict, and the latency counts. -/
def latencyNoted (y : Slot) (late : Bool) (u : State) : State :=
  let u := if late then raiseC { cls := 0, code := 0x0E, stream := some a.stream, frame := some a.tag, die := 2, unit := 15 } u else u
  if a.outcome < 2 then
    let d := u.now - y.lastPixel
    let u := u.count (cStream a.stream 9) d
    if (u.cnt (cStream a.stream 10)).toNat < d then u.count (cStream a.stream 10) (d - (u.cnt (cStream a.stream 10)).toNat) else u
  else u

theorem timerDecided_gate : (timerDecided a e s).gate = s.gate := by
  unfold timerDecided
  split
  · rfl
  · split <;> rfl

theorem latencyNoted_keeps (y : Slot) (late : Bool) (u : State) : (latencyNoted a y late u).gate = u.gate
    ∧ (latencyNoted a y late u).press = u.press := by
  have hraise : ∀ x, (raiseC x u).gate = u.gate ∧ (raiseC x u).press = u.press := fun x => by
    have h := raiseC_onlyRegs x u (.refl u)
    unfold OnlyRegs at h
    rw [h]
    exact ⟨rfl, rfl⟩
  obtain ⟨v, hv, hgate, hpress⟩ : ∃ v, (if late then raiseC { cls := 0, code := 0x0E, stream := some a.stream, frame := some a.tag, die := 2, unit := 15 } u else u) = v
      ∧ v.gate = u.gate ∧ v.press = u.press := by
    refine ⟨_, rfl, ?_⟩
    split
    · exact hraise _
    · exact ⟨rfl, rfl⟩
  unfold latencyNoted
  dsimp only
  rw [hv]
  split
  · split
    · simp only [State.count_gate, State.count_press]
      exact ⟨hgate, hpress⟩
    · simp only [State.count_gate, State.count_press]
      exact ⟨hgate, hpress⟩
  · exact ⟨hgate, hpress⟩

variable {a e s}

theorem decideAction_bound (hedge : (s.slot a.stream a.tag).edge = some e) : ∃ r,
    decideAction a s = (r, latencyNoted a (s.slot a.stream a.tag) (s.actionLate a e) (timerDecided a e s))
      ∧ r.verdict = (if s.actionLate a e then 4 else a.outcome) ∧ r.fire = !s.stops a e := by
  refine ⟨(decideAction a s).1, ?_, ?_, ?_⟩
  · refine Prod.ext rfl ?_
    simp only [decideAction, hedge]
    rfl
  · simp only [decideAction, hedge]
    rfl
  · simp only [decideAction, hedge]
    rfl

/-- A PASS in time, without slip and with an armed timer of its own, stops the firing. -/
theorem stops_of_pass {k : Nat} (hpass : a.outcome = 0) (htime : s.frameLate (s.slot a.stream a.tag) e = false)
    (htimer : s.frameTimer a.stream a.tag e = some k) (hcoal : e.coal = false) (hslip : e.slip = false)
    (hown : (s.timer k).coal = []) (harmed : (s.timer k).armed = true) (hhot : (s.timer k).hot = false)
    (htslip : (s.timer k).slip = false) (hinput : s.bit (aTrigStatus (s.slot a.stream a.tag).trig) 23 = false) :
    s.actionLate a e = false ∧ s.stops a e = true := by
  have hlate : s.actionLate a e = false := by rw [State.actionLate, htime, Bool.and_false]
  have hstop : s.mayStop a e = true := by
    simp only [State.mayStop, htimer, hcoal, hslip, hown, harmed, hhot, htslip, hinput, List.isEmpty_nil, Bool.not_true, Bool.or_self,
      Bool.not_false, Bool.and_self]
  exact ⟨hlate, by rw [State.stops, hlate, hstop, hpass]; rfl⟩

end

section
variable {a : Action} {rest : List Action} {e : Edge} {k : Fin 64} {s : State}

theorem keelActionDecision_bound (hact : s.gate.actions = a :: rest) (hedge : (s.slot a.stream a.tag).edge = some e)
    (hpass : a.outcome = 0) : ∃ t r, exec .keelActionDecision s = .next t ∧ t.gate.answers = s.gate.answers ++ [r]
      ∧ t.gate.actions = rest
      ∧ (s.frameLate (s.slot a.stream a.tag) e = true → r.verdict = 4 ∧ r.fire = true)
      ∧ (s.frameLate (s.slot a.stream a.tag) e = false → s.frameTimer a.stream a.tag e = some k.val → e.coal = false →
          e.slip = false → (s.timer k.val).coal = [] → (s.timer k.val).armed = true → (s.timer k.val).hot = false →
          (s.timer k.val).slip = false → s.bit (aTrigStatus (s.slot a.stream a.tag).trig) 23 = false →
          r.verdict = 0 ∧ r.fire = false ∧ t.timer k.val = Timer.init) := by
  obtain ⟨r, hdecide, hverdict, hfire⟩ := decideAction_bound (a := a) (e := e) (s := actionTaken rest s) hedge
  obtain ⟨hgate, hpress⟩ := latencyNoted_keeps a ((actionTaken rest s).slot a.stream a.tag) ((actionTaken rest s).actionLate a e)
    (timerDecided a e (actionTaken rest s))
  have hgate' := hgate.trans (timerDecided_gate a e (actionTaken rest s))
  have hexec := exec_keelActionDecision hact
  rw [hdecide] at hexec
  dsimp only at hexec
  refine ⟨_, r, hexec, ?_, ?_, fun hlate => ?_, fun htime htimer hcoal hslip hown harmed hhot htslip hinput => ?_⟩
  · rw [signal_gate, hgate']
    rfl
  · rw [signal_gate, hgate']
    rfl
  · have hlate' : (actionTaken rest s).actionLate a e = true := by
      rw [State.actionLate, hpass]
      exact hlate
    have hstops : (actionTaken rest s).stops a e = false := by rw [State.stops, hlate']; rfl
    rw [hverdict, hfire, hlate', hstops]
    exact ⟨rfl, rfl⟩
  · obtain ⟨hlate, hstops⟩ := stops_of_pass (s := actionTaken rest s) hpass htime htimer hcoal hslip hown harmed hhot htslip hinput
    have htimer' : (actionTaken rest s).frameTimer a.stream a.tag e = some k.val := htimer
    have hdecided : timerDecided a e (actionTaken rest s) = (actionTaken rest s).setTimer k.val Timer.init := by
      rw [timerDecided, htimer', hstops]
      rfl
    refine ⟨?_, ?_, ?_⟩
    · rw [hverdict, hlate, hpass]
      rfl
    · rw [hfire, hstops]
      rfl
    · rw [signal_timer]
      change tget Timer.init (latencyNoted a _ _ _).press.timers k.val = Timer.init
      rw [hpress, hdecided]
      exact tget_tset_same Timer.init (actionTaken rest s).press.timers k.val Timer.init

end

/-- Settles O44: release by the state of the oldest slot, and the keel's answer by the frame's edge and deadline. -/
theorem actionsAndDisarming : Obligations.ActionsAndDisarming := by
  unfold Obligations.ActionsAndDisarming
  refine ⟨fun n tag s => ⟨gateSlotRelease_filled, gateSlotRelease_opened, fun a rest => keelActionDecision_unbound⟩,
    fun a rest e k s => keelActionDecision_bound⟩

end Sys2Proof.Machine
end

section
/-! Encoders (R324, R325), and writes of ENC_CTL (R327). -/
namespace Sys2Proof.Machine

/-! ### Pins -/

theorem State.pin_setPin (s : State) (p q : Nat) (b : Bool) : (s.setPin p b).pin q = if q = p then b else s.pin q := tget_tset _ _ _ _ _

theorem State.rd_setPin (s : State) (p : Nat) (b : Bool) (j : Nat) : (s.setPin p b).rd j = s.rd j := rfl

/-- The two filtered levels of encoder e, followed. -/
def encoderFollowed (e : Nat) (a b : Bool) (s : State) : State := (s.setPin (3 * e) a).setPin (3 * e + 1) b

section
variable (e : Nat) (a b : Bool) (s : State)

theorem encoderFollowed_pins : (encoderFollowed e a b s).pin (3 * e) = a ∧ (encoderFollowed e a b s).pin (3 * e + 1) = b := by
  unfold encoderFollowed
  rw [State.pin_setPin, if_neg (by omega), State.pin_setPin, if_pos rfl, State.pin_setPin, if_pos rfl]
  exact ⟨rfl, rfl⟩

/-- The ticks of interval timers are counted; levels and registers stay. -/
theorem itTick_keeps : (itTick e s).regs = s.regs ∧ ∀ p, (itTick e s).pin p = s.pin p := by
  refine each_keep (fun t : State => t.regs = s.regs ∧ ∀ p, t.pin p = s.pin p) _ (fun t k h => ?_) _ _ ⟨rfl, fun _ => rfl⟩
  split <;> exact h

end

/-! ### The direction of a transition -/

/-- Places from the levels that were to the levels that are, in the forward order. -/
def quadStep (was : Bool × Bool) (a b : Bool) : Nat := (quad a b + 4 - quad was.1 was.2) % 4

theorem quadStep_none : ∀ a b : Bool, quadStep (a, b) a b = 0 := by decide

theorem quadStep_both : ∀ c d a b : Bool, c ≠ a → d ≠ b → quadStep (c, d) a b = 2 := by decide

theorem quadStep_one : ∀ c d a b : Bool, xor (c != a) (d != b) = true → quadStep (c, d) a b ≠ 0 ∧ quadStep (c, d) a b ≠ 2 := by decide

/-! ### A transition (R324, R325) -/

section
variable {e : Fin 4} {a b : Bool} {s : State}

/-- The levels encoder e had. -/
def State.encoderWas (s : State) (e : Fin 4) : Bool × Bool := (s.pin (3 * e.val), s.pin (3 * e.val + 1))

/-- A transition of both levels. -/
def encoderErred (e : Nat) (t : State) : State := (t.setB (aEncStatus e) 2 true).count (cPress e) 1

/-- A transition of one level, forward or back. -/
def encoderCounted (e : Nat) (fwd : Bool) (pos : Word) (t : State) : State :=
  itTick e ((t.wr (aEncPos e) (if fwd then pos + 1 else pos - 1)).setB (aEncStatus e) 1 (!fwd))

theorem exec_encoderTransition_still (h : s.bit (aEncCtl e.val) 31 = false ∨ quadStep (s.encoderWas e) a b = 0) :
    exec (.encoderTransition e a b) s = .next (signal s (encoderFollowed e.val a b s)) := by
  have hcond : (!s.bit (aEncCtl e.val) 31 || decide (quadStep (s.encoderWas e) a b = 0)) = true := by simpa using h
  change execEncoderTransition e a b s = _
  exact if_pos hcond

variable (hen : s.bit (aEncCtl e.val) 31 = true)
include hen

theorem exec_encoderTransition_both (h : quadStep (s.encoderWas e) a b = 2) :
    exec (.encoderTransition e a b) s = .next (signal s (encoderErred e.val (encoderFollowed e.val a b s))) := by
  have hcond : ¬ (!s.bit (aEncCtl e.val) 31 || decide (quadStep (s.encoderWas e) a b = 0)) = true := by simp [hen, h]
  change execEncoderTransition e a b s = _
  exact (if_neg hcond).trans (if_pos h)

theorem exec_encoderTransition_one (h0 : quadStep (s.encoderWas e) a b ≠ 0) (h2 : quadStep (s.encoderWas e) a b ≠ 2) :
    ∃ fwd, exec (.encoderTransition e a b) s
      = .next (signal s (encoderCounted e.val fwd (s.rd (aEncPos e.val)) (encoderFollowed e.val a b s))) := by
  have hcond : ¬ (!s.bit (aEncCtl e.val) 31 || decide (quadStep (s.encoderWas e) a b = 0)) = true := by simp [hen, h0]
  refine ⟨decide (quadStep (s.encoderWas e) a b = 1) != s.bit (aEncCtl e.val) 30, ?_⟩
  change execEncoderTransition e a b s = _
  exact (if_neg hcond).trans (if_neg h2)

end

section
variable (e : Fin 4)

theorem encStatus_ne_encPos : aEncStatus e.val ≠ aEncPos e.val := by
  unfold aEncStatus aEncPos
  omega

/-- What a transition of one level leaves. -/
theorem encoderCounted_facts (fwd : Bool) (pos : Word) (t : State) :
    RegsBut [aEncPos e.val, aEncStatus e.val] t (encoderCounted e.val fwd pos t)
      ∧ (∀ p, (encoderCounted e.val fwd pos t).pin p = t.pin p)
      ∧ (encoderCounted e.val fwd pos t).rd (aEncPos e.val) = (if fwd then pos + 1 else pos - 1)
      ∧ (encoderCounted e.val fwd pos t).bit (aEncStatus e.val) 1 = !fwd := by
  have hkeeps := itTick_keeps e.val ((t.wr (aEncPos e.val) (if fwd then pos + 1 else pos - 1)).setB (aEncStatus e.val) 1 (!fwd))
  have hregs : RegsBut [aEncPos e.val, aEncStatus e.val] t
      ((t.wr (aEncPos e.val) (if fwd then pos + 1 else pos - 1)).setB (aEncStatus e.val) 1 (!fwd)) :=
    ((RegsBut.refl _ t).wr List.mem_cons_self _).setB (List.mem_cons_of_mem _ List.mem_cons_self) _ _
  have hpos : ((t.wr (aEncPos e.val) (if fwd then pos + 1 else pos - 1)).setB (aEncStatus e.val) 1 (!fwd)).rd (aEncPos e.val)
      = if fwd then pos + 1 else pos - 1 :=
    (State.rd_setF_ne _ _ _ _ (encStatus_ne_encPos e).symm).trans (State.rd_wr_same ..)
  have hdir : ((t.wr (aEncPos e.val) (if fwd then pos + 1 else pos - 1)).setB (aEncStatus e.val) 1 (!fwd)).bit (aEncStatus e.val) 1
      = !fwd := State.bit_setB_same _ _ _ (by omega)
  have hpin : ∀ p, ((t.wr (aEncPos e.val) (if fwd then pos + 1 else pos - 1)).setB (aEncStatus e.val) 1 (!fwd)).pin p = t.pin p :=
    fun _ => rfl
  unfold encoderCounted
  generalize (t.wr (aEncPos e.val) (if fwd then pos + 1 else pos - 1)).setB (aEncStatus e.val) 1 (!fwd) = u at *
  have hrd : ∀ j, (itTick e.val u).rd j = u.rd j := fun j => by rw [State.rd, hkeeps.1, State.rd]
  exact ⟨fun j hj => (hrd j).trans (hregs j hj), fun p => (hkeeps.2 p).trans (hpin p), (hrd _).trans hpos,
    (State.bit_congr (hrd _) 1).trans hdir⟩

/-- What a transition of both levels leaves. -/
theorem encoderErred_facts (t : State) : RegsBut [aEncPos e.val, aEncStatus e.val] t (encoderErred e.val t)
    ∧ (∀ p, (encoderErred e.val t).pin p = t.pin p) ∧ (encoderErred e.val t).rd (aEncPos e.val) = t.rd (aEncPos e.val)
    ∧ (encoderErred e.val t).bit (aEncStatus e.val) 2 = true := by
  have hregs : RegsBut [aEncStatus e.val] t (encoderErred e.val t) := fun j hj =>
    (State.count_rd ..).trans (((RegsBut.refl _ t).setB List.mem_cons_self 2 true) j hj)
  refine ⟨hregs.mono fun o ho => List.mem_cons_of_mem _ ho, fun p => ?_, hregs _ ?_, ?_⟩
  · unfold encoderErred
    rw [State.pin, State.count_press]
    rfl
  · rw [List.mem_singleton]
    exact (encStatus_ne_encPos e).symm
  · exact (State.count_bit ..).trans (State.bit_setB_same t _ true (by omega))

theorem encoderTransition_follows (a b : Bool) (s : State) : ∃ t, exec (.encoderTransition e a b) s = .next t
    ∧ t.pin (3 * e.val) = a ∧ t.pin (3 * e.val + 1) = b ∧ RegsBut [aEncPos e.val, aEncStatus e.val] s t
    ∧ (s.bit (aEncCtl e.val) 31 = false ∨ s.encoderWas e = (a, b) → t.regs = s.regs)
    ∧ (s.bit (aEncCtl e.val) 31 = true → (s.encoderWas e).1 ≠ a → (s.encoderWas e).2 ≠ b →
        t.rd (aEncPos e.val) = s.rd (aEncPos e.val) ∧ t.bit (aEncStatus e.val) 2 = true)
    ∧ (s.bit (aEncCtl e.val) 31 = true → xor ((s.encoderWas e).1 != a) ((s.encoderWas e).2 != b) = true →
        t.rd (aEncPos e.val) = (if t.bit (aEncStatus e.val) 1 then s.rd (aEncPos e.val) - 1 else s.rd (aEncPos e.val) + 1)) := by
  obtain ⟨ha, hb⟩ := encoderFollowed_pins e.val a b s
  have hpin : ∀ (u : State) p, (signal s u).pin p = u.pin p := fun u p => by rw [State.pin, signal_press, State.pin]
  by_cases hstill : s.bit (aEncCtl e.val) 31 = false ∨ quadStep (s.encoderWas e) a b = 0
  · refine ⟨_, exec_encoderTransition_still hstill, (hpin _ _).trans ha, (hpin _ _).trans hb, RegsBut.signal fun _ _ => rfl,
      fun _ => signal_regs .., fun hen hne hne' => ?_, fun hen hxor => ?_⟩
    · have h2 : quadStep (s.encoderWas e) a b = 2 := quadStep_both _ _ a b hne hne'
      rcases hstill with h | h
      · rw [hen] at h; cases h
      · omega
    · rcases hstill with h | h
      · rw [hen] at h; cases h
      · exact absurd h (quadStep_one _ _ a b hxor).1
  · obtain ⟨hoff, h0⟩ := not_or.mp hstill
    have hen : s.bit (aEncCtl e.val) 31 = true := Bool.eq_true_of_not_eq_false hoff
    have hmoved : ¬ (s.bit (aEncCtl e.val) 31 = false ∨ s.encoderWas e = (a, b)) := by
      rintro (h | h)
      · exact hoff h
      · exact h0 (h ▸ quadStep_none a b)
    by_cases h2 : quadStep (s.encoderWas e) a b = 2
    · obtain ⟨hregs, hpins, hpos, hbit⟩ := encoderErred_facts e (encoderFollowed e.val a b s)
      refine ⟨_, exec_encoderTransition_both hen h2, (hpin _ _).trans ((hpins _).trans ha), (hpin _ _).trans ((hpins _).trans hb),
        RegsBut.signal hregs, fun h => absurd h hmoved, fun _ _ _ => ⟨?_, ?_⟩,
        fun _ hxor => absurd h2 (quadStep_one _ _ a b hxor).2⟩
      · rw [signal_rd, hpos]
        rfl
      · rw [signal_bit, hbit]
    · obtain ⟨fwd, hexec⟩ := exec_encoderTransition_one hen h0 h2
      obtain ⟨hregs, hpins, hpos, hdir⟩ := encoderCounted_facts e fwd (s.rd (aEncPos e.val)) (encoderFollowed e.val a b s)
      refine ⟨_, hexec, (hpin _ _).trans ((hpins _).trans ha), (hpin _ _).trans ((hpins _).trans hb),
        RegsBut.signal hregs, fun h => absurd h hmoved, fun _ hne hne' => absurd (quadStep_both _ _ a b hne hne') h2, fun _ _ => ?_⟩
      rw [signal_rd, signal_bit, hpos, hdir]
      cases fwd <;> rfl

end

/-! ### The index (R325) -/

section
variable {e : Fin 4} {s : State}

theorem encoderIndex_latches (hz : s.f (aEncCtl e.val) 28 2 = 1) : ∃ z, exec (.encoderIndex e) s = .next z
    ∧ z.rd (aEncZpos e.val) = s.rd (aEncPos e.val) ∧ z.bit (aEncStatus e.val) 0 = true
    ∧ RegsBut [aEncZpos e.val, aEncStatus e.val] s z := by
  have hexec : exec (.encoderIndex e) s = .next (signal s
      (((s.setPin (3 * e.val + 2) true).wr (aEncZpos e.val) (s.rd (aEncPos e.val))).setB (aEncStatus e.val) 0 true)) := by
    change execEncoderIndex e s = _
    simp only [execEncoderIndex, hz, if_true, done]
  have hne : aEncZpos e.val ≠ aEncStatus e.val := by
    unfold aEncZpos aEncStatus
    omega
  refine ⟨_, hexec, ?_, ?_, RegsBut.signal ?_⟩
  · rw [signal_rd]
    exact (State.rd_setF_ne _ _ _ _ hne).trans (State.rd_wr_same ..)
  · rw [signal_bit]
    exact State.bit_setB_same _ _ true (by omega)
  · exact ((RegsBut.refl _ (s.setPin (3 * e.val + 2) true)).wr List.mem_cons_self _).setB (List.mem_cons_of_mem _ List.mem_cons_self) _ _

theorem encoderIndex_ignored (hz : s.f (aEncCtl e.val) 28 2 = 0) : ∃ z, exec (.encoderIndex e) s = .next z ∧ z.regs = s.regs := by
  refine ⟨signal s (s.setPin (3 * e.val + 2) true), ?_, signal_regs ..⟩
  change execEncoderIndex e s = _
  simp only [execEncoderIndex, hz, Nat.zero_ne_one, if_false, done]

end

/-! ### Writes of ENC_CTL (R327) -/

theorem nbits_land_of_ones {v m lo len : Nat} (h : ∀ i, lo ≤ i → i < lo + len → m.testBit i = true) :
    nbits (v &&& m) lo len = nbits v lo len := by
  refine Nat.eq_of_testBit_eq fun i => ?_
  unfold nbits
  rw [Nat.testBit_mod_two_pow, Nat.testBit_mod_two_pow, Nat.testBit_div_two_pow, Nat.testBit_div_two_pow, Nat.testBit_and]
  by_cases hi : i < len
  · rw [h _ (by omega) (by omega), Bool.and_true]
  · simp [hi]

theorem nbit_land_of_one {v m i : Nat} (h : m.testBit i = true) : nbit (v &&& m) i = nbit v i := by
  rw [nbit_eq_testBit, Nat.testBit_and, h, Bool.and_true, nbit_eq_testBit]

theorem exec_encCtlWrite (e : Fin 4) (v : Word) (s : State) :
    exec (.encCtlWrite e v) s = .next (signal s (
      if 1 < nbits v.toNat 28 2 ∨ ((List.range 64).any (fun k => (s.timer k).busy && !(s.timer k).tbase && (s.timer k).enc == e.val) = true
          ∧ ((s.bit (aEncCtl e.val) 31 && !nbit v.toNat 31) || xor (s.bit (aEncCtl e.val) 30) (nbit v.toNat 30)) = true)
      then reject none (aEncCtl e.val) s else s.wr (aEncCtl e.val) (v &&& 0xF00000FF))) := by
  have hmode : nbits (v.toNat &&& 0xF00000FF) 28 2 = nbits v.toNat 28 2 := nbits_land_of_ones fun i hlo hhi => by
    interval_cases i <;> decide
  have hword : BitVec.ofNat 32 (v.toNat &&& 0xF00000FF) = v &&& 0xF00000FF := by
    refine BitVec.eq_of_toNat_eq ?_
    rw [BitVec.toNat_ofNat, BitVec.toNat_and]
    exact Nat.mod_eq_of_lt (Nat.lt_of_le_of_lt Nat.and_le_left v.isLt)
  change done s (encCtlSet e.val v s) = _
  unfold encCtlSet
  dsimp only
  rw [hmode, hword, nbit_land_of_one (by decide), nbit_land_of_one (by decide)]
  refine congrArg (fun t => Host.Outcome.next (signal s t)) (if_congr ?_ rfl rfl)
  rw [Bool.or_eq_true, decide_eq_true_eq, Bool.and_eq_true]
  rfl

/-- Settles O45: the order 00, 10, 11, 01 tells a transition of one level from one of both; the writes by their condition. -/
theorem encoders : Obligations.Encoders := by
  unfold Obligations.Encoders
  refine ⟨fun e a b s => ?_, fun e v s => exec_encCtlWrite e v s⟩
  obtain ⟨t, hexec, ha, hb, hregs, hstill, hboth, hone⟩ := encoderTransition_follows e a b s
  exact ⟨t, hexec, ha, hb, hregs, hstill, hboth, hone, encoderIndex_latches, encoderIndex_ignored⟩

end Sys2Proof.Machine
end

section
/-! Trigger edges and the press enable (R328 to R330, R340); distance and interval timers (R332, R334 to R336). -/
namespace Sys2Proof.Machine

/-! ### Trigger edges -/

section
variable {i : Fin 16} {rising : Bool} {s : State}

theorem triggerEdge_ignored
    (h : s.pressOn = false ∨ nbit (s.fa (aTrigCfg i.val) 30 2) (if rising then 0 else 1) = false) :
    exec (.triggerEdge i rising) s = .next (signal s (s.setPin (12 + i.val) rising)) := by
  have hcond : ¬ (s.pressOn && nbit (s.fa (aTrigCfg i.val) 30 2) (if rising then 0 else 1)) = true := by
    rcases h with h | h <;> simp [h]
  change execTriggerEdge i rising s = _
  exact if_neg hcond

theorem boundChan_wr_trigCount (u : State) (w : Word) : (u.wr (aTrigCount i.val) w).boundChan i.val = u.boundChan i.val := by
  have hrd : ∀ c, c < 32 → (u.wr (aTrigCount i.val) w).rd (aIngestChCtl c) = u.rd (aIngestChCtl c) := fun c hc =>
    State.rd_wr_ne _ _ (by unfold aIngestChCtl chanPage aTrigCount; omega)
  unfold State.boundChan findNat
  refine List.find?_congr fun c hc => ?_
  have h := hrd c (List.mem_range.mp hc)
  rw [State.chEn, State.chEn, State.bit_congr h, State.bit_congr h, State.f_congr h]

theorem triggerEdge_counts (hon : s.pressOn = true) (hmode : nbit (s.fa (aTrigCfg i.val) 30 2) (if rising then 0 else 1) = true)
    (hbound : s.boundChan i.val = none) (hwake : s.bit aPwrWake (16 + i.val) = false) :
    exec (.triggerEdge i rising) s
      = .next (signal s ((s.setPin (12 + i.val) rising).wr (aTrigCount i.val) (s.rd (aTrigCount i.val) + 1))) := by
  have haccept : ∀ time, acceptEdge i.val time (s.setPin (12 + i.val) rising)
      = (s.setPin (12 + i.val) rising).wr (aTrigCount i.val) (s.rd (aTrigCount i.val) + 1) := by
    intro time
    have hnone := (boundChan_wr_trigCount (s.setPin (12 + i.val) rising)
      ((s.setPin (12 + i.val) rising).rd (aTrigCount i.val) + 1)).trans hbound
    unfold acceptEdge
    dsimp only
    rw [hnone]
    rfl
  change execTriggerEdge i rising s = _
  simp only [execTriggerEdge, hon, hmode, hwake, haccept, Bool.and_self, Bool.false_eq_true, if_true, if_false, done]

end

/-! ### Distance timers -/

section
variable {tm : Fin 64} {s : State}

theorem exec_distanceTimerFire (harmed : (s.timer tm.val).armed = true) (hdue : s.timerDue tm.val = true) (hon : s.pressOn = true)
    (hjournal : s.bit aJournalCtl 0 = false) : exec (.distanceTimerFire tm) s = .next (signal s
      ((s.setTimer tm.val { s.timer tm.val with st := 4 }).count (cPress (20 + (s.timer tm.val).act)) 1)) := by
  have hfire : fireTimer tm.val s = (s.setTimer tm.val { s.timer tm.val with st := 4 }).count (cPress (20 + (s.timer tm.val).act)) 1 := by
    have hoff : ((s.setTimer tm.val { s.timer tm.val with st := 4 }).count (cPress (20 + (s.timer tm.val).act)) 1).bit aJournalCtl 0
        = false := (State.count_bit ..).trans hjournal
    unfold fireTimer
    dsimp only
    rw [hoff]
    rfl
  change execDistanceTimerFire tm s = _
  simp only [execDistanceTimerFire, harmed, hdue, hon, Bool.and_self, when_, if_true, done, hfire]

theorem distanceTimerFire_fires (harmed : (s.timer tm.val).armed = true) (hdue : s.timerDue tm.val = true) (hon : s.pressOn = true)
    (hjournal : s.bit aJournalCtl 0 = false) (hfree : s.bit aObsCtl 0 = false) :
    ∃ t, exec (.distanceTimerFire tm) s = .next t ∧ t.timer tm.val = { s.timer tm.val with st := 4 }
      ∧ t.regs = s.regs ∧ t.journal = s.journal
      ∧ t.cnt (cPress (20 + (s.timer tm.val).act)) = s.cnt (cPress (20 + (s.timer tm.val).act)) + 1
      ∧ ∀ j, j ≠ tm.val → t.timer j = s.timer j := by
  have htimer : ∀ j, (signal s ((s.setTimer tm.val { s.timer tm.val with st := 4 }).count (cPress (20 + (s.timer tm.val).act)) 1)).timer j
      = (s.setTimer tm.val { s.timer tm.val with st := 4 }).timer j := fun j => by
    rw [signal_timer, State.timer, State.count_press]
    rfl
  refine ⟨_, exec_distanceTimerFire harmed hdue hon hjournal, ?_, ?_, ?_, ?_, fun j hj => ?_⟩
  · rw [htimer, State.timer_setTimer, if_pos rfl]
  · rw [signal_regs, State.count_regs]
    rfl
  · rw [signal_journal, State.count_journal]
    rfl
  · rw [signal_cnt]
    exact State.cnt_count (s.setTimer tm.val { s.timer tm.val with st := 4 }) hfree _ 1
  · rw [htimer, State.timer_setTimer, if_neg hj]

theorem pulseEnd_frees (hst : (s.timer tm.val).st = 4)
    (hcoal : (s.timer tm.val).coal.all (fun p => reachedAt (s.position (s.timer tm.val).tbase (s.timer tm.val).enc) p) = true) :
    exec (.pulseEnd tm) s = .next (signal s (s.setTimer tm.val Timer.init)) := by
  change execPulseEnd tm s = _
  simp only [execPulseEnd, hst, hcoal, decide_true, Bool.and_self, when_, if_true, done]

end

/-! ### Interval timers (R336) -/

section
variable {k : Fin 32} {s : State}

/-- Interval timer k has begun its next period. -/
def periodBegun (k : Nat) (s : State) : State :=
  { s with press := { s.press with ticks := tset 0 s.press.ticks k (tget 0 s.press.ticks k - (s.rd (aItPeriod k)).toNat) } }

theorem tick_periodBegun (k : Nat) (s : State) : tget 0 (periodBegun k s).press.ticks k
    = tget 0 s.press.ticks k - (s.rd (aItPeriod k)).toNat := tget_tset_same _ _ _ _

variable (hen : s.bit (aItCfg k.val) 31 = true) (hperiod : (s.rd (aItPeriod k.val)).toNat ≠ 0)
  (hdue : (s.rd (aItPeriod k.val)).toNat ≤ tget 0 s.press.ticks k.val)
  (hbase : s.bit (aItCfg k.val) 30 = true ∨ s.bit (aEncCtl (s.f (aItCfg k.val) 0 2)) 31 = true)
include hen hperiod hdue hbase

/-- The two conditions under which an interval timer's period ends. -/
theorem periodEnds : (!(s.bit (aItCfg k.val) 31 && decide ((s.rd (aItPeriod k.val)).toNat ≠ 0
      ∧ (s.rd (aItPeriod k.val)).toNat ≤ tget 0 s.press.ticks k.val))) = false
    ∧ (!s.bit (aItCfg k.val) 30 && !s.bit (aEncCtl (s.f (aItCfg k.val) 0 2)) 31) = false := by
  refine ⟨?_, ?_⟩
  · rw [hen, decide_eq_true ⟨hperiod, hdue⟩]
    rfl
  · rcases hbase with h | h <;> simp [h]

theorem intervalTimerExpiry_status (haction : s.f (aItCfg k.val) 28 2 = 0) : ∃ t, exec (.intervalTimerExpiry k) s = .next t
    ∧ t.bit aItStatus k.val = true ∧ RegsBut [aItStatus] s t
    ∧ tget 0 t.press.ticks k.val = tget 0 s.press.ticks k.val - (s.rd (aItPeriod k.val)).toNat := by
  obtain ⟨hcount, hclock⟩ := periodEnds hen hperiod hdue hbase
  have hexec : exec (.intervalTimerExpiry k) s = .next (signal s ((periodBegun k.val s).setB aItStatus k.val true)) := by
    change execIntervalTimerExpiry k s = _
    simp only [execIntervalTimerExpiry, hcount, hclock, haction, Bool.false_eq_true, if_false, done]
    rfl
  have htick := tick_periodBegun k.val s
  have hregs : RegsBut [aItStatus] s (periodBegun k.val s) := fun _ _ => rfl
  generalize periodBegun k.val s = u at *
  refine ⟨_, hexec, ?_, RegsBut.signal (hregs.setB List.mem_cons_self _ _), ?_⟩
  · rw [signal_bit]
    exact State.bit_setB_same u _ true k.isLt
  · rw [signal_press]
    exact htick

theorem intervalTimerExpiry_pulse (haction : s.f (aItCfg k.val) 28 2 = 1) : ∃ t, exec (.intervalTimerExpiry k) s = .next t
    ∧ t.regs = s.regs ∧ tget 0 t.press.pulses k.val = (s.rd (aItWidth k.val)).toNat
    ∧ tget 0 t.press.ticks k.val = tget 0 s.press.ticks k.val - (s.rd (aItPeriod k.val)).toNat := by
  obtain ⟨hcount, hclock⟩ := periodEnds hen hperiod hdue hbase
  have hexec : exec (.intervalTimerExpiry k) s = .next (signal s { periodBegun k.val s with
      press := { (periodBegun k.val s).press with
        pulses := tset 0 (periodBegun k.val s).press.pulses k.val (s.rd (aItWidth k.val)).toNat } }) := by
    change execIntervalTimerExpiry k s = _
    simp only [execIntervalTimerExpiry, hcount, hclock, haction, Bool.false_eq_true, if_false, done]
    rfl
  refine ⟨_, hexec, signal_regs .., ?_, ?_⟩
  · rw [signal_press]
    exact tget_tset_same _ _ _ _
  · rw [signal_press]
    exact tick_periodBegun k.val s

end

/-- Settles O46: by whether the edge is accepted, and the input bound. -/
theorem triggerEdgesAreAccepted : Obligations.TriggerEdgesAreAccepted := by
  unfold Obligations.TriggerEdgesAreAccepted
  exact fun i rising s => ⟨triggerEdge_ignored, triggerEdge_counts, rfl, rfl⟩

/-- Settles O47: one rule for the firing and the end of a distance timer, and one for each action of an interval timer. -/
theorem timersFire : Obligations.TimersFire := by
  unfold Obligations.TimersFire
  exact fun tm k s => ⟨distanceTimerFire_fires, pulseEnd_frees, fun hen hperiod hdue hbase =>
    ⟨intervalTimerExpiry_status hen hperiod hdue hbase, intervalTimerExpiry_pulse hen hperiod hdue hbase⟩⟩

end Sys2Proof.Machine
end

section
/-! The drain point of a stream: a group that the package does not have is purged too, and its UNDERTOW_GRP_STATUS lies where the
status of the stream does (15; 20). -/
namespace Sys2Proof.Machine

/-- Stream 0 runs, and ABORT asks for its drain point. Group 45567 exists: its status register has the address of stream 0's. -/
def strayGroup : State :=
  { State.reset with
    streams := [(0, { Stream.init with drainReq := some .abort })]
    under := [(45567, Under.init)]
    regs := tset 0 [] (aStreamStatus 0) 1 }

/-- Stream 0 of that state drains. -/
def strayDraining : State :=
  (strayGroup.modStream 0 (fun x => { x with drainReq := none, drainKind := some .abort })).setF (aStreamStatus 0) 0 3 3

theorem strayGroup_status : aUndertowGrpStatus 45567 = aStreamStatus 0 := rfl

theorem strayDraining_stream : strayDraining.stream 0 = { Stream.init with drainReq := none, drainKind := some .abort } := rfl

theorem strayDraining_purging : strayDraining.purging 0 = true := by
  have hst : strayDraining.st 0 = 3 := State.f_setF_same _ _ _ (by omega)
  rw [State.purging, hst, strayDraining_stream]
  rfl

/-- The purge of the gate's ports. -/
def purgePorts (n : Nat) (s : State) : State :=
  each (List.range 20) s (fun s y =>
    let es := tget [] s.gate.ports y
    let keep := others n es
    credit (s.linkSender (20 * y + 19) 1) (es.length - keep.length)
      { s with gate := { s.gate with ports := tset [] s.gate.ports y keep } })

theorem purgePorts_keeps (n : Nat) (s : State) : ∃ g f, purgePorts n s = { s with gate := g, fabric := f } := by
  refine each_keep (fun t : State => ∃ g f, t = { s with gate := g, fabric := f }) _ (fun t y h => ?_) _ s ⟨s.gate, s.fabric, rfl⟩
  obtain ⟨g, f, rfl⟩ := h
  dsimp only
  unfold credit
  split
  · exact ⟨_, f, rfl⟩
  · split
    · exact ⟨_, f, rfl⟩
    · exact ⟨_, _, rfl⟩

theorem each_nil {α σ : Type} (s : σ) (f : σ → α → σ) : each [] s f = s := rfl

/-- A group without a ring: its bit 1 becomes 0. -/
def groupEmptied (k : Nat) (s : State) : State := (s.setGrp k Under.init).setB (aUndertowGrpStatus k) 1 false

theorem purgeStream_of_group {n k : Nat} {s : State} (htiles : s.tiles = []) (hlanes : s.fabric.lanes = []) (hedges : s.edges = [])
    (hcwy : s.cwy = []) (hunder : s.under = [(k, Under.init)]) (hseqs : s.seqs = []) (hferries : s.ferries = [])
    (hchans : s.chans = []) : purgeStream n s = groupEmptied k (purgePorts n s) := by
  have hkept : (purgePorts n s).edges = [] ∧ (purgePorts n s).cwy = [] ∧ (purgePorts n s).under = [(k, Under.init)]
      ∧ (purgePorts n s).seqs = [] ∧ (purgePorts n s).ferries = [] ∧ (purgePorts n s).chans = [] := by
    obtain ⟨g, f, hports⟩ := purgePorts_keeps n s
    rw [hports]
    exact ⟨hedges, hcwy, hunder, hseqs, hferries, hchans⟩
  unfold purgeStream
  simp only [htiles, hlanes, List.map_nil, each_nil]
  generalize hw : purgePorts n s = w at *
  have hw' : (each (List.range 20) s fun s y => credit (s.linkSender (20 * y + 19) 1)
      ((tget [] s.gate.ports y).length - (others n (tget [] s.gate.ports y)).length)
      { s with gate := { s.gate with ports := tset [] s.gate.ports y (others n (tget [] s.gate.ports y)) } }) = w := hw
  rw [hw']
  obtain ⟨he, hc, hu, hq, hf, hch⟩ := hkept
  have hgrp : w.grp k = Under.init := by
    rw [State.grp, hu]
    exact if_pos rfl
  simp only [he, hc, hu, List.map_nil, List.map_cons, each_nil]
  have hgroup : (each [k] w fun s k => (s.setGrp k
        { s.grp k with rings := (s.grp k).rings.map (fun r => (r.1, r.2.1, others n r.2.2)) }).setB (aUndertowGrpStatus k) 1
      ((((s.setGrp k { s.grp k with rings := (s.grp k).rings.map (fun r => (r.1, r.2.1, others n r.2.2)) }).grp k).rings).any
        fun r => !r.2.2.isEmpty)) = groupEmptied k w := by
    change (w.setGrp k _).setB (aUndertowGrpStatus k) 1 _ = _
    rw [State.grp_setGrp, if_pos rfl, hgrp]
    rfl
  have hq' : (groupEmptied k w).seqs = [] := hq
  have hf' : (groupEmptied k w).ferries = [] := hf
  have hch' : (groupEmptied k w).chans = [] := hch
  rw [hgroup]
  generalize groupEmptied k w = v at *
  simp only [hq', hf', List.map_nil, each_nil]
  rw [purgePool, hch']
  rfl

theorem strayDraining_purged : (purgeStream 0 strayDraining).bit (aStreamStatus 0) 1 = false := by
  rw [purgeStream_of_group (k := 45567) rfl rfl rfl rfl rfl rfl rfl rfl, groupEmptied, strayGroup_status]
  exact State.bit_setB_same _ _ false (by omega)

theorem strayDraining_kept : ((purgeStream 0 strayDraining).stream 0).job = none ∧ (purgeStream 0 strayDraining).cwy = [] := by
  obtain ⟨g, f, hports⟩ := purgePorts_keeps 0 strayDraining
  rw [purgeStream_of_group (k := 45567) rfl rfl rfl rfl rfl rfl rfl rfl, hports]
  exact ⟨rfl, rfl⟩

/-- The drain point of a running stream with nothing to fill, to end or to complete. -/
theorem drainPoint_abort_of {n : Nat} {s u : State} (hst : s.st n = 1)
    (hu : (s.modStream n (fun x => { x with drainReq := none, drainKind := some .abort })).setF (aStreamStatus n) 0 3 3 = u)
    (hfill : abortFill n u = u) (hco : coEnd n 2 0 u = u) (hfence : (u.stream n).fence = none) (hpurge : u.purging n = true) :
    drainPoint .abort n s = cwyClose n (useStop n (purgeStream n u)) := by
  simp only [drainPoint, hu, hst, hfill, hco, hfence, hpurge, reduceCtorEq, OfNat.one_ne_ofNat, decide_false, Bool.false_eq_true,
    if_false, if_true]

theorem strayGroup_drains : exec (.drainPoint 0) strayGroup = .next (signal strayGroup (purgeStream 0 strayDraining)) := by
  obtain ⟨hjob, hcwy⟩ := strayDraining_kept
  have hexec : exec (.drainPoint 0) strayGroup = .next (signal strayGroup (drainPoint .abort 0 strayGroup)) := rfl
  rw [hexec, drainPoint_abort_of (u := strayDraining) rfl rfl rfl rfl rfl strayDraining_purging, useStop, hjob]
  dsimp only
  rw [cwyClose, hcwy, List.map_nil, each_nil]

/-- Refutes O48: nothing bounds the number of a group that the state lists. The drain of stream 0 purges group 45567 and clears bit 1
of its UNDERTOW_GRP_STATUS, which is bit 1 of STREAM_STATUS.STATE of stream 0: 1, not 3. -/
theorem not_drainOfAStream : ¬ Obligations.DrainOfAStream := by
  unfold Obligations.DrainOfAStream
  intro h
  obtain ⟨hpoint, -⟩ := h 0 .abort strayGroup
  obtain ⟨t, hexec, hst, -⟩ := hpoint rfl (.inl rfl)
  rw [strayGroup_drains, Host.Outcome.next.injEq] at hexec
  have hbit : t.bit (aStreamStatus 0) 1 = false := by rw [← hexec, signal_bit, strayDraining_purged]
  have hone : t.bit (aStreamStatus 0) 1 = true := by
    have hfield := State.testBit_f t (aStreamStatus 0) 0 3 1
    rw [show t.f (aStreamStatus 0) 0 3 = 3 from hst] at hfield
    exact hfield.symm
  rw [hone] at hbit
  cases hbit

end Sys2Proof.Machine
end

section
/-! RECOVER of a halted region: RECOVERIES counts a recovery at its end, not at its start (R352; 15, Registers). -/
namespace Sys2Proof.Machine

/-- The device runs; region 0 has halted, and has not recovered yet. -/
def haltedOnce : State :=
  { State.reset with regs := tset 0 (tset 0 [] aPwrStatus (BitVec.ofNat 32 (2 ^ 28 + 2 ^ 25))) (aRegionFstatus 0) (BitVec.ofNat 32 (2 ^ 28)) }

theorem haltedOnce_served : Served haltedOnce := by
  refine ⟨rfl, rfl, ?_⟩
  decide

/-- The start of a recovery leaves the count of recoveries. -/
theorem startRecovery_recoveries {g : Nat} {s : State} (hnone : (s.seq g).recTimes = []) (hclk : aRegionFstatus g ≠ aRegionClk g) :
    (startRecovery g s).f (aRegionFstatus g) 16 8 = s.f (aRegionFstatus g) 16 8 := by
  obtain ⟨u, hu⟩ : ∃ u, s.setF (aRegionClk g) 16 4 1 = u := ⟨_, rfl⟩
  have hcount : u.f (aRegionFstatus g) 16 8 = s.f (aRegionFstatus g) 16 8 := by
    rw [← hu]
    exact State.f_setF_ne _ _ _ _ hclk _ _
  have hlim : ¬ ((if s.f (aRegionFctl g) 0 4 = 0 then 3 else s.f (aRegionFctl g) 0 4) ≤ 0) := by
    split <;> omega
  unfold startRecovery
  rw [hnone, List.filter_nil]
  dsimp only [List.length_nil]
  rw [if_neg hlim, hu, ← hcount]
  split
  · exact State.f_setF_of_disjoint _ _ _ _ (by omega) (by omega)
  · exact (State.f_setF_of_disjoint (u.setB (aRegionFstatus g) 24 true) _ _ _ (by omega) (by omega)).trans
      (State.f_setB_of_disjoint u (by omega) (by omega) true)

theorem haltedOnce_recovers : exec (.regionRecover 0) haltedOnce = .next (signal haltedOnce (startRecovery 0 haltedOnce)) := by
  have hrecover : regionRecover 0 haltedOnce = startRecovery 0 haltedOnce := by
    rw [regionRecover, if_neg (by decide), if_pos (by decide)]
  change execRegionRecover 0 haltedOnce = _
  rw [execRegionRecover, hostRow_of_served haltedOnce_served, done]
  exact congrArg (fun t => Host.Outcome.next (signal haltedOnce t)) hrecover

/-- Refutes O49: RECOVER counts nothing (its recovery is counted when step 4 ends), so RECOVERIES of a region that has not recovered
before is 0, not 1. -/
theorem not_regionRecovery : ¬ Obligations.RegionRecovery := by
  unfold Obligations.RegionRecovery
  rintro ⟨-, h⟩
  obtain ⟨-, hstart⟩ := h 0 haltedOnce haltedOnce_served
  obtain ⟨t, hexec, -, -, -, hcount, -⟩ := hstart (by decide) rfl rfl
  rw [haltedOnce_recovers, Host.Outcome.next.injEq] at hexec
  have hzero : t.f (aRegionFstatus 0) 16 8 = 0 := by
    rw [← hexec, signal_f, startRecovery_recoveries rfl (by decide)]
    rfl
  have hone : t.f (aRegionFstatus 0) 16 8 = 1 := hcount
  rw [hone] at hzero
  cases hzero

end Sys2Proof.Machine
end

section
/-! What each fault class does, and the read side of the fault rings, the log and the journal (R341, R343, R344, R347; 15, Registers). -/
namespace Sys2Proof.Machine

/-! ### Words stored at successive registers -/

theorem State.rd_wrs_below (s : State) (off : Nat) (ws : List Word) {j : Nat} (hj : j < off) : (s.wrs off ws).rd j = s.rd j :=
  (RegsOff.wrs (.refl off (off + 4 * ws.length) s) (Nat.le_refl off) (by omega)) j (by omega)

theorem State.rd_wrs {ws : List Word} {i : Nat} (hi : i < ws.length) (s : State) (off : Nat) :
    (s.wrs off ws).rd (off + 4 * i) = ws[i] := by
  induction ws generalizing s off i with
  | nil => exact absurd hi (Nat.not_lt_zero i)
  | cons w ws ih =>
    rw [State.wrs]
    cases i with
    | zero => exact (State.rd_wrs_below _ _ _ (by omega)).trans (State.rd_wr_same ..)
    | succ i =>
      rw [show off + 4 * (i + 1) = off + 4 + 4 * i by omega]
      exact ih (Nat.lt_of_succ_lt_succ hi) _ _

/-- Four words read back from where they were stored. -/
theorem map_four_eq {ws : List Word} (hws : ws.length = 4) {f : Nat → Word} (h : ∀ i (hi : i < ws.length), f i = ws[i]) :
    (List.range 4).map f = ws := by
  refine List.ext_getElem (by rw [List.length_map, List.length_range, hws]) fun i h1 h2 => ?_
  rw [List.getElem_map, List.getElem_range]
  exact h i h2

/-! ### Class C (R341) -/

section
variable {x : FaultAt} (s : State)

theorem raise_c (hcls : x.cls = 0) : raise x s = raiseC x s := by simp only [raise, hcls]

theorem raiseC_words : (List.range 4).map (fun i => (raiseC x s).rd (0x12400 + 4 * i)) = x.words s.now :=
  map_four_eq (FaultAt.words_length x s.now) fun _ hi => State.rd_wrs hi _ _

/-! ### Class S (R341, R344, R347) -/

/-- A record enters an empty ring. -/
theorem ringPut_first {n : Nat} {ws : List Word} (hws : ws.length = 4) (hhead : s.f (aFaultHead n) 0 4 = 0)
    (htail : s.f (aFaultTail n) 0 4 = 0) : (∀ i (hi : i < ws.length), (ringPut n ws s).rd (streamPage n + 0x100 + 4 * i) = ws[i])
      ∧ (ringPut n ws s).f (aFaultTail n) 0 4 = 1 ∧ (ringPut n ws s).bit (aStreamIntCause n) 2 = true := by
  have hput : ringPut n ws s = ((s.wrs (streamPage n + 0x100) ws).setF (aFaultTail n) 0 4 1).cause n 2 := by
    unfold ringPut
    simp only [hhead, htail]
    rfl
  have hcause : RegsBut [aStreamIntCause n] ((s.wrs (streamPage n + 0x100) ws).setF (aFaultTail n) 0 4 1)
      (((s.wrs (streamPage n + 0x100) ws).setF (aFaultTail n) 0 4 1).cause n 2) := (RegsBut.refl _ _).cause List.mem_cons_self 2
  rw [hput]
  refine ⟨fun i hi => ?_, ?_, State.bit_cause _ _ (by omega)⟩
  · rw [hcause _ (by rw [List.mem_singleton]; unfold aStreamIntCause; omega),
      State.rd_setF_ne _ _ _ _ (by unfold aFaultTail; omega), State.rd_wrs hi]
  · rw [hcause.f_eq (by rw [List.mem_singleton]; unfold aStreamIntCause aFaultTail; omega)]
    exact State.f_setF_same _ _ _ (by omega)

/-- A record enters an empty log. -/
theorem logPut_first {ws : List Word} (hhead : s.f aFlogHead 0 6 = 0) (htail : s.f aFlogTail 0 6 = 0) (hws : ws.length = 4) :
    (∀ i (hi : i < ws.length), (logPut ws s).rd (0x12000 + 4 * i) = ws[i]) ∧ (logPut ws s).f aFlogTail 0 6 = 1 := by
  have hput : logPut ws s = (s.wrs 0x12000 ws).setF aFlogTail 0 6 1 := by
    unfold logPut
    simp only [hhead, htail]
    rfl
  rw [hput]
  refine ⟨fun i hi => ?_, State.f_setF_same _ _ _ (by omega)⟩
  rw [State.rd_setF_ne _ _ _ _ (by unfold aFlogTail; omega), State.rd_wrs hi]

theorem raise_s {n : Nat} (hcls : x.cls = 1) (hn : x.stream = some n) : raise x s = raiseS x n s := by
  simp only [raise, hcls, hn, Option.getD_some]

theorem raiseS_records {n : Nat} (hn : x.stream = some n) (hhead : s.f (aFaultHead n) 0 4 = 0)
    (htail : s.f (aFaultTail n) 0 4 = 0) (hlhead : s.f aFlogHead 0 6 = 0) (hltail : s.f aFlogTail 0 6 = 0) :
    (raiseS x n s).f (aFaultTail n) 0 4 = 1 ∧ (raiseS x n s).f aFlogTail 0 6 = 1
      ∧ (raiseS x n s).bit (aStreamIntCause n) 2 = true
      ∧ (List.range 4).map (fun i => (raiseS x n s).rd (streamPage n + 0x100 + 4 * i)) = x.words s.now
      ∧ (List.range 4).map (fun i => (raiseS x n s).rd (0x12000 + 4 * i)) = x.words s.now := by
  have hx : ({ x with stream := some n } : FaultAt) = x := by
    cases x
    cases hn
    rfl
  obtain ⟨ws, hws⟩ : ∃ ws, x.words s.now = ws := ⟨_, rfl⟩
  have hlen : ws.length = 4 := hws ▸ FaultAt.words_length x s.now
  have hraise : raiseS x n s = reqDrain .fault (logPut ws ((ringPut n ws s).count (cStream n 7) 1)) n := by
    unfold raiseS
    dsimp only
    rw [hx, hws]
  obtain ⟨hring, hrtail, hcause⟩ := ringPut_first s hlen hhead htail
  have hpage := ringPut_regsOff n hlen s
  generalize ringPut n ws s = u at *
  obtain ⟨v, hv⟩ : ∃ v, u.count (cStream n 7) 1 = v := ⟨_, rfl⟩
  have hvrd : ∀ j, v.rd j = u.rd j := fun j => hv ▸ State.count_rd ..
  have hlogs : ∀ j, j < 0x100000 → v.rd j = s.rd j := fun j hj => (hvrd j).trans (hpage j (by unfold streamPage; omega))
  obtain ⟨hlog, hlt⟩ := logPut_first v ((State.f_congr (hlogs aFlogHead (by decide)) 0 6).trans hlhead)
    ((State.f_congr (hlogs aFlogTail (by decide)) 0 6).trans hltail) hlen
  have hoff := logPut_regsOff hlen v
  rw [hraise, hv, hws]
  generalize logPut ws v = w at *
  have hrd : ∀ j, (reqDrain .fault w n).rd j = w.rd j := fun j => by rw [State.rd, reqDrain_regs, State.rd]
  have hpaged : ∀ j, streamPage n ≤ j → (reqDrain .fault w n).rd j = u.rd j := fun j hj =>
    (hrd j).trans ((hoff j (by unfold streamPage at hj; omega)).trans (hvrd j))
  refine ⟨?_, (State.f_congr (hrd _) 0 6).trans hlt, ?_, map_four_eq hlen fun i hi => ?_,
    map_four_eq hlen fun i hi => (hrd _).trans (hlog i hi)⟩
  · exact (State.f_congr (hpaged _ (by unfold aFaultTail; omega)) 0 4).trans hrtail
  · exact (State.bit_congr (hpaged _ (by unfold aStreamIntCause; omega)) 2).trans hcause
  · exact (hpaged _ (by omega)).trans (hring i hi)

/-! ### Class F (R341, R355) -/

theorem raise_f (hcls : x.cls = 3) : raise x s = raiseF x s := by simp only [raise, hcls]

theorem OnlyRegs.journal {s t : State} (h : OnlyRegs s t) : t.journal = s.journal := by
  unfold OnlyRegs at h
  rw [h]

theorem fatalNoted_nextA : (fatalNoted x s).journal.nextA = s.journal.nextA + 1 := by
  have hput : ∀ (u : State) ws, (u.journalPut 1 ws).journal.nextA = u.journal.nextA + 1 := fun _ _ => rfl
  have hrings : OnlyRegs s (each ((s.streams.map (·.1)).filter (fun n => s.st n ≠ 0)) s (fun u n => ringPut n (x.words s.now) u)) :=
    each_keep (OnlyRegs s) _ (fun _ _ h => h.trans (ringPut_onlyRegs ..)) _ _ (.refl s)
  have hlog := hrings.trans (logPut_onlyRegs (x.words s.now) _)
  unfold fatalNoted
  dsimp only
  rw [State.setB, State.setF_journal, hput]
  split
  · rw [(hlog.wrs _ _).journal]
  · rw [hlog.journal]

theorem raiseF_nextA : (raiseF x s).journal.nextA = s.journal.nextA + 1 := by
  refine raiseF_kept x s (P := fun u => u.journal.nextA = s.journal.nextA + 1) (fun u n hu => ?_) ?_
  · have h : (reqDrain .fault u n).journal = u.journal := by
      unfold reqDrain
      split
      · split <;> rfl
      · rfl
    rw [h, hu]
  · refine each_keep (fun u : State => u.journal.nextA = s.journal.nextA + 1) _ (fun u g hu => ?_) _ _ (fatalNoted_nextA s)
    rw [haltRegion_journal, hu]

end

/-! ### The read side -/

section
variable {n : StreamIx} {v : Word} {s : State}

theorem faultHeadWrite_stores (hs : Served s) : exec (.faultHeadWrite .pf n v) s = .next (signal s (
    if nbits v.toNat 0 4 = 15 then reject none (aFaultHead n.val) s
    else (s.setF (aFaultHead n.val) 0 4 (nbits v.toNat 0 4)).setF (aFaultTail n.val) 24 8 0)) := by
  change execFaultHeadWrite .pf n v s = _
  simp only [execFaultHeadWrite, Fn.wellFormed, fnReaches, Bool.not_true, Bool.false_eq_true, if_false, if_true,
    hostRow_of_served hs, done, faultHeadSet, fnStream]

theorem flogHeadWrite_stores (v : Word) (s : State) : ∃ t, exec (.flogHeadWrite v) s = .next t ∧ OnlyRegs s t
    ∧ RegsBut [aFlogHead, aFlogTail] s t ∧ t.f aFlogHead 0 6 = nbits v.toNat 0 6 ∧ t.f aFlogTail 24 8 = 0
    ∧ t.f aFlogTail 0 6 = s.f aFlogTail 0 6 := by
  have hne : aFlogHead ≠ aFlogTail := by decide
  refine ⟨signal s ((s.setF aFlogHead 0 6 (nbits v.toNat 0 6)).setF aFlogTail 24 8 0), rfl,
    (((OnlyRegs.refl s).setF _ _ _ _).setF _ _ _ _).signal, RegsBut.signal ?_, ?_, ?_, ?_⟩
  · exact ((RegsBut.refl _ s).setF List.mem_cons_self _ _ _).setF (List.mem_cons_of_mem _ List.mem_cons_self) _ _ _
  · rw [signal_f, State.f_setF_ne _ _ _ _ hne, State.f_setF_same _ _ _ (by omega)]
    exact Nat.mod_eq_of_lt (nbits_lt _ 0 6)
  · rw [signal_f]
    exact State.f_setF_same _ _ _ (by omega)
  · rw [signal_f, State.f_setF_of_disjoint _ _ _ _ (by omega) (by omega), State.f_setF_ne _ _ _ _ hne.symm]

theorem fclr_clears (s : State) : ∃ t, exec .fclr s = .next t ∧ OnlyRegs s t ∧ RegsBut [0x12410, 0x12414, 0x12418, 0x1241C] s t
    ∧ ∀ i < 4, t.rd (0x12410 + 4 * i) = 0 := by
  refine ⟨signal s (s.wrs 0x12410 [0, 0, 0, 0]), rfl, ((OnlyRegs.refl s).wrs _ _).signal, RegsBut.signal ?_, fun i hi => ?_⟩
  · exact (RegsBut.refl _ s).wrs fun k (hk : k < 4) => by interval_cases k <;> decide
  · rw [signal_rd, State.rd_wrs (ws := [0, 0, 0, 0]) hi]
    interval_cases i <;> rfl

theorem cclr_clears (s : State) : ∃ t, exec .cclr s = .next t ∧ OnlyRegs s t
    ∧ RegsBut ((List.range 256).map aFaultCCount) s t ∧ ∀ c < 256, t.rd (aFaultCCount c) = 0 := by
  have honly : OnlyRegs s (countClear s) := each_keep (OnlyRegs s) _ (fun _ _ h => h.wr _ _) _ _ (.refl s)
  have hzero : ∀ c < 256, (countClear s).rd (aFaultCCount c) = 0 := fun c hc =>
    each_all (P := fun c u => u.rd (aFaultCCount c) = 0) (fun u c => State.rd_wr_same ..) (fun u c d hne hu => by
      rw [State.rd_wr_ne _ _ (by unfold aFaultCCount; omega), hu]) (List.mem_range.mpr hc) s
  have hregs : RegsBut ((List.range 256).map aFaultCCount) s (countClear s) := by
    have h : ∀ l : List Nat, (∀ c ∈ l, c ∈ List.range 256) → ∀ u, RegsBut ((List.range 256).map aFaultCCount) s u →
        RegsBut ((List.range 256).map aFaultCCount) s (each l u (fun s c => s.wr (aFaultCCount c) 0)) := by
      intro l
      induction l with
      | nil => exact fun _ _ hu => hu
      | cons c l ih =>
        exact fun hl u hu => ih (fun d hd => hl d (List.mem_cons_of_mem _ hd)) _
          (hu.wr (List.mem_map.mpr ⟨c, hl c List.mem_cons_self, rfl⟩) 0)
    exact h _ (fun _ hc => hc) s (.refl _ s)
  exact ⟨signal s (countClear s), rfl, honly.signal, RegsBut.signal hregs, fun c hc => (signal_rd ..).trans (hzero c hc)⟩

theorem toBytes_ofBytes (bs : List Byte) : toBytes bs.length (ofBytes bs) = bs := by
  induction bs with
  | nil => rfl
  | cons b bs ih =>
    have hb : b.toNat < 256 := b.isLt
    rw [List.length_cons, ofBytes, toBytes, show (b.toNat + 256 * ofBytes bs) % 256 = b.toNat by omega,
      show (b.toNat + 256 * ofBytes bs) / 256 = ofBytes bs by omega, ih, BitVec.ofNat_toNat]
    rfl

theorem ofBytes_lt (bs : List Byte) : ofBytes bs < 256 ^ bs.length := by
  induction bs with
  | nil => exact Nat.one_pos
  | cons b bs ih =>
    have hb : b.toNat < 256 := b.isLt
    rw [List.length_cons, ofBytes, Nat.pow_succ]
    omega

theorem journalDataRead_reads (s : State) : ∃ t, exec .journalDataRead s = .next t ∧ RegsBut [aJournalAddr] s t
    ∧ t.f aJournalAddr 2 21 = (s.f aJournalAddr 2 21 + 1) % 2 ^ 21
    ∧ .data 0 ((List.range 4).map (fun k => s.mramByte (4 * s.f aJournalAddr 2 21 + k))) ∈ t.outbox := by
  obtain ⟨i, hi⟩ : ∃ i, s.f aJournalAddr 2 21 = i := ⟨_, rfl⟩
  obtain ⟨bs, hbs⟩ : ∃ bs, (List.range 4).map (fun k => s.mramByte (4 * i + k)) = bs := ⟨_, rfl⟩
  have hlen : bs.length = 4 := by rw [← hbs, List.length_map, List.length_range]
  have hword : toBytes 4 (BitVec.ofNat 32 (ofBytes bs)).toNat = bs := by
    have hlt := ofBytes_lt bs
    rw [hlen] at hlt
    rw [BitVec.toNat_ofNat, Nat.mod_eq_of_lt (b := 2 ^ 32) hlt, ← hlen, toBytes_ofBytes]
  have hexec : exec .journalDataRead s = .next (signal s ((s.setF aJournalAddr 2 21 (i + 1)).emit (.data 0 bs))) := by
    change execJournalDataRead s = _
    simp only [execJournalDataRead, journalRead, hi, hbs, hword, done]
  have hf : (s.setF aJournalAddr 2 21 (i + 1)).f aJournalAddr 2 21 = (i + 1) % 2 ^ 21 := State.f_setF_same _ _ _ (by omega)
  have hregs : RegsBut [aJournalAddr] s (s.setF aJournalAddr 2 21 (i + 1)) := (RegsBut.refl _ s).setF List.mem_cons_self _ _ _
  generalize s.setF aJournalAddr 2 21 (i + 1) = u at *
  rw [hi, hbs]
  refine ⟨_, hexec, RegsBut.signal (RegsBut.emit hregs _), ?_, mem_outbox_signal (State.mem_outbox_emit ..) _⟩
  rw [signal_f]
  exact hf

end

/-- Settles O50: one rule for each class, and one for each read-side command. -/
theorem faultClassesAndRings : Obligations.FaultClassesAndRings := by
  unfold Obligations.FaultClassesAndRings
  refine ⟨fun x n s hcode => ⟨fun hcls => ?_, fun hcls hn hst hreq hhead htail hlhead hltail => ?_, fun hcls _ => ?_⟩,
    fun n v s => ⟨faultHeadWrite_stores, flogHeadWrite_stores v s, fclr_clears s, cclr_clears s, journalDataRead_reads s⟩⟩
  · rw [raise_c s hcls]
    exact ⟨raiseC_onlyRegs _ _ (.refl s), raiseC_regsBut x s, raiseC_count x s, raiseC_words s⟩
  · dsimp only
    rw [raise_s s hcls hn]
    obtain ⟨hrtail, hlog, hcause, hring, hwords⟩ := raiseS_records s hn hhead htail hlhead hltail
    exact ⟨raiseS_drainReq x n.val s hst hreq, hrtail, hlog, hcause, raiseS_st x n.val s n.val, raiseS_tiles s x n.val, hring, hwords⟩
  · dsimp only
    rw [raise_f s hcls]
    exact ⟨raiseF_fatal x s, fun g hg => raiseF_halts x s hg, raiseF_nextA s⟩

end Sys2Proof.Machine
end

section
/-! Supplies: switch-over, the ebb hold, loss and return (R363 to R368, R418, R438, R439). -/
namespace Sys2Proof.Machine

theorem State.f_withPress (t : State) (p : Press) (j lo len : Nat) : { t with press := p }.f j lo len = t.f j lo len := rfl
theorem State.bit_withPress (t : State) (p : Press) (j i : Nat) : { t with press := p }.bit j i = t.bit j i := rfl

/-! ### Readings -/

section
variable (r mv : Nat) (uv : Bool) (s : State)

theorem supply_facts : RegsBut [aSupplyMon r] s (supply r mv uv s) ∧ OnlyRegs s (supply r mv uv s)
    ∧ (supply r mv uv s).bit (aSupplyMon r) 31 = uv ∧ (supply r mv uv s).f (aSupplyMon r) 0 16 = mv % 2 ^ 16 := by
  refine ⟨((RegsBut.refl _ s).setF List.mem_cons_self _ _ _).setB List.mem_cons_self _ _, ((OnlyRegs.refl s).setF _ _ _ _).setB _ _ _,
    State.bit_setB_same _ _ _ (by omega), ?_⟩
  exact (State.f_setB_of_disjoint (s.setF (aSupplyMon r) 0 16 mv) (by omega) (by omega) uv).trans
    (State.f_setF_same _ _ _ (by omega))

end

theorem toNat_mod_16 (mv : BitVec 16) : mv.toNat % 2 ^ 16 = mv.toNat := Nat.mod_eq_of_lt mv.isLt

/-! ### Switch-over (R363, R364) -/

section
variable (mv : Nat) (s : State)

/-- The reading, the class C event and the journal entry of a switch-over. -/
def switchNoted : State :=
  (raiseC { cls := 0, code := 0x11, die := 2, unit := 15 } (supply 7 mv true s)).journalPut 3 [BitVec.ofNat 32 mv]

/-- What a switch-over writes beside the reading's own register. -/
def switchRegs : List Nat := [aSupplyMon 7, aFaultCCount 0x11, 0x12400, 0x12404, 0x12408, 0x1240C]

/-- Nothing but registers and the journal. -/
theorem switchNoted_only : switchNoted mv s = { s with
    regs := (switchNoted mv s).regs, src := (switchNoted mv s).src, outbox := (switchNoted mv s).outbox
    waiting := (switchNoted mv s).waiting, journal := (switchNoted mv s).journal } := by
  have h := raiseC_onlyRegs { cls := 0, code := 0x11, die := 2, unit := 15 } (supply 7 mv true s) (supply_facts 7 mv true s).2.1
  have hput : ∀ u : State, ∃ j, u.journalPut 3 [BitVec.ofNat 32 mv] = { u with journal := j } := fun _ => ⟨_, rfl⟩
  unfold switchNoted
  obtain ⟨j, hj⟩ := hput (raiseC { cls := 0, code := 0x11, die := 2, unit := 15 } (supply 7 mv true s))
  rw [hj]
  unfold OnlyRegs at h
  rw [h]

theorem switchNoted_facts : RegsBut switchRegs s (switchNoted mv s)
    ∧ (switchNoted mv s).bit (aSupplyMon 7) 31 = true ∧ (switchNoted mv s).f (aSupplyMon 7) 0 16 = mv % 2 ^ 16
    ∧ (switchNoted mv s).journal.nextA = s.journal.nextA + 1 := by
  obtain ⟨hregs, honly, hbit, hf⟩ := supply_facts 7 mv true s
  unfold switchNoted
  generalize supply 7 mv true s = u at *
  have hraise := raiseC_regsBut { cls := 0, code := 0x11, die := 2, unit := 15 } u
  have hjournal := (raiseC_onlyRegs { cls := 0, code := 0x11, die := 2, unit := 15 } u (.refl u)).journal
  generalize raiseC { cls := 0, code := 0x11, die := 2, unit := 15 } u = v at *
  have hrd : ∀ j, (v.journalPut 3 [BitVec.ofNat 32 mv]).rd j = v.rd j := fun j => State.journalPut_rd ..
  have hnext : (v.journalPut 3 [BitVec.ofNat 32 mv]).journal.nextA = v.journal.nextA + 1 := rfl
  have hout : aSupplyMon 7 ∉ [aFaultCCount 0x11, 0x12400, 0x12404, 0x12408, 0x1240C] := by decide
  refine ⟨fun j hj => (hrd j).trans ?_, ?_, ?_, ?_⟩
  · exact (hraise j (fun hm => hj (List.mem_cons_of_mem _ hm))).trans (hregs j (fun hm => hj (by
      rw [List.mem_singleton] at hm
      rw [hm]
      exact List.mem_cons_self)))
  · exact (State.bit_congr (hrd _) 31).trans ((hraise.bit_eq hout 31).trans hbit)
  · exact (State.f_congr (hrd _) 0 16).trans ((hraise.f_eq hout 0 16).trans hf)
  · rw [hnext, hjournal, honly.journal]

/-- BACKUP is shown, and the hold of a powered fabric begins. -/
def backupBegun (fab : Bool) (u : State) : State :=
  setPwr 4 ({ u with power := { u.power with before := u.pwrState, hold := fab, backupAt := u.now, ebbPin := false } }.setB aPwrStatus 24 true)

theorem backupBegun_facts (fab : Bool) (u : State) : RegsBut [aPwrStatus] u (backupBegun fab u)
    ∧ (backupBegun fab u).bit aPwrStatus 24 = true ∧ (backupBegun fab u).f aPwrStatus 28 4 = 4
    ∧ (backupBegun fab u).power = { u.power with before := u.pwrState, hold := fab, backupAt := u.now, ebbPin := false }
    ∧ (backupBegun fab u).journal = u.journal ∧ (backupBegun fab u).streams = u.streams ∧ (backupBegun fab u).tiles = u.tiles
    ∧ (backupBegun fab u).mem = u.mem ∧ (backupBegun fab u).tray = u.tray := by
  unfold backupBegun setPwr
  generalize hv : ({ u with power := { u.power with before := u.pwrState, hold := fab, backupAt := u.now, ebbPin := false } } : State) = v
  have hregs : RegsBut [aPwrStatus] u v := by
    rw [← hv]
    exact fun _ _ => rfl
  refine ⟨(hregs.setB List.mem_cons_self _ _).setF List.mem_cons_self _ _ _, ?_, State.f_setF_same _ _ _ (by omega), ?_⟩
  · exact (State.bit_setF_of_disjoint (v.setB aPwrStatus 24 true) _ _ _ (by omega) (by omega)).trans
      (State.bit_setB_same v _ true (by omega))
  · have honly : OnlyRegs v ((v.setB aPwrStatus 24 true).setF aPwrStatus 28 4 4) := ((OnlyRegs.refl v).setB _ _ _).setF _ _ _ _
    generalize (v.setB aPwrStatus 24 true).setF aPwrStatus 28 4 4 = w at *
    unfold OnlyRegs at honly
    rw [honly, ← hv]
    exact ⟨rfl, rfl, rfl, rfl, rfl, rfl⟩

theorem allHot_only (s : State) : ∃ p, each (List.range 64) s (fun s k =>
    if (s.timer k).busy then s.modTimer k (fun x => { x with hot := true }) else s) = { s with press := p } := by
  refine each_keep (fun t : State => ∃ p, t = { s with press := p }) _ (fun t k h => ?_) _ s ⟨s.press, rfl⟩
  obtain ⟨p, hp⟩ := h
  split
  · rw [hp]
    exact ⟨_, rfl⟩
  · exact ⟨p, hp⟩

/-- A switch-over with a hold of its own begins BACKUP. -/
theorem switchOver_eq (hvbak : s.bit aPwrStatus 24 = false) (hebb : s.f aPwrEbb 0 8 ≠ 0) :
    ∃ p, switchOver mv s = { backupBegun (s.bit aPwrStatus 25) (switchNoted mv s) with press := p } := by
  have hwait : ∀ p, ({ backupBegun (s.bit aPwrStatus 25) (switchNoted mv s) with press := p } : State).f aPwrEbb 0 8 ≠ 0 := by
    intro p
    obtain ⟨hregs, -⟩ := switchNoted_facts mv s
    obtain ⟨hregs', -⟩ := backupBegun_facts (s.bit aPwrStatus 25) (switchNoted mv s)
    have h := (hregs'.f_eq (off := aPwrEbb) (by decide) 0 8).trans (hregs.f_eq (off := aPwrEbb) (by decide) 0 8)
    generalize backupBegun (s.bit aPwrStatus 25) (switchNoted mv s) = v at *
    rw [State.f_withPress, h]
    exact hebb
  have hon : s.onVbak = false := hvbak
  obtain ⟨v, hv⟩ : ∃ v, backupBegun (s.bit aPwrStatus 25) (switchNoted mv s) = v := ⟨_, rfl⟩
  have hdef : switchOver mv s
      = (let t := if v.bit aPressCtl 2 then each (List.range 64) v (fun s k =>
            if (s.timer k).busy then s.modTimer k (fun x => { x with hot := true }) else s) else v
         if s.fabricOn && decide (t.f aPwrEbb 0 8 = 0) then shutdown 0x11 t else t) := by
    rw [← hv]
    unfold switchOver
    rw [if_neg (Bool.eq_false_iff.mp hon)]
    rfl
  have hshut : ∀ p, (if s.fabricOn && decide (({ v with press := p } : State).f aPwrEbb 0 8 = 0) then
      shutdown 0x11 { v with press := p } else { v with press := p }) = { v with press := p } := by
    intro p
    have h := hwait p
    rw [hv] at h
    rw [decide_eq_false h, Bool.and_false]
    rfl
  rw [hdef, hv]
  dsimp only
  obtain ⟨p, hp⟩ := allHot_only v
  by_cases hrej : v.bit aPressCtl 2 = true
  · rw [if_pos hrej, hp]
    exact ⟨p, hshut p⟩
  · rw [if_neg hrej]
    exact ⟨v.press, hshut v.press⟩

/-- What a switch-over leaves. -/
structure Switched (s t : State) : Prop where
  backup : t.bit aPwrStatus 24 = true
  state : t.f aPwrStatus 28 4 = 4
  low : t.bit (aSupplyMon 7) 31 = true
  reading : t.f (aSupplyMon 7) 0 16 = mv % 2 ^ 16
  hold : t.power.hold = s.bit aPwrStatus 25
  before : t.power.before = s.f aPwrStatus 28 4
  pin : t.power.ebbPin = false
  entry : t.journal.nextA = s.journal.nextA + 1
  streams : t.streams = s.streams
  tiles : t.tiles = s.tiles
  mem : t.mem = s.mem

theorem switchOver_switches (hvbak : s.bit aPwrStatus 24 = false) (hebb : s.f aPwrEbb 0 8 ≠ 0) : Switched mv s (switchOver mv s)
    ∧ (switchOver mv s).tray = s.tray := by
  obtain ⟨p, hp⟩ := switchOver_eq mv s hvbak hebb
  obtain ⟨hregs, hlow, hreading, hentry⟩ := switchNoted_facts mv s
  have honly := switchNoted_only mv s
  rw [hp]
  generalize switchNoted mv s = u at *
  have hkept : u.streams = s.streams ∧ u.tiles = s.tiles ∧ u.mem = s.mem ∧ u.tray = s.tray := by
    rw [honly]
    exact ⟨rfl, rfl, rfl, rfl⟩
  obtain ⟨hstreams, htiles, hmem, htray⟩ := hkept
  obtain ⟨hregs', hbackup, hstate, hpower, hjournal, hstreams', htiles', hmem', htray'⟩ := backupBegun_facts (s.bit aPwrStatus 25) u
  have hpwr : u.pwrState = s.f aPwrStatus 28 4 := hregs.f_eq (by decide) 28 4
  have hmon : aSupplyMon 7 ∉ [aPwrStatus] := by decide
  have hmonrd := hregs' (aSupplyMon 7) hmon
  generalize backupBegun (s.bit aPwrStatus 25) u = v at *
  refine ⟨⟨?_, ?_, ?_, ?_, ?_, ?_, ?_, ?_, ?_, ?_, ?_⟩, ?_⟩
  · rw [State.bit_withPress, hbackup]
  · rw [State.f_withPress, hstate]
  · rw [State.bit_withPress, State.bit_congr hmonrd, hlow]
  · rw [State.f_withPress, State.f_congr hmonrd, hreading]
  · dsimp only; rw [hpower]
  · dsimp only; rw [hpower, hpwr]
  · dsimp only; rw [hpower]
  · dsimp only; rw [hjournal, hentry]
  · dsimp only; rw [hstreams', hstreams]
  · dsimp only; rw [htiles', htiles]
  · dsimp only; rw [hmem', hmem]
  · dsimp only; rw [htray', htray]

variable {mv s}

theorem Switched.signal {t : State} (h : Switched mv s t) (u : State) : Switched mv s (signal u t) :=
  ⟨(signal_bit ..).trans h.backup, (signal_f ..).trans h.state, (signal_bit ..).trans h.low, (signal_f ..).trans h.reading,
   by rw [signal_power, h.hold], by rw [signal_power, h.before], by rw [signal_power, h.pin], by rw [signal_journal, h.entry],
   (signal_streams ..).trans h.streams, (signal_tiles ..).trans h.tiles, (signal_mem ..).trans h.mem⟩

theorem State.f_withTray (t : State) (x : Tray) (j lo len : Nat) : { t with tray := x }.f j lo len = t.f j lo len := rfl
theorem State.bit_withTray (t : State) (x : Tray) (j i : Nat) : { t with tray := x }.bit j i = t.bit j i := rfl

theorem Switched.of_tray {t : State} {x : Tray} (h : Switched mv { s with tray := x } t) : Switched mv s t := by
  obtain ⟨h1, h2, h3, h4, h5, h6, h7, h8, h9, h10, h11⟩ := h
  rw [State.bit_withTray] at h5
  rw [State.f_withTray] at h6
  exact ⟨h1, h2, h3, h4, h5, h6, h7, h8, h9, h10, h11⟩

end

end Sys2Proof.Machine
end

section
/-! The ebb hold's end, the loss of the rails, and the return of supplies (R365 to R368, R418, R438, R439). -/
namespace Sys2Proof.Machine

/-! ### The shutdown begins (R365, R366, R438) -/

/-- The shutdown has begun: SUPPLY_EBB of class F has halted every region. -/
def Ebbs (c : Instr) (s : State) : Prop :=
  ∃ t, exec c s = .next t ∧ t.power.shutdown = true ∧ t.power.hold = false ∧ t.bit aGlobalStatus 28 = true
    ∧ ∀ g < 25, (t.seq g).halted = true

theorem ebbs_of_exec {c : Instr} {code : Nat} {s u : State} (h : exec c s = .next (signal s (shutdown code u))) : Ebbs c s := by
  refine ⟨_, h, ?_, ?_, ?_, fun g hg => ?_⟩
  · rw [signal_power]
    rfl
  · rw [signal_power]
    rfl
  · rw [signal_bit]
    exact raiseF_fatal { cls := 3, code := code, die := 2, unit := 15 } u
  · rw [signal_seq]
    exact (raiseF_halts { cls := 3, code := code, die := 2, unit := 15 } u hg).2

section
variable {mv : BitVec 16} {k : Fin 4} {r : Fin 3} {s : State}

theorem ebbHoldEnd_ebbs (hhold : s.power.hold = true) : Ebbs (.ebbHoldEnd .timeout) s
    ∧ (mv.toNat < (holdRail r).2 → Ebbs (.ebbHoldEnd (.undervoltage r mv)) s)
    ∧ (s.power.trip = true → Ebbs (.ebbHoldEnd .trip) s)
    ∧ (nbit s.power.railEn k.val = true → Ebbs (.ebbHoldEnd (.railPg k)) s) := by
  refine ⟨ebbs_of_exec (code := 0x11) (u := s) ?_,
    fun h => ebbs_of_exec (code := 0x11) (u := supply (holdRail r).1 mv.toNat true s) ?_,
    fun h => ebbs_of_exec (code := 0x11) (u := s) ?_, fun h => ebbs_of_exec (code := 0x11) (u := s) ?_⟩
  · change execEbbHoldEnd .timeout s = _
    simp only [execEbbHoldEnd, hhold, Bool.not_true, Bool.false_eq_true, if_false, done]
  · change execEbbHoldEnd (.undervoltage r mv) s = _
    simp only [execEbbHoldEnd, hhold, h, Bool.not_true, Bool.false_eq_true, if_false, when_, decide_true, if_true, done]
  · change execEbbHoldEnd .trip s = _
    simp only [execEbbHoldEnd, hhold, h, Bool.not_true, Bool.false_eq_true, if_false, when_, if_true, done]
  · change execEbbHoldEnd (.railPg k) s = _
    simp only [execEbbHoldEnd, hhold, h, Bool.not_true, Bool.false_eq_true, if_false, when_, if_true, done]

theorem railPgLoss_ebbs (hen : nbit s.power.railEn k.val = true) (hdown : s.power.shutdown = false)
    (hmain : s.bit aPwrStatus 24 = false ∨ s.power.hold = true) : Ebbs (.railPgLoss k) s := by
  have hcond : (!s.onVbak || s.power.hold) = true := by
    rcases hmain with h | h
    · rw [State.onVbak, h]
      rfl
    · rw [h, Bool.or_true]
  refine ebbs_of_exec (code := 0x11) (u := s) ?_
  change execRailPgLoss k s = _
  simp only [execRailPgLoss, hen, hdown, hcond, Bool.not_false, Bool.and_self, when_, if_true, done]

end

/-! ### The pipeline and shoreline dies lose power (R366, R373) -/

/-- Nothing of the pipeline and shoreline dies is left. -/
def DiesReset (t : State) : Prop :=
  t.streams = [] ∧ t.chans = [] ∧ t.tiles = [] ∧ t.seqs = [] ∧ t.tms = [] ∧ t.images = [] ∧ t.mem = State.reset.mem
    ∧ t.fabric = State.reset.fabric ∧ t.uses = []

theorem DiesReset.of_onlyRegs {s t : State} (h : DiesReset s) (honly : OnlyRegs s t) : DiesReset t := by
  unfold OnlyRegs at honly
  rw [honly]
  exact h

theorem DiesReset.signal {t : State} (h : DiesReset t) (s : State) : DiesReset (signal s t) := by
  obtain ⟨h1, h2, h3, h4, h5, h6, h7, h8, h9⟩ := h
  exact ⟨(signal_streams ..).trans h1, (signal_chans ..).trans h2, (signal_tiles ..).trans h3, (signal_seqs ..).trans h4,
    (signal_tms ..).trans h5, (signal_images ..).trans h6, (signal_mem ..).trans h7, (signal_fabric ..).trans h8,
    (signal_uses ..).trans h9⟩

section
variable (s : State)

theorem dieReset_resets (keep : Nat → Bool) : DiesReset (dieReset keep s) := ⟨rfl, rfl, rfl, rfl, rfl, rfl, rfl, rfl, rfl⟩

theorem dieReset_rd {keep : Nat → Bool} {off : Nat} (h : keep off = true) : (dieReset keep s).rd off = s.rd off :=
  (tget_filter _ keep s.regs off).trans (if_pos h)

/-- The registers of a fabric without power. -/
def fabricDark (u : State) : State :=
  (((u.setB aPwrStatus 25 false).setB aClkStatus 0 false).setB aClkStatus 1 false).setB aGlobalStatus 27 false

theorem fabricDark_facts (u : State) : OnlyRegs u (fabricDark u) ∧ RegsBut [aPwrStatus, aClkStatus, aGlobalStatus] u (fabricDark u)
    ∧ (fabricDark u).bit aPwrStatus 25 = false := by
  refine ⟨((((OnlyRegs.refl u).setB _ _ _).setB _ _ _).setB _ _ _).setB _ _ _, ?_, ?_⟩
  · have hclk : aClkStatus ∈ [aPwrStatus, aClkStatus, aGlobalStatus] := List.mem_cons_of_mem _ List.mem_cons_self
    have hglobal : aGlobalStatus ∈ [aPwrStatus, aClkStatus, aGlobalStatus] :=
      List.mem_cons_of_mem _ (List.mem_cons_of_mem _ List.mem_cons_self)
    exact ((((RegsBut.refl _ u).setB List.mem_cons_self _ _).setB hclk _ _).setB hclk _ _).setB hglobal _ _
  · unfold fabricDark
    rw [State.bit_setB_ne _ (by decide), State.bit_setB_ne _ (by decide), State.bit_setB_ne _ (by decide)]
    exact State.bit_setB_same u _ false (by omega)

theorem keepOff_of_lt {off : Nat} (h : off < 0x20000) : keepOff off = true := by
  rw [keepOff, decide_eq_true h, Bool.true_or, Bool.true_or]

/-- The rails are off, and nothing is in progress. -/
def railsOff (u : State) : State := { u with power := { u.power with railEn := 0, shutdown := false, hold := false, boot := 0 } }

theorem railsOff_facts (u : State) : (∀ j, (railsOff u).rd j = u.rd j) ∧ (railsOff u).power.railEn = 0
    ∧ (railsOff u).power.shutdown = false ∧ (railsOff u).journal = u.journal ∧ (railsOff u).press = u.press
    ∧ (railsOff u).hostMem = u.hostMem := ⟨fun _ => rfl, rfl, rfl, rfl, rfl, rfl⟩

theorem DiesReset.railsOff {u : State} (h : DiesReset u) : DiesReset (railsOff u) := h

theorem fabricOff_eq : fabricOff s = railsOff (fabricDark (dieReset keepOff s)) := rfl

theorem fabricOff_facts : DiesReset (fabricOff s) ∧ (fabricOff s).bit aPwrStatus 25 = false
    ∧ (fabricOff s).power.railEn = 0 ∧ (fabricOff s).power.shutdown = false ∧ (fabricOff s).journal = s.journal
    ∧ (fabricOff s).press = s.press ∧ (fabricOff s).hostMem = s.hostMem
    ∧ ∀ off, off < 0x20000 → off ≠ aPwrStatus → off ≠ aClkStatus → off ≠ aGlobalStatus → (fabricOff s).rd off = s.rd off := by
  have hdies := dieReset_resets s keepOff
  have hkept : (dieReset keepOff s).journal = s.journal ∧ (dieReset keepOff s).press = s.press
      ∧ (dieReset keepOff s).hostMem = s.hostMem := ⟨rfl, rfl, rfl⟩
  have hrd : ∀ off, off < 0x20000 → (dieReset keepOff s).rd off = s.rd off := fun off hoff => dieReset_rd s (keepOff_of_lt hoff)
  rw [fabricOff_eq]
  generalize dieReset keepOff s = d at *
  obtain ⟨honly, hregs, hbit⟩ := fabricDark_facts d
  have hdies' := hdies.of_onlyRegs honly
  have hkept' : (fabricDark d).journal = d.journal ∧ (fabricDark d).press = d.press ∧ (fabricDark d).hostMem = d.hostMem := by
    unfold OnlyRegs at honly
    rw [honly]
    exact ⟨rfl, rfl, rfl⟩
  generalize fabricDark d = u at *
  obtain ⟨hj, hp, hh⟩ := hkept
  obtain ⟨hj', hp', hh'⟩ := hkept'
  have hdies'' := hdies'.railsOff
  obtain ⟨hrd', hrails, hdown, hj'', hp'', hh''⟩ := railsOff_facts u
  generalize railsOff u = w at *
  refine ⟨hdies'', (State.bit_congr (hrd' _) 25).trans hbit, hrails, hdown, hj''.trans (hj'.trans hj), hp''.trans (hp'.trans hp),
    hh''.trans (hh'.trans hh), fun off hoff h1 h2 h3 => ?_⟩
  rw [hrd', hregs off ?_, hrd off hoff]
  simp only [List.mem_cons, List.not_mem_nil, or_false, not_or]
  exact ⟨h1, h2, h3⟩

end

section
variable {s : State}

theorem railRemoval_darkens (hdown : s.power.shutdown = true) : ∃ t, exec .railRemoval s = .next t ∧ DiesReset t
    ∧ t.bit aPwrStatus 25 = false ∧ t.f aPwrStatus 28 4 = (if s.bit aPwrStatus 24 then 4 else 3) ∧ t.power.railEn = 0
    ∧ t.power.shutdown = false ∧ t.journal = s.journal ∧ t.press = s.press ∧ t.hostMem = s.hostMem
    ∧ ∀ off, off < 0x20000 → off ≠ aPwrStatus → off ≠ aClkStatus → off ≠ aGlobalStatus → t.rd off = s.rd off := by
  obtain ⟨n, hn⟩ : ∃ n, (if s.bit aPwrStatus 24 then 4 else 3) = n := ⟨_, rfl⟩
  have hlt : n < 16 := by
    rw [← hn]
    split <;> omega
  have hexec : exec .railRemoval s = .next (signal s (setPwr n (fabricOff s))) := by
    rw [← hn]
    change execRailRemoval s = _
    simp only [execRailRemoval, hdown, when_, if_true, done]
    rfl
  obtain ⟨hdies, hon, hrails, hdown', hj, hp, hh, hrd⟩ := fabricOff_facts s
  generalize fabricOff s = u at *
  have honly : OnlyRegs u (setPwr n u) := (OnlyRegs.refl u).setF _ _ _ _
  have hpower : (setPwr n u).power = u.power := by
    unfold OnlyRegs at honly
    rw [honly]
  have hpress : (setPwr n u).press = u.press := by
    unfold OnlyRegs at honly
    rw [honly]
  refine ⟨_, hexec, (hdies.of_onlyRegs honly).signal s, ?_, ?_, ?_, ?_, ?_, ?_, ?_, fun off hoff h1 h2 h3 => ?_⟩
  · rw [signal_bit]
    exact (State.bit_setF_of_disjoint u _ _ _ (by omega) (by omega)).trans hon
  · rw [signal_f, hn]
    exact (State.f_setF_same u _ _ (by omega)).trans (Nat.mod_eq_of_lt hlt)
  · rw [signal_power, hpower, hrails]
  · rw [signal_power, hpower, hdown']
  · rw [signal_journal, honly.journal, hj]
  · rw [signal_press, hpress, hp]
  · rw [signal_hostMem, honly.hostMem, hh]
  · rw [signal_rd]
    exact (State.rd_setF_ne _ _ _ _ h1).trans (hrd off hoff h1 h2 h3)

/-! ### The return to VAON_MAIN (R367) -/

/-- The registers of a return: BACKUP over, RESTORED, the reading good again. -/
def mainShown (s : State) : State := ((s.setB aPwrStatus 24 false).setB aPwrStatus 21 true).setB (aSupplyMon 7) 31 false

theorem mainShown_facts (s : State) : OnlyRegs s (mainShown s) ∧ RegsBut [aPwrStatus, aSupplyMon 7] s (mainShown s)
    ∧ (mainShown s).bit aPwrStatus 24 = false ∧ (mainShown s).bit aPwrStatus 21 = true
    ∧ (mainShown s).bit (aSupplyMon 7) 31 = false := by
  have hne : aPwrStatus ≠ aSupplyMon 7 := by decide
  refine ⟨(((OnlyRegs.refl s).setB _ _ _).setB _ _ _).setB _ _ _, ?_, ?_, ?_, State.bit_setB_same _ _ _ (by omega)⟩
  · exact (((RegsBut.refl _ s).setB List.mem_cons_self _ _).setB List.mem_cons_self _ _).setB
      (List.mem_cons_of_mem _ List.mem_cons_self) _ _
  · refine (State.bit_setB_ne _ hne _ _ _).trans ?_
    exact (State.bit_setB_of_ne (s.setB aPwrStatus 24 false) (by omega) (by omega) true).trans (State.bit_setB_same s _ _ (by omega))
  · exact (State.bit_setB_ne _ hne _ _ _).trans (State.bit_setB_same _ _ _ (by omega))

/-- The journal entry of a return; the hold is over, the pins are high. -/
def mainNoted (us : Nat) (u : State) : State :=
  let u := u.journalPut 4 [BitVec.ofNat 32 us]
  { u with power := { u.power with hold := false, ebbPin := true }, tray := { u.tray with in12 := true } }

theorem mainNoted_facts (us : Nat) (u : State) : (∀ j, (mainNoted us u).rd j = u.rd j) ∧ (mainNoted us u).power.hold = false
    ∧ (mainNoted us u).power.ebbPin = true ∧ (mainNoted us u).journal.nextA = u.journal.nextA + 1
    ∧ (mainNoted us u).power.before = u.power.before := by
  obtain ⟨j, hj, hnext⟩ : ∃ j, u.journalPut 4 [BitVec.ofNat 32 us] = { u with journal := j } ∧ j.nextA = u.journal.nextA + 1 :=
    ⟨_, rfl, rfl⟩
  unfold mainNoted
  dsimp only
  rw [hj]
  exact ⟨fun _ => rfl, rfl, rfl, hnext, rfl⟩

theorem returnMain_eq (hrest : s.bit aPwrStatus 25 = true ∨ s.bit aPwrCtl 8 = false) : ∃ us, returnMain s
    = setPwr (if s.power.before ≠ 3 ∧ s.bit aPwrStatus 25 = false then 3 else s.power.before) (mainNoted us (mainShown s)) := by
  refine ⟨(s.now - s.power.backupAt) / 1000, ?_⟩
  obtain ⟨honly, hregs, -⟩ := mainShown_facts s
  obtain ⟨us, hus⟩ : ∃ us, (s.now - s.power.backupAt) / 1000 = us := ⟨_, rfl⟩
  have hpower : (mainShown s).power = s.power := by
    unfold OnlyRegs at honly
    rw [honly]
  have hctl : (mainShown s).bit aPwrCtl 8 = s.bit aPwrCtl 8 := hregs.bit_eq (by decide) 8
  obtain ⟨v, hv⟩ : ∃ v, mainNoted us (mainShown s) = v := ⟨_, rfl⟩
  obtain ⟨hrd, -, -, -, hbefore⟩ := mainNoted_facts us (mainShown s)
  have hdef : returnMain s = (let t := setPwr (if decide (s.power.before ≠ 3) && !s.fabricOn then 3 else v.power.before) v
      if decide (s.power.before ≠ 3) && !s.fabricOn && t.bit aPwrCtl 8 then wake t else t) := by
    rw [← hv, ← hus]
    rfl
  rw [hv] at hrd hbefore
  rw [hus, hdef, hv, hbefore, hpower]
  dsimp only
  have hctl' : ∀ n, (setPwr n v).bit aPwrCtl 8 = s.bit aPwrCtl 8 := fun n =>
    (State.bit_setF_ne _ _ _ _ (by decide) 8).trans ((State.bit_congr (hrd _) 8).trans hctl)
  rw [hctl']
  have hnone : (decide (s.power.before ≠ 3) && !s.fabricOn && s.bit aPwrCtl 8) = false := by
    rcases hrest with h | h
    · rw [State.fabricOn, h, Bool.not_true, Bool.and_false, Bool.false_and]
    · rw [h, Bool.and_false]
  rw [hnone]
  simp only [State.fabricOn, Bool.false_eq_true, if_false, Bool.and_eq_true, decide_eq_true_eq, Bool.not_eq_true']

theorem returnToMain_returns (hvbak : s.bit aPwrStatus 24 = true) (hrest : s.bit aPwrStatus 25 = true ∨ s.bit aPwrCtl 8 = false) :
    ∃ t, exec .returnToMain s = .next t ∧ t.bit aPwrStatus 24 = false ∧ t.bit aPwrStatus 21 = true
      ∧ t.bit (aSupplyMon 7) 31 = false ∧ t.power.hold = false ∧ t.power.ebbPin = true
      ∧ t.journal.nextA = s.journal.nextA + 1 ∧ RegsBut [aPwrStatus, aSupplyMon 7] s t
      ∧ t.f aPwrStatus 28 4 = (if s.power.before ≠ 3 ∧ s.bit aPwrStatus 25 = false then 3 else s.power.before % 16) := by
  obtain ⟨us, hmain⟩ := returnMain_eq hrest
  have hexec : exec .returnToMain s = .next (signal s (returnMain s)) := by
    change execReturnToMain s = _
    simp only [execReturnToMain, State.onVbak, hvbak, when_, if_true, done]
  rw [hmain] at hexec
  obtain ⟨honly, hregs, h24, h21, h31⟩ := mainShown_facts s
  obtain ⟨hrd, hhold, hpin, hnext, -⟩ := mainNoted_facts us (mainShown s)
  rw [honly.journal] at hnext
  have hregs' : RegsBut [aPwrStatus, aSupplyMon 7] s (mainNoted us (mainShown s)) := fun j hj => (hrd j).trans (hregs j hj)
  generalize mainShown s = u at *
  generalize mainNoted us u = v at *
  generalize hn : (if s.power.before ≠ 3 ∧ s.bit aPwrStatus 25 = false then 3 else s.power.before) = n at *
  have honly' : OnlyRegs v (setPwr n v) := (OnlyRegs.refl v).setF _ _ _ _
  have hpower : (setPwr n v).power = v.power := by
    unfold OnlyRegs at honly'
    rw [honly']
  have hbit : ∀ i, i < 28 → (setPwr n v).bit aPwrStatus i = u.bit aPwrStatus i := fun i hi =>
    (State.bit_setF_of_disjoint v _ _ _ (by omega) (by omega)).trans (State.bit_congr (hrd _) i)
  refine ⟨_, hexec, ?_, ?_, ?_, ?_, ?_, ?_, RegsBut.signal (hregs'.setF List.mem_cons_self _ _ _), ?_⟩
  · rw [signal_bit, hbit 24 (by omega), h24]
  · rw [signal_bit, hbit 21 (by omega), h21]
  · rw [signal_bit]
    exact (State.bit_setF_ne _ _ _ _ (by decide) 31).trans ((State.bit_congr (hrd _) 31).trans h31)
  · rw [signal_power, hpower, hhold]
  · rw [signal_power, hpower, hpin]
  · rw [signal_journal, honly'.journal, hnext]
  · rw [signal_f]
    refine (State.f_setF_same v _ _ (by omega)).trans ?_
    rw [← hn]
    split <;> rfl

/-! ### VBAK and VPRESS (R368, R439) -/

variable {mv : BitVec 16}

theorem vbakLow_shows (hmv : mv.toNat < 3000) : ∃ t, exec (.vbakLow mv) s = .next t ∧ t.bit aPwrStatus 23 = true
    ∧ t.bit (aSupplyMon 8) 31 = true ∧ t.f (aSupplyMon 8) 0 16 = mv.toNat ∧ RegsBut [aPwrStatus, aSupplyMon 8] s t := by
  have hexec : exec (.vbakLow mv) s = .next (signal s ((supply 8 mv.toNat true s).setB aPwrStatus 23 true)) := by
    change execVbakLow mv s = _
    simp only [execVbakLow, hmv, decide_true, when_, if_true, done]
  obtain ⟨hregs, -, hbit, hf⟩ := supply_facts 8 mv.toNat true s
  generalize supply 8 mv.toNat true s = u at *
  have hne : aSupplyMon 8 ≠ aPwrStatus := by decide
  refine ⟨_, hexec, ?_, ?_, ?_, RegsBut.signal ?_⟩
  · rw [signal_bit]
    exact State.bit_setB_same u _ true (by omega)
  · rw [signal_bit, State.bit_setB_ne _ hne, hbit]
  · rw [signal_f, State.f_setB_ne _ hne, hf, toNat_mod_16]
  · exact (hregs.mono fun _ h => List.mem_cons_of_mem _ h).setB List.mem_cons_self _ _

theorem vpressUndervoltage_shows (hmv : 10 * mv.toNat < 9 * s.vpress) : ∃ t, exec (.vpressUndervoltage mv) s = .next t
    ∧ t.bit (aSupplyMon 6) 31 = true ∧ t.f (aSupplyMon 6) 0 16 = mv.toNat ∧ RegsBut [aSupplyMon 6] s t := by
  have hexec : exec (.vpressUndervoltage mv) s = .next (signal s (supply 6 mv.toNat true s)) := by
    change execVpressUndervoltage mv s = _
    simp only [execVpressUndervoltage, hmv, decide_true, when_, if_true, done]
  obtain ⟨hregs, -, hbit, hf⟩ := supply_facts 6 mv.toNat true s
  exact ⟨_, hexec, (signal_bit ..).trans hbit, (signal_f ..).trans (hf.trans (toNat_mod_16 mv)), RegsBut.signal hregs⟩

theorem coldState_resets (s : State) : DiesReset (coldState s) := ⟨rfl, rfl, rfl, rfl, rfl, rfl, rfl, rfl, rfl⟩

theorem vbakExhausted_off (hvbak : s.bit aPwrStatus 24 = true) : ∃ t, exec .vbakExhausted s = .next t ∧ DiesReset t ∧ t.regs = []
    ∧ t.journal = s.journal ∧ t.hostMem = s.hostMem := by
  have hexec : exec .vbakExhausted s = .next (signal s (coldState s)) := by
    change execVbakExhausted s = _
    simp only [execVbakExhausted, State.onVbak, hvbak, when_, if_true, done]
  exact ⟨_, hexec, DiesReset.signal (coldState_resets s) s, signal_regs .., signal_journal .., signal_hostMem ..⟩

/-! ### A switch-over of the device, and of the tray (R363, R418) -/

theorem supplySwitchOver_switches (hmv : mv.toNat < 1620) (hvbak : s.bit aPwrStatus 24 = false) (hebb : s.f aPwrEbb 0 8 ≠ 0) :
    ∃ t, exec (.supplySwitchOver mv) s = .next t ∧ Switched mv.toNat s t := by
  refine ⟨_, ?_, (switchOver_switches mv.toNat s hvbak hebb).1.signal s⟩
  change execSupplySwitchOver mv s = _
  simp only [execSupplySwitchOver, hmv, decide_true, when_, if_true, done]

theorem State.trayRd_traySet (k lo len v : Nat) (s : State) :
    (traySet k lo len v s).trayRd k = BitVec.ofNat 32 (nput (s.trayRd k).toNat lo len v) := tget_tset_same _ _ _ _

/-- 12 V is gone: TRAY_STATUS shows BACKUP, and the packages on VBAK. -/
def trayDark (s : State) : State :=
  let t := traySet 1 28 4 2 { s with tray := { s.tray with in12 := false } }
  traySet 1 8 4 (nbits (t.trayRd 1).toNat 16 4) t

theorem nbits_nput_word {n lo len v a b : Nat} (h : a + b ≤ lo ∨ lo + len ≤ a) (hb : a + b ≤ 32) :
    nbits (BitVec.ofNat 32 (nput n lo len v)).toNat a b = nbits n a b := by
  refine Nat.eq_of_testBit_eq fun i => ?_
  rw [testBit_nbits, testBit_nbits, BitVec.toNat_ofNat, Nat.testBit_mod_two_pow, testBit_nput]
  by_cases hi : i < b
  · rw [if_neg (by omega), decide_eq_true (show i + a < 32 by omega), Bool.true_and]
  · simp [hi]

theorem nbits_of_nput_word (n v : Nat) {lo len : Nat} (h : lo + len ≤ 32) : nbits (nput n lo len v % 2 ^ 32) lo len = v % 2 ^ len := by
  rw [← nbits_nput n lo len v]
  refine Nat.eq_of_testBit_eq fun i => ?_
  rw [testBit_nbits, testBit_nbits, Nat.testBit_mod_two_pow]
  by_cases hi : i < len
  · rw [decide_eq_true (show i + lo < 32 by omega), Bool.true_and]
  · simp [hi]

theorem traySet_only (k lo len v : Nat) (s : State) :
    ∃ l, traySet k lo len v s = { s with tray := { s.tray with regs := l } } := ⟨_, rfl⟩

theorem trayDark_only (s : State) : ∃ l, trayDark s = { s with tray := { s.tray with in12 := false, regs := l } } := by
  obtain ⟨l, hl⟩ := traySet_only 1 28 4 2 { s with tray := { s.tray with in12 := false } }
  unfold trayDark
  dsimp only
  rw [hl]
  exact traySet_only 1 8 4 _ { s with tray := { s.tray with in12 := false, regs := l } }

theorem trayDark_state (s : State) : nbits ((trayDark s).trayRd 1).toNat 28 4 = 2 := by
  obtain ⟨t, ht⟩ : ∃ t, traySet 1 28 4 2 { s with tray := { s.tray with in12 := false } } = t := ⟨_, rfl⟩
  have hstate : nbits (t.trayRd 1).toNat 28 4 = 2 := by
    rw [← ht, State.trayRd_traySet, BitVec.toNat_ofNat]
    refine (nbits_of_nput_word _ _ (by omega)).trans rfl
  unfold trayDark
  dsimp only
  rw [ht, State.trayRd_traySet, nbits_nput_word (by omega) (by omega), hstate]

theorem trayInputLoss_switches (hmv : mv.toNat < 1620) (hvbak : s.bit aPwrStatus 24 = false) (hebb : s.f aPwrEbb 0 8 ≠ 0) :
    ∃ t, exec (.trayInputLoss mv) s = .next t ∧ Switched mv.toNat s t ∧ t.tray.in12 = false ∧ nbits (t.trayRd 1).toNat 28 4 = 2 := by
  obtain ⟨x, hx, hin⟩ : ∃ x, trayDark s = { s with tray := x } ∧ x.in12 = false := by
    obtain ⟨l, hl⟩ := trayDark_only s
    exact ⟨_, hl, rfl⟩
  have hstate := trayDark_state s
  have hexec : exec (.trayInputLoss mv) s = .next (signal s (switchOver mv.toNat (trayDark s))) := by
    change execTrayInputLoss mv s = _
    simp only [execTrayInputLoss, Nat.not_le.mpr hmv, if_false, done]
    rfl
  obtain ⟨hswitch, htray⟩ := switchOver_switches mv.toNat { s with tray := x } (by rw [State.bit_withTray, hvbak])
    (by rw [State.f_withTray]; exact hebb)
  rw [← hx] at htray
  refine ⟨_, hexec, ?_, ?_, ?_⟩
  · rw [hx]
    exact hswitch.of_tray.signal s
  · rw [signal_tray, htray, hx, hin]
  · rw [State.trayRd, signal_tray, htray]
    exact hstate

end

/-- Settles O51: one rule for each event of the supplies. -/
theorem supplies : Obligations.Supplies := by
  unfold Obligations.Supplies
  intro mv k r s
  dsimp only
  have hswitched : ∀ {t : State}, Switched mv.toNat s t → t.bit aPwrStatus 24 = true ∧ t.f aPwrStatus 28 4 = 4
      ∧ t.bit (aSupplyMon 7) 31 = true ∧ t.f (aSupplyMon 7) 0 16 = mv.toNat ∧ t.power.hold = s.bit aPwrStatus 25
      ∧ t.power.before = s.f aPwrStatus 28 4 ∧ t.power.ebbPin = false ∧ t.journal.nextA = s.journal.nextA + 1
      ∧ t.streams = s.streams ∧ t.tiles = s.tiles ∧ t.mem = s.mem := fun h =>
    ⟨h.backup, h.state, h.low, h.reading.trans (toNat_mod_16 mv), h.hold, h.before, h.pin, h.entry, h.streams, h.tiles, h.mem⟩
  refine ⟨fun hmv hvbak hebb => ⟨?_, ?_, ?_⟩, fun hhold _ => ebbHoldEnd_ebbs hhold,
    fun hen hdown hmain _ => railPgLoss_ebbs hen hdown hmain, railRemoval_darkens, returnToMain_returns, vbakLow_shows,
    vbakExhausted_off, vpressUndervoltage_shows⟩
  · obtain ⟨t, hexec, h⟩ := supplySwitchOver_switches hmv hvbak hebb
    exact ⟨t, hexec, hswitched h⟩
  · obtain ⟨t, hexec, h, -⟩ := trayInputLoss_switches hmv hvbak hebb
    exact ⟨t, hexec, hswitched h⟩
  · obtain ⟨t, hexec, -, h⟩ := trayInputLoss_switches hmv hvbak hebb
    exact ⟨t, hexec, h⟩

end Sys2Proof.Machine
end

section
/-! The boot up to its third step: release of the reset, the firmware image, the first rail (R362, R384, R432, R441). -/
namespace Sys2Proof.Machine

/-! ### What a step of the boot changes -/

/-- Only registers and the state of the power controller differ. -/
def PowerOnly (s t : State) : Prop :=
  t = { s with regs := t.regs, src := t.src, outbox := t.outbox, waiting := t.waiting, power := t.power }

section
variable {s t u : State}

theorem State.journalPut_eq (s : State) {type : Nat} (htype : type ≠ 5) (body : List Word) :
    ∃ j, s.journalPut type body = { s with journal := j } ∧ j.nextA = s.journal.nextA + 1 := by
  unfold State.journalPut
  dsimp only
  rw [if_neg htype]
  exact ⟨_, rfl, rfl⟩

theorem PowerOnly.of_onlyRegs (h : OnlyRegs s t) : PowerOnly s t := by
  unfold OnlyRegs at h
  unfold PowerOnly
  rw [h]

theorem PowerOnly.refl (s : State) : PowerOnly s s := rfl

theorem PowerOnly.withPower (h : PowerOnly s t) (p : Power) : PowerOnly s { t with power := p } := by
  unfold PowerOnly at h ⊢
  rw [h]

theorem PowerOnly.onlyRegs (h : PowerOnly s t) (h' : OnlyRegs t u) : PowerOnly s u := by
  unfold OnlyRegs at h'
  unfold PowerOnly at h ⊢
  rw [h', h]

theorem PowerOnly.trans (h : PowerOnly s t) (h' : PowerOnly t u) : PowerOnly s u := by
  unfold PowerOnly at h h' ⊢
  rw [h', h]

theorem PowerOnly.setF (h : PowerOnly s t) (off lo len v : Nat) : PowerOnly s (t.setF off lo len v) :=
  h.onlyRegs ((OnlyRegs.refl t).setF _ _ _ _)

theorem PowerOnly.setB (h : PowerOnly s t) (off i : Nat) (b : Bool) : PowerOnly s (t.setB off i b) :=
  h.onlyRegs ((OnlyRegs.refl t).setB _ _ _)

theorem PowerOnly.keeps (h : PowerOnly s t) : t.tiles = s.tiles ∧ t.seqs = s.seqs ∧ t.mem = s.mem ∧ t.images = s.images
    ∧ t.journal = s.journal ∧ t.streams = s.streams ∧ t.keys = s.keys ∧ t.press = s.press := by
  unfold PowerOnly at h
  rw [h]
  exact ⟨rfl, rfl, rfl, rfl, rfl, rfl, rfl, rfl⟩

theorem PowerOnly.diesReset (h : PowerOnly s t) (hdies : DiesReset s) : DiesReset t := by
  unfold PowerOnly at h
  rw [h]
  exact hdies

end

theorem RegsBut.withPower {offs : List Nat} {s t : State} (h : RegsBut offs s t) (p : Power) :
    RegsBut offs s { t with power := p } := h

section
variable (s : State)

theorem setPwr_facts (n : Nat) : RegsBut [aPwrStatus] s (setPwr n s) ∧ (setPwr n s).f aPwrStatus 28 4 = n % 2 ^ 4
    ∧ (∀ i < 28, (setPwr n s).bit aPwrStatus i = s.bit aPwrStatus i) ∧ OnlyRegs s (setPwr n s)
    ∧ (setPwr n s).power = s.power :=
  ⟨(RegsBut.refl _ s).setF List.mem_cons_self _ _ _, State.f_setF_same s _ _ (by omega),
    fun i hi => State.bit_setF_of_disjoint s _ _ _ (by omega) (by omega), (OnlyRegs.refl s).setF _ _ _ _, State.setF_power ..⟩

theorem State.f_withPower (t : State) (p : Power) (j lo len : Nat) : { t with power := p }.f j lo len = t.f j lo len := rfl
theorem State.bit_withPower (t : State) (p : Power) (j i : Nat) : { t with power := p }.bit j i = t.bit j i := rfl

theorem bootStage_facts (n : Nat) : RegsBut [aBootStatus] s (bootStage n s) ∧ (bootStage n s).f aBootStatus 28 4 = n % 2 ^ 4
    ∧ (∀ i < 28, (bootStage n s).bit aBootStatus i = s.bit aBootStatus i) ∧ PowerOnly s (bootStage n s)
    ∧ (bootStage n s).power = { s.power with boot := n } := by
  have hregs : RegsBut [aBootStatus] s (s.setF aBootStatus 28 4 n) := (RegsBut.refl _ s).setF List.mem_cons_self _ _ _
  have hf : (s.setF aBootStatus 28 4 n).f aBootStatus 28 4 = n % 2 ^ 4 := State.f_setF_same s _ _ (by omega)
  have hbit : ∀ i < 28, (s.setF aBootStatus 28 4 n).bit aBootStatus i = s.bit aBootStatus i := fun i hi =>
    State.bit_setF_of_disjoint s _ _ _ (by omega) (by omega)
  have hpower : (s.setF aBootStatus 28 4 n).power = s.power := State.setF_power ..
  have honly : PowerOnly s (s.setF aBootStatus 28 4 n) := (PowerOnly.refl s).setF _ _ _ _
  unfold bootStage
  generalize s.setF aBootStatus 28 4 n = u at *
  exact ⟨hregs.withPower _, (State.f_withPower ..).trans hf, fun i hi => (State.bit_withPower ..).trans (hbit i hi),
    honly.withPower _, rfl⟩

/-- The boot has reached a step. -/
def AtStage (n : Nat) (t : State) : Prop := t.f aBootStatus 28 4 = n ∧ t.power.boot = n

theorem bootStage_at {n : Nat} (hn : n < 16) : AtStage n (bootStage n s) := by
  obtain ⟨-, hf, -, -, hpower⟩ := bootStage_facts s n
  exact ⟨hf.trans (Nat.mod_eq_of_lt hn), by rw [hpower]⟩

variable {s} in
theorem AtStage.signal {n : Nat} {t : State} (h : AtStage n t) : AtStage n (signal s t) := by
  obtain ⟨h1, h2⟩ := h
  exact ⟨(signal_f ..).trans h1, by rw [signal_power, h2]⟩

/-! ### Failure (R384) -/

/-- The boot has failed with a code: the fabric is dark, the keel alone runs. -/
def BootFailed (s : State) (code : Nat) (t : State) : Prop :=
  t.f aBootStatus 28 4 = 10 ∧ t.f aBootStatus 16 8 = code ∧ t.power.boot = 0 ∧ t.bit aPwrStatus 25 = false ∧ t.tiles = []
    ∧ t.f aPwrStatus 28 4 = (if s.bit aPwrStatus 24 then 4 else 3)

theorem fabricOff_boot : (fabricOff s).power.boot = 0 := by rw [fabricOff_eq]; rfl

theorem bootFail_fails {code : Nat} (hcode : code < 256) : BootFailed s code (signal s (bootFail code s)) := by
  obtain ⟨hdies, hon, -⟩ := fabricOff_facts s
  have hboot := fabricOff_boot s
  have hdef : bootFail code s = setPwr (if s.bit aPwrStatus 24 then 4 else 3)
      (((fabricOff s).setF aBootStatus 28 4 10).setF aBootStatus 16 8 code) := rfl
  rw [hdef]
  unfold BootFailed
  generalize fabricOff s = u at *
  have hn : (if s.bit aPwrStatus 24 then 4 else 3) < 2 ^ 4 := by split <;> omega
  generalize (if s.bit aPwrStatus 24 then 4 else 3) = n at *
  have hstage : ((u.setF aBootStatus 28 4 10).setF aBootStatus 16 8 code).f aBootStatus 28 4 = 10 :=
    (State.f_setF_of_disjoint (u.setF aBootStatus 28 4 10) _ _ _ (by omega) (by omega)).trans (State.f_setF_same u _ _ (by omega))
  have hcode' : ((u.setF aBootStatus 28 4 10).setF aBootStatus 16 8 code).f aBootStatus 16 8 = code :=
    (State.f_setF_same _ _ _ (by omega)).trans (Nat.mod_eq_of_lt hcode)
  have hregs : RegsBut [aBootStatus] u ((u.setF aBootStatus 28 4 10).setF aBootStatus 16 8 code) :=
    ((RegsBut.refl _ u).setF List.mem_cons_self _ _ _).setF List.mem_cons_self _ _ _
  have honly : PowerOnly u ((u.setF aBootStatus 28 4 10).setF aBootStatus 16 8 code) := ((PowerOnly.refl u).setF _ _ _ _).setF _ _ _ _
  have hpower : ((u.setF aBootStatus 28 4 10).setF aBootStatus 16 8 code).power = u.power := by
    rw [State.setF_power, State.setF_power]
  generalize (u.setF aBootStatus 28 4 10).setF aBootStatus 16 8 code = v at *
  obtain ⟨hregs', hpwr, hbits, honly', hpower'⟩ := setPwr_facts v n
  obtain ⟨-, -, htiles, -⟩ := (honly.onlyRegs honly').diesReset hdies
  refine ⟨?_, ?_, ?_, ?_, ?_, ?_⟩
  · rw [signal_f, hregs'.f_eq (by decide), hstage]
  · rw [signal_f, hregs'.f_eq (by decide), hcode']
  · rw [signal_power, hpower', hpower, hboot]
  · rw [signal_bit, hbits 25 (by omega), hregs.bit_eq (by decide), hon]
  · rw [signal_tiles, htiles]
  · rw [signal_f, hpwr, Nat.mod_eq_of_lt hn]

/-! ### Release of the reset (R432) -/

/-- The clock and power status at the release of the reset. -/
def porClocks : State := ((s.setB aClkStatus 5 true).setB aClkStatus 4 true).setB aPwrStatus 25 false

theorem porClocks_facts : OnlyRegs s (porClocks s) ∧ (porClocks s).bit aClkStatus 5 = true ∧ (porClocks s).bit aClkStatus 4 = true
    ∧ (porClocks s).bit aPwrStatus 25 = false := by
  have hne : aClkStatus ≠ aPwrStatus := by decide
  unfold porClocks
  refine ⟨(((OnlyRegs.refl s).setB _ _ _).setB _ _ _).setB _ _ _, ?_, ?_, State.bit_setB_same _ _ false (by omega)⟩
  · rw [State.bit_setB_ne _ hne, State.bit_setB_of_ne (s.setB aClkStatus 5 true) (by omega) (by omega)]
    exact State.bit_setB_same s _ true (by omega)
  · rw [State.bit_setB_ne _ hne]
    exact State.bit_setB_same (s.setB aClkStatus 5 true) _ true (by omega)

theorem porRelease_begins (smb : BitVec 2) : ∃ t, exec (.porRelease smb) s = .next t ∧ t.power.smb = smb.toNat
    ∧ t.power.boot = 1 ∧ t.f aBootStatus 28 4 = 1 ∧ t.f aPwrStatus 28 4 = 3 ∧ t.bit aPwrStatus 25 = false
    ∧ t.bit aClkStatus 5 = true ∧ t.bit aClkStatus 4 = true ∧ t.streams = [] ∧ t.tiles = [] ∧ t.images = []
    ∧ t.journal.nextA = s.journal.nextA + 1 := by
  obtain ⟨c, hc⟩ : ∃ c, (coldState s).journalPut 2 [0] = c := ⟨_, rfl⟩
  obtain ⟨hdies, hjournal⟩ : DiesReset c ∧ c.journal.nextA = s.journal.nextA + 1 := by
    have hcold := coldState_resets s
    have hkept : (coldState s).journal = s.journal := rfl
    obtain ⟨j, hj, hnext⟩ := State.journalPut_eq (coldState s) (type := 2) (by omega) [0]
    rw [← hc, hj]
    exact ⟨hcold, by rw [← hkept]; exact hnext⟩
  obtain ⟨v, hv⟩ : ∃ v, bootStage 1 (setPwr 3 (porClocks c)) = v := ⟨_, rfl⟩
  have hexec : exec (.porRelease smb) s = .next (signal s { v with power := { v.power with smb := smb.toNat, railEn := 0 } }) := by
    rw [← hv, ← hc]
    rfl
  refine ⟨_, hexec, ?_⟩
  obtain ⟨honly, h5, h4, h25⟩ := porClocks_facts c
  generalize porClocks c = p at *
  obtain ⟨hregs', hpwr, hbits, honly', -⟩ := setPwr_facts p 3
  generalize setPwr 3 p = q at *
  obtain ⟨hregs'', hstage, -, honly'', hpower⟩ := bootStage_facts q 1
  rw [hv] at hregs'' hstage honly'' hpower
  have hall : PowerOnly c v := ((PowerOnly.of_onlyRegs honly).onlyRegs honly').trans honly''
  obtain ⟨hstreams, -, htiles, -, -, himages, -⟩ := hall.diesReset hdies
  obtain ⟨-, -, -, -, hj, -⟩ := hall.keeps
  refine ⟨?_, ?_, ?_, ?_, ?_, ?_, ?_, ?_, ?_, ?_, ?_⟩
  · rw [signal_power]
  · rw [signal_power]
    dsimp only
    rw [hpower]
  · rw [signal_f, State.f_withPower, hstage]
    rfl
  · rw [signal_f, State.f_withPower, hregs''.f_eq (by decide), hpwr]
    rfl
  · rw [signal_bit, State.bit_withPower, hregs''.bit_eq (by decide), hbits 25 (by omega), h25]
  · rw [signal_bit, State.bit_withPower, hregs''.bit_eq (by decide), hregs'.bit_eq (by decide), h5]
  · rw [signal_bit, State.bit_withPower, hregs''.bit_eq (by decide), hregs'.bit_eq (by decide), h4]
  · rw [signal_streams]
    exact hstreams
  · rw [signal_tiles]
    exact htiles
  · rw [signal_images]
    exact himages
  · rw [signal_journal]
    dsimp only
    rw [hj, hjournal]

end

/-! ### The firmware image (R384) -/

section
variable {okA okB : Bool} {fw : Word} {s : State}

theorem firmwareVerified_fails (hboot : s.power.boot = 1) (hA : okA = false) (hB : okB = false) :
    ∃ t, exec (.firmwareVerified okA okB fw) s = .next t ∧ BootFailed s 1 t := by
  refine ⟨_, ?_, bootFail_fails s (by omega)⟩
  change execFirmwareVerified okA okB fw s = _
  simp only [execFirmwareVerified, hboot, hA, hB, ne_eq, not_true_eq_false, if_false, Bool.not_false, Bool.and_self, if_true, done]

theorem firmwareVerified_runs (hboot : s.power.boot = 1) (hok : okA = true ∨ okB = true) (hpin : s.power.rstHeld = false) :
    ∃ t, exec (.firmwareVerified okA okB fw) s = .next t ∧ AtStage 2 t ∧ t.power.fw = fw ∧ t.bit aBootStatus 8 = !okA := by
  have hsome : (!okA && !okB) = false := by
    rcases hok with h | h <;> simp [h]
  obtain ⟨p, hp, hfw⟩ : ∃ p : Power, p = { (s.setB aBootStatus 8 (!okA)).power with
      fw := fw, boot := 2, fwA := if okA then (fw, true) else (s.power.fwA.1, false),
      fwB := if okA then s.power.fwB else (fw, true) } ∧ p.fw = fw := ⟨_, rfl, rfl⟩
  have hexec : exec (.firmwareVerified okA okB fw) s
      = .next (signal s (bootStage 2 { s.setB aBootStatus 8 (!okA) with power := p })) := by
    change execFirmwareVerified okA okB fw s = _
    simp only [execFirmwareVerified, hboot, hsome, hpin, ne_eq, not_true_eq_false, Bool.false_eq_true, if_false, done, hp]
  have hbit : (s.setB aBootStatus 8 (!okA)).bit aBootStatus 8 = !okA := State.bit_setB_same s _ _ (by omega)
  generalize s.setB aBootStatus 8 (!okA) = u at *
  obtain ⟨-, -, hbits, -, hpower⟩ := bootStage_facts { u with power := p } 2
  refine ⟨_, hexec, (bootStage_at _ (by omega)).signal, ?_, ?_⟩
  · rw [signal_power, hpower]
    exact hfw
  · rw [signal_bit, hbits 8 (by omega), State.bit_withPower, hbit]

/-! ### RST_N (R441), and the first rail (R362) -/

theorem rstNRise_begins (hboot : s.power.boot = 2) (hpin : s.power.rstHeld = true) :
    ∃ t, exec .rstNRise s = .next t ∧ AtStage 2 t := by
  refine ⟨_, ?_, (bootStage_at { s with power := { s.power with rstHeld := false } } (n := 2) (by omega)).signal (s := s)⟩
  · change execRstNRise s = _
    simp only [execRstNRise, hboot, hpin, when_, if_true, done]

theorem keelFirmwareReady_held (hpin : s.power.rstHeld = true) : exec .keelFirmwareReady s = .next s := by
  change execKeelFirmwareReady s = _
  simp only [execKeelFirmwareReady, hpin, Bool.not_true, Bool.and_false, Bool.not_false, if_true, idle]

/-- The registers of a boot's third step. -/
def bootCleared (u : State) : State :=
  (((u.setF aBootStatus 28 4 3).setF aBootStatus 16 8 0).setF aBootStatus 0 8 0).setB aGlobalStatus 28 false

theorem bootStart_facts (u : State) : AtStage 3 (bootStart u) ∧ (bootStart u).power.rail = 0 ∧ (bootStart u).power.railEn = 1
    ∧ PowerOnly u (bootStart u) := by
  have hf : (bootCleared u).f aBootStatus 28 4 = 3 := by
    refine (State.f_setB_ne _ (by decide) _ _ _ _).trans ?_
    refine (State.f_setF_of_disjoint ((u.setF aBootStatus 28 4 3).setF aBootStatus 16 8 0) _ _ _ (by omega) (by omega)).trans ?_
    exact (State.f_setF_of_disjoint (u.setF aBootStatus 28 4 3) _ _ _ (by omega) (by omega)).trans (State.f_setF_same u _ _ (by omega))
  have honly : PowerOnly u (bootCleared u) := ((((PowerOnly.refl u).setF _ _ _ _).setF _ _ _ _).setF _ _ _ _).setB _ _ _
  have hdef : bootStart u = { bootCleared u with power :=
      { (bootCleared u).power with boot := 3, rail := 0, railEn := 1, trip := false } } := rfl
  rw [hdef]
  generalize bootCleared u = v at *
  exact ⟨⟨(State.f_withPower ..).trans hf, rfl⟩, rfl, rfl, honly.withPower _⟩

theorem flashKeys_only (s : State) : ∃ k, flashKeys s = { s with keys := k } := by
  unfold flashKeys
  split
  · exact ⟨s.keys, rfl⟩
  · refine each_keep (fun t : State => ∃ k, t = { s with keys := k }) _ (fun t j h => ?_) _ s ⟨s.keys, rfl⟩
    obtain ⟨k, hk⟩ := h
    split
    · split
      · rw [hk]
        exact ⟨_, rfl⟩
      · exact ⟨k, hk⟩
    · exact ⟨k, hk⟩

theorem keelFirmwareReady_begins (hboot : s.power.boot = 2) (hpin : s.power.rstHeld = false) (hoff : s.bit aPwrStatus 25 = false) :
    ∃ t, exec .keelFirmwareReady s = .next t ∧ AtStage 3 t ∧ t.power.railEn = 1 ∧ t.power.rail = 0
      ∧ t.journal.nextA = s.journal.nextA + 1 := by
  obtain ⟨u, hu⟩ : ∃ u, flashKeys (s.journalPut 6 [s.power.fw]) = u := ⟨_, rfl⟩
  have hnext : u.journal.nextA = s.journal.nextA + 1 := by
    obtain ⟨k, hk⟩ := flashKeys_only (s.journalPut 6 [s.power.fw])
    rw [← hu, hk]
    rfl
  have hexec : exec .keelFirmwareReady s = .next (signal s (bootStart u)) := by
    change execKeelFirmwareReady s = _
    simp only [execKeelFirmwareReady, hboot, hpin, State.fabricOn, hoff, hu, decide_true, Bool.not_false, Bool.and_self, Bool.not_true,
      Bool.false_and, Bool.false_eq_true, if_false, done]
  obtain ⟨hat, hrail, hen, honly⟩ := bootStart_facts u
  obtain ⟨-, -, -, -, hj, -⟩ := honly.keeps
  refine ⟨_, hexec, hat.signal, ?_, ?_, ?_⟩
  · rw [signal_power, hen]
  · rw [signal_power, hrail]
  · rw [signal_journal, hj, hnext]

end

end Sys2Proof.Machine
end

section
/-! The boot from the rails to RUN (R88, R264, R299, R362, R374, R383). -/
namespace Sys2Proof.Machine

/-! ### Rails and PLLs (R362, R374) -/

section
variable {k : Fin 4} {s : State}

theorem railPowerGood_next (hboot : s.power.boot = 3) (hrail : s.power.rail = k.val) (hk : k.val < 3) :
    ∃ t, exec (.railPowerGood k) s = .next t ∧ t.power.rail = k.val + 1 ∧ t.power.railEn = s.power.railEn + 2 ^ (k.val + 1)
      ∧ t.regs = s.regs := by
  refine ⟨signal s { s with power := { s.power with rail := k.val + 1, railEn := s.power.railEn + 2 ^ (k.val + 1) } }, ?_, ?_, ?_,
    signal_regs ..⟩
  · change execRailPowerGood k s = _
    simp only [execRailPowerGood, hboot, hrail, decide_true, Bool.and_self, Bool.not_true, Bool.false_eq_true, if_false,
      show k.val ≠ 3 by omega, done]
  · rw [signal_power]
  · rw [signal_power]

theorem railPowerGood_last (hboot : s.power.boot = 3) (hrail : s.power.rail = k.val) (hk : k.val = 3) :
    ∃ t, exec (.railPowerGood k) s = .next t ∧ AtStage 4 t ∧ t.bit aPwrStatus 25 = true := by
  have hon : (s.setB aPwrStatus 25 true).bit aPwrStatus 25 = true := State.bit_setB_same s _ _ (by omega)
  have hexec : exec (.railPowerGood k) s = .next (signal s (bootStage 4 (s.setB aPwrStatus 25 true))) := by
    change execRailPowerGood k s = _
    simp only [execRailPowerGood, hboot, hrail, hk, decide_true, Bool.and_self, Bool.not_true, Bool.false_eq_true, if_false, if_true,
      done]
  generalize s.setB aPwrStatus 25 true = u at *
  obtain ⟨hregs, -⟩ := bootStage_facts u 4
  refine ⟨_, hexec, (bootStage_at u (by omega)).signal, ?_⟩
  rw [signal_bit, hregs.bit_eq (by decide), hon]

theorem railPgTimeout_fails (hboot : s.power.boot = 3) (hrail : s.power.rail = k.val) :
    ∃ t, exec (.railPgTimeout k) s = .next t ∧ BootFailed s 2 t := by
  refine ⟨_, ?_, bootFail_fails s (by omega)⟩
  change execRailPgTimeout k s = _
  simp only [execRailPgTimeout, hboot, hrail, decide_true, Bool.and_self, when_, if_true, done]

/-- Both PLLs are locked. -/
def pllsLocked (s : State) : State := (s.setB aClkStatus 0 true).setB aClkStatus 1 true

theorem pllsLocked_facts (s : State) : RegsBut [aClkStatus] s (pllsLocked s) ∧ (pllsLocked s).bit aClkStatus 0 = true
    ∧ (pllsLocked s).bit aClkStatus 1 = true := by
  unfold pllsLocked
  refine ⟨((RegsBut.refl _ s).setB List.mem_cons_self _ _).setB List.mem_cons_self _ _, ?_, State.bit_setB_same _ _ true (by omega)⟩
  rw [State.bit_setB_of_ne (s.setB aClkStatus 0 true) (by omega) (by omega)]
  exact State.bit_setB_same s _ true (by omega)

theorem pllApply_facts (s : State) : RegsBut [aClkFcPll] s (pllApply s) ∧ (pllApply s).f aClkFcPll 16 6 = s.f aClkFcPll 0 6 :=
  ⟨(RegsBut.refl _ s).setF List.mem_cons_self _ _ _,
    (State.f_setF_same s _ _ (by omega)).trans (Nat.mod_eq_of_lt (nbits_lt _ 0 6))⟩

theorem pllLock_locks (hboot : s.power.boot = 4) : ∃ t, exec .pllLock s = .next t ∧ AtStage 5 t ∧ t.bit aClkStatus 0 = true
    ∧ t.bit aClkStatus 1 = true ∧ t.f aClkFcPll 16 6 = s.f aClkFcPll 0 6 := by
  have hexec : exec .pllLock s = .next (signal s (bootStage 5 (pllApply (pllsLocked s)))) := by
    change execPllLock s = _
    simp only [execPllLock, hboot, decide_true, when_, if_true, done]
    rfl
  obtain ⟨hregs, h0, h1⟩ := pllsLocked_facts s
  generalize pllsLocked s = u at *
  obtain ⟨hregs', hn⟩ := pllApply_facts u
  generalize pllApply u = v at *
  obtain ⟨hregs'', -⟩ := bootStage_facts v 5
  refine ⟨_, hexec, (bootStage_at v (by omega)).signal, ?_, ?_, ?_⟩
  · rw [signal_bit, hregs''.bit_eq (by decide), hregs'.bit_eq (by decide), h0]
  · rw [signal_bit, hregs''.bit_eq (by decide), hregs'.bit_eq (by decide), h1]
  · rw [signal_f, hregs''.f_eq (by decide), hn, hregs.f_eq (by decide)]

/-! ### The scrub (R88, R264, R383) -/

/-- Tile stores, sequencer memories and the basin hold zero with valid check bits. -/
def bootScrubbed (s : State) : State :=
  { s with tiles := s.tiles.map (fun p => (p.1, { p.2 with store := Ram.init })),
           seqs := s.seqs.map (fun p => (p.1, { p.2 with mem := [], ecc := [] })), mem := { s.mem with basin := Ram.init } }

theorem tget_map_of_all {α β : Type} {P : β → Prop} {d : β} (f : α → β) (hd : P d) (hf : ∀ x, P (f x)) (l : Tab α) (k : Nat) :
    P (tget d (l.map (fun p => (p.1, f p.2))) k) := by
  induction l with
  | nil => exact hd
  | cons p l ih =>
    by_cases h : k = p.1
    · simpa [tget, h] using hf p.2
    · simpa [tget, h] using ih

theorem bootScrubComplete_scrubs (hboot : s.power.boot = 5) : ∃ t, exec .bootScrubComplete s = .next t ∧ AtStage 6 t
    ∧ t.mem.basin = Ram.init ∧ (∀ i, (t.tile i).store = Ram.init) ∧ ∀ g, (t.seq g).mem = [] ∧ (t.seq g).ecc = [] := by
  have hexec : exec .bootScrubComplete s = .next (signal s (bootStage 6 (bootScrubbed s))) := by
    change execBootScrubComplete s = _
    simp only [execBootScrubComplete, hboot, decide_true, when_, if_true, done]
    rfl
  have hbasin : (bootScrubbed s).mem.basin = Ram.init := rfl
  have hstore : ∀ i, ((bootScrubbed s).tile i).store = Ram.init := fun i =>
    tget_map_of_all (P := fun x : Tile => x.store = Ram.init) (fun x : Tile => { x with store := Ram.init }) rfl (fun _ => rfl) s.tiles i
  have hseq : ∀ g, ((bootScrubbed s).seq g).mem = [] ∧ ((bootScrubbed s).seq g).ecc = [] := fun g =>
    tget_map_of_all (P := fun x : Seq => x.mem = [] ∧ x.ecc = []) (fun x : Seq => { x with mem := [], ecc := [] }) ⟨rfl, rfl⟩
      (fun _ => ⟨rfl, rfl⟩) s.seqs g
  generalize bootScrubbed s = u at *
  obtain ⟨-, -, -, honly, -⟩ := bootStage_facts u 6
  obtain ⟨htiles, hseqs, hmem, -⟩ := honly.keeps
  refine ⟨_, hexec, (bootStage_at u (by omega)).signal, ?_, fun i => ?_, fun g => ?_⟩
  · rw [signal_mem, hmem, hbasin]
  · rw [signal_tile, State.tile, htiles]
    exact hstore i
  · rw [signal_seq, State.seq, hseqs]
    exact hseq g

/-! ### DRAM training and the boot policy (R299, R383) -/

/-- What the boot policy leaves as it is. -/
structure PolicyKept (s t : State) : Prop where
  dram : t.mem.dram = s.mem.dram
  touched : t.mem.touched = s.mem.touched
  power : t.power = s.power
  pwr : t.rd aPwrStatus = s.rd aPwrStatus
  memStatus : t.rd aMemDramStatus = s.rd aMemDramStatus

section
variable {s t u : State}

theorem PolicyKept.refl (s : State) : PolicyKept s s := ⟨rfl, rfl, rfl, rfl, rfl⟩

theorem PolicyKept.trans (h : PolicyKept s t) (h' : PolicyKept t u) : PolicyKept s u :=
  ⟨h'.dram.trans h.dram, h'.touched.trans h.touched, h'.power.trans h.power, h'.pwr.trans h.pwr, h'.memStatus.trans h.memStatus⟩

theorem PolicyKept.of_only {offs : List Nat} (honly : OnlyRegs s t) (hregs : RegsBut offs s t) (hpwr : aPwrStatus ∉ offs)
    (hmem : aMemDramStatus ∉ offs) : PolicyKept s t := by
  unfold OnlyRegs at honly
  refine ⟨?_, ?_, ?_, hregs _ hpwr, hregs _ hmem⟩ <;> rw [honly]

theorem PolicyKept.basinPut (s : State) (a : Nat) (bs : List Byte) : PolicyKept s (s.basinPut a bs) := by
  obtain ⟨r, honly, hregs⟩ := s.basinPut_stores a bs
  unfold OnlyRegs at honly
  refine ⟨?_, ?_, ?_, hregs _ (by decide), hregs _ (by decide)⟩ <;> rw [honly]

theorem PolicyKept.layFinish (s : State) (reason : Nat) : PolicyKept s (layFinish reason s) := by
  have h : PolicyKept s { s with layOp := none } := ⟨rfl, rfl, rfl, rfl, rfl⟩
  unfold Machine.layFinish
  dsimp only
  generalize { s with layOp := none } = u at *
  exact h.trans (.of_only (offs := [aLayoutStatus])
    (((((OnlyRegs.refl u).setB _ _ _).setF _ _ _ _).setB _ _ _).setB _ _ _)
    (((((RegsBut.refl _ u).setB List.mem_cons_self _ _).setF List.mem_cons_self _ _ _).setB List.mem_cons_self _ _).setB
      List.mem_cons_self _ _) (by decide) (by decide))

theorem PolicyKept.bootImage (s : State) (p : Fin 8 × PkgHeader × Bool × Sections) : PolicyKept s (bootImage s p) := by
  obtain ⟨k, h, sig, secs⟩ := p
  have hslot : PolicyKept s (s.setF aLayoutStatus 8 3 k.val) :=
    .of_only (offs := [aLayoutStatus]) ((OnlyRegs.refl s).setF _ _ _ _) ((RegsBut.refl _ s).setF List.mem_cons_self _ _ _)
      (by decide) (by decide)
  unfold Machine.bootImage
  dsimp only
  generalize s.setF aLayoutStatus 8 3 k.val = u at *
  split
  · exact hslot.trans (.layFinish u 1)
  · split
    · exact hslot.trans (.layFinish u _)
    · have hplace : PolicyKept u (placeImage k.val h (checkImage k.val h secs u).2 u) := ⟨rfl, rfl, rfl, rfl, rfl⟩
      generalize placeImage k.val h (checkImage k.val h secs u).2 u = v at *
      have hfinish := PolicyKept.layFinish v 0
      generalize Machine.layFinish 0 v = w at *
      exact ((hslot.trans hplace).trans hfinish).trans (.of_only (offs := [aBootStatus]) ((OnlyRegs.refl w).setB _ _ _)
        ((RegsBut.refl _ w).setB List.mem_cons_self _ _) (by decide) (by decide))

end

/-- DRAM is trained: no page of it is touched. -/
def dramTrained (s : State) : State :=
  { s with mem := { s.mem with dram := Ram.init, touched := [], fills := [] } }.setB aMemDramStatus 0 true

/-- The boot policy has acted. -/
def policyActed (pol : BootPolicy) (t : State) : State :=
  each pol.images (each pol.jobTable t (fun t p => t.basinPut (t.partBase 2 + p.1) [p.2])) Machine.bootImage

theorem policyActed_keeps (pol : BootPolicy) (s : State) : PolicyKept s (policyActed pol s) := by
  refine each_keep (PolicyKept s) _ (fun t p h => h.trans (.bootImage t p)) _ _ ?_
  exact each_keep (PolicyKept s) _ (fun t p h => h.trans (.basinPut t _ _)) _ s (.refl s)

/-- Nothing of the boot is in progress. -/
def bootOver (t : State) : State := { bootStage 9 t with power := { (bootStage 9 t).power with boot := 0, before := 0 } }

theorem bootOver_facts (t : State) : RegsBut [aBootStatus] t (bootOver t) ∧ (bootOver t).f aBootStatus 28 4 = 9
    ∧ (bootOver t).power.boot = 0 ∧ (bootOver t).mem = t.mem := by
  obtain ⟨hregs, hf, -, honly, -⟩ := bootStage_facts t 9
  obtain ⟨-, -, hmem, -⟩ := honly.keeps
  unfold bootOver
  generalize bootStage 9 t = u at *
  exact ⟨hregs.withPower _, (State.f_withPower ..).trans hf, rfl, hmem⟩

theorem dramTrainingComplete_runs (pol : BootPolicy) (hboot : s.power.boot = 6) :
    ∃ t, exec (.dramTrainingComplete pol) s = .next t ∧ t.f aBootStatus 28 4 = 9 ∧ t.power.boot = 0
      ∧ t.bit aMemDramStatus 0 = true ∧ t.mem.touched = [] ∧ t.mem.dram = Ram.init
      ∧ (s.bit aPwrStatus 24 = false → t.f aPwrStatus 28 4 = 0) := by
  have htrained : (dramTrained s).mem.dram = Ram.init ∧ (dramTrained s).mem.touched = []
      ∧ (dramTrained s).bit aMemDramStatus 0 = true := by
    unfold dramTrained
    exact ⟨rfl, rfl, State.bit_setB_same _ _ _ (by omega)⟩
  obtain ⟨t, ht⟩ : ∃ t, bootOver (policyActed pol (dramTrained s)) = t := ⟨_, rfl⟩
  have hexec : exec (.dramTrainingComplete pol) s = .next (signal s (if s.bit aPwrStatus 24 then t else setPwr 0 t)) := by
    rw [← ht]
    change execDramTrainingComplete pol s = _
    simp only [execDramTrainingComplete, hboot, ne_eq, not_true_eq_false, if_false, done]
    rfl
  obtain ⟨hdram, htouched, htrain⟩ := htrained
  generalize dramTrained s = d at *
  have hpolicy := policyActed_keeps pol d
  generalize policyActed pol d = p at *
  obtain ⟨hregs, hstage, hover, hmem⟩ := bootOver_facts p
  rw [ht] at hregs hstage hover hmem
  have htrained' : t.bit aMemDramStatus 0 = true := by
    rw [hregs.bit_eq (by decide), State.bit_congr hpolicy.memStatus, htrain]
  have htouched' : t.mem.touched = [] := by rw [hmem, hpolicy.touched, htouched]
  have hdram' : t.mem.dram = Ram.init := by rw [hmem, hpolicy.dram, hdram]
  by_cases hvbak : s.bit aPwrStatus 24 = true
  · rw [if_pos hvbak] at hexec
    refine ⟨_, hexec, ?_, ?_, ?_, ?_, ?_, fun h => absurd h (by rw [hvbak]; decide)⟩
    · rw [signal_f, hstage]
    · rw [signal_power, hover]
    · rw [signal_bit, htrained']
    · rw [signal_mem, htouched']
    · rw [signal_mem, hdram']
  · rw [if_neg hvbak] at hexec
    obtain ⟨hregs', hpwr, -, honly, hpower⟩ := setPwr_facts t 0
    refine ⟨_, hexec, ?_, ?_, ?_, ?_, ?_, fun _ => ?_⟩
    · rw [signal_f, hregs'.f_eq (by decide), hstage]
    · rw [signal_power, hpower, hover]
    · rw [signal_bit, hregs'.bit_eq (by decide), htrained']
    · rw [signal_mem, honly.mem, htouched']
    · rw [signal_mem, honly.mem, hdram']
    · rw [signal_f, hpwr]
      rfl

end

/-- Settles O52: one rule for each event of the boot. -/
theorem boot : Obligations.Boot := by
  unfold Obligations.Boot
  intro smb okA okB fw k pol s
  dsimp only
  have hsplit : ∀ {c : Instr} {n : Nat} {Q : State → Prop}, (∃ t, exec c s = .next t ∧ AtStage n t ∧ Q t) →
      (∃ t, exec c s = .next t ∧ t.f aBootStatus 28 4 = n ∧ t.power.boot = n) ∧ ∃ t, exec c s = .next t ∧ Q t := by
    intro c n Q h
    obtain ⟨t, hexec, hat, hq⟩ := h
    exact ⟨⟨t, hexec, hat⟩, t, hexec, hq⟩
  refine ⟨porRelease_begins s smb, fun hboot => ⟨fun hA hB => firmwareVerified_fails hboot hA hB,
    fun hok hpin => hsplit (firmwareVerified_runs hboot hok hpin)⟩,
    fun hboot hpin => ⟨rstNRise_begins hboot hpin, keelFirmwareReady_held hpin⟩,
    fun hboot hpin hoff => hsplit (keelFirmwareReady_begins hboot hpin hoff),
    fun hboot hrail => ⟨railPowerGood_next hboot hrail, fun hk => hsplit (railPowerGood_last hboot hrail hk),
      railPgTimeout_fails hboot hrail⟩,
    fun hboot => hsplit (pllLock_locks hboot), fun hboot => hsplit (bootScrubComplete_scrubs hboot),
    dramTrainingComplete_runs pol⟩

end Sys2Proof.Machine
end

section
/-! Power states, wakes and idle regions (R369 to R373). -/
namespace Sys2Proof.Machine

section
variable {s : State}

/-! ### Requests (R371, R372) -/

theorem exec_pwrTarget {c : Instr} {k : Nat} (hc : (c, k) ∈ [(Instr.pwrTargetDoze, 1), (.pwrTargetKeel, 2)]) :
    exec c s = .next (signal s (restRequest k s)) := by
  simp only [List.mem_cons, Prod.mk.injEq, List.not_mem_nil, or_false] at hc
  obtain ⟨rfl, rfl⟩ | ⟨rfl, rfl⟩ := hc
  · rfl
  · rfl

theorem pwrTarget_accepted (hrest : s.mayRest = true) : ∀ p ∈ [(Instr.pwrTargetDoze, 1), (.pwrTargetKeel, 2)],
    exec p.1 s = .next (signal s { s.setF aPwrCtl 0 4 p.2 with power := { s.power with target := some p.2 } }) := by
  intro p hp
  rw [exec_pwrTarget hp, restRequest, if_pos hrest]

theorem pwrTarget_refused (hrest : s.mayRest = false) : ∀ c ∈ [Instr.pwrTargetDoze, .pwrTargetKeel],
    exec c s = .next (signal s (s.setB aPwrStatus 22 true)) := by
  intro c hc
  obtain ⟨k, hk⟩ : ∃ k, (c, k) ∈ [(Instr.pwrTargetDoze, 1), (.pwrTargetKeel, 2)] := by
    simp only [List.mem_cons, List.not_mem_nil, or_false] at hc
    obtain rfl | rfl := hc
    · exact ⟨1, List.mem_cons_self⟩
    · exact ⟨2, List.mem_cons_of_mem _ List.mem_cons_self⟩
  rw [exec_pwrTarget hk, restRequest, if_neg (by rw [hrest]; decide)]

theorem dozeWake_facts (u : State) : (∀ j, (dozeWake u).rd j = u.rd j) ∧ (dozeWake u).power.target = u.power.target
    ∧ (dozeWake u).power.waking = (u.power.waking || decide (u.f aPwrStatus 28 4 = 2)) := by
  unfold dozeWake
  by_cases h : u.pwrState = 2
  · have hf : u.f aPwrStatus 28 4 = 2 := h
    rw [if_pos h, decide_eq_true hf, Bool.or_true]
    exact ⟨fun _ => rfl, rfl, rfl⟩
  · have hf : ¬ u.f aPwrStatus 28 4 = 2 := h
    rw [if_neg h, decide_eq_false hf, Bool.or_false]
    exact ⟨fun _ => rfl, rfl, rfl⟩

theorem pwrTargetRun_withdraws : ∃ t, exec .pwrTargetRun s = .next t ∧ t.f aPwrCtl 0 4 = 0 ∧ t.power.target = none
    ∧ RegsBut [aPwrCtl] s t ∧ t.power.waking = (s.power.waking || decide (s.f aPwrStatus 28 4 = 2)) := by
  obtain ⟨v, hv⟩ : ∃ v : State, { s.setF aPwrCtl 0 4 0 with power := { (s.setF aPwrCtl 0 4 0).power with target := none } } = v :=
    ⟨_, rfl⟩
  have hexec : exec .pwrTargetRun s = .next (signal s (dozeWake v)) := by
    rw [← hv]
    rfl
  have hregs : RegsBut [aPwrCtl] s (s.setF aPwrCtl 0 4 0) := (RegsBut.refl _ s).setF List.mem_cons_self _ _ _
  have hf : (s.setF aPwrCtl 0 4 0).f aPwrCtl 0 4 = 0 := State.f_setF_same s _ _ (by omega)
  have hpower : (s.setF aPwrCtl 0 4 0).power = s.power := State.setF_power ..
  generalize s.setF aPwrCtl 0 4 0 = u at *
  have hv' : (∀ j, v.rd j = u.rd j) ∧ v.power.target = none ∧ v.power.waking = s.power.waking := by
    rw [← hv, ← hpower]
    exact ⟨fun _ => rfl, rfl, rfl⟩
  obtain ⟨hrd, htarget, hwaking⟩ := hv'
  obtain ⟨hrd', htarget', hwaking'⟩ := dozeWake_facts v
  generalize dozeWake v = w at *
  have hregs' : RegsBut [aPwrCtl] s w := fun j hj => ((hrd' j).trans (hrd j)).trans (hregs j hj)
  refine ⟨_, hexec, ?_, ?_, hregs'.signal, ?_⟩
  · rw [signal_f, State.f_congr ((hrd' _).trans (hrd _)), hf]
  · rw [signal_power, htarget', htarget]
  · rw [signal_power, hwaking', hwaking, State.f_congr (hrd aPwrStatus), hregs.f_eq (by decide)]

/-! ### The state is reached (R372, R373) -/

/-- Both PLLs are unlocked. -/
def pllsOff (s : State) : State := (s.setB aClkStatus 0 false).setB aClkStatus 1 false

theorem pllsOff_facts (s : State) : RegsBut [aClkStatus] s (pllsOff s) ∧ (pllsOff s).bit aClkStatus 0 = false
    ∧ (pllsOff s).bit aClkStatus 1 = false ∧ OnlyRegs s (pllsOff s) := by
  unfold pllsOff
  refine ⟨((RegsBut.refl _ s).setB List.mem_cons_self _ _).setB List.mem_cons_self _ _, ?_, State.bit_setB_same _ _ false (by omega),
    ((OnlyRegs.refl s).setB _ _ _).setB _ _ _⟩
  rw [State.bit_setB_of_ne (s.setB aClkStatus 0 false) (by omega) (by omega)]
  exact State.bit_setB_same s _ false (by omega)

theorem powerStateReached_doze (htarget : s.power.target = some 1) : ∃ t, exec .powerStateReached s = .next t
    ∧ t.f aPwrStatus 28 4 = 2 ∧ t.power.target = none ∧ t.bit aClkStatus 0 = false ∧ t.bit aClkStatus 1 = false
    ∧ RegsBut [aPwrStatus, aClkStatus] s t ∧ t.tiles = s.tiles ∧ t.mem = s.mem ∧ t.images = s.images := by
  obtain ⟨v, hv⟩ : ∃ v : State, { s with power := { s.power with target := none } } = v := ⟨_, rfl⟩
  have hexec : exec .powerStateReached s = .next (signal s (setPwr 2 (pllsOff v))) := by
    rw [← hv]
    change execPowerStateReached s = _
    simp only [execPowerStateReached, htarget, if_true, done]
    rfl
  have hv' : (∀ j, v.rd j = s.rd j) ∧ v.power.target = none ∧ v.tiles = s.tiles ∧ v.mem = s.mem ∧ v.images = s.images := by
    rw [← hv]
    exact ⟨fun _ => rfl, rfl, rfl, rfl, rfl⟩
  obtain ⟨hrd, htarget', htiles, hmem, himages⟩ := hv'
  obtain ⟨hregs, h0, h1, honly⟩ := pllsOff_facts v
  have hpower : (pllsOff v).power = v.power := by
    unfold OnlyRegs at honly
    rw [honly]
  generalize pllsOff v = u at *
  obtain ⟨hregs', hpwr, -, honly', hpower'⟩ := setPwr_facts u 2
  obtain ⟨htiles', -, hmem', himages', -⟩ := ((PowerOnly.of_onlyRegs honly).onlyRegs honly').keeps
  generalize setPwr 2 u = w at *
  have hall : RegsBut [aPwrStatus, aClkStatus] s w := fun j hj => by
    simp only [List.mem_cons, List.not_mem_nil, or_false, not_or] at hj
    rw [hregs' j (by simpa using hj.1), hregs j (by simpa using hj.2), hrd]
  refine ⟨_, hexec, ?_, ?_, ?_, ?_, hall.signal, ?_, ?_, ?_⟩
  · rw [signal_f, hpwr]
    rfl
  · rw [signal_power, hpower', hpower, htarget']
  · rw [signal_bit, hregs'.bit_eq (by decide), h0]
  · rw [signal_bit, hregs'.bit_eq (by decide), h1]
  · rw [signal_tiles, htiles', htiles]
  · rw [signal_mem, hmem', hmem]
  · rw [signal_images, himages', himages]

theorem fabricOff_target (s : State) : (fabricOff s).power.target = none := by rw [fabricOff_eq]; rfl

theorem powerStateReached_keel (htarget : s.power.target = some 2) : ∃ t, exec .powerStateReached s = .next t
    ∧ t.f aPwrStatus 28 4 = 3 ∧ t.power.target = none ∧ t.bit aPwrStatus 25 = false ∧ t.tiles = []
    ∧ t.mem = State.reset.mem ∧ t.images = [] ∧ t.journal = s.journal := by
  obtain ⟨v, hv⟩ : ∃ v : State, { s with power := { s.power with target := none } } = v := ⟨_, rfl⟩
  have hexec : exec .powerStateReached s = .next (signal s (setPwr 3 (fabricOff v))) := by
    rw [← hv]
    change execPowerStateReached s = _
    simp only [execPowerStateReached, htarget, done]
    rfl
  have hjournal : v.journal = s.journal := by rw [← hv]
  obtain ⟨hdies, hon, -, -, hj, -⟩ := fabricOff_facts v
  have hnone := fabricOff_target v
  generalize fabricOff v = u at *
  obtain ⟨-, hpwr, hbits, honly, hpower⟩ := setPwr_facts u 3
  obtain ⟨-, -, htiles, -, -, himages, hmem, -⟩ := (PowerOnly.of_onlyRegs honly).diesReset hdies
  refine ⟨_, hexec, ?_, ?_, ?_, ?_, ?_, ?_, ?_⟩
  · rw [signal_f, hpwr]
    rfl
  · rw [signal_power, hpower, hnone]
  · rw [signal_bit, hbits 25 (by omega), hon]
  · rw [signal_tiles, htiles]
  · rw [signal_mem, hmem]
  · rw [signal_images, himages]
  · rw [signal_journal, honly.journal, hj, hjournal]

/-! ### Wakes in KEEL (R373), and idle regions (R369) -/

theorem wakes_of_exec {c : Instr} {u : State} (hexec : exec c s = .next (signal s (wake u))) (hboot : u.mayBoot = true)
    (htiles : u.tiles = s.tiles) (hstreams : u.streams = s.streams) : ∃ t, exec c s = .next t ∧ t.f aBootStatus 28 4 = 3
      ∧ t.power.boot = 3 ∧ t.power.rail = 0 ∧ t.power.railEn = 1 ∧ t.tiles = s.tiles ∧ t.streams = s.streams := by
  rw [wake, if_pos hboot] at hexec
  obtain ⟨⟨hf, hstage⟩, hrail, hen, honly⟩ := bootStart_facts u
  obtain ⟨htiles', -, -, -, -, hstreams', -⟩ := honly.keeps
  refine ⟨_, hexec, (signal_f ..).trans hf, ?_, ?_, ?_, ?_, ?_⟩
  · rw [signal_power, hstage]
  · rw [signal_power, hrail]
  · rw [signal_power, hen]
  · rw [signal_tiles, htiles', htiles]
  · rw [signal_streams, hstreams', hstreams]

theorem exec_wakePin : exec .wakePin s = when_ (s.bit aPwrWake 0) s (wake s) := rfl
theorem exec_smbusWake : exec .smbusWake s = when_ (s.bit aPwrWake 1) s (wake s) := rfl

/-- RTC_SEC has reached RTC_ALARM. -/
def rtcReached (s : State) : State := s.wr aRtcSec (s.rd aRtcAlarm)

theorem exec_rtcAlarm : exec .rtcAlarm s
    = .next (signal s (if s.bit aPwrWake 2 then wake (rtcReached s) else rtcReached s)) := rfl

theorem rtcReached_mayBoot : (rtcReached s).mayBoot = s.mayBoot := by
  have hrd : (rtcReached s).rd aPwrStatus = s.rd aPwrStatus := State.rd_wr_ne s _ (by decide)
  have hkept : (rtcReached s).power = s.power ∧ (rtcReached s).tray = s.tray ∧ (rtcReached s).time = s.time := ⟨rfl, rfl, rfl⟩
  obtain ⟨hpower, htray, htime⟩ := hkept
  rw [State.mayBoot, State.mayBoot, hpower, htray, htime, State.pwrState, State.pwrState, State.f_congr hrd]

theorem wakes_in_keel (hboot : s.mayBoot = true) :
    let wakes := fun (c : Instr) => (∃ t, exec c s = .next t ∧ t.f aBootStatus 28 4 = 3 ∧ t.power.boot = 3 ∧ t.power.rail = 0
      ∧ t.power.railEn = 1 ∧ t.tiles = s.tiles ∧ t.streams = s.streams)
    (s.bit aPwrWake 0 = true → wakes .wakePin) ∧ (s.bit aPwrWake 1 = true → wakes .smbusWake)
      ∧ (s.bit aPwrWake 2 = true → wakes .rtcAlarm) := by
  refine ⟨fun h => wakes_of_exec (u := s) ?_ hboot rfl rfl, fun h => wakes_of_exec (u := s) ?_ hboot rfl rfl,
    fun h => wakes_of_exec (u := rtcReached s) ?_ (rtcReached_mayBoot.trans hboot) rfl rfl⟩
  · rw [exec_wakePin, h, when_, if_pos rfl, done]
  · rw [exec_smbusWake, h, when_, if_pos rfl, done]
  · rw [exec_rtcAlarm, if_pos h]

theorem wakes_disabled : (s.bit aPwrWake 0 = false → exec .wakePin s = .next s)
    ∧ (s.bit aPwrWake 1 = false → exec .smbusWake s = .next s)
    ∧ (s.bit aPwrWake 2 = false → exec .rtcAlarm s = .next (signal s (s.wr aRtcSec (s.rd aRtcAlarm)))) := by
  refine ⟨fun h => ?_, fun h => ?_, fun h => ?_⟩
  · rw [exec_wakePin, h, when_, if_neg (by decide), idle]
  · rw [exec_smbusWake, h, when_, if_neg (by decide), idle]
  · rw [exec_rtcAlarm, if_neg (by rw [h]; decide), rtcReached]

theorem regionArmedEntry_arms (g : RegionIx) (hlive : s.live g.val = true) (hidle : s.f (aRegionPwr g.val) 0 24 ≠ 0)
    (hquiet : s.regionIdle g.val = true) :
    exec (.regionArmedEntry g) s = .next (signal s (s.setF (aRegionPwr g.val) 24 2 1)) := by
  change execRegionArmedEntry g s = _
  simp only [execRegionArmedEntry, hlive, hidle, hquiet, ne_eq, not_false_eq_true, decide_true, Bool.and_self, when_, if_true, done]

end

/-- Settles O53: one rule for each request, each state reached and each wake source. -/
theorem powerStates : Obligations.PowerStates := by
  unfold Obligations.PowerStates
  intro g s
  dsimp only
  obtain ⟨hpin, hsmb, hrtc⟩ := wakes_disabled (s := s)
  exact ⟨pwrTarget_accepted, pwrTarget_refused, pwrTargetRun_withdraws, powerStateReached_doze, powerStateReached_keel,
    wakes_in_keel, hpin, hsmb, hrtc, regionArmedEntry_arms g⟩

end Sys2Proof.Machine
end

section
/-! Clocks, keel time and temperature (R375 to R380). -/
namespace Sys2Proof.Machine

theorem RegsBut.comp {offs : List Nat} {s t u : State} (h : RegsBut offs s t) (h' : RegsBut offs t u) : RegsBut offs s u :=
  fun j hj => (h' j hj).trans (h j hj)

/-! ### The shutdown (R366) -/

section
variable (x : FaultAt) (s : State)

theorem haltRegion_power (code : Nat) (ws : List Word) (u : State) (g : Nat) : (haltRegion code ws u g).power = u.power := by
  obtain ⟨v, hv, hkept, -⟩ := haltRegion_parts code ws u g
  rw [hv, State.setF_power, State.setF_power, State.modSeq, State.setSeq_power, hkept]

theorem fatalNoted_onlyFault : OnlyFault s (fatalNoted x s) := by
  have hrings : OnlyFault s (each ((s.streams.map (·.1)).filter (fun n => s.st n ≠ 0)) s (fun u n => ringPut n (x.words s.now) u)) :=
    each_keep (OnlyFault s) _ (fun _ _ h => h.trans (ringPut_onlyRegs ..).onlyFault) _ _ (.refl s)
  unfold fatalNoted
  dsimp only
  generalize each ((s.streams.map (·.1)).filter (fun n => s.st n ≠ 0)) s (fun u n => ringPut n (x.words s.now) u) = u at *
  have hlog := hrings.trans (logPut_onlyRegs (x.words s.now) u).onlyFault
  generalize logPut (x.words s.now) u = v at *
  have hwords : OnlyFault s (if v.rd 0x12410 = 0 then v.wrs 0x12410 (x.words s.now) else v) := by
    split
    · exact hlog.trans ((OnlyRegs.refl v).wrs _ _).onlyFault
    · exact hlog
  generalize (if v.rd 0x12410 = 0 then v.wrs 0x12410 (x.words s.now) else v) = w at *
  have hput := hwords.journalPut 1 (x.words s.now)
  generalize w.journalPut 1 (x.words s.now) = r at *
  exact hput.trans ((OnlyRegs.refl r).setB _ _ _).onlyFault

theorem raiseF_power : (raiseF x s).power = s.power := by
  refine raiseF_kept x s (P := fun u => u.power = s.power) (fun u n hu => (reqDrain_onlyFault ..).power.trans hu) ?_
  exact each_keep (fun u : State => u.power = s.power) _ (fun u g hu => (haltRegion_power ..).trans hu) _ _
    (fatalNoted_onlyFault x s).power

variable {s} in
theorem fatalNoted_rd {j : Nat} (hj : j < 0x12000) (hne : j ≠ aGlobalStatus) :
    (fatalNoted x s).rd j = s.rd j := by
  have hrings : (each ((s.streams.map (·.1)).filter (fun n => s.st n ≠ 0)) s (fun u n => ringPut n (x.words s.now) u)).rd j = s.rd j :=
    each_keep (fun u : State => u.rd j = s.rd j) _
      (fun u n h => (ringPut_regsOff n (FaultAt.words_length ..) u j (by unfold streamPage; omega)).trans h) _ _ rfl
  unfold fatalNoted
  dsimp only
  generalize each ((s.streams.map (·.1)).filter (fun n => s.st n ≠ 0)) s (fun u n => ringPut n (x.words s.now) u) = u at *
  have hlog := (logPut_regsOff (FaultAt.words_length x s.now) u j (by omega)).trans hrings
  generalize logPut (x.words s.now) u = v at *
  have hwords : (if v.rd 0x12410 = 0 then v.wrs 0x12410 (x.words s.now) else v).rd j = s.rd j := by
    split
    · exact (State.rd_wrs_below v _ _ (show j < 0x12410 by omega)).trans hlog
    · exact hlog
  generalize (if v.rd 0x12410 = 0 then v.wrs 0x12410 (x.words s.now) else v) = w at *
  have hput := (State.journalPut_rd w 1 (x.words s.now) j).trans hwords
  generalize w.journalPut 1 (x.words s.now) = r at *
  exact (State.rd_setF_ne _ _ _ _ hne).trans hput

variable {s} in
/-- A class F fault leaves the registers of the power controller. -/
theorem raiseF_rd {j : Nat} (hj : j < 0x12000) (hne : j ≠ aGlobalStatus) :
    (raiseF x s).rd j = s.rd j := by
  refine raiseF_kept x s (P := fun u => u.rd j = s.rd j) (fun u n hu => ?_) ?_
  · rw [State.rd, reqDrain_regs]
    exact hu
  · refine each_keep (fun u : State => u.rd j = s.rd j) _ (fun u g hu => ?_) _ _ (fatalNoted_rd x hj hne)
    exact (haltRegion_rd g _ _ u (by unfold aRegionFstatus seqPage; omega)).trans hu

theorem shutdown_facts (code : Nat) (u : State) : (shutdown code u).power = { u.power with hold := false, shutdown := true }
    ∧ (shutdown code u).bit aGlobalStatus 28 = true ∧ ∀ j, j < 0x12000 → j ≠ aGlobalStatus → (shutdown code u).rd j = u.rd j := by
  have hpower := raiseF_power { cls := 3, code := code, die := 2, unit := 15 } u
  have hfatal := raiseF_fatal { cls := 3, code := code, die := 2, unit := 15 } u
  have hrd := fun j hj hne => raiseF_rd (s := u) { cls := 3, code := code, die := 2, unit := 15 } (j := j) hj hne
  unfold shutdown
  dsimp only
  generalize raiseF { cls := 3, code := code, die := 2, unit := 15 } u = v at *
  exact ⟨by rw [hpower], (State.bit_withPower ..).trans hfatal, fun j hj hne => (State.rd_withPower ..).trans (hrd j hj hne)⟩

end

/-! ### Clocks (R375), and keel time (R377) -/

section
variable {s : State}

/-- REFCLK and both PLLs show no lock. -/
def refclkLost (s : State) : State :=
  let t := ((s.setB aClkStatus 5 false).setB aClkStatus 0 false).setB aClkStatus 1 false
  { t with power := { t.power with refLost := true } }

theorem refclkLost_facts (s : State) : RegsBut [aClkStatus] s (refclkLost s) ∧ (refclkLost s).bit aClkStatus 0 = false
    ∧ (refclkLost s).bit aClkStatus 1 = false ∧ (refclkLost s).bit aClkStatus 5 = false
    ∧ (refclkLost s).power = { s.power with refLost := true } ∧ (refclkLost s).streams = s.streams := by
  obtain ⟨u, hu⟩ : ∃ u, s.setB aClkStatus 5 false = u := ⟨_, rfl⟩
  have h5 : u.bit aClkStatus 5 = false := by
    rw [← hu]
    exact State.bit_setB_same s _ false (by omega)
  have hregs : RegsBut [aClkStatus] s u := by
    rw [← hu]
    exact (RegsBut.refl _ s).setB List.mem_cons_self _ _
  have hu' : u.power = s.power ∧ u.streams = s.streams := by
    rw [← hu]
    exact ⟨rfl, rfl⟩
  obtain ⟨hpower, hstreams⟩ := hu'
  obtain ⟨hregs', h0, h1, honly⟩ := pllsOff_facts u
  have h5' : (pllsOff u).bit aClkStatus 5 = u.bit aClkStatus 5 := by
    unfold pllsOff
    rw [State.bit_setB_of_ne (u.setB aClkStatus 0 false) (by omega) (by omega), State.bit_setB_of_ne u (by omega) (by omega)]
  have hpower' : (pllsOff u).power = u.power := by
    unfold OnlyRegs at honly
    rw [honly]
  have hdef : refclkLost s = { pllsOff u with power := { (pllsOff u).power with refLost := true } } := by
    rw [← hu]
    rfl
  rw [hdef]
  generalize pllsOff u = v at *
  refine ⟨(hregs.comp hregs').withPower _, (State.bit_withPower ..).trans h0, (State.bit_withPower ..).trans h1,
    (State.bit_withPower ..).trans (h5'.trans h5), ?_, honly.streams.trans hstreams⟩
  dsimp only
  rw [hpower', hpower]

theorem exec_refclkLoss (hlost : s.power.refLost = false) (hboot : s.power.boot ≠ 4) : exec .refclkLoss s = .next
    (signal s (if s.fabricOn && !s.power.shutdown then shutdown 0x11 (refclkLost s) else refclkLost s)) := by
  change execRefclkLoss s = _
  simp only [execRefclkLoss, hlost, hboot, Bool.false_eq_true, if_false, done]
  rfl

theorem refclkLoss_dark (hlost : s.power.refLost = false) (hoff : s.bit aPwrStatus 25 = false) (hboot : s.power.boot ≠ 4) :
    ∃ t, exec .refclkLoss s = .next t ∧ t.power = { s.power with refLost := true } ∧ t.bit aClkStatus 0 = false
      ∧ t.bit aClkStatus 1 = false ∧ t.bit aClkStatus 5 = false ∧ RegsBut [aClkStatus] s t := by
  have hexec := exec_refclkLoss hlost hboot
  rw [State.fabricOn, hoff, Bool.false_and, if_neg Bool.false_ne_true] at hexec
  obtain ⟨hregs, h0, h1, h5, hpower, -⟩ := refclkLost_facts s
  exact ⟨_, hexec, (signal_power ..).trans hpower, (signal_bit ..).trans h0, (signal_bit ..).trans h1, (signal_bit ..).trans h5,
    hregs.signal⟩

theorem refclkLoss_shutsDown (hlost : s.power.refLost = false) (hon : s.bit aPwrStatus 25 = true) (hdown : s.power.shutdown = false)
    (hboot : s.power.boot ≠ 4) : ∃ t, exec .refclkLoss s = .next t ∧ t.power.shutdown = true ∧ t.power.refLost = true
      ∧ t.bit aGlobalStatus 28 = true := by
  have hexec := exec_refclkLoss hlost hboot
  rw [State.fabricOn, hon, hdown, Bool.not_false, Bool.and_self, if_pos rfl] at hexec
  obtain ⟨-, -, -, -, hpower, -⟩ := refclkLost_facts s
  generalize refclkLost s = u at *
  obtain ⟨hpower', hfatal, -⟩ := shutdown_facts 0x11 u
  refine ⟨_, hexec, ?_, ?_, (signal_bit ..).trans hfatal⟩
  · rw [signal_power, hpower']
  · rw [signal_power, hpower', hpower]

theorem hkFallback_falls (hlost : s.power.refLost = true) : ∃ t, exec .hkFallback s = .next t ∧ t.bit aClkStatus 3 = true
    ∧ t.bit aClkStatus 8 = true ∧ RegsBut [aClkStatus] s t := by
  refine ⟨signal s ((s.setB aClkStatus 3 true).setB aClkStatus 8 true), ?_, ?_, ?_, ?_⟩
  · change execHkFallback s = _
    simp only [execHkFallback, hlost, when_, if_true, done]
  · rw [signal_bit, State.bit_setB_of_ne (s.setB aClkStatus 3 true) (by omega) (by omega)]
    exact State.bit_setB_same s _ true (by omega)
  · rw [signal_bit]
    exact State.bit_setB_same _ _ true (by omega)
  · exact RegsBut.signal (((RegsBut.refl _ s).setB List.mem_cons_self _ _).setB List.mem_cons_self _ _)

theorem hkRestore_restores (hlost : s.power.refLost = true) : ∃ t, exec .hkRestore s = .next t ∧ t.bit aClkStatus 3 = false
    ∧ t.bit aClkStatus 5 = true ∧ t.power = { s.power with refLost := false } ∧ RegsBut [aClkStatus] s t := by
  have h3 : ((s.setB aClkStatus 3 false).setB aClkStatus 5 true).bit aClkStatus 3 = false := by
    rw [State.bit_setB_of_ne (s.setB aClkStatus 3 false) (by omega) (by omega)]
    exact State.bit_setB_same s _ false (by omega)
  have h5 : ((s.setB aClkStatus 3 false).setB aClkStatus 5 true).bit aClkStatus 5 = true := State.bit_setB_same _ _ true (by omega)
  have hregs : RegsBut [aClkStatus] s ((s.setB aClkStatus 3 false).setB aClkStatus 5 true) :=
    ((RegsBut.refl _ s).setB List.mem_cons_self _ _).setB List.mem_cons_self _ _
  have hexec : exec .hkRestore s = .next (signal s
      { (s.setB aClkStatus 3 false).setB aClkStatus 5 true with power := { s.power with refLost := false } }) := by
    change execHkRestore s = _
    simp only [execHkRestore, hlost, when_, if_true, done]
  generalize (s.setB aClkStatus 3 false).setB aClkStatus 5 true = u at *
  refine ⟨_, hexec, ?_, ?_, ?_, (hregs.withPower _).signal⟩
  · rw [signal_bit, State.bit_withPower, h3]
  · rw [signal_bit, State.bit_withPower, h5]
  · rw [signal_power]

/-! ### Readings (R378) -/

theorem sgn_toNat (x : BitVec 10) : sgn 10 x.toNat = x.toInt := by
  have hlt := x.isLt
  rw [sgn_eq (by omega), BitVec.toInt_eq_toNat_cond]
  split <;> split <;> omega

/-- MAX and SENSOR show the reading of sensor k. -/
def thermShown (k : Nat) (u : State) : State := (u.setF aThermStatus 24 8 (pat 8 (u.temp k / 4))).setF aThermStatus 16 5 k

theorem thermShown_facts (k : Nat) (u : State) : RegsBut [aThermStatus] u (thermShown k u) ∧ OnlyRegs u (thermShown k u)
    ∧ (∀ i < 16, (thermShown k u).bit aThermStatus i = u.bit aThermStatus i) := by
  unfold thermShown
  refine ⟨((RegsBut.refl _ u).setF List.mem_cons_self _ _ _).setF List.mem_cons_self _ _ _, ((OnlyRegs.refl u).setF _ _ _ _).setF _ _ _ _,
    fun i hi => ?_⟩
  exact (State.bit_setF_of_disjoint (u.setF aThermStatus 24 8 (pat 8 (u.temp k / 4))) _ _ _ (by omega) (by omega)).trans
    (State.bit_setF_of_disjoint u _ _ _ (by omega) (by omega))

/-- Since when every reading lies below WARN. -/
def coolNoted (c : Option Nat) (u : State) : State := { u with power := { u.power with coolAt := c } }

theorem coolNoted_facts (c : Option Nat) (u : State) : (∀ j, (coolNoted c u).rd j = u.rd j) ∧ PowerOnly u (coolNoted c u)
    ∧ (coolNoted c u).power.trip = u.power.trip ∧ (coolNoted c u).power.shutdown = u.power.shutdown :=
  ⟨fun _ => rfl, (PowerOnly.refl u).withPower _, rfl, rfl⟩

theorem thermMax_eq (u : State) : ∃ k c, thermMax u = coolNoted c (thermShown k u) := ⟨_, _, rfl⟩

theorem thermMax_facts (u : State) : RegsBut [aThermStatus] u (thermMax u) ∧ PowerOnly u (thermMax u)
    ∧ (∀ i < 16, (thermMax u).bit aThermStatus i = u.bit aThermStatus i) ∧ (thermMax u).power.trip = u.power.trip
    ∧ (thermMax u).power.shutdown = u.power.shutdown := by
  obtain ⟨k, c, hmax⟩ := thermMax_eq u
  obtain ⟨hregs, honly, hbits⟩ := thermShown_facts k u
  rw [hmax]
  generalize thermShown k u = v at *
  have hpower : v.power = u.power := by
    unfold OnlyRegs at honly
    rw [honly]
  obtain ⟨hrd, honly', htrip, hdown⟩ := coolNoted_facts c v
  generalize coolNoted c v = w at *
  refine ⟨fun j hj => (hrd j).trans (hregs j hj), (PowerOnly.of_onlyRegs honly).trans honly', fun i hi => (State.bit_congr (hrd _) i).trans (hbits i hi), ?_, ?_⟩
  · rw [htrip, hpower]
  · rw [hdown, hpower]

/-- A bit set if a condition holds. -/
def State.raiseIf (s : State) (c : Bool) (off k : Nat) : State := if c then s.setB off k true else s

theorem State.raiseIf_facts (s : State) (c : Bool) (off : Nat) {k : Nat} (hk : k < 32) : RegsBut [off] s (s.raiseIf c off k)
    ∧ OnlyRegs s (s.raiseIf c off k) ∧ (s.raiseIf c off k).bit off k = (s.bit off k || c)
    ∧ ∀ i < 32, i ≠ k → (s.raiseIf c off k).bit off i = s.bit off i := by
  unfold State.raiseIf
  cases c with
  | false =>
    rw [if_neg Bool.false_ne_true, Bool.or_false]
    exact ⟨.refl _ s, .refl s, rfl, fun _ _ _ => rfl⟩
  | true =>
    rw [if_pos rfl, Bool.or_true]
    exact ⟨(RegsBut.refl _ s).setB List.mem_cons_self _ _, (OnlyRegs.refl s).setB _ _ _, State.bit_setB_same s _ true hk,
      fun i hi hne => State.bit_setB_of_ne s hne hi true⟩

/-- A reading is noted: the sensor's register, the highest one, and the thresholds it reaches. -/
def thermNoted (i : Nat) (v : BitVec 10) (s : State) : State :=
  let u := sense i v s
  let w := u.raiseIf (!u.bit aThermStatus 10 && decide (4 * (u.f aThermCfg 0 8 : Int) ≤ sgn 10 v.toNat)) aThermStatus 8
  w.raiseIf (!u.bit aThermStatus 10 && decide (i < 25 ∧ 4 * (w.f aThermCfg 8 8 : Int) ≤ sgn 10 v.toNat) && w.bit aThermCfg 31)
    aThermStatus 9

/-- The power controller has tripped. -/
def tripNoted (v : State) : State := { v with power := { v.power with trip := true, coolAt := none } }

theorem tripNoted_facts (v : State) : (∀ j, (tripNoted v).rd j = v.rd j) ∧ (tripNoted v).power.trip = true
    ∧ (tripNoted v).power.coolAt = none ∧ (tripNoted v).streams = v.streams := ⟨fun _ => rfl, rfl, rfl, rfl⟩

/-- A trip begins. -/
def thermTripped (u : State) : State := tripNoted (u.setB aPwrStatus 20 true)

theorem thermMeet_eq (i : Nat) (v : BitVec 10) (s : State) : thermMeet i v s
    = if i < 26 ∧ 460 ≤ sgn 10 v.toNat ∧ !(thermNoted i v s).power.shutdown then
        (if (thermTripped (thermNoted i v s)).fabricOn then shutdown 0x12 (thermTripped (thermNoted i v s))
          else thermTripped (thermNoted i v s))
      else thermNoted i v s := rfl

theorem sense_facts (i : Nat) (v : BitVec 10) (s : State) : RegsBut [aThermTemp i, aThermStatus] s (sense i v s)
    ∧ PowerOnly s (sense i v s) ∧ (∀ k < 16, (sense i v s).bit aThermStatus k = s.bit aThermStatus k)
    ∧ (sense i v s).power.trip = s.power.trip ∧ (sense i v s).power.shutdown = s.power.shutdown
    ∧ (s.bit aThermStatus 10 = false → (sense i v s).f (aThermTemp i) 0 10 = v.toNat) := by
  unfold sense
  by_cases hcal : s.bit aThermStatus 10 = true
  · rw [if_pos hcal]
    exact ⟨.refl _ s, .refl s, fun _ _ => rfl, rfl, rfl, fun h => absurd (h.symm.trans hcal) (by decide)⟩
  · rw [if_neg hcal]
    have hne : aThermTemp i ≠ aThermStatus := by unfold aThermTemp aThermStatus; omega
    have hregs : RegsBut [aThermTemp i, aThermStatus] s (s.setF (aThermTemp i) 0 10 v.toNat) :=
      (RegsBut.refl _ s).setF List.mem_cons_self _ _ _
    have honly : PowerOnly s (s.setF (aThermTemp i) 0 10 v.toNat) := (PowerOnly.refl s).setF _ _ _ _
    have hf : (s.setF (aThermTemp i) 0 10 v.toNat).f (aThermTemp i) 0 10 = v.toNat :=
      (State.f_setF_same s _ _ (by omega)).trans (Nat.mod_eq_of_lt v.isLt)
    have hpower : (s.setF (aThermTemp i) 0 10 v.toNat).power = s.power := State.setF_power ..
    have hbits : ∀ k, (s.setF (aThermTemp i) 0 10 v.toNat).bit aThermStatus k = s.bit aThermStatus k := fun k =>
      State.bit_setF_ne _ _ _ _ hne.symm k
    generalize s.setF (aThermTemp i) 0 10 v.toNat = u at *
    obtain ⟨hregs', honly', hbits', htrip, hdown⟩ := thermMax_facts u
    generalize thermMax u = w at *
    refine ⟨hregs.comp (hregs'.mono fun o ho => List.mem_cons_of_mem _ ho), honly.trans honly', fun k hk => (hbits' k hk).trans (hbits k), ?_, ?_,
      fun _ => ?_⟩
    · rw [htrip, hpower]
    · rw [hdown, hpower]
    · rw [hregs'.f_eq (by simpa using hne), hf]

end

end Sys2Proof.Machine
end

section
/-! Readings that meet their thresholds, trips, and the end of throttling (R378 to R380). -/
namespace Sys2Proof.Machine

section
variable (i : Nat) (x : BitVec 10) (s : State)

/-- What a noted reading shows. -/
structure Noted (t : State) : Prop where
  regs : RegsBut [aThermTemp i, aThermStatus] s t
  only : PowerOnly s t
  trip : t.power.trip = s.power.trip
  shutdown : t.power.shutdown = s.power.shutdown
  reading : s.bit aThermStatus 10 = false → t.f (aThermTemp i) 0 10 = x.toNat
  warn : s.bit aThermStatus 10 = false → t.bit aThermStatus 8
    = (s.bit aThermStatus 8 || decide (4 * (s.f aThermCfg 0 8 : Int) ≤ x.toInt))
  throttle : s.bit aThermStatus 10 = false → t.bit aThermStatus 9
    = (s.bit aThermStatus 9 || (decide (i < 25 ∧ 4 * (s.f aThermCfg 8 8 : Int) ≤ x.toInt) && s.bit aThermCfg 31))

theorem thermNoted_noted (hi : i < 27) : Noted i x s (thermNoted i x s) := by
  have hne : aThermTemp i ≠ aThermStatus := by unfold aThermTemp aThermStatus; omega
  have hcfg : aThermCfg ∉ [aThermTemp i, aThermStatus] := by
    unfold aThermTemp aThermStatus aThermCfg
    simp only [List.mem_cons, List.not_mem_nil, or_false]
    omega
  obtain ⟨hregs, honly, hbits, htrip, hdown, hread⟩ := sense_facts i x s
  unfold thermNoted
  dsimp only
  rw [sgn_toNat]
  generalize sense i x s = u at *
  have hlive : u.bit aThermStatus 10 = s.bit aThermStatus 10 := hbits 10 (by omega)
  obtain ⟨hregs₁, honly₁, h8, hrest₁⟩ := u.raiseIf_facts
    (!u.bit aThermStatus 10 && decide (4 * (u.f aThermCfg 0 8 : Int) ≤ x.toInt)) aThermStatus (k := 8) (by omega)
  generalize u.raiseIf (!u.bit aThermStatus 10 && decide (4 * (u.f aThermCfg 0 8 : Int) ≤ x.toInt)) aThermStatus 8 = v at *
  obtain ⟨hregs₂, honly₂, h9, hrest₂⟩ := v.raiseIf_facts
    (!u.bit aThermStatus 10 && decide (i < 25 ∧ 4 * (v.f aThermCfg 8 8 : Int) ≤ x.toInt) && v.bit aThermCfg 31) aThermStatus (k := 9)
    (by omega)
  generalize v.raiseIf (!u.bit aThermStatus 10 && decide (i < 25 ∧ 4 * (v.f aThermCfg 8 8 : Int) ≤ x.toInt) && v.bit aThermCfg 31)
    aThermStatus 9 = w at *
  have hcfg₁ : v.rd aThermCfg = s.rd aThermCfg := (hregs₁ _ (by decide)).trans (hregs _ hcfg)
  have honly' := (PowerOnly.of_onlyRegs honly₁).trans (.of_onlyRegs honly₂)
  have hpower : w.power = u.power := by
    unfold OnlyRegs at honly₁ honly₂
    rw [honly₂, honly₁]
  have hthere : ∀ o ∈ [aThermStatus], o ∈ [aThermTemp i, aThermStatus] := fun o ho => List.mem_cons_of_mem _ ho
  refine ⟨(hregs.comp (hregs₁.mono hthere)).comp (hregs₂.mono hthere), honly.trans honly', ?_, ?_, fun h => ?_, fun h => ?_,
    fun h => ?_⟩
  · rw [hpower, htrip]
  · rw [hpower, hdown]
  · rw [hregs₂.f_eq (by simpa using hne), hregs₁.f_eq (by simpa using hne), hread h]
  · rw [hrest₂ 8 (by omega) (by omega), h8, hbits 8 (by omega), hlive, h, State.f_congr (hregs _ hcfg), Bool.not_false, Bool.true_and]
  · rw [h9, hrest₁ 9 (by omega) (by omega), hbits 9 (by omega), hlive, h, State.f_congr hcfg₁, State.bit_congr hcfg₁, Bool.not_false,
      Bool.true_and]

theorem thermMeet_of_cool (h : x.toInt < 460 ∨ i = 26) : thermMeet i x s = thermNoted i x s := by
  rw [thermMeet_eq, sgn_toNat, if_neg (by omega)]

theorem thermNoted_of_calibration (hcal : s.bit aThermStatus 10 = true) : thermNoted i x s = s := by
  have hsense : sense i x s = s := by rw [sense, if_pos hcal]
  have hkeep : ∀ (c : Bool) k, s.raiseIf (!s.bit aThermStatus 10 && c) aThermStatus k = s := fun c k => by
    rw [State.raiseIf, hcal, Bool.not_true, Bool.false_and, if_neg Bool.false_ne_true]
  unfold thermNoted
  dsimp only
  rw [hsense, hkeep, Bool.and_assoc, hkeep]

/-- A trip: TRIP, and the shutdown of a powered fabric. -/
theorem thermMeet_trips (hi : i < 26) (hhot : 460 ≤ x.toInt) (hdown : s.power.shutdown = false) :
    (thermMeet i x s).power.trip = true ∧ (thermMeet i x s).power.coolAt = none ∧ (thermMeet i x s).bit aPwrStatus 20 = true
      ∧ (s.bit aPwrStatus 25 = true → (thermMeet i x s).power.shutdown = true ∧ (thermMeet i x s).bit aGlobalStatus 28 = true) := by
  have hnoted := thermNoted_noted i x s (by omega)
  rw [thermMeet_eq, sgn_toNat]
  generalize thermNoted i x s = u at *
  have hpwr : u.rd aPwrStatus = s.rd aPwrStatus := hnoted.regs _ (by
    unfold aThermTemp aThermStatus aPwrStatus
    simp only [List.mem_cons, List.not_mem_nil, or_false]
    omega)
  have h20 : (u.setB aPwrStatus 20 true).bit aPwrStatus 20 = true := State.bit_setB_same u _ true (by omega)
  have h25 : (u.setB aPwrStatus 20 true).bit aPwrStatus 25 = u.bit aPwrStatus 25 := State.bit_setB_of_ne u (by omega) (by omega) true
  rw [if_pos ⟨hi, hhot, by rw [hnoted.shutdown, hdown]; rfl⟩]
  unfold thermTripped
  generalize u.setB aPwrStatus 20 true = w at *
  obtain ⟨hsame, htrip, hcool, -⟩ := tripNoted_facts w
  have h20' : (tripNoted w).bit aPwrStatus 20 = true := (State.bit_congr (hsame _) 20).trans h20
  have hon : (tripNoted w).fabricOn = s.bit aPwrStatus 25 :=
    (State.bit_congr (hsame aPwrStatus) 25).trans (h25.trans (State.bit_congr hpwr 25))
  generalize tripNoted w = v at *
  rw [hon]
  by_cases hfab : s.bit aPwrStatus 25 = true
  · rw [if_pos hfab]
    obtain ⟨hpower, hfatal, hrd⟩ := shutdown_facts 0x12 v
    have hsame := hrd aPwrStatus (by decide) (by decide)
    exact ⟨by rw [hpower, htrip], by rw [hpower, hcool], (State.bit_congr hsame 20).trans h20', fun _ => ⟨by rw [hpower], hfatal⟩⟩
  · rw [if_neg hfab]
    exact ⟨htrip, hcool, h20', fun h => absurd h hfab⟩

end

section
variable {s : State}

theorem exec_thermal {c : Instr} {i : Fin 27} {x : BitVec 10} (hc : c ∈ [Instr.thermalWarn i x, .thermalThrottle i x, .thermalTrip i x]) :
    exec c s = .next (signal s (thermMeet i.val x s)) := by
  simp only [List.mem_cons, List.not_mem_nil, or_false] at hc
  obtain rfl | rfl | rfl := hc
  · rfl
  · rfl
  · rfl

theorem throttleEnd_ends {cool : List (BitVec 10)} (hlen : cool.length = 25)
    (hcool : ∀ y ∈ cool, y.toInt < 4 * (s.f aThermCfg 8 8 : Int) ∧ y.toInt < 460) :
    ∃ t, exec (.throttleEnd cool) s = .next t ∧ t.bit aThermStatus 9 = false ∧ t.tiles = s.tiles := by
  obtain ⟨t, ht⟩ : ∃ t, each cool.zipIdx s (fun s p => thermMeet p.2 p.1 s) = t := ⟨_, rfl⟩
  have hbelow : cool.all (fun v => decide (sgn 10 v.toNat < 4 * (s.f aThermCfg 8 8 : Int))) = true := by
    rw [List.all_eq_true]
    intro y hy
    rw [sgn_toNat]
    exact decide_eq_true (hcool y hy).1
  have hexec : exec (.throttleEnd cool) s = .next (signal s (t.setB aThermStatus 9 false)) := by
    change execThrottleEnd cool s = _
    simp only [execThrottleEnd, hlen, ne_eq, not_true_eq_false, if_false, ht, hbelow, if_true, done]
  have htiles : t.tiles = s.tiles := by
    have hall : ∀ (l : List (BitVec 10 × Nat)) (u : State), (∀ p ∈ l, p.1.toInt < 460 ∧ p.2 < 27) →
        (each l u (fun s p => thermMeet p.2 p.1 s)).tiles = u.tiles := by
      intro l
      induction l with
      | nil => exact fun _ _ => rfl
      | cons p l ih =>
        intro u hl
        have hp := hl p List.mem_cons_self
        obtain ⟨htiles, -⟩ := (thermNoted_noted p.2 p.1 u hp.2).only.keeps
        change (each l (thermMeet p.2 p.1 u) _).tiles = _
        rw [ih _ fun q hq => hl q (List.mem_cons_of_mem _ hq), thermMeet_of_cool _ _ _ (.inl hp.1), htiles]
    rw [← ht]
    refine hall _ s fun p hp => ⟨(hcool p.1 (List.fst_mem_of_mem_zipIdx hp)).2, ?_⟩
    have := List.snd_lt_of_mem_zipIdx hp
    omega
  refine ⟨_, hexec, ?_, ?_⟩
  · rw [signal_bit]
    exact State.bit_setB_same t _ false (by omega)
  · rw [signal_tiles, State.setB, State.setF_tiles, htiles]

end

/-- Settles O54: one rule for each event of the clocks and the sensors. -/
theorem clocksAndTemperature : Obligations.ClocksAndTemperature := by
  unfold Obligations.ClocksAndTemperature
  intro v i x cool s
  dsimp only
  refine ⟨fun hlost hoff hboot => refclkLoss_dark hlost hoff hboot,
    fun hlost hon hdown hboot _ => refclkLoss_shutsDown hlost hon hdown hboot,
    fun hlost => ⟨hkFallback_falls hlost, hkRestore_restores hlost⟩, rfl, fun hcal hcool c hc => ?_, fun hhot hi hdown _ => ?_,
    fun hlen hcool => throttleEnd_ends hlen hcool, rfl, fun hcal hcool => ?_⟩
  · have hnoted := thermNoted_noted i.val x s i.isLt
    have hexec := exec_thermal (s := s) hc
    rw [thermMeet_of_cool _ _ _ hcool] at hexec
    obtain ⟨htiles, -⟩ := hnoted.only.keeps
    refine ⟨_, hexec, ?_, hnoted.regs.signal, ?_, ?_, ?_, ?_⟩
    · rw [signal_f, hnoted.reading hcal]
    · rw [signal_bit, hnoted.warn hcal]
    · rw [signal_bit, hnoted.throttle hcal]
    · rw [signal_power, hnoted.trip]
    · rw [signal_tiles, htiles]
  · obtain ⟨htrip, hcool, h20, hfab⟩ := thermMeet_trips i.val x s hi hhot hdown
    refine ⟨_, exec_thermal (c := .thermalTrip i x) (i := i) (x := x) (by simp), ?_, ?_, ?_, fun hon => ⟨?_, ?_⟩⟩
    · rw [signal_power, htrip]
    · rw [signal_power, hcool]
    · rw [signal_bit, h20]
    · rw [signal_power, (hfab hon).1]
    · rw [signal_bit, (hfab hon).2]
  · rw [exec_thermal (c := .thermalWarn i x) (i := i) (x := x) (by simp), thermMeet_of_cool _ _ _ (.inl hcool),
      thermNoted_of_calibration _ _ _ hcal]

end Sys2Proof.Machine
end

section
/-! What set-reset of a region and of its requesters leaves, and the reset of a region (R259, R352, R381). -/
namespace Sys2Proof.Machine

/-- Registers, planes, journal and streams are as they were. -/
structure RegsKept (s t : State) : Prop where
  regs : t.regs = s.regs
  active : t.active = s.active
  journal : t.journal = s.journal
  streams : t.streams = s.streams

section
variable {s t u : State}

theorem RegsKept.refl (s : State) : RegsKept s s := ⟨rfl, rfl, rfl, rfl⟩

theorem RegsKept.trans (h : RegsKept s t) (h' : RegsKept t u) : RegsKept s u :=
  ⟨h'.regs.trans h.regs, h'.active.trans h.active, h'.journal.trans h.journal, h'.streams.trans h.streams⟩

theorem RegsKept.rd (h : RegsKept s t) (j : Nat) : t.rd j = s.rd j := regs_eq_of_rd h.regs j

theorem RegsKept.act (h : RegsKept s t) (off : Nat) : t.act off = s.act off := by rw [State.act, h.active, State.act]

theorem RegsKept.modTile (h : RegsKept s t) (k : Nat) (f : Tile → Tile) : RegsKept s (t.modTile k f) :=
  h.trans ⟨rfl, rfl, rfl, rfl⟩

theorem RegsKept.modSeq (h : RegsKept s t) (g : Nat) (f : Seq → Seq) : RegsKept s (t.modSeq g f) := h.trans ⟨rfl, rfl, rfl, rfl⟩

theorem RegsKept.each {α : Type} {f : State → α → State} (hf : ∀ u x, RegsKept u (f u x)) (l : List α) (s : State) :
    RegsKept s (each l s f) := each_keep (RegsKept s) f (fun u x h => h.trans (hf u x)) l s (.refl s)

end

/-! ### Set-reset (R158, R199) -/

section
variable (g : Nat) (s : State)

theorem creditFull_kept (c : Nat) : RegsKept s (creditFull c s) ∧ (creditFull c s).seqs = s.seqs := by
  unfold creditFull
  split
  · exact ⟨⟨rfl, rfl, rfl, rfl⟩, rfl⟩
  · split
    · exact ⟨⟨rfl, rfl, rfl, rfl⟩, rfl⟩
    · split
      · exact ⟨⟨rfl, rfl, rfl, rfl⟩, rfl⟩
      · exact ⟨⟨rfl, rfl, rfl, rfl⟩, rfl⟩

/-- What a set-reset of region g does before it clears the tiles. -/
theorem gsrRegion_eq : ∃ u : State, gsrRegion g s = each (tilesOf g) u (fun s t => s.modTile t Tile.gsrClear) ∧ RegsKept s u
    ∧ u.seqs = s.seqs := by
  unfold gsrRegion
  dsimp only
  refine ⟨_, rfl, ?_, ?_⟩
  · refine RegsKept.trans ?_ (RegsKept.each (fun u e => ?_) _ _)
    · exact (RegsKept.each (fun u c => (creditFull_kept u c).1) _ s).trans ⟨rfl, rfl, rfl, rfl⟩
    · split
      · exact ⟨rfl, rfl, rfl, rfl⟩
      · exact .refl u
  · refine (each_eq State.seqs _ (fun u e => ?_) _ _).trans ?_
    · split
      · rfl
      · rfl
    · exact each_eq State.seqs _ (fun u c => (creditFull_kept u c).2) _ s

theorem gsrRegion_kept : RegsKept s (gsrRegion g s) := by
  obtain ⟨u, hu, hkept, -⟩ := gsrRegion_eq g s
  rw [hu]
  exact hkept.trans (RegsKept.each (fun v t => (RegsKept.refl v).modTile t _) _ u)

theorem gsrRegion_seqs : (gsrRegion g s).seqs = s.seqs := by
  obtain ⟨u, hu, -, hseqs⟩ := gsrRegion_eq g s
  rw [hu]
  exact (each_eq State.seqs (fun (v : State) t => v.modTile t Tile.gsrClear) (fun _ _ => rfl) (tilesOf g) u).trans hseqs

/-- Every tile of the region is cleared. -/
theorem gsrRegion_tile {t : Nat} (ht : t ∈ tilesOf g) : ∃ x : Tile, (gsrRegion g s).tile t = x.gsrClear := by
  obtain ⟨u, hu, -, -⟩ := gsrRegion_eq g s
  rw [hu, tile_each_modTile (tilesOf_nodup g), if_pos ht]
  exact ⟨_, rfl⟩

theorem spillDrop_kept : RegsKept s (spillDrop g s) ∧ (spillDrop g s).seqs = s.seqs ∧ (spillDrop g s).tiles = s.tiles := by
  unfold spillDrop
  refine ⟨RegsKept.each (fun u n => ?_) _ s, each_eq State.seqs _ (fun u n => ?_) _ s, each_eq State.tiles _ (fun u n => ?_) _ s⟩
  · split
    · exact ⟨rfl, rfl, rfl, rfl⟩
    · exact .refl u
  · split
    · rfl
    · rfl
  · split
    · rfl
    · rfl

/-- A requester of region g. -/
def ofRegion (g : Nat) : Req → Bool
  | .seq h => h == g
  | .tile t => regionOf t == g
  | _ => false

/-- The requests, grants and answers of a region's requesters are gone. -/
def queuesDropped : State :=
  { s with tmq := s.tmq.filter (fun r => !ofRegion g r.req), granted := s.granted.filter (fun p => !ofRegion g p.1),
           replies := s.replies.filter (fun p => !ofRegion g p.1) }

/-- One tidemark without the waits of a region's requesters. -/
def waitsDropped (s : State) (i : Nat) : State :=
  s.setTm i { s.tm i with waits := (s.tm i).waits.filter (fun w => !ofRegion g w.req) }

/-- Nothing of a region's requesters is left in the tidemark unit. -/
def requestsDropped : State := each (s.tms.map (·.1)) (queuesDropped g s) (waitsDropped g)

theorem tmRegionReset_eq : tmRegionReset g s = (each (tilesOf g) (requestsDropped g s) (fun s t => s.modTile t
    (fun q => { q with record := none, synWait := none }))).modSeq g (fun q => { q with record := none }) := rfl

theorem requestsDropped_kept : RegsKept s (requestsDropped g s) ∧ (requestsDropped g s).seqs = s.seqs
    ∧ (requestsDropped g s).tiles = s.tiles := by
  refine ⟨RegsKept.trans (t := queuesDropped g s) ⟨rfl, rfl, rfl, rfl⟩ (RegsKept.each (f := waitsDropped g) (fun u i => ⟨rfl, rfl, rfl, rfl⟩) _ _), ?_, ?_⟩
  · exact each_eq State.seqs (waitsDropped g) (fun _ _ => rfl) _ (queuesDropped g s)
  · exact each_eq State.tiles (waitsDropped g) (fun _ _ => rfl) _ (queuesDropped g s)

theorem tmRegionReset_kept : RegsKept s (tmRegionReset g s) := by
  rw [tmRegionReset_eq]
  exact ((requestsDropped_kept g s).1.trans (RegsKept.each (fun u t => (RegsKept.refl u).modTile t _) _ _)).modSeq g _

theorem tmRegionReset_tile {t : Nat} (ht : t ∈ tilesOf g) :
    (tmRegionReset g s).tile t = { s.tile t with record := none, synWait := none } := by
  obtain ⟨-, -, htiles⟩ := requestsDropped_kept g s
  rw [tmRegionReset_eq, State.tile, State.modSeq, State.setSeq_tiles, ← State.tile, tile_each_modTile (tilesOf_nodup g), if_pos ht,
    State.tile, htiles, State.tile]

/-! ### The sequencer's restart (R237) -/

theorem seqStart_kept (tags : Bool) : RegsKept s (seqStart g tags s) ∧ (seqStart g tags s).tiles = s.tiles :=
  ⟨⟨rfl, rfl, rfl, rfl⟩, rfl⟩

theorem seqStart_seq (tags : Bool) : ((seqStart g tags s).seq g).pc = nbits (s.act (aSeqRestart g)).toNat 2 15 * 4
    ∧ ((seqStart g tags s).seq g).keyOk = false ∧ ((seqStart g tags s).seq g).halted = false
    ∧ ((seqStart g tags s).seq g).sids = [] := by
  unfold seqStart
  dsimp only
  rw [State.seq_modSeq]
  exact ⟨rfl, by simp [Seq.keyOk, nbit], rfl, rfl⟩

end

/-! ### The reset of a region (R381) -/

theorem State.journalPut_facts (s : State) {type : Nat} (htype : type ≠ 5) (body : List Word) :
    (∀ o, (s.journalPut type body).rd o = s.rd o) ∧ (s.journalPut type body).journal.nextA = s.journal.nextA + 1
      ∧ (s.journalPut type body).seqs = s.seqs ∧ (s.journalPut type body).tiles = s.tiles := by
  obtain ⟨j, hj, hnext⟩ := s.journalPut_eq htype body
  rw [hj]
  exact ⟨fun _ => rfl, hnext, rfl, rfl⟩

theorem State.journalPut_keeps (s : State) {type : Nat} (htype : type ≠ 5) (body : List Word) :
    (s.journalPut type body).images = s.images ∧ (s.journalPut type body).uses = s.uses ∧ (s.journalPut type body).under = s.under
      ∧ (s.journalPut type body).fabric = s.fabric ∧ (s.journalPut type body).mem = s.mem ∧ (s.journalPut type body).power = s.power
      ∧ (s.journalPut type body).tray = s.tray := by
  obtain ⟨j, hj, -⟩ := s.journalPut_eq htype body
  rw [hj]
  exact ⟨rfl, rfl, rfl, rfl, rfl, rfl, rfl⟩

/-- The region is released. -/
def regionReleased (g : Nat) (s : State) : State :=
  (each (tilesOf g) s (fun s t => s.modTile t (fun x => { x with halted := false, gsr := false }))).setF (aRegionFstatus g) 28 4 0

section
variable (g : Nat) (s : State)

/-- Set-reset, the requesters' waits, and the sequencer's restart. -/
def regionCleared : State := seqStart g true (tmRegionReset g (spillDrop g (gsrRegion g s)))

theorem regionCleared_kept : RegsKept s (regionCleared g s) :=
  (((gsrRegion_kept g s).trans (spillDrop_kept g _).1).trans (tmRegionReset_kept g _)).trans (seqStart_kept g _ true).1

theorem regionCleared_tile {t : Nat} (ht : t ∈ tilesOf g) : ((regionCleared g s).tile t).iq = [] ∧ ((regionCleared g s).tile t).cq = [] := by
  obtain ⟨x, hx⟩ := gsrRegion_tile g s ht
  unfold regionCleared
  have hdrop : (spillDrop g (gsrRegion g s)).tile t = (gsrRegion g s).tile t := by
    rw [State.tile, (spillDrop_kept g _).2.2, State.tile]
  have hstart : (seqStart g true (tmRegionReset g (spillDrop g (gsrRegion g s)))).tile t
      = (tmRegionReset g (spillDrop g (gsrRegion g s))).tile t := by rw [State.tile, (seqStart_kept g _ true).2, State.tile]
  rw [hstart, tmRegionReset_tile g _ ht, hdrop, hx]
  exact ⟨rfl, rfl⟩

theorem regionCleared_seq : ((regionCleared g s).seq g).pc = nbits (s.act (aSeqRestart g)).toNat 2 15 * 4
    ∧ ((regionCleared g s).seq g).keyOk = false ∧ ((regionCleared g s).seq g).halted = false := by
  have hact := (((gsrRegion_kept g s).trans (spillDrop_kept g _).1).trans (tmRegionReset_kept g _)).act (aSeqRestart g)
  unfold regionCleared
  generalize tmRegionReset g (spillDrop g (gsrRegion g s)) = u at *
  obtain ⟨hpc, hkey, hhalt, -⟩ := seqStart_seq g u true
  exact ⟨by rw [hpc, hact], hkey, hhalt⟩

theorem regionReset_eq (hnone : s.streamsIn g = []) (hfatal : s.bit aGlobalStatus 28 = false) :
    regionReset g s = (regionReleased g (regionCleared g s)).journalPut 2 [BitVec.ofNat 32 (3 + g * 256)] := by
  have hbit : (regionCleared g s).bit aGlobalStatus 28 = false := (State.bit_congr ((regionCleared_kept g s).rd _) 28).trans hfatal
  have hcleared : seqStart g true (tmRegionReset g (spillDrop g (gsrRegion g s))) = regionCleared g s := rfl
  unfold regionReset regionReleased
  rw [if_neg (by rw [hnone]; decide)]
  dsimp only
  rw [hcleared, if_neg (by rw [hbit]; decide)]

theorem regionReleased_facts : RegsBut [aRegionFstatus g] s (regionReleased g s) ∧ (regionReleased g s).phase g = 0
    ∧ (regionReleased g s).seqs = s.seqs ∧ (regionReleased g s).journal = s.journal
    ∧ ∀ t ∈ tilesOf g, (regionReleased g s).tile t = { s.tile t with halted := false, gsr := false } := by
  unfold regionReleased
  have hkept : RegsKept s (each (tilesOf g) s (fun s t => s.modTile t (fun x => { x with halted := false, gsr := false }))) :=
    RegsKept.each (fun u t => (RegsKept.refl u).modTile t _) _ s
  have hseqs : (each (tilesOf g) s (fun s t => s.modTile t (fun x => { x with halted := false, gsr := false }))).seqs = s.seqs :=
    each_eq State.seqs (fun (u : State) t => u.modTile t (fun x => { x with halted := false, gsr := false })) (fun _ _ => rfl) _ s
  have htile := tile_each_modTile (tilesOf_nodup g) (fun x => { x with halted := false, gsr := false }) s
  generalize each (tilesOf g) s (fun s t => s.modTile t (fun x => { x with halted := false, gsr := false })) = u at *
  refine ⟨fun j hj => (State.rd_setF_ne _ _ _ _ (by simpa using hj)).trans (hkept.rd j), State.f_setF_same u _ _ (by omega), ?_, ?_,
    fun t ht => ?_⟩
  · rw [State.setF_seqs, hseqs]
  · rw [State.setF_journal, hkept.journal]
  · rw [State.tile, State.setF_tiles, ← State.tile, htile, if_pos ht]

end

section
variable {g : RegionIx} {s : State}

theorem regionReset_refused (hs : Served s) (hbusy : s.streamsIn g.val ≠ []) :
    exec (.regionReset g) s = .next (signal s (s.setB (aRegionPwr g.val) 26 true)) := by
  have hreset : regionReset g.val s = s.setB (aRegionPwr g.val) 26 true := by
    unfold regionReset
    rw [if_pos (by rw [List.isEmpty_eq_false_iff.mpr hbusy]; rfl)]
  change execRegionReset g s = _
  rw [execRegionReset, hostRow_of_served hs, hreset, done]

theorem regionReset_restarts (hs : Served s) (hnone : s.streamsIn g.val = []) (hfatal : s.bit aGlobalStatus 28 = false) :
    ∃ t, exec (.regionReset g) s = .next t ∧ t.phase g.val = 0 ∧ RegsBut [aRegionFstatus g.val] s t
      ∧ t.journal.nextA = s.journal.nextA + 1
      ∧ (t.seq g.val).pc = nbits (s.act (aSeqRestart g.val)).toNat 2 15 * 4 ∧ (t.seq g.val).keyOk = false
      ∧ (t.seq g.val).halted = false
      ∧ ∀ i < 16, (t.tile (tileOf g.val i)).iq = [] ∧ (t.tile (tileOf g.val i)).cq = [] ∧ (t.tile (tileOf g.val i)).halted = false := by
  have hexec : exec (.regionReset g) s = .next (signal s (regionReset g.val s)) := by
    change execRegionReset g s = _
    rw [execRegionReset, hostRow_of_served hs, done]
  rw [regionReset_eq g.val s hnone hfatal] at hexec
  have hkept := regionCleared_kept g.val s
  have htile := fun t ht => regionCleared_tile g.val s (t := t) ht
  obtain ⟨hpc, hkey, hhalt⟩ := regionCleared_seq g.val s
  generalize regionCleared g.val s = u at *
  obtain ⟨hregs, hphase, hseqs, hjournal, htile'⟩ := regionReleased_facts g.val u
  generalize regionReleased g.val u = v at *
  obtain ⟨hrd, hnext, hseqs', htiles⟩ := v.journalPut_facts (type := 2) (by omega) [BitVec.ofNat 32 (3 + g.val * 256)]
  generalize v.journalPut 2 [BitVec.ofNat 32 (3 + g.val * 256)] = w at *
  have hall : RegsBut [aRegionFstatus g.val] s w := fun o ho => (hrd o).trans ((hregs o ho).trans (hkept.rd o))
  refine ⟨_, hexec, ?_, hall.signal, ?_, ?_, ?_, ?_, fun i hi => ?_⟩
  · rw [signal_phase]
    exact (State.f_congr (hrd _) 28 4).trans hphase
  · rw [signal_journal, hnext, hjournal, hkept.journal]
  · rw [signal_seq, State.seq, hseqs', hseqs, ← State.seq, hpc]
  · rw [signal_seq, State.seq, hseqs', hseqs, ← State.seq, hkey]
  · rw [signal_seq, State.seq, hseqs', hseqs, ← State.seq, hhalt]
  · have hmem := mem_tilesOf (g := g.val) hi
    obtain ⟨hiq, hcq⟩ := htile _ hmem
    rw [signal_tile, State.tile, htiles, ← State.tile, htile' _ hmem]
    exact ⟨hiq, hcq, rfl⟩

end

end Sys2Proof.Machine
end

section
/-! The fabric reset, and the warm reset (R338, R355, R361, R382, R386, R396, R428, R429, R441, R442). -/
namespace Sys2Proof.Machine

theorem each_fixed {α σ : Type} {f : σ → α → σ} {l : List α} {s : σ} (h : ∀ x ∈ l, f s x = s) : each l s f = s := by
  unfold each
  induction l with
  | nil => rfl
  | cons x l ih =>
    rw [List.foldl_cons, h x List.mem_cons_self]
    exact ih fun y hy => h y (List.mem_cons_of_mem _ hy)

/-! ### The fabric column of the reset table (R259, R428) -/

section
variable (s : State)

/-- Nothing of the fabric is held, no layout is ACTIVE, the tidemarks are at their layout values. -/
def columnCleared : State :=
  let s := gsrAll s
  { s with
    active := s.active.filter (fun p => decide (p.1 < 0x200000) || decide (0x390000 ≤ p.1)),
    images := s.images.map (fun p => (p.1, { p.2 with active := 0, staged := false })),
    tms := s.tms.map (fun p => (p.1, { p.2.restore with waits := [] })),
    tmq := [], granted := [], replies := [], uses := [], staging := [], loads := [] }

/-- The clock of region g is off, and nothing of a recovery is shown. -/
def clockOff (s : State) (g : Nat) : State := (s.setF (aRegionClk g) 16 4 0).setF (aRegionFstatus g) 28 4 0

theorem fabricColumn_eq : fabricColumn s = each (List.range 25) (columnCleared s) clockOff := rfl

theorem columnCleared_facts : (∀ j, (columnCleared s).rd j = s.rd j) ∧ (columnCleared s).uses = [] ∧ (columnCleared s).under = []
    ∧ (columnCleared s).fabric = State.reset.fabric ∧ (columnCleared s).mem = s.mem ∧ (columnCleared s).journal = s.journal :=
  ⟨fun _ => rfl, rfl, rfl, rfl, rfl, rfl⟩

theorem columnCleared_images : ∀ p ∈ (columnCleared s).images, p.2.active = 0 ∧ p.2.staged = false := by
  have hdef : (columnCleared s).images = s.images.map (fun p => (p.1, { p.2 with active := 0, staged := false })) := rfl
  rw [hdef]
  intro p hp
  obtain ⟨q, -, rfl⟩ := List.mem_map.mp hp
  exact ⟨rfl, rfl⟩

theorem columnCleared_tile (k : Nat) : ((columnCleared s).tile k).iq = [] ∧ ((columnCleared s).tile k).cq = []
    ∧ ((columnCleared s).tile k).halted = false :=
  tget_map_of_all (P := fun x : Tile => x.iq = [] ∧ x.cq = [] ∧ x.halted = false)
    (fun x : Tile => { x.gsrClear with gsr := false, halted := false, dhalt := false, step := false, shadowValid := false })
    ⟨rfl, rfl, rfl⟩ (fun _ => ⟨rfl, rfl, rfl⟩) s.tiles k

/-- The clock of region h is off. -/
def ClockOff (h : Nat) (t : State) : Prop := t.f (aRegionClk h) 16 4 = 0 ∧ t.phase h = 0

theorem clockOff_facts (g : Nat) : ClockOff g (clockOff s g) ∧ (∀ j, j ≠ aRegionClk g → j ≠ aRegionFstatus g → (clockOff s g).rd j = s.rd j)
    ∧ OnlyRegs s (clockOff s g) := by
  have hne : aRegionClk g ≠ aRegionFstatus g := by unfold aRegionClk aRegionFstatus seqPage; omega
  unfold clockOff
  refine ⟨⟨?_, State.f_setF_same _ _ _ (by omega)⟩, fun j h1 h2 => ?_, ((OnlyRegs.refl s).setF _ _ _ _).setF _ _ _ _⟩
  · rw [State.f_setF_ne _ _ _ _ hne]
    exact State.f_setF_same s _ _ (by omega)
  · rw [State.rd_setF_ne _ _ _ _ h2, State.rd_setF_ne _ _ _ _ h1]

theorem clockOff_keeps {g h : Nat} (hne : h ≠ g) {s : State} (hoff : ClockOff h s) : ClockOff h (clockOff s g) := by
  obtain ⟨hclk, hphase⟩ := hoff
  obtain ⟨-, hrd, -⟩ := clockOff_facts s g
  refine ⟨(State.f_congr (hrd _ ?_ ?_) _ _).trans hclk, (State.f_congr (hrd _ ?_ ?_) _ _).trans hphase⟩
  · unfold aRegionClk seqPage; omega
  · unfold aRegionClk aRegionFstatus seqPage; omega
  · unfold aRegionFstatus aRegionClk seqPage; omega
  · unfold aRegionFstatus seqPage; omega

theorem clocksOff_off {l : List Nat} {h : Nat} (hh : h ∈ l) : ClockOff h (each l s clockOff) :=
  each_all (P := ClockOff) (fun u g => (clockOff_facts u g).1) (fun _ _ _ hne hoff => clockOff_keeps hne hoff) hh s

theorem clocksOff_only (l : List Nat) : OnlyRegs s (each l s clockOff) :=
  each_keep (OnlyRegs s) _ (fun u g h => h.trans (clockOff_facts u g).2.2) _ s (.refl s)

theorem clocksOff_rd (l : List Nat) {j : Nat} (hj : j < 0x12000) : (each l s clockOff).rd j = s.rd j := by
  refine each_keep (fun u : State => u.rd j = s.rd j) _ (fun u g h => ?_) _ s rfl
  have hclk : j ≠ aRegionClk g := by unfold aRegionClk seqPage; omega
  have hst : j ≠ aRegionFstatus g := by unfold aRegionFstatus seqPage; omega
  exact ((clockOff_facts u g).2.1 j hclk hst).trans h

end

/-! ### The fabric reset (R428), and its end (R355, R374) -/

section
variable {s : State}

theorem fabricReset_eq (hidle : s.bit aGlobalStatus 27 = false) (hst : ∀ p ∈ s.streams, p.1 < 256 ∧ s.st p.1 = 0)
    (hlay : s.bit aLayoutStatus 31 = false) :
    fabricReset s = (fabricColumn (s.setB aGlobalStatus 27 true)).journalPut 2 [2] := by
  have hst' : ∀ n ∈ (s.setB aGlobalStatus 27 true).streams.map (·.1), (s.setB aGlobalStatus 27 true).st n = 0 := by
    intro n hn
    rw [State.setB, State.setF_streams] at hn
    obtain ⟨p, hp, rfl⟩ := List.mem_map.mp hn
    rw [State.st, State.f_setB_ne _ (by unfold aStreamStatus streamPage aGlobalStatus; omega)]
    exact (hst p hp).2
  have hlay' : (s.setB aGlobalStatus 27 true).bit aLayoutStatus 31 = false := (State.bit_setB_ne s (by decide) _ _ _).trans hlay
  unfold fabricReset
  rw [if_neg (by rw [hidle]; decide)]
  dsimp only
  generalize s.setB aGlobalStatus 27 true = u at *
  rw [each_fixed fun n hn => if_pos (hst' n hn), if_neg (by rw [hlay']; decide)]

theorem fabricReset_again (hbusy : s.bit aGlobalStatus 27 = true) : exec .fabricReset s = .next (signal s (reject none aGlobalReset s)) := by
  change execFabricReset s = _
  rw [execFabricReset, fabricReset, if_pos hbusy, done]

theorem fabricReset_resets (hidle : s.bit aGlobalStatus 27 = false) (hst : ∀ p ∈ s.streams, p.1 < 256 ∧ s.st p.1 = 0)
    (hlay : s.bit aLayoutStatus 31 = false) : ∃ t, exec .fabricReset s = .next t ∧ t.bit aGlobalStatus 27 = true
      ∧ (∀ h < 25, t.f (aRegionClk h) 16 4 = 0 ∧ t.phase h = 0) ∧ (∀ p ∈ t.images, p.2.active = 0 ∧ p.2.staged = false)
      ∧ t.uses = [] ∧ t.under = [] ∧ t.fabric = State.reset.fabric
      ∧ (∀ k, (t.tile k).iq = [] ∧ (t.tile k).cq = [] ∧ (t.tile k).halted = false) ∧ t.mem = s.mem
      ∧ t.journal.nextA = s.journal.nextA + 1 := by
  have hexec : exec .fabricReset s = .next (signal s ((fabricColumn (s.setB aGlobalStatus 27 true)).journalPut 2 [2])) := by
    change execFabricReset s = _
    rw [← fabricReset_eq hidle hst hlay, execFabricReset, done]
  have hbusy : (s.setB aGlobalStatus 27 true).bit aGlobalStatus 27 = true := State.bit_setB_same s _ true (by omega)
  have hmem₀ : (s.setB aGlobalStatus 27 true).mem = s.mem := State.setF_mem ..
  have hjournal₀ : (s.setB aGlobalStatus 27 true).journal = s.journal := State.setF_journal ..
  generalize s.setB aGlobalStatus 27 true = u at *
  rw [fabricColumn_eq] at hexec
  obtain ⟨hrd, huses, hunder, hfabric, hmem, hjournal⟩ := columnCleared_facts u
  have himages := columnCleared_images u
  have htile := columnCleared_tile u
  generalize columnCleared u = v at *
  have hrange : ∀ g < 25, g ∈ List.range 25 := fun g => List.mem_range.mpr
  generalize List.range 25 = l at *
  have hoff : ∀ h < 25, ClockOff h (each l v clockOff) := fun h hh => clocksOff_off v (hrange h hh)
  have honly := clocksOff_only v l
  have hsame := clocksOff_rd v l (j := aGlobalStatus) (by decide)
  generalize each l v clockOff = w at *
  unfold OnlyRegs at honly
  have hkept : w.images = v.images ∧ w.uses = v.uses ∧ w.under = v.under ∧ w.fabric = v.fabric ∧ w.tiles = v.tiles
      ∧ w.mem = v.mem ∧ w.journal = v.journal := by
    rw [honly]
    exact ⟨rfl, rfl, rfl, rfl, rfl, rfl, rfl⟩
  obtain ⟨himages', huses', hunder', hfabric', htiles', hmem', hjournal'⟩ := hkept
  obtain ⟨hrd'', hnext, -, htiles''⟩ := w.journalPut_facts (type := 2) (by omega) [2]
  obtain ⟨himages'', huses'', hunder'', hfabric'', hmem'', -, -⟩ := w.journalPut_keeps (type := 2) (by omega) [2]
  generalize w.journalPut 2 [2] = x at *
  refine ⟨_, hexec, ?_, fun h hh => ⟨?_, ?_⟩, ?_, ?_, ?_, ?_, fun k => ?_, ?_, ?_⟩
  · rw [signal_bit, State.bit_congr (hrd'' _), State.bit_congr hsame, State.bit_congr (hrd _), hbusy]
  · rw [signal_f, State.f_congr (hrd'' _)]
    exact (hoff h hh).1
  · rw [signal_phase, State.phase, State.f_congr (hrd'' _), ← State.phase]
    exact (hoff h hh).2
  · rw [signal_images, himages'', himages']
    exact himages
  · rw [signal_uses, huses'', huses', huses]
  · rw [signal_under, hunder'', hunder', hunder]
  · rw [signal_fabric, hfabric'', hfabric', hfabric]
  · rw [signal_tile, State.tile, htiles'', htiles', ← State.tile]
    exact htile k
  · rw [signal_mem, hmem'', hmem', hmem, hmem₀]
  · rw [signal_journal, hnext, hjournal', hjournal, hjournal₀]

/-- Every stream shows DRAINED. -/
def allDrained (s : State) : State := each (List.range 256) s (fun t n => t.setB (aStreamStatus n) 5 true)

theorem allDrained_facts (s : State) : (∀ n < 256, (allDrained s).bit (aStreamStatus n) 5 = true ∧ (allDrained s).st n = s.st n)
    ∧ ∀ j < 0x100000, (allDrained s).rd j = s.rd j := by
  unfold allDrained
  refine ⟨fun n hn => ⟨?_, ?_⟩, fun j hj => ?_⟩
  · refine each_all (P := fun n (t : State) => t.bit (aStreamStatus n) 5 = true) (fun u m => State.bit_setB_same u _ true (by omega))
      (fun u m k hne h => ?_) (List.mem_range.mpr hn) s
    rw [State.bit_setB_ne _ (by unfold aStreamStatus streamPage; omega)]
    exact h
  · refine each_keep (fun t : State => t.st n = s.st n) _ (fun u m h => ?_) _ s rfl
    by_cases hnm : n = m
    · rw [hnm, State.st, State.f_setB_of_disjoint u (by omega) (by omega), ← State.st, ← hnm, h]
    · rw [State.st, State.f_setB_ne _ (by unfold aStreamStatus streamPage; omega)]
      exact h
  · refine each_keep (fun t : State => t.rd j = s.rd j) _ (fun u m h => ?_) _ s rfl
    rw [State.setB, State.rd_setF_ne _ _ _ _ (by unfold aStreamStatus streamPage; omega), h]

/-- FATAL and RESET_BUSY read 0. -/
def resetOver (s : State) : State := (s.setB aGlobalStatus 28 false).setB aGlobalStatus 27 false

theorem resetOver_facts (s : State) : RegsBut [aGlobalStatus] s (resetOver s) ∧ (resetOver s).bit aGlobalStatus 27 = false
    ∧ (resetOver s).bit aGlobalStatus 28 = false := by
  unfold resetOver
  refine ⟨((RegsBut.refl _ s).setB List.mem_cons_self _ _).setB List.mem_cons_self _ _, State.bit_setB_same _ _ false (by omega), ?_⟩
  rw [State.bit_setB_of_ne (s.setB aGlobalStatus 28 false) (by omega) (by omega)]
  exact State.bit_setB_same s _ false (by omega)

theorem fabricResetComplete_ends (hbusy : s.bit aGlobalStatus 27 = true) (hst : ∀ p ∈ s.streams, p.1 < 256 ∧ s.st p.1 = 0) :
    ∃ t, exec .fabricResetComplete s = .next t ∧ t.bit aGlobalStatus 27 = false ∧ t.bit aGlobalStatus 28 = false
      ∧ (∀ n < 256, t.bit (aStreamStatus n) 5 = true ∧ t.st n = s.st n) ∧ t.f aClkFcPll 16 6 = s.f aClkFcPll 0 6 := by
  have hall : s.streams.all (fun p => s.st p.1 == 0 || p.2.admitted.isEmpty) = true := by
    rw [List.all_eq_true]
    intro p hp
    rw [(hst p hp).2]
    rfl
  have hstopped : each (s.streams.map (·.1)) s (fun t n => if t.st n = 0 then t else drainEnd n t) = s := by
    refine each_fixed fun n hn => if_pos ?_
    obtain ⟨p, hp, rfl⟩ := List.mem_map.mp hn
    exact (hst p hp).2
  have hexec : exec .fabricResetComplete s = .next (signal s (pllApply (resetOver (allDrained s)))) := by
    change execFabricResetComplete s = _
    simp only [execFabricResetComplete, hbusy, hall, hstopped, Bool.and_self, Bool.not_true, Bool.false_eq_true, if_false, done]
    rfl
  obtain ⟨hdrained, hrd⟩ := allDrained_facts s
  generalize allDrained s = u at *
  obtain ⟨hregs, h27, h28⟩ := resetOver_facts u
  generalize resetOver u = v at *
  obtain ⟨hregs', hpll⟩ := pllApply_facts v
  generalize pllApply v = w at *
  have hst' : ∀ n < 256, w.rd (aStreamStatus n) = u.rd (aStreamStatus n) := fun n hn => by
    rw [hregs' _ (by simp only [List.mem_singleton]; unfold aStreamStatus streamPage aClkFcPll; omega),
      hregs _ (by simp only [List.mem_singleton]; unfold aStreamStatus streamPage aGlobalStatus; omega)]
  refine ⟨_, hexec, ?_, ?_, fun n hn => ⟨?_, ?_⟩, ?_⟩
  · rw [signal_bit, hregs'.bit_eq (by decide), h27]
  · rw [signal_bit, hregs'.bit_eq (by decide), h28]
  · rw [signal_bit, State.bit_congr (hst' n hn), (hdrained n hn).1]
  · rw [signal_st, State.st, State.f_congr (hst' n hn), ← State.st, (hdrained n hn).2]
  · rw [signal_f, hpll, hregs.f_eq (by decide), State.f_congr (hrd _ (by decide))]

/-! ### PERST# (R442) -/

theorem perstN_downs : ∃ t, exec .perstN s = .next t ∧ t.bit aPcieLinkStatus 8 = false ∧ t.f aPcieLinkStatus 0 3 = 0
    ∧ t.f aPcieLinkStatus 4 4 = 0 ∧ RegsBut [aPcieLinkStatus] s t ∧ t.streams = s.streams := by
  obtain ⟨hrate, hwidth, hup, -⟩ := pcieDown_fields s
  have hregs : RegsBut [aPcieLinkStatus] s (pcieDown s) :=
    (((RegsBut.refl _ s).setF List.mem_cons_self _ _ _).setF List.mem_cons_self _ _ _).setB List.mem_cons_self _ _
  have honly : OnlyRegs s (pcieDown s) := (((OnlyRegs.refl s).setF _ _ _ _).setF _ _ _ _).setB _ _ _
  exact ⟨_, rfl, (signal_bit ..).trans hup, (signal_f ..).trans hrate, (signal_f ..).trans hwidth, hregs.signal,
    (signal_streams ..).trans honly.streams⟩

end

end Sys2Proof.Machine
end

section
/-! The warm reset (R338, R361, R382, R386, R396, R429, R441). -/
namespace Sys2Proof.Machine

section
variable (s : State)

/-! ### The firmware's part: the journal, the counters, the debug lock (R382, R386, R396) -/

/-- The journal has its entry, the counters are zero, debug is locked. -/
def warmLocked : State := { (s.journalPut 2 [1]).setB aDbgLock 0 true with counters := [], latches := [] }

/-- What a warm reset keeps. -/
structure WarmKept (s t : State) : Prop where
  press : t.press = s.press
  entry : t.journal.nextA = s.journal.nextA + 1
  hostMem : t.hostMem = s.hostMem
  time : t.time = s.time
  keys : t.keys = s.keys

variable {s} in
theorem WarmKept.powerOnly {t u : State} (h : WarmKept s t) (h' : PowerOnly t u) : WarmKept s u := by
  obtain ⟨-, -, -, -, hjournal, -, hkeys, hpress⟩ := h'.keeps
  unfold PowerOnly at h'
  refine ⟨hpress.trans h.press, by rw [hjournal, h.entry], ?_, ?_, hkeys.trans h.keys⟩
  · rw [h']
    exact h.hostMem
  · rw [h']
    exact h.time

theorem WarmKept.of_journalPut : WarmKept s (s.journalPut 2 [1]) := by
  obtain ⟨j, hj, hnext⟩ := s.journalPut_eq (type := 2) (by omega) [1]
  rw [hj]
  exact ⟨rfl, hnext, rfl, rfl, rfl⟩

variable {s} in
theorem WarmKept.zeroCounters {t : State} (h : WarmKept s t) : WarmKept s { t with counters := [], latches := [] } :=
  ⟨h.press, h.entry, h.hostMem, h.time, h.keys⟩

theorem rd_zeroCounters (t : State) (j : Nat) : ({ t with counters := [], latches := [] } : State).rd j = t.rd j := rfl

theorem warmLocked_facts : WarmKept s (warmLocked s) ∧ RegsBut [aDbgLock] s (warmLocked s) ∧ (warmLocked s).bit aDbgLock 0 = true
    ∧ (warmLocked s).power = s.power := by
  have hkept := WarmKept.of_journalPut s
  have hrd : ∀ j, (s.journalPut 2 [1]).rd j = s.rd j := fun j => State.journalPut_rd ..
  obtain ⟨-, -, -, -, -, hpower, -⟩ := s.journalPut_keeps (type := 2) (by omega) [1]
  unfold warmLocked
  generalize s.journalPut 2 [1] = u at *
  have hkept' := hkept.powerOnly ((PowerOnly.refl u).setB aDbgLock 0 true)
  have hregs : RegsBut [aDbgLock] u (u.setB aDbgLock 0 true) := (RegsBut.refl _ u).setB List.mem_cons_self _ _
  have hlock : (u.setB aDbgLock 0 true).bit aDbgLock 0 = true := State.bit_setB_same u _ true (by omega)
  have hpower' : (u.setB aDbgLock 0 true).power = u.power := State.setF_power ..
  generalize u.setB aDbgLock 0 true = v at *
  refine ⟨hkept'.zeroCounters, fun j hj => ?_, (State.bit_congr (rd_zeroCounters v _) 0).trans hlock, hpower'.trans hpower⟩
  rw [rd_zeroCounters, hregs j hj, hrd]

/-! ### What the dies lose (R361, R429) -/

/-- The dies are reset, the PLLs are off, the test port is as after a reset. -/
def warmDies : State :=
  { pllsOff (dieReset keepWarm s) with test := { State.reset.test with noncePos := (dieReset keepWarm s).test.noncePos } }

theorem dieReset_warm : DiesReset (dieReset keepWarm s) ∧ (∀ j, keepWarm j = true → (dieReset keepWarm s).rd j = s.rd j)
    ∧ (∀ r, WarmKept r s → WarmKept r (dieReset keepWarm s)) :=
  ⟨dieReset_resets s keepWarm, fun _ h => dieReset_rd s h, fun _ h => ⟨h.press, h.entry, h.hostMem, h.time, h.keys⟩⟩

theorem withTest_facts (t : State) (x : Test) : (DiesReset t → DiesReset { t with test := x })
    ∧ (∀ j, ({ t with test := x } : State).rd j = t.rd j) ∧ (∀ r, WarmKept r t → WarmKept r { t with test := x }) :=
  ⟨fun h => h, fun _ => rfl, fun _ h => ⟨h.press, h.entry, h.hostMem, h.time, h.keys⟩⟩

theorem warmDies_facts : DiesReset (warmDies s) ∧ (∀ j, keepWarm j = true → j ≠ aClkStatus → (warmDies s).rd j = s.rd j)
    ∧ (∀ r, WarmKept r s → WarmKept r (warmDies s)) := by
  obtain ⟨hdies, hrd, hkept⟩ := dieReset_warm s
  unfold warmDies
  generalize dieReset keepWarm s = u at *
  obtain ⟨hregs, -, -, honly⟩ := pllsOff_facts u
  have hdies' := hdies.of_onlyRegs honly
  generalize pllsOff u = v at *
  obtain ⟨hdies'', hrd'', hkept''⟩ := withTest_facts v { State.reset.test with noncePos := u.test.noncePos }
  refine ⟨hdies'' hdies', fun j hj hne => ?_, fun r h => hkept'' r ((hkept r h).powerOnly (.of_onlyRegs honly))⟩
  rw [hrd'', hregs j (by simpa using hne), hrd j hj]

/-- The codes of the last boot are cleared, and a powered device on VAON_MAIN shows RUN. -/
def warmShown : State :=
  let t := (s.setF aBootStatus 16 8 0).setF aBootStatus 0 8 0
  if t.onVbak || !t.fabricOn then t else setPwr 0 t

theorem warmShown_facts : OnlyRegs s (warmShown s) ∧ RegsBut [aBootStatus, aPwrStatus] s (warmShown s) := by
  have hregs : RegsBut [aBootStatus, aPwrStatus] s ((s.setF aBootStatus 16 8 0).setF aBootStatus 0 8 0) :=
    ((RegsBut.refl _ s).setF List.mem_cons_self _ _ _).setF List.mem_cons_self _ _ _
  have honly : OnlyRegs s ((s.setF aBootStatus 16 8 0).setF aBootStatus 0 8 0) := ((OnlyRegs.refl s).setF _ _ _ _).setF _ _ _ _
  unfold warmShown
  dsimp only
  generalize (s.setF aBootStatus 16 8 0).setF aBootStatus 0 8 0 = u at *
  split
  · exact ⟨honly, hregs⟩
  · exact ⟨honly.setF _ _ _ _, hregs.setF (List.mem_cons_of_mem _ List.mem_cons_self) _ _ _⟩

/-- Everything a warm reset does before the boot resumes. -/
def warmed : State := warmShown (warmDies (warmLocked s))

theorem warmed_facts : WarmKept s (warmed s) ∧ DiesReset (warmed s) ∧ (warmed s).rd aPwrCtl = s.rd aPwrCtl
    ∧ (warmed s).rd aPressCtl = s.rd aPressCtl ∧ (warmed s).bit aDbgLock 0 = true := by
  obtain ⟨hkept, hregs, hlock, -⟩ := warmLocked_facts s
  unfold warmed
  generalize warmLocked s = u at *
  obtain ⟨hdies, hrd, hkept'⟩ := warmDies_facts u
  have hkept'' := hkept' s hkept
  generalize warmDies u = v at *
  obtain ⟨honly, hregs'⟩ := warmShown_facts v
  generalize warmShown v = w at *
  have hsame : ∀ j, keepWarm j = true → j ≠ aClkStatus → j ∉ [aBootStatus, aPwrStatus] → w.rd j = u.rd j := fun j h1 h2 h3 =>
    (hregs' j h3).trans (hrd j h1 h2)
  refine ⟨hkept''.powerOnly (.of_onlyRegs honly), hdies.of_onlyRegs honly, ?_, ?_, ?_⟩
  · exact (hsame _ (by decide) (by decide) (by decide)).trans (hregs _ (by decide))
  · exact (hsame _ (by decide) (by decide) (by decide)).trans (hregs _ (by decide))
  · exact (State.bit_congr (hsame _ (by decide) (by decide) (by decide)) 0).trans hlock

variable {s}

theorem firmwareRestart_none {t : State} (hpend : t.tray.pend = []) : firmwareRestart t = t := by
  unfold firmwareRestart
  rw [hpend]
  rfl

theorem warmReset_eq (hpend : s.tray.pend = []) (held : Bool) : warmReset held s
    = if (warmLocked s).onVbak && !(warmLocked s).fabricOn then warmLocked s
      else if held then { warmed s with power := { (warmed s).power with boot := 2, rstHeld := true } } else bootStage 2 (warmed s) := by
  obtain ⟨-, -, -, -, -, -, htray⟩ := s.journalPut_keeps (type := 2) (by omega) [1]
  unfold warmReset
  rw [firmwareRestart_none (by rw [htray, hpend])]
  rfl

theorem warmReset_powered (hon : s.bit aPwrStatus 25 = true) (hpend : s.tray.pend = []) (held : Bool) : warmReset held s
    = if held then { warmed s with power := { (warmed s).power with boot := 2, rstHeld := true } } else bootStage 2 (warmed s) := by
  obtain ⟨-, hregs, -⟩ := warmLocked_facts s
  have hfab : (warmLocked s).fabricOn = true := (hregs.bit_eq (off := aPwrStatus) (by decide) 25).trans hon
  rw [warmReset_eq hpend, hfab, Bool.not_true, Bool.and_false, if_neg Bool.false_ne_true]

/-- What a warm reset keeps, and what it leaves. -/
structure WarmDone (s t : State) : Prop where
  kept : WarmKept s t
  dies : DiesReset t
  pwrCtl : t.rd aPwrCtl = s.rd aPwrCtl
  pressCtl : t.rd aPressCtl = s.rd aPressCtl
  lock : t.bit aDbgLock 0 = true

theorem WarmDone.signal {t : State} (h : WarmDone s t) : WarmDone s (signal s t) := by
  obtain ⟨⟨hpress, hentry, hhost, htime, hkeys⟩, hdies, hctl, hpctl, hlock⟩ := h
  exact ⟨⟨(signal_press ..).trans hpress, by rw [signal_journal, hentry], (signal_hostMem ..).trans hhost, (signal_time ..).trans htime,
    (signal_keys ..).trans hkeys⟩, hdies.signal s, (signal_rd ..).trans hctl, (signal_rd ..).trans hpctl, (signal_bit ..).trans hlock⟩

theorem WarmDone.powerOnly {t u : State} (h : WarmDone s t) (honly : PowerOnly t u) (hregs : RegsBut [aBootStatus] t u) : WarmDone s u :=
  ⟨h.kept.powerOnly honly, honly.diesReset h.dies, (hregs _ (by decide)).trans h.pwrCtl, (hregs _ (by decide)).trans h.pressCtl,
    (hregs.bit_eq (by decide) 0).trans h.lock⟩

theorem warmed_done (s : State) : WarmDone s (warmed s) := by
  obtain ⟨hkept, hdies, hctl, hpctl, hlock⟩ := warmed_facts s
  exact ⟨hkept, hdies, hctl, hpctl, hlock⟩

theorem warmReset_resets (hon : s.bit aPwrStatus 25 = true) (hpend : s.tray.pend = []) :
    ∃ t, exec .warmReset s = .next t ∧ WarmDone s t ∧ AtStage 2 t := by
  have hexec : exec .warmReset s = .next (signal s (bootStage 2 (warmed s))) := by
    change execWarmReset s = _
    rw [execWarmReset, warmReset_powered hon hpend, if_neg Bool.false_ne_true, done]
  have hdone := warmed_done s
  generalize warmed s = u at *
  obtain ⟨hregs, -, -, honly, -⟩ := bootStage_facts u 2
  exact ⟨_, hexec, (hdone.powerOnly honly hregs).signal, (bootStage_at u (by omega)).signal⟩

theorem warmResetPin_resets (hon : s.bit aPwrStatus 25 = true) (hpend : s.tray.pend = []) (hstage : s.f aBootStatus 28 4 ≠ 0)
    (hboot : s.power.boot ≠ 1) : ∃ t, exec .warmResetPin s = .next t ∧ WarmDone s t ∧ t.power.rstHeld = true := by
  have hexec : exec .warmResetPin s
      = .next (signal s { warmed s with power := { (warmed s).power with boot := 2, rstHeld := true } }) := by
    change execWarmResetPin s = _
    rw [execWarmResetPin, if_neg (not_or.mpr ⟨hstage, hboot⟩), warmReset_powered hon hpend, if_pos rfl, done]
  have hdone := warmed_done s
  generalize warmed s = u at *
  refine ⟨_, hexec, (hdone.powerOnly ((PowerOnly.refl u).withPower _) ((RegsBut.refl _ u).withPower _)).signal, ?_⟩
  rw [signal_power]

theorem warmResetPin_holds (h : s.f aBootStatus 28 4 = 0 ∨ s.power.boot = 1) :
    exec .warmResetPin s = .next (signal s { s with power := { s.power with rstHeld := true } }) := by
  change execWarmResetPin s = _
  rw [execWarmResetPin, if_pos h, done]

theorem warmReset_inBackup (hvbak : s.bit aPwrStatus 24 = true) (hoff : s.bit aPwrStatus 25 = false) (hpend : s.tray.pend = []) :
    ∃ t, exec .warmReset s = .next t ∧ RegsBut [aDbgLock] s t ∧ t.bit aDbgLock 0 = true ∧ t.power = s.power
      ∧ t.journal.nextA = s.journal.nextA + 1 := by
  obtain ⟨hkept, hregs, hlock, hpower⟩ := warmLocked_facts s
  have hback : (warmLocked s).onVbak = true := (hregs.bit_eq (off := aPwrStatus) (by decide) 24).trans hvbak
  have hfab : (warmLocked s).fabricOn = false := (hregs.bit_eq (off := aPwrStatus) (by decide) 25).trans hoff
  have hexec : exec .warmReset s = .next (signal s (warmLocked s)) := by
    change execWarmReset s = _
    rw [execWarmReset, warmReset_eq hpend, hback, hfab, Bool.not_false, Bool.and_self, if_pos rfl, done]
  refine ⟨_, hexec, hregs.signal, (signal_bit ..).trans hlock, (signal_power ..).trans hpower, ?_⟩
  rw [signal_journal, hkept.entry]

end

/-- Settles O55: one rule for each kind of reset. -/
theorem resets : Obligations.Resets := by
  unfold Obligations.Resets
  intro g s
  dsimp only
  have hkept : ∀ {t : State}, WarmDone s t → t.press = s.press ∧ t.journal.nextA = s.journal.nextA + 1 ∧ t.hostMem = s.hostMem
      ∧ t.time = s.time ∧ t.keys = s.keys ∧ t.rd aPwrCtl = s.rd aPwrCtl ∧ t.rd aPressCtl = s.rd aPressCtl
      ∧ t.streams = [] ∧ t.tiles = [] ∧ t.seqs = [] ∧ t.images = [] ∧ t.mem = State.reset.mem ∧ t.bit aDbgLock 0 = true := by
    intro t h
    obtain ⟨⟨hpress, hentry, hhost, htime, hkeys⟩, ⟨hstreams, -, htiles, hseqs, -, himages, hmem, -⟩, hctl, hpctl, hlock⟩ := h
    exact ⟨hpress, hentry, hhost, htime, hkeys, hctl, hpctl, hstreams, htiles, hseqs, himages, hmem, hlock⟩
  refine ⟨fabricReset_again, fabricReset_resets, fabricResetComplete_ends, fun hon hpend => ⟨?_, fun hstage hboot => ?_⟩,
    warmResetPin_holds, warmReset_inBackup, perstN_downs, regionReset_refused, regionReset_restarts⟩
  · obtain ⟨t, hexec, hdone, hat⟩ := warmReset_resets hon hpend
    exact ⟨t, hexec, hkept hdone, hat⟩
  · obtain ⟨t, hexec, hdone, hheld⟩ := warmResetPin_resets hon hpend hstage hboot
    exact ⟨t, hexec, hkept hdone, hheld⟩

end Sys2Proof.Machine
end

section
/-! The key store (R385). -/
namespace Sys2Proof.Machine

/-! ### A write with one more bit set -/

theorem nbits_lor {v m : Word} {lo len : Nat} (h : ∀ i < len, m.toNat.testBit (i + lo) = false) :
    nbits (v ||| m).toNat lo len = nbits v.toNat lo len := by
  refine Nat.eq_of_testBit_eq fun i => ?_
  rw [testBit_nbits, testBit_nbits, BitVec.toNat_or, Nat.testBit_or]
  by_cases hi : i < len
  · rw [h i hi, Bool.or_false]
  · rw [decide_eq_false hi, Bool.false_and, Bool.false_and]

theorem nbit_lor (v m : Word) (i : Nat) : nbit (v ||| m).toNat i = (nbit v.toNat i || nbit m.toNat i) := by
  simp only [nbit_eq_testBit, BitVec.toNat_or, Nat.testBit_or]

/-- A write with an action bit of its own names the same slot and base. -/
theorem keyFields_lor {v m : Word} (hm : m ∈ [0x40000000#32, 0x20000000#32, 0x80000000#32]) :
    nbits (v ||| m).toNat 16 4 = nbits v.toNat 16 4 ∧ nbits (v ||| m).toNat 0 14 = nbits v.toNat 0 14 := by
  obtain ⟨k, hk, hpow⟩ : ∃ k, 20 ≤ k ∧ m.toNat = 2 ^ k := by
    simp only [List.mem_cons, List.not_mem_nil, or_false] at hm
    obtain rfl | rfl | rfl := hm
    · exact ⟨30, by omega, rfl⟩
    · exact ⟨29, by omega, rfl⟩
    · exact ⟨31, by omega, rfl⟩
  have hlow : ∀ i < 20, m.toNat.testBit i = false := fun i hi => by
    rw [hpow, Nat.testBit_two_pow]
    exact decide_eq_false (by omega)
  exact ⟨nbits_lor fun i hi => hlow _ (by omega), nbits_lor fun i hi => hlow _ (by omega)⟩

/-! ### Slots -/

/-- The content of a slot. -/
def State.keySlot (s : State) (k : Nat) : BitVec 512 := tget 0 s.keys.slots k

/-- Put a key in a slot. -/
def State.setKey (s : State) (k : Nat) (x : BitVec 512) : State := { s with keys := { s.keys with slots := tset 0 s.keys.slots k x } }

theorem State.setKey_facts (s : State) (k : Nat) (x : BitVec 512) : (∀ j, (s.setKey k x).rd j = s.rd j) ∧ (s.setKey k x).keySlot k = x
    ∧ ∀ j, j ≠ k → (s.setKey k x).keySlot j = s.keySlot j :=
  ⟨fun _ => rfl, tget_tset_same _ _ _ _, fun _ h => tget_tset_ne _ _ _ _ h⟩

/-- SLOT and BASE are stored. -/
def keyNamed (k base : Nat) (s : State) : State := (s.setF aKeystoreCtl 16 4 k).setF aKeystoreCtl 0 14 base

theorem keyNamed_facts (k base : Nat) (s : State) : RegsBut [aKeystoreCtl] s (keyNamed k base s) ∧ OnlyRegs s (keyNamed k base s)
    ∧ (keyNamed k base s).keys = s.keys ∧ (keyNamed k base s).bit aKeystoreStatus 16 = s.bit aKeystoreStatus 16 := by
  have hregs : RegsBut [aKeystoreCtl] s (keyNamed k base s) :=
    ((RegsBut.refl _ s).setF List.mem_cons_self _ _ _).setF List.mem_cons_self _ _ _
  have honly : OnlyRegs s (keyNamed k base s) := ((OnlyRegs.refl s).setF _ _ _ _).setF _ _ _ _
  refine ⟨hregs, honly, ?_, hregs.bit_eq (by decide) 16⟩
  unfold OnlyRegs at honly
  rw [honly]

/-- What the 64 bytes at BASE say, big-endian. -/
def keyPoint (base : Nat) (s : State) : BitVec 512 :=
  BitVec.ofNat 512 (ofBytes ((List.range 64).map (fun i => s.mem.basin.byte (base * 4096 + i))).reverse)

/-- LOAD: a point of the curve is kept, anything else empties the slot and sets ERR. -/
theorem keyLoad_of_clean {k base : Nat} {s : State} (hfit : base * 4096 + 64 ≤ basinSize)
    (hclean : ∀ w, w * 8 < base * 4096 + 64 → base * 4096 < w * 8 + 8 → s.mem.basin.state w = .clean) :
    keyLoad k base s = if keyPoint base s ≠ 0 ∧ Config.onCurve (keyPoint base s) = true then s.setKey k (keyPoint base s)
      else (s.setKey k 0).setB aKeystoreStatus 17 true := by
  have hread := State.basinRead_of_clean (s := s) (a := base * 4096) (n := 64) hclean (by omega) hfit
  unfold keyLoad
  rw [hread]
  dsimp only
  change (let v := keyPoint base s
    let ok := decide (v ≠ 0) && Config.onCurve v
    let u := s.setKey k (if ok then v else 0)
    if ok then u else u.setB aKeystoreStatus 17 true) = _
  dsimp only
  by_cases hok : keyPoint base s ≠ 0 ∧ Config.onCurve (keyPoint base s) = true
  · have hok' : (decide (keyPoint base s ≠ 0) && Config.onCurve (keyPoint base s)) = true := by
      rw [decide_eq_true hok.1, hok.2]
      rfl
    rw [hok', if_pos rfl, if_pos hok, if_pos rfl]
  · have hok' : (decide (keyPoint base s ≠ 0) && Config.onCurve (keyPoint base s)) = false := by
      rw [Bool.eq_false_iff]
      intro h
      rw [Bool.and_eq_true, decide_eq_true_eq] at h
      exact hok h
    rw [hok', if_neg Bool.false_ne_true, if_neg hok, if_neg Bool.false_ne_true]

/-! ### A write to KEYSTORE_CTL -/

/-- CLEAR and LOAD, unless the store is locked. -/
def keyActed (n : Nat) (s : State) : State :=
  let locked := s.bit aKeystoreStatus 16
  let k := nbits n 16 4
  let t := if nbit n 29 && !locked then s.setKey k 0 else s
  if nbit n 30 && !locked then keyLoad k (nbits n 0 14) t else t

/-- A write that names a slot that is not fused. -/
theorem keystoreSet_eq {v : Word} {s : State} (hk : 4 ≤ nbits v.toNat 16 4) : keystoreSet v s
    = (if nbit v.toNat 31 then (keyActed v.toNat (keyNamed (nbits v.toNat 16 4) (nbits v.toNat 0 14) s)).setB aKeystoreStatus 16 true
        else keyActed v.toNat (keyNamed (nbits v.toNat 16 4) (nbits v.toNat 0 14) s)) := by
  unfold keystoreSet
  rw [if_neg (by omega)]
  rfl

section
variable {v : Word} {s : State}

theorem exec_keystore : exec (.keystoreLoad v) s = .next (signal s (keystoreSet (v ||| 0x40000000#32) s))
    ∧ exec (.keystoreClear v) s = .next (signal s (keystoreSet (v ||| 0x20000000#32) s))
    ∧ exec (.keystoreLock v) s = .next (signal s (keystoreSet (v ||| 0x80000000#32) s)) := ⟨rfl, rfl, rfl⟩

/-- Every key store command is a write with one bit more. -/
theorem exec_keystore_mem {c : Instr} (hc : c ∈ [Instr.keystoreLoad v, .keystoreClear v, .keystoreLock v]) :
    ∃ m ∈ [0x40000000#32, 0x20000000#32, 0x80000000#32], exec c s = .next (signal s (keystoreSet (v ||| m) s)) := by
  obtain ⟨hload, hclear, hlock⟩ := exec_keystore (v := v) (s := s)
  simp only [List.mem_cons, List.not_mem_nil, or_false] at hc
  obtain rfl | rfl | rfl := hc
  · exact ⟨_, by decide, hload⟩
  · exact ⟨_, by decide, hclear⟩
  · exact ⟨_, by decide, hlock⟩

theorem keystore_fused (hk : nbits v.toNat 16 4 < 4) : ∀ c ∈ [Instr.keystoreLoad v, .keystoreClear v, .keystoreLock v],
    exec c s = .next (signal s (reject none aKeystoreCtl s)) := by
  intro c hc
  obtain ⟨m, hm, hexec⟩ := exec_keystore_mem (s := s) hc
  rw [hexec, keystoreSet, (keyFields_lor hm).1, if_pos hk]

theorem keystoreClear_empties (hk : 4 ≤ nbits v.toNat 16 4) (h31 : nbit v.toNat 31 = false) (h30 : nbit v.toNat 30 = false)
    (hopen : s.bit aKeystoreStatus 16 = false) : ∃ t, exec (.keystoreClear v) s = .next t ∧ t.keySlot (nbits v.toNat 16 4) = 0
      ∧ (∀ j, j ≠ nbits v.toNat 16 4 → t.keySlot j = s.keySlot j) ∧ RegsBut [aKeystoreCtl] s t := by
  have hexec := (exec_keystore (v := v) (s := s)).2.1
  obtain ⟨hslot, hbase⟩ := keyFields_lor (v := v) (m := 0x20000000#32) (by decide)
  have hbits : nbit (v ||| 0x20000000#32).toNat 31 = false ∧ nbit (v ||| 0x20000000#32).toNat 30 = false
      ∧ nbit (v ||| 0x20000000#32).toNat 29 = true := by
    simp only [nbit_lor, h31, h30]
    exact ⟨rfl, rfl, Bool.or_true _⟩
  obtain ⟨hb31, hb30, hb29⟩ := hbits
  rw [keystoreSet_eq (by rw [hslot]; exact hk), hslot, hbase, hb31, if_neg Bool.false_ne_true] at hexec
  obtain ⟨hregs, -, hkeys, hlock⟩ := keyNamed_facts (nbits v.toNat 16 4) (nbits v.toNat 0 14) s
  generalize keyNamed (nbits v.toNat 16 4) (nbits v.toNat 0 14) s = u at *
  have hacted : keyActed (v ||| 0x20000000#32).toNat u = u.setKey (nbits v.toNat 16 4) 0 := by
    rw [keyActed, hlock, hopen, hb29, hb30, hslot]
    rfl
  rw [hacted] at hexec
  obtain ⟨hrd, hsame, hother⟩ := u.setKey_facts (nbits v.toNat 16 4) 0
  refine ⟨_, hexec, ?_, fun j hj => ?_, RegsBut.signal fun j hj => (hrd j).trans (hregs j hj)⟩
  · rw [State.keySlot, signal_keys]
    exact hsame
  · rw [State.keySlot, signal_keys]
    exact (hother j hj).trans (by rw [State.keySlot, hkeys, State.keySlot])

theorem keystoreLoad_loads (hk : 4 ≤ nbits v.toNat 16 4) (h31 : nbit v.toNat 31 = false) (h29 : nbit v.toNat 29 = false)
    (hopen : s.bit aKeystoreStatus 16 = false) (hfit : nbits v.toNat 0 14 * 4096 + 64 ≤ basinSize)
    (hclean : ∀ w, w * 8 < nbits v.toNat 0 14 * 4096 + 64 → nbits v.toNat 0 14 * 4096 < w * 8 + 8 → s.mem.basin.state w = .clean) :
    ∃ t, exec (.keystoreLoad v) s = .next t ∧ (∀ j, j ≠ nbits v.toNat 16 4 → t.keySlot j = s.keySlot j)
      ∧ RegsBut [aKeystoreCtl, aKeystoreStatus] s t
      ∧ t.keySlot (nbits v.toNat 16 4) = (if keyPoint (nbits v.toNat 0 14) s ≠ 0 ∧ Config.onCurve (keyPoint (nbits v.toNat 0 14) s) = true
          then keyPoint (nbits v.toNat 0 14) s else 0)
      ∧ (¬ (keyPoint (nbits v.toNat 0 14) s ≠ 0 ∧ Config.onCurve (keyPoint (nbits v.toNat 0 14) s) = true) →
          t.bit aKeystoreStatus 17 = true) := by
  have hexec := (exec_keystore (v := v) (s := s)).1
  obtain ⟨hslot, hbase⟩ := keyFields_lor (v := v) (m := 0x40000000#32) (by decide)
  have hbits : nbit (v ||| 0x40000000#32).toNat 31 = false ∧ nbit (v ||| 0x40000000#32).toNat 30 = true
      ∧ nbit (v ||| 0x40000000#32).toNat 29 = false := by
    simp only [nbit_lor, h31, h29]
    exact ⟨rfl, Bool.or_true _, rfl⟩
  obtain ⟨hb31, hb30, hb29⟩ := hbits
  rw [keystoreSet_eq (by rw [hslot]; exact hk), hslot, hbase, hb31, if_neg Bool.false_ne_true] at hexec
  obtain ⟨hregs, honly, hkeys, hlock⟩ := keyNamed_facts (nbits v.toNat 16 4) (nbits v.toNat 0 14) s
  generalize keyNamed (nbits v.toNat 16 4) (nbits v.toNat 0 14) s = u at *
  have hpoint : keyPoint (nbits v.toNat 0 14) u = keyPoint (nbits v.toNat 0 14) s := by rw [keyPoint, honly.mem, keyPoint]
  have hacted : keyActed (v ||| 0x40000000#32).toNat u = keyLoad (nbits v.toNat 16 4) (nbits v.toNat 0 14) u := by
    rw [keyActed, hlock, hopen, hb29, hb30, hslot, hbase]
    rfl
  rw [hacted, keyLoad_of_clean hfit (by rw [honly.mem]; exact hclean), hpoint] at hexec
  have hkept : ∀ j, u.keySlot j = s.keySlot j := fun j => by rw [State.keySlot, hkeys, State.keySlot]
  have hregs' : RegsBut [aKeystoreCtl, aKeystoreStatus] s u := hregs.mono fun o ho => by
    rw [List.mem_singleton.mp ho]
    exact List.mem_cons_self
  generalize nbits v.toNat 16 4 = k at *
  generalize keyPoint (nbits v.toNat 0 14) s = p at *
  by_cases hok : p ≠ 0 ∧ Config.onCurve p = true
  · rw [if_pos hok] at hexec
    obtain ⟨hrd, hsame, hother⟩ := u.setKey_facts k p
    refine ⟨_, hexec, fun j hj => ?_, RegsBut.signal fun j hj => (hrd j).trans (hregs' j hj), ?_, fun h => absurd hok h⟩
    · rw [State.keySlot, signal_keys]
      exact (hother j hj).trans (hkept j)
    · rw [if_pos hok, State.keySlot, signal_keys]
      exact hsame
  · rw [if_neg hok] at hexec
    obtain ⟨hrd, hsame, hother⟩ := u.setKey_facts k 0
    generalize u.setKey k 0 = w at *
    have hkeys' : (w.setB aKeystoreStatus 17 true).keys = w.keys := State.setF_keys ..
    refine ⟨_, hexec, fun j hj => ?_, ?_, ?_, fun _ => ?_⟩
    · rw [State.keySlot, signal_keys, hkeys']
      exact (hother j hj).trans (hkept j)
    · have hw : RegsBut [aKeystoreCtl, aKeystoreStatus] s w := fun j hj => (hrd j).trans (hregs' j hj)
      exact (hw.setB (List.mem_cons_of_mem _ List.mem_cons_self) _ _).signal
    · rw [if_neg hok, State.keySlot, signal_keys, hkeys']
      exact hsame
    · rw [signal_bit]
      exact State.bit_setB_same w _ true (by omega)

theorem keystoreLock_locks (hk : 4 ≤ nbits v.toNat 16 4) (h30 : nbit v.toNat 30 = false) (h29 : nbit v.toNat 29 = false) :
    ∃ t, exec (.keystoreLock v) s = .next t ∧ t.bit aKeystoreStatus 16 = true ∧ t.keys = s.keys
      ∧ RegsBut [aKeystoreCtl, aKeystoreStatus] s t := by
  have hexec := (exec_keystore (v := v) (s := s)).2.2
  obtain ⟨hslot, hbase⟩ := keyFields_lor (v := v) (m := 0x80000000#32) (by decide)
  have hbits : nbit (v ||| 0x80000000#32).toNat 31 = true ∧ nbit (v ||| 0x80000000#32).toNat 30 = false
      ∧ nbit (v ||| 0x80000000#32).toNat 29 = false := by
    simp only [nbit_lor, h30, h29]
    exact ⟨Bool.or_true _, rfl, rfl⟩
  obtain ⟨hb31, hb30, hb29⟩ := hbits
  rw [keystoreSet_eq (by rw [hslot]; exact hk), hslot, hbase, hb31, if_pos rfl] at hexec
  obtain ⟨hregs, -, hkeys, -⟩ := keyNamed_facts (nbits v.toNat 16 4) (nbits v.toNat 0 14) s
  generalize keyNamed (nbits v.toNat 16 4) (nbits v.toNat 0 14) s = u at *
  have hacted : keyActed (v ||| 0x80000000#32).toNat u = u := by
    rw [keyActed, hb29, hb30]
    rfl
  rw [hacted] at hexec
  have hregs' : RegsBut [aKeystoreCtl, aKeystoreStatus] s u := hregs.mono fun o ho => by
    rw [List.mem_singleton.mp ho]
    exact List.mem_cons_self
  refine ⟨_, hexec, ?_, ?_, (hregs'.setB (List.mem_cons_of_mem _ List.mem_cons_self) _ _).signal⟩
  · rw [signal_bit]
    exact State.bit_setB_same u _ true (by omega)
  · rw [signal_keys, State.setB, State.setF_keys, hkeys]

theorem keystore_locked (hk : 4 ≤ nbits v.toNat 16 4) (hlocked : s.bit aKeystoreStatus 16 = true) :
    ∀ c ∈ [Instr.keystoreLoad v, .keystoreClear v], ∃ t, exec c s = .next t ∧ t.keys = s.keys ∧ t.bit aKeystoreStatus 16 = true := by
  intro c hc
  obtain ⟨m, hm, hexec⟩ := exec_keystore_mem (s := s) (v := v) (c := c) (by
    simp only [List.mem_cons, List.not_mem_nil, or_false] at hc ⊢
    tauto)
  obtain ⟨hslot, hbase⟩ := keyFields_lor (v := v) hm
  rw [keystoreSet_eq (by rw [hslot]; exact hk), hslot, hbase] at hexec
  obtain ⟨-, -, hkeys, hlock⟩ := keyNamed_facts (nbits v.toNat 16 4) (nbits v.toNat 0 14) s
  generalize keyNamed (nbits v.toNat 16 4) (nbits v.toNat 0 14) s = u at *
  have hacted : keyActed (v ||| m).toNat u = u := by
    rw [keyActed, hlock, hlocked, Bool.not_true, Bool.and_false, Bool.and_false]
    rfl
  rw [hacted] at hexec
  refine ⟨_, hexec, ?_, ?_⟩
  · rw [signal_keys]
    split
    · rw [State.setB, State.setF_keys, hkeys]
    · exact hkeys
  · rw [signal_bit]
    split
    · exact State.bit_setB_same u _ true (by omega)
    · exact hlock.trans hlocked

end

/-- Settles O56: one rule for each command of the key store. -/
theorem keyStore : Obligations.KeyStore := by
  unfold Obligations.KeyStore
  intro v s
  exact ⟨keystore_fused, keystoreClear_empties, keystoreLoad_loads, keystoreLock_locks, keystore_locked⟩

end Sys2Proof.Machine
end

section
/-! The registers of the tray's BMC, and its poll (R418, R421). -/
namespace Sys2Proof.Machine

/-! ### Fields of a BMC register -/

section
variable (k lo len v : Nat) (s : State)

/-- Bit i of BMC register k. -/
def State.trayBit (s : State) (k i : Nat) : Bool := (s.trayRd k).toNat.testBit i

theorem trayBit_traySet {i : Nat} (hi : i < 32) : (traySet k lo len v s).trayBit k i
    = if lo ≤ i ∧ i < lo + len then v.testBit (i - lo) else s.trayBit k i := by
  rw [State.trayBit, State.trayRd_traySet, BitVec.toNat_ofNat, Nat.testBit_mod_two_pow, decide_eq_true hi, Bool.true_and, testBit_nput]
  rfl

theorem trayField_traySet (h : lo + len ≤ 32) : nbits ((traySet k lo len v s).trayRd k).toNat lo len = v % 2 ^ len := by
  rw [State.trayRd_traySet, BitVec.toNat_ofNat, nbits_of_nput_word _ _ h]

theorem trayField_traySet_ne {a b : Nat} (h : a + b ≤ lo ∨ lo + len ≤ a) (hb : a + b ≤ 32) :
    nbits ((traySet k lo len v s).trayRd k).toNat a b = nbits (s.trayRd k).toNat a b := by
  rw [State.trayRd_traySet, nbits_nput_word h hb]

theorem trayRd_traySet_ne {j : Nat} (h : j ≠ k) : (traySet k lo len v s).trayRd j = s.trayRd j := tget_tset_ne _ _ _ _ h

theorem traySet_rd (j : Nat) : (traySet k lo len v s).rd j = s.rd j := rfl

theorem traySet_kept : (traySet k lo len v s).tray.last = s.tray.last ∧ (traySet k lo len v s).tray.in12 = s.tray.in12
    ∧ (traySet k lo len v s).tray.pend = s.tray.pend ∧ (traySet k lo len v s).power = s.power := ⟨rfl, rfl, rfl, rfl⟩

end

theorem testBit_flagBits {l : List Bool} (hl : l.length = 4) {i : Nat} (hi : i < 4) : (flagBits l).testBit i = l.getD i false := by
  have hall : ∀ a b c d : Bool, ∀ i < 4, (flagBits [a, b, c, d]).testBit i = [a, b, c, d].getD i false := by decide
  match l, hl with
  | [a, b, c, d], _ => exact hall a b c d i hi

theorem testBit_b2n (x : Bool) : (b2n x).testBit 0 = x := by cases x <;> rfl

/-- A flag of each package's reading. -/
theorem testBit_flagBits_map {ps : List PackageStatus} (hl : ps.length = 4) (f : PackageStatus → Bool) {i : Nat} (hi : i < 4)
    (d : PackageStatus) : (flagBits (ps.map f)).testBit i = f (nth ps i d) := by
  rw [testBit_flagBits (by rw [List.length_map, hl]) hi, nth]
  have hlt : i < ps.length := by omega
  rw [List.getD_eq_getElem?_getD, List.getElem?_map, List.getElem?_eq_getElem hlt]
  rfl

/-! ### The links a package sees -/

section
variable {s t : State}

theorem linksUp_bits (hd : s.power.smb < 4) : (linksUp s t).trayBit 1 s.power.smb = s.bit (aCwyLinkStatus 0) 0
    ∧ (linksUp s t).trayBit 1 ((s.power.smb + 3) % 4) = s.bit (aCwyLinkStatus 1) 0
    ∧ (linksUp s t).trayBit 1 (4 + s.power.smb % 2) = s.bit (aCwyLinkStatus 2) 0
    ∧ ∀ i, 6 ≤ i → i < 32 → (linksUp s t).trayBit 1 i = t.trayBit 1 i := by
  unfold linksUp
  dsimp only
  generalize s.power.smb = d at *
  have hbit : ∀ (n x : Nat) (u : State) {i : Nat}, i < 32 → (traySet 1 n 1 x u).trayBit 1 i = if i = n then x.testBit 0 else u.trayBit 1 i := by
    intro n x u i hi
    rw [trayBit_traySet _ _ _ _ _ hi]
    by_cases h : i = n
    · rw [if_pos h, if_pos (by omega), h, Nat.sub_self]
    · rw [if_neg h, if_neg (by omega)]
  refine ⟨?_, ?_, ?_, fun i h6 hi => ?_⟩
  · rw [hbit _ _ _ (by omega), if_neg (by omega), hbit _ _ _ (by omega), if_neg (by omega), hbit _ _ _ (by omega), if_pos rfl, testBit_b2n]
  · rw [hbit _ _ _ (by omega), if_neg (by omega), hbit _ _ _ (by omega), if_pos rfl, testBit_b2n]
  · rw [hbit _ _ _ (by omega), if_pos rfl, testBit_b2n]
  · rw [hbit _ _ _ hi, if_neg (by omega), hbit _ _ _ hi, if_neg (by omega), hbit _ _ _ hi, if_neg (by omega)]

theorem nbits_of_bits {n m lo len : Nat} (h : ∀ i < len, n.testBit (i + lo) = m.testBit (i + lo)) : nbits n lo len = nbits m lo len := by
  refine Nat.eq_of_testBit_eq fun i => ?_
  rw [testBit_nbits, testBit_nbits]
  by_cases hi : i < len
  · rw [h i hi]
  · rw [decide_eq_false hi, Bool.false_and, Bool.false_and]

theorem linksUp_field (hd : s.power.smb < 4) {lo len : Nat} (hlo : 6 ≤ lo) (h : lo + len ≤ 32) :
    nbits ((linksUp s t).trayRd 1).toNat lo len = nbits (t.trayRd 1).toNat lo len := by
  obtain ⟨-, -, -, hrest⟩ := linksUp_bits (t := t) hd
  exact nbits_of_bits fun i hi => hrest (i + lo) (by omega) (by omega)

/-! ### The poll (R418, R421) -/

/-- The readings of the packages in TRAY_STATUS, before the links. -/
def trayPolled (qs : List PackageStatus) (bad : List Bool) (s : State) : State :=
  let old := (s.trayRd 1).toNat
  let t := traySet 1 12 4 (nbits old 12 4 ||| flagBits bad) s
  let t := traySet 1 16 4 (flagBits (qs.map (·.present))) t
  let t := traySet 1 8 4 (flagBits (qs.map (fun p => p.present && nbit p.pwr.toNat 24))) t
  traySet 1 28 4 (trayState s.tray.in12 qs (nbits old 28 4)) t

/-- The packages that show a fault: fabric lost, a failure of its own, or the bank's. -/
def trayBad (qs : List PackageStatus) (s : State) : List Bool :=
  (List.range 4).map (fun d => (s.tray.in12 && ((s.tray.last[d]?.map (fun p => pkgOn p)).getD false)
    && !((qs[d]?.map (fun p => pkgOn p)).getD false)) || ((qs[d]?.map (fun p => pkgFails p)).getD false)
    || nbit (s.trayRd 1).toNat 24)

theorem trayBad_fails {qs : List PackageStatus} {k : Nat} (hk : k < 4) (hl : qs.length = 4) (d : PackageStatus)
    (h : pkgFails (nth qs k d) = true) : (trayBad qs s).getD k false = true := by
  have hlt : k < qs.length := by omega
  have hfails : (qs[k]?.map (fun p => pkgFails p)).getD false = true := by
    rw [nth, List.getElem?_eq_getElem hlt, Option.getD_some] at h
    rw [List.getElem?_eq_getElem hlt, Option.map_some, Option.getD_some]
    exact h
  rw [trayBad, List.getD_eq_getElem?_getD, List.getElem?_map, List.getElem?_range hk, Option.map_some, Option.getD_some, hfails,
    Bool.or_true, Bool.true_or]

theorem trayState_lt {in12 : Bool} {ps : List PackageStatus} {old : Nat} (hold : old < 16) : trayState in12 ps old < 16 := by
  unfold trayState
  split
  · omega
  · split
    · omega
    · split
      · omega
      · exact hold

theorem trayPolled_facts {qs : List PackageStatus} (hl : qs.length = 4) {bad : List Bool} (hbad : bad.length = 4) (s : State)
    (d : PackageStatus) :
    nbits ((trayPolled qs bad s).trayRd 1).toNat 28 4 = trayState s.tray.in12 qs (nbits (s.trayRd 1).toNat 28 4)
      ∧ (∀ k < 4, (trayPolled qs bad s).trayBit 1 (16 + k) = (nth qs k d).present)
      ∧ (∀ k < 4, (trayPolled qs bad s).trayBit 1 (8 + k) = ((nth qs k d).present && nbit (nth qs k d).pwr.toNat 24))
      ∧ (∀ k < 4, bad.getD k false = true → (trayPolled qs bad s).trayBit 1 (12 + k) = true) := by
  unfold trayPolled
  dsimp only
  refine ⟨?_, fun k hk => ?_, fun k hk => ?_, fun k hk hset => ?_⟩
  · rw [trayField_traySet _ _ _ _ _ (by omega)]
    exact Nat.mod_eq_of_lt (trayState_lt (nbits_lt _ _ 4))
  · rw [trayBit_traySet _ _ _ _ _ (by omega), if_neg (by omega), trayBit_traySet _ _ _ _ _ (by omega), if_neg (by omega),
      trayBit_traySet _ _ _ _ _ (by omega), if_pos (by omega), Nat.add_sub_cancel_left]
    exact testBit_flagBits_map hl _ hk d
  · rw [trayBit_traySet _ _ _ _ _ (by omega), if_neg (by omega), trayBit_traySet _ _ _ _ _ (by omega), if_pos (by omega),
      Nat.add_sub_cancel_left]
    exact testBit_flagBits_map hl (fun p => p.present && nbit p.pwr.toNat 24) hk d
  · rw [trayBit_traySet _ _ _ _ _ (by omega), if_neg (by omega), trayBit_traySet _ _ _ _ _ (by omega), if_neg (by omega),
      trayBit_traySet _ _ _ _ _ (by omega), if_neg (by omega), trayBit_traySet _ _ _ _ _ (by omega), if_pos (by omega),
      Nat.add_sub_cancel_left, Nat.testBit_or, testBit_flagBits hbad hk, hset, Bool.or_true]

theorem trayPolled_rd (qs : List PackageStatus) (bad : List Bool) (s : State) (j : Nat) : (trayPolled qs bad s).rd j = s.rd j := by
  unfold trayPolled
  dsimp only
  rw [traySet_rd, traySet_rd, traySet_rd, traySet_rd]

theorem linksUp_rd (s t : State) (j : Nat) : (linksUp s t).rd j = t.rd j := by
  unfold linksUp
  dsimp only
  rw [traySet_rd, traySet_rd, traySet_rd]

/-- The BMC keeps what it read, and its fault pin follows FAULT. -/
def pollNoted (qs : List PackageStatus) (t : State) : State :=
  { t with tray := { t.tray with last := qs, faultPin := decide (nbits (t.trayRd 1).toNat 12 4 ≠ 0) } }

theorem pollNoted_facts (qs : List PackageStatus) (t : State) : (∀ j, (pollNoted qs t).rd j = t.rd j)
    ∧ (pollNoted qs t).trayRd 1 = t.trayRd 1 ∧ (pollNoted qs t).tray.last = qs
    ∧ (pollNoted qs t).tray.faultPin = decide (nbits (t.trayRd 1).toNat 12 4 ≠ 0) := ⟨fun _ => rfl, rfl, rfl, rfl⟩

theorem signal_trayRd (s u : State) (k : Nat) : (signal s u).trayRd k = u.trayRd k := by rw [State.trayRd, signal_tray, State.trayRd]

theorem bmcPoll_polls {ps : List PackageStatus} (hl : ps.length = 4) (hd : s.power.smb < 4) :
    let own : PackageStatus := ⟨true, s.rd aPwrStatus, s.rd aBootStatus⟩
    let qs := ps.set s.power.smb own
    ∃ t, exec (.bmcPoll ps) s = .next t ∧ RegsBut [] s t ∧ t.tray.last = qs
      ∧ nbits (t.trayRd 1).toNat 28 4 = trayState s.tray.in12 qs (nbits (s.trayRd 1).toNat 28 4)
      ∧ t.tray.faultPin = decide (nbits (t.trayRd 1).toNat 12 4 ≠ 0)
      ∧ (∀ k < 4, nbit (t.trayRd 1).toNat (16 + k) = (nth qs k own).present
        ∧ nbit (t.trayRd 1).toNat (8 + k) = ((nth qs k own).present && nbit (nth qs k own).pwr.toNat 24)
        ∧ (pkgFails (nth qs k own) = true → nbit (t.trayRd 1).toNat (12 + k) = true))
      ∧ nbit (t.trayRd 1).toNat s.power.smb = s.bit (aCwyLinkStatus 0) 0
      ∧ nbit (t.trayRd 1).toNat ((s.power.smb + 3) % 4) = s.bit (aCwyLinkStatus 1) 0
      ∧ nbit (t.trayRd 1).toNat (4 + s.power.smb % 2) = s.bit (aCwyLinkStatus 2) 0 := by
  intro own qs
  obtain ⟨t, ht⟩ : ∃ t, linksUp s (trayPolled qs (trayBad qs s) s) = t := ⟨_, rfl⟩
  have hexec : exec (.bmcPoll ps) s = .next (signal s (pollNoted qs t)) := by
    rw [← ht]
    change execBmcPoll ps s = _
    rw [execBmcPoll, if_neg (not_not.mpr hl)]
    rfl
  have hqs : qs.length = 4 := by rw [List.length_set, hl]
  obtain ⟨hstate, hpresent, hback, hfault⟩ := trayPolled_facts hqs (bad := trayBad qs s) (by rw [trayBad, List.length_map, List.length_range])
    s own
  have hrd : ∀ j, t.rd j = s.rd j := fun j => by rw [← ht, linksUp_rd, trayPolled_rd]
  have hfield := linksUp_field (t := trayPolled qs (trayBad qs s) s) hd (lo := 28) (len := 4) (by omega) (by omega)
  obtain ⟨hl0, hl1, hl2, hrest⟩ := linksUp_bits (t := trayPolled qs (trayBad qs s) s) hd
  rw [ht] at hfield hl0 hl1 hl2 hrest
  generalize trayPolled qs (trayBad qs s) s = u at *
  obtain ⟨hrd', hstatus, hlast, hpin⟩ := pollNoted_facts qs t
  generalize pollNoted qs t = w at *
  refine ⟨_, hexec, fun j _ => (signal_rd ..).trans ((hrd' j).trans (hrd j)), ?_, ?_, ?_, fun k hk => ?_, ?_, ?_, ?_⟩
  · rw [signal_tray, hlast]
  · rw [signal_trayRd, hstatus, hfield, hstate]
  · rw [signal_trayRd, signal_tray, hpin, hstatus]
  · rw [signal_trayRd, hstatus]
    simp only [nbit_eq_testBit]
    refine ⟨(hrest (16 + k) (by omega) (by omega)).trans (hpresent k hk), ?_, fun hf => ?_⟩
    · rw [← nbit_eq_testBit (nth qs k own).pwr.toNat]
      exact (hrest (8 + k) (by omega) (by omega)).trans (hback k hk)
    · exact (hrest (12 + k) (by omega) (by omega)).trans (hfault k hk (trayBad_fails hk hqs own hf))
  · rw [signal_trayRd, hstatus, nbit_eq_testBit]
    exact hl0
  · rw [signal_trayRd, hstatus, nbit_eq_testBit]
    exact hl1
  · rw [signal_trayRd, hstatus, nbit_eq_testBit]
    exact hl2

end

end Sys2Proof.Machine
end

section
/-! New firmware, the bank's level, and what else the tray's BMC does (R419, R420). -/
namespace Sys2Proof.Machine

section
variable {s : State}

/-! ### New firmware (R420) -/

theorem find_filter {α : Type} (l : List (Nat × α)) {p : Nat → Bool} {k : Nat} (hk : p k = true) :
    (l.filter (fun q => p q.1)).find? (fun q => q.1 == k) = l.find? (fun q => q.1 == k) := by
  rw [List.find?_filter]
  refine congrArg (fun f => List.find? f l) (funext fun q => ?_)
  by_cases h : q.1 = k
  · rw [h, hk]
    simp
  · simp [h]

theorem find_filter_none {α : Type} (l : List (Nat × α)) {p : Nat → Bool} {k : Nat} (hk : p k = false) :
    (l.filter (fun q => p q.1)).find? (fun q => q.1 == k) = none := by
  rw [List.find?_eq_none]
  intro q hq h
  rw [beq_iff_eq] at h
  have := (List.mem_filter.mp hq).2
  rw [h, hk] at this
  exact Bool.false_ne_true this

theorem bmcFirmwareWrite_holds (d : Fin 4) (im : FwImage) : ∃ t, exec (.bmcFirmwareWrite d im) s = .next t ∧ RegsBut [] s t
    ∧ t.tray.pend.find? (fun p => p.1 == d.val) = some (d.val, im)
    ∧ ∀ k, k ≠ d.val → t.tray.pend.find? (fun p => p.1 == k) = s.tray.pend.find? (fun p => p.1 == k) := by
  obtain ⟨l, hl⟩ : ∃ l, s.tray.pend.filter (fun q => q.1 < d.val) ++ [(d.val, im)] ++ s.tray.pend.filter (fun q => d.val < q.1) = l :=
    ⟨_, rfl⟩
  have hexec : exec (.bmcFirmwareWrite d im) s = .next (signal s { s with tray := { s.tray with pend := l } }) := by
    rw [← hl]
    rfl
  refine ⟨_, hexec, fun j _ => signal_rd .., ?_, fun k hk => ?_⟩
  · rw [signal_tray, ← hl, List.find?_append, List.find?_append,
      find_filter_none (p := fun n => decide (n < d.val)) _ (decide_eq_false (by omega))]
    simp
  · have hmid : [(d.val, im)].find? (fun p => p.1 == k) = none := by simp [Ne.symm hk]
    rw [signal_tray, ← hl, List.find?_append, List.find?_append, hmid, Option.or_none]
    rcases Nat.lt_or_gt_of_ne hk with h | h
    · rw [find_filter (p := fun n => decide (n < d.val)) _ (decide_eq_true h),
        find_filter_none (p := fun n => decide (d.val < n)) _ (decide_eq_false (by omega)), Option.or_none]
    · rw [find_filter_none (p := fun n => decide (n < d.val)) _ (decide_eq_false (by omega)), Option.none_or,
        find_filter (p := fun n => decide (d.val < n)) _ (decide_eq_true h)]

/-- The packages that a write of TRAY_CTL resets. -/
def activated (v : Word) : List Nat := (List.range 4).filter (fun d => nbit v.toNat d && nbit v.toNat (4 + d))

theorem mem_activated {v : Word} {d : Nat} : d ∈ activated v ↔ d < 4 ∧ (nbit v.toNat d && nbit v.toNat (4 + d)) = true := by
  rw [activated, List.mem_filter, List.mem_range]

theorem exec_trayActivate (v : Word) : exec (.trayActivate v) s
    = .next (signal s (each (activated v) (traySet 2 0 4 (nbits v.toNat 0 4) s) Machine.trayActivate)) := rfl

/-- Another package is asked to reset, and its firmware no longer waits. -/
def resetAsked (d : Nat) (s : State) : State :=
  { s.emit (.trayReset d) with tray := { s.tray with pend := s.tray.pend.filter (fun q => q.1 != d) } }

theorem trayActivate_other {d : Nat} {t : State} (h : d ≠ t.power.smb) : Machine.trayActivate t d = resetAsked d t := if_neg h

/-- What a request to another package leaves. -/
theorem resetAsked_facts (d : Nat) (t : State) : (∀ j, (resetAsked d t).rd j = t.rd j) ∧ (resetAsked d t).power = t.power
    ∧ (∀ j, (resetAsked d t).trayRd j = t.trayRd j) ∧ .trayReset d ∈ (resetAsked d t).outbox
    ∧ (∀ o ∈ t.outbox, o ∈ (resetAsked d t).outbox)
    ∧ (resetAsked d t).tray.pend.find? (fun p => p.1 == d) = none
    ∧ ∀ k, t.tray.pend.find? (fun p => p.1 == k) = none → (resetAsked d t).tray.pend.find? (fun p => p.1 == k) = none := by
  refine ⟨fun _ => rfl, rfl, fun _ => rfl, t.mem_outbox_emit _, fun o ho => List.mem_append_left _ ho, ?_, fun k hk => ?_⟩
  · exact find_filter_none (p := fun n => n != d) _ (by simp)
  · rw [List.find?_eq_none] at hk ⊢
    exact fun q hq => hk q (List.mem_of_mem_filter hq)

/-- Package d has been asked to reset. -/
def Asked (d : Nat) (t : State) : Prop := .trayReset d ∈ t.outbox ∧ t.tray.pend.find? (fun p => p.1 == d) = none

theorem trayActivate_others {v : Word} (hown : (nbit v.toNat s.power.smb && nbit v.toNat (4 + s.power.smb)) = false ∨ 4 ≤ s.power.smb) :
    ∃ t, exec (.trayActivate v) s = .next t ∧ RegsBut [] s t ∧ nbits (t.trayRd 2).toNat 0 4 = nbits v.toNat 0 4
      ∧ ∀ k < 4, (nbit v.toNat k && nbit v.toNat (4 + k)) = true → .trayReset k ∈ t.outbox
        ∧ t.tray.pend.find? (fun p => p.1 == k) = none := by
  have hctl : nbits ((traySet 2 0 4 (nbits v.toNat 0 4) s).trayRd 2).toNat 0 4 = nbits v.toNat 0 4 :=
    (trayField_traySet 2 0 4 _ s (by omega)).trans (Nat.mod_eq_of_lt (nbits_lt _ 0 4))
  have hrd : ∀ j, (traySet 2 0 4 (nbits v.toNat 0 4) s).rd j = s.rd j := traySet_rd 2 0 4 _ s
  have hpower : (traySet 2 0 4 (nbits v.toNat 0 4) s).power = s.power := rfl
  have hexec := exec_trayActivate (s := s) v
  generalize traySet 2 0 4 (nbits v.toNat 0 4) s = u at *
  have hother : ∀ d ∈ activated v, d ≠ u.power.smb := by
    intro d hd heq
    obtain ⟨hlt, hboth⟩ := mem_activated.mp hd
    rw [hpower] at heq
    rcases hown with h | h
    · rw [heq, h] at hboth
      exact Bool.false_ne_true hboth
    · omega
  have hall : ∀ (l : List Nat) (w : State), (∀ d ∈ l, d ≠ w.power.smb) →
      (∀ j, (each l w Machine.trayActivate).rd j = w.rd j) ∧ (∀ j, (each l w Machine.trayActivate).trayRd j = w.trayRd j)
        ∧ ∀ d, d ∈ l ∨ Asked d w → Asked d (each l w Machine.trayActivate) := by
    intro l
    induction l with
    | nil => exact fun w _ => ⟨fun _ => rfl, fun _ => rfl, fun d h => h.resolve_left List.not_mem_nil⟩
    | cons d l ih =>
      intro w hw
      obtain ⟨hrd', hpow', htray', hout, hkeep, hnone, hnone'⟩ := resetAsked_facts d w
      have hstep : each (d :: l) w Machine.trayActivate = each l (resetAsked d w) Machine.trayActivate := by
        rw [each, List.foldl_cons, trayActivate_other (hw d List.mem_cons_self), each]
      obtain ⟨h1, h2, h3⟩ := ih (resetAsked d w) fun e he => by
        rw [hpow']
        exact hw e (List.mem_cons_of_mem _ he)
      rw [hstep]
      refine ⟨fun j => (h1 j).trans (hrd' j), fun j => (h2 j).trans (htray' j), fun e he => h3 e ?_⟩
      rcases he with he | ⟨ho, hn⟩
      · rcases List.mem_cons.mp he with rfl | he
        · exact .inr ⟨hout, hnone⟩
        · exact .inl he
      · exact .inr ⟨hkeep _ ho, hnone' e hn⟩
  obtain ⟨hregs, htray, hasked⟩ := hall (activated v) u hother
  generalize each (activated v) u Machine.trayActivate = w at *
  refine ⟨_, hexec, fun j _ => (signal_rd ..).trans ((hregs j).trans (hrd j)), ?_, fun k hk hboth => ?_⟩
  · rw [signal_trayRd, htray, hctl]
  · obtain ⟨hout, hnone⟩ := hasked k (.inl (mem_activated.mpr ⟨hk, hboth⟩))
    refine ⟨mem_outbox_signal hout s, ?_⟩
    rw [signal_tray, hnone]

theorem activated_own {v : Word} {d : Nat} (hd : d < 4) (hown : (nbit v.toNat d && nbit v.toNat (4 + d)) = true)
    (hothers : ∀ k < 4, k ≠ d → (nbit v.toNat k && nbit v.toNat (4 + k)) = false) : activated v = [d] := by
  have hfilter : activated v = (List.range 4).filter (fun k => k == d) := List.filter_congr fun k hk => by
    by_cases h : k = d
    · rw [h, hown, beq_self_eq_true]
    · rw [hothers k (List.mem_range.mp hk) h]
      exact (beq_eq_false_iff_ne.mpr h).symm
  rw [hfilter]
  have hall : ∀ d < 4, (List.range 4).filter (fun k => k == d) = [d] := by decide
  exact hall d hd

theorem trayActivate_own {v : Word} (hd : s.power.smb < 4) (hown : (nbit v.toNat s.power.smb && nbit v.toNat (4 + s.power.smb)) = true)
    (hothers : ∀ k < 4, k ≠ s.power.smb → (nbit v.toNat k && nbit v.toNat (4 + k)) = false) :
    exec (.trayActivate v) s = .next (signal s (warmReset false (traySet 2 0 4 (nbits v.toNat 0 4) s))) := by
  have hexec := exec_trayActivate (s := s) v
  have hpower : (traySet 2 0 4 (nbits v.toNat 0 4) s).power = s.power := rfl
  rw [activated_own hd hown hothers] at hexec
  rw [hexec]
  generalize traySet 2 0 4 (nbits v.toNat 0 4) s = u at *
  have hact : Machine.trayActivate u s.power.smb = warmReset false u := if_pos (by rw [hpower])
  rw [each, List.foldl_cons, List.foldl_nil, hact]

/-! ### The bank (R419) -/

/-- The bank's reading, BANK_LOW, and whether the tray holds the packages in KEEL. -/
def bankNoted (low : Bool) (mv energy : Nat) (s : State) : State :=
  let t := traySet 1 25 1 (b2n low) (bankRead mv energy s)
  { t with tray := { t.tray with holds := low } }

theorem bankRead_facts (mv energy : BitVec 16) (s : State) : (∀ j, (bankRead mv.toNat energy.toNat s).rd j = s.rd j)
    ∧ nbits ((bankRead mv.toNat energy.toNat s).trayRd 4).toNat 0 16 = mv.toNat
    ∧ nbits ((bankRead mv.toNat energy.toNat s).trayRd 4).toNat 16 16 = energy.toNat := by
  unfold bankRead
  refine ⟨fun j => ?_, ?_, ?_⟩
  · rw [traySet_rd, traySet_rd]
  · exact (trayField_traySet _ _ _ _ _ (by omega)).trans (Nat.mod_eq_of_lt mv.isLt)
  · rw [trayField_traySet_ne 4 0 16 mv.toNat (traySet 4 16 16 energy.toNat s) (by omega) (by omega)]
    exact (trayField_traySet _ _ _ _ _ (by omega)).trans (Nat.mod_eq_of_lt energy.isLt)

theorem holdNoted_facts (low : Bool) (t : State) :
    (∀ j, ({ t with tray := { t.tray with holds := low } } : State).rd j = t.rd j)
      ∧ ∀ k, ({ t with tray := { t.tray with holds := low } } : State).trayRd k = t.trayRd k := ⟨fun _ => rfl, fun _ => rfl⟩

theorem bankNoted_facts (low : Bool) (mv energy : BitVec 16) (s : State) : (∀ j, (bankNoted low mv.toNat energy.toNat s).rd j = s.rd j)
    ∧ nbits ((bankNoted low mv.toNat energy.toNat s).trayRd 4).toNat 0 16 = mv.toNat
    ∧ nbits ((bankNoted low mv.toNat energy.toNat s).trayRd 4).toNat 16 16 = energy.toNat
    ∧ nbits ((bankNoted low mv.toNat energy.toNat s).trayRd 1).toNat 25 1 = b2n low
    ∧ (bankNoted low mv.toNat energy.toNat s).tray.holds = low := by
  obtain ⟨hrd, hmv, henergy⟩ := bankRead_facts mv energy s
  unfold bankNoted
  dsimp only
  generalize bankRead mv.toNat energy.toNat s = u at *
  have hlow : nbits ((traySet 1 25 1 (b2n low) u).trayRd 1).toNat 25 1 = b2n low :=
    (trayField_traySet 1 25 1 (b2n low) u (by omega)).trans (by cases low <;> rfl)
  have hbank : (traySet 1 25 1 (b2n low) u).trayRd 4 = u.trayRd 4 := trayRd_traySet_ne 1 25 1 _ u (by omega)
  have hrd' : ∀ j, (traySet 1 25 1 (b2n low) u).rd j = u.rd j := traySet_rd 1 25 1 _ u
  generalize traySet 1 25 1 (b2n low) u = w at *
  obtain ⟨hsame, htray⟩ := holdNoted_facts low w
  refine ⟨fun j => (hsame j).trans ((hrd' j).trans (hrd j)), ?_, ?_, ?_, rfl⟩
  · rw [htray, hbank, hmv]
  · rw [htray, hbank, henergy]
  · rw [htray, hlow]

theorem exec_bankLow {mv energy : BitVec 16} (hmv : mv.toNat < 4000) : exec (.bankLow mv energy) s
    = .next (signal s (if s.pwrState = 3 ∨ s.onVbak then bankNoted true mv.toNat energy.toNat s
        else restRequest 2 (bankNoted true mv.toNat energy.toNat s))) := by
  change execBankLow mv energy s = _
  rw [execBankLow, if_neg (by omega)]
  rfl

theorem restRequest_facts {k : Nat} (hk : k < 16) (t : State) : (restRequest k t).tray = t.tray
    ∧ (t.mayRest = true → (restRequest k t).f aPwrCtl 0 4 = k ∧ (restRequest k t).power.target = some k)
    ∧ (t.mayRest = false → (restRequest k t).bit aPwrStatus 22 = true) := by
  unfold restRequest
  by_cases h : t.mayRest = true
  · rw [if_pos h]
    have hf : (t.setF aPwrCtl 0 4 k).f aPwrCtl 0 4 = k := (State.f_setF_same t _ _ (by omega)).trans (Nat.mod_eq_of_lt hk)
    have htray : (t.setF aPwrCtl 0 4 k).tray = t.tray := State.setF_tray ..
    generalize t.setF aPwrCtl 0 4 k = u at *
    exact ⟨htray, fun _ => ⟨(State.f_withPower ..).trans hf, rfl⟩, fun h' => absurd (h.symm.trans h') (by decide)⟩
  · rw [if_neg h]
    exact ⟨State.setF_tray .., fun h' => absurd h' h, fun _ => State.bit_setB_same t _ true (by omega)⟩

theorem traySet_streams (k lo len v : Nat) (s : State) : (traySet k lo len v s).streams = s.streams := rfl

theorem bankNoted_streams (low : Bool) (mv energy : Nat) (s : State) : (bankNoted low mv energy s).streams = s.streams := by
  unfold bankNoted bankRead
  dsimp only
  rw [traySet_streams, traySet_streams, traySet_streams]

theorem bankNoted_mayRest (low : Bool) (mv energy : BitVec 16) (s : State) : (bankNoted low mv.toNat energy.toNat s).mayRest = s.mayRest := by
  obtain ⟨hrd, -⟩ := bankNoted_facts low mv energy s
  have hstreams : (bankNoted low mv.toNat energy.toNat s).streams = s.streams := bankNoted_streams ..
  generalize bankNoted low mv.toNat energy.toNat s = u at *
  have hread : State.rd u = State.rd s := funext hrd
  unfold State.mayRest State.st State.chEn State.phase State.onVbak State.f State.bit
  rw [hread, hstreams]

theorem bankLow_holds {mv energy : BitVec 16} (hmv : mv.toNat < 4000) : ∃ t, exec (.bankLow mv energy) s = .next t
    ∧ (nbits (t.trayRd 4).toNat 0 16 = mv.toNat ∧ nbits (t.trayRd 4).toNat 16 16 = energy.toNat)
    ∧ nbits (t.trayRd 1).toNat 25 1 = 1 ∧ t.tray.holds = true
    ∧ (s.f aPwrStatus 28 4 = 3 ∨ s.bit aPwrStatus 24 = true → RegsBut [] s t)
    ∧ (s.f aPwrStatus 28 4 ≠ 3 → s.bit aPwrStatus 24 = false →
      (s.mayRest = true → t.f aPwrCtl 0 4 = 2 ∧ t.power.target = some 2) ∧ (s.mayRest = false → t.bit aPwrStatus 22 = true)) := by
  have hexec := exec_bankLow (s := s) (energy := energy) hmv
  obtain ⟨hrd, hmv', henergy, hlow, hholds⟩ := bankNoted_facts true mv energy s
  have hrest := bankNoted_mayRest true mv energy s
  generalize bankNoted true mv.toNat energy.toNat s = u at *
  by_cases hkeel : s.pwrState = 3 ∨ s.onVbak = true
  · rw [if_pos hkeel] at hexec
    refine ⟨_, hexec, ⟨?_, ?_⟩, ?_, ?_, fun _ j _ => (signal_rd ..).trans (hrd j), fun hne hoff => ?_⟩
    · rw [signal_trayRd, hmv']
    · rw [signal_trayRd, henergy]
    · rw [signal_trayRd, hlow]
      rfl
    · rw [signal_tray, hholds]
    · rcases hkeel with h | h
      · exact absurd h hne
      · exact absurd (hoff.symm.trans h) (by decide)
  · rw [if_neg hkeel] at hexec
    obtain ⟨htray, haccept, hrefuse⟩ := restRequest_facts (k := 2) (by omega) u
    have hread : ∀ k, (restRequest 2 u).trayRd k = u.trayRd k := fun k => by rw [State.trayRd, htray, State.trayRd]
    generalize restRequest 2 u = w at *
    refine ⟨_, hexec, ⟨?_, ?_⟩, ?_, ?_, fun h => absurd h hkeel, fun _ _ => ⟨fun h => ?_, fun h => ?_⟩⟩
    · rw [signal_trayRd, hread, hmv']
    · rw [signal_trayRd, hread, henergy]
    · rw [signal_trayRd, hread, hlow]
      rfl
    · rw [signal_tray, htray, hholds]
    · rw [signal_f, signal_power]
      exact haccept (hrest.trans h)
    · rw [signal_bit]
      exact hrefuse (hrest.trans h)

theorem bankRecharged_releases {mv energy : BitVec 16} (hmv : 4000 ≤ mv.toNat) : ∃ t, exec (.bankRecharged mv energy) s = .next t
    ∧ (nbits (t.trayRd 4).toNat 0 16 = mv.toNat ∧ nbits (t.trayRd 4).toNat 16 16 = energy.toNat)
    ∧ nbits (t.trayRd 1).toNat 25 1 = 0 ∧ t.tray.holds = false ∧ RegsBut [] s t := by
  have hexec : exec (.bankRecharged mv energy) s = .next (signal s (bankNoted false mv.toNat energy.toNat s)) := by
    change execBankRecharged mv energy s = _
    rw [execBankRecharged, if_neg (by omega)]
    rfl
  obtain ⟨hrd, hmv', henergy, hlow, hholds⟩ := bankNoted_facts false mv energy s
  generalize bankNoted false mv.toNat energy.toNat s = u at *
  refine ⟨_, hexec, ⟨?_, ?_⟩, ?_, ?_, fun j _ => (signal_rd ..).trans (hrd j)⟩
  · rw [signal_trayRd, hmv']
  · rw [signal_trayRd, henergy]
  · rw [signal_trayRd, hlow]
    rfl
  · rw [signal_tray, hholds]

end

/-- Settles O60: one rule for each thing the BMC does. -/
theorem tray : Obligations.Tray := by
  unfold Obligations.Tray
  intro ps d im v mv energy s
  exact ⟨bmcPoll_polls, bmcFirmwareWrite_holds d im, trayActivate_others, trayActivate_own, bankLow_holds, bankRecharged_releases⟩

end Sys2Proof.Machine
end

section
/-! Counter control, the trace ring and telemetry (R386, R388, R391 to R393). -/
namespace Sys2Proof.Machine

/-! ### Counter control (R386, R388, R396) -/

section
variable {s : State}

theorem obs_acts (hs : Served s) (hopen : s.bit aDbgLock 0 = false) :
    exec .obsClr s = .next (signal s { s with counters := [], latches := [] })
      ∧ exec .obsFreeze s = .next (signal s (s.setB aObsCtl 0 true)) ∧ exec .obsUnfreeze s = .next (signal s (s.setB aObsCtl 0 false)) := by
  have hlock : ¬ s.dbgLocked = true := by rw [State.dbgLocked, hopen]; decide
  refine ⟨?_, ?_, ?_⟩
  · change execObsClr s = _
    rw [execObsClr, hostRow_of_served hs, if_neg hlock, obsClear, done]
  · change execObsFreeze s = _
    rw [execObsFreeze, hostRow_of_served hs, if_neg hlock, done]
  · change execObsUnfreeze s = _
    rw [execObsUnfreeze, hostRow_of_served hs, if_neg hlock, done]

theorem obs_locked (hs : Served s) (hlock : s.bit aDbgLock 0 = true) : ∀ c ∈ [Instr.obsClr, .obsFreeze, .obsUnfreeze],
    exec c s = .next (signal s s) := by
  have hlock' : s.dbgLocked = true := hlock
  intro c hc
  simp only [List.mem_cons, List.not_mem_nil, or_false] at hc
  obtain rfl | rfl | rfl := hc
  · change execObsClr s = _
    rw [execObsClr, hostRow_of_served hs, if_pos hlock', done]
  · change execObsFreeze s = _
    rw [execObsFreeze, hostRow_of_served hs, if_pos hlock', done]
  · change execObsUnfreeze s = _
    rw [execObsUnfreeze, hostRow_of_served hs, if_pos hlock', done]

/-! ### The trace ring (R391, R392) -/

/-- The capacity of the trace ring, in records. -/
def State.traceCap (s : State) : Nat := s.f aTraceRing 16 14 * 128

/-- The place of the next record. -/
def State.tracePlace (s : State) : Nat := s.f aTraceRing 0 14 * 4096 + s.f aTraceStatus 0 24 % s.traceCap * 32

/-- A record has entered the ring. -/
def Ringed (b : List Byte) (s t : State) : Prop :=
  (if s.bit aTraceCtl 30
    then t.f aTraceStatus 0 24 = (s.f aTraceStatus 0 24 + 1) % 2 ^ 24
      ∧ t.bit aTraceStatus 31 = decide (s.traceCap ≤ s.f aTraceStatus 0 24 + 1)
    else t.f aTraceStatus 0 24 = (s.f aTraceStatus 0 24 + 1) % s.traceCap ∧ t.bit aTraceStatus 31 = false)
  ∧ (s.tracePlace + b.length ≤ basinSize → ∀ i < b.length, t.mem.basin.byte (s.tracePlace + i) = nth b i 0)

theorem Ringed.of_regs {b : List Byte} {u t : State} (h : Ringed b u t) (hregs : u.regs = s.regs) : Ringed b s t := by
  unfold Ringed State.tracePlace State.traceCap State.f State.bit State.rd at h ⊢
  rw [hregs] at h
  exact h

theorem Ringed.signal {b : List Byte} {t : State} (h : Ringed b s t) (w : State) : Ringed b s (signal w t) := by
  unfold Ringed at h ⊢
  rw [signal_f, signal_bit, signal_mem]
  exact h

/-- The index moves on; in MODE 1 a full ring stops. -/
def traceCounted (s : State) (t : State) : State :=
  let n := s.f aTraceStatus 0 24 + 1
  if t.bit aTraceCtl 30 then
    let u := t.setF aTraceStatus 0 24 n
    if s.traceCap ≤ n then u.setB aTraceStatus 31 true else u
  else t.setF aTraceStatus 0 24 (n % s.traceCap)

theorem traceStore_eq {b : List Byte} (hcap : s.traceCap ≠ 0) (hgo : s.bit aTraceStatus 31 = false) :
    traceStore b s = traceCounted s (s.basinPut s.tracePlace b) := by
  have hcap' : ¬ s.f aTraceRing 16 14 * 128 = 0 := hcap
  unfold traceStore
  dsimp only
  rw [hgo, Bool.or_false, if_neg (by rw [decide_eq_false hcap']; decide)]
  rfl

theorem traceCounted_facts {t : State} (hrd : t.rd aTraceStatus = s.rd aTraceStatus) (hctl : t.rd aTraceCtl = s.rd aTraceCtl)
    (hcap : s.traceCap ≠ 0) (hgo : s.bit aTraceStatus 31 = false) :
    OnlyRegs t (traceCounted s t) ∧ (if s.bit aTraceCtl 30
      then (traceCounted s t).f aTraceStatus 0 24 = (s.f aTraceStatus 0 24 + 1) % 2 ^ 24
        ∧ (traceCounted s t).bit aTraceStatus 31 = decide (s.traceCap ≤ s.f aTraceStatus 0 24 + 1)
      else (traceCounted s t).f aTraceStatus 0 24 = (s.f aTraceStatus 0 24 + 1) % s.traceCap
        ∧ (traceCounted s t).bit aTraceStatus 31 = false) := by
  have hgo' : t.bit aTraceStatus 31 = false := (State.bit_congr hrd 31).trans hgo
  have hsmall : s.traceCap < 2 ^ 24 := by
    have : s.f aTraceRing 16 14 < 2 ^ 14 := nbits_lt _ _ _
    rw [State.traceCap]
    omega
  have hset : ∀ n, (t.setF aTraceStatus 0 24 n).f aTraceStatus 0 24 = n % 2 ^ 24
      ∧ (t.setF aTraceStatus 0 24 n).bit aTraceStatus 31 = false := fun n =>
    ⟨State.f_setF_same t _ _ (by omega), (State.bit_setF_of_disjoint t _ _ _ (by omega) (by omega)).trans hgo'⟩
  have honly : ∀ n, OnlyRegs t (t.setF aTraceStatus 0 24 n) := fun n => (OnlyRegs.refl t).setF _ _ _ _
  unfold traceCounted
  dsimp only
  rw [State.bit_congr hctl 30]
  by_cases hmode : s.bit aTraceCtl 30 = true
  · rw [if_pos hmode, if_pos hmode]
    obtain ⟨hf, hbit⟩ := hset (s.f aTraceStatus 0 24 + 1)
    have honly' := honly (s.f aTraceStatus 0 24 + 1)
    generalize t.setF aTraceStatus 0 24 (s.f aTraceStatus 0 24 + 1) = u at *
    by_cases hfull : s.traceCap ≤ s.f aTraceStatus 0 24 + 1
    · rw [if_pos hfull, decide_eq_true hfull]
      exact ⟨honly'.setB _ _ _, (State.f_setB_of_disjoint u (by omega) (by omega) true).trans hf, State.bit_setB_same u _ true (by omega)⟩
    · rw [if_neg hfull, decide_eq_false hfull]
      exact ⟨honly', hf, hbit⟩
  · rw [if_neg hmode, if_neg hmode]
    obtain ⟨hf, hbit⟩ := hset ((s.f aTraceStatus 0 24 + 1) % s.traceCap)
    have hlt := Nat.mod_lt (s.f aTraceStatus 0 24 + 1) (Nat.pos_of_ne_zero hcap)
    exact ⟨honly _, hf.trans (Nat.mod_eq_of_lt (by omega)), hbit⟩

theorem traceStore_stores {b : List Byte} (hcap : s.traceCap ≠ 0) (hgo : s.bit aTraceStatus 31 = false) :
    Ringed b s (traceStore b s) ∧ (traceStore b s).streams = s.streams ∧ (traceStore b s).tiles = s.tiles
      ∧ (traceStore b s).seqs = s.seqs := by
  have hbytes : s.tracePlace + b.length ≤ basinSize → ∀ i < b.length, (s.basinPut s.tracePlace b).mem.basin.byte (s.tracePlace + i) = nth b i 0 := by
    intro hfit i hi
    rw [(State.basinPut_stored (s := s) (a := s.tracePlace) (bs := b) (by omega) hfit).mem_eq]
    dsimp only
    rw [Ram.byte_write, if_pos (by omega), Nat.add_sub_cancel_left, nth]
  obtain ⟨r, honly, hregs⟩ := s.basinPut_stores s.tracePlace b
  rw [traceStore_eq hcap hgo]
  generalize s.basinPut s.tracePlace b = u at *
  obtain ⟨honly', hring⟩ := traceCounted_facts (s := s) (t := u) (hregs _ (by decide)) (hregs _ (by decide)) hcap hgo
  generalize traceCounted s u = w at *
  have hkept : u.streams = s.streams ∧ u.tiles = s.tiles ∧ u.seqs = s.seqs := by
    unfold OnlyRegs at honly
    rw [honly]
    exact ⟨rfl, rfl, rfl⟩
  have hkept' : w.streams = u.streams ∧ w.tiles = u.tiles ∧ w.seqs = u.seqs ∧ w.mem = u.mem := by
    unfold OnlyRegs at honly'
    rw [honly']
    exact ⟨rfl, rfl, rfl, rfl⟩
  obtain ⟨h1, h2, h3⟩ := hkept
  obtain ⟨h1', h2', h3', hmem⟩ := hkept'
  refine ⟨⟨hring, fun hfit i hi => ?_⟩, h1'.trans h1, h2'.trans h2, h3'.trans h3⟩
  rw [hmem]
  exact hbytes hfit i hi

section
variable {u : Nat} {b : List Byte} {bs : List (List Byte)} (hcap : s.traceCap ≠ 0) (hgo : s.bit aTraceStatus 31 = false)
include hcap hgo

theorem traceRecordWrite_tile (hu : u < 400) (hrec : (s.tile u).trace = b :: bs) : ∃ t, exec (.traceRecordWrite u) s = .next t
    ∧ Ringed b s t ∧ t.streams = s.streams ∧ ∀ v, t.tile v = (if v = u then { s.tile u with trace := bs } else s.tile v) := by
  obtain ⟨w, hw⟩ : ∃ w, s.modTile u (fun q => { q with trace := bs }) = w := ⟨_, rfl⟩
  have hexec : exec (.traceRecordWrite u) s = .next (signal s (traceStore b w)) := by
    change execTraceRecordWrite u s = _
    rw [execTraceRecordWrite, if_pos hu, hrec, ← hw]
    rfl
  have hregs : w.regs = s.regs ∧ w.streams = s.streams := by
    rw [← hw]
    exact ⟨rfl, rfl⟩
  have htile : ∀ v, w.tile v = (if v = u then { s.tile u with trace := bs } else s.tile v) := fun v => by
    rw [← hw, State.modTile, State.tile_setTile]
  obtain ⟨hregs, hstreams⟩ := hregs
  have hrd := regs_eq_of_rd hregs
  obtain ⟨hring, hstreams', htiles, -⟩ := traceStore_stores (s := w) (b := b)
    (by rw [State.traceCap, State.f_congr (hrd _)]; exact hcap) ((State.bit_congr (hrd _) 31).trans hgo)
  generalize traceStore b w = x at *
  refine ⟨_, hexec, (hring.of_regs hregs).signal s, ?_, fun v => ?_⟩
  · rw [signal_streams, hstreams', hstreams]
  · rw [signal_tile, State.tile, htiles]
    exact htile v

theorem traceRecordWrite_seq (hu : u < 25) (hrec : (s.seq u).trace = b :: bs) : ∃ t, exec (.traceRecordWrite (400 + u)) s = .next t
    ∧ Ringed b s t ∧ t.streams = s.streams ∧ ∀ g, t.seq g = (if g = u then { s.seq u with trace := bs } else s.seq g) := by
  obtain ⟨w, hw⟩ : ∃ w, s.modSeq u (fun q => { q with trace := bs }) = w := ⟨_, rfl⟩
  have hexec : exec (.traceRecordWrite (400 + u)) s = .next (signal s (traceStore b w)) := by
    change execTraceRecordWrite (400 + u) s = _
    rw [execTraceRecordWrite, if_neg (by omega), if_pos (by omega), Nat.add_sub_cancel_left, hrec, ← hw]
    rfl
  have hregs : w.regs = s.regs ∧ w.streams = s.streams := by
    rw [← hw]
    exact ⟨rfl, rfl⟩
  have hseq : ∀ g, w.seq g = (if g = u then { s.seq u with trace := bs } else s.seq g) := fun g => by
    rw [← hw, State.modSeq, State.seq_setSeq]
  obtain ⟨hregs, hstreams⟩ := hregs
  have hrd := regs_eq_of_rd hregs
  obtain ⟨hring, hstreams', -, hseqs⟩ := traceStore_stores (s := w) (b := b)
    (by rw [State.traceCap, State.f_congr (hrd _)]; exact hcap) ((State.bit_congr (hrd _) 31).trans hgo)
  generalize traceStore b w = x at *
  refine ⟨_, hexec, (hring.of_regs hregs).signal s, ?_, fun g => ?_⟩
  · rw [signal_streams, hstreams', hstreams]
  · rw [signal_seq, State.seq, hseqs]
    exact hseq g

end

theorem traceRecordWrite_empty {u : Nat} (hu : u < 400) (hnone : (s.tile u).trace = []) : exec (.traceRecordWrite u) s = .next s := by
  change execTraceRecordWrite u s = _
  rw [execTraceRecordWrite, if_pos hu, hnone]
  rfl

/-! ### Telemetry (R393) -/

/-- The capacity of the telemetry ring, in bytes. -/
def State.telemCap (s : State) : Nat := s.f aTelemRing 16 14 * 4096

/-- What a tile's sample leaves as it is: all but the basin, the counts of its errors, and the ring's index. -/
structure Sampling (s t : State) : Prop where
  cap : t.telemCap = s.telemCap
  no : t.test = { s.test with telemAt := t.test.telemAt }
  tiles : t.tiles = s.tiles
  seqs : t.seqs = s.seqs
  streams : t.streams = s.streams
  dram : t.mem.dram = s.mem.dram

theorem Sampling.refl (s : State) : Sampling s s := ⟨rfl, rfl, rfl, rfl, rfl, rfl⟩

theorem Sampling.trans {t u : State} (h : Sampling s t) (h' : Sampling t u) : Sampling s u :=
  ⟨h'.cap.trans h.cap, by rw [h'.no, h.no], h'.tiles.trans h.tiles, h'.seqs.trans h.seqs, h'.streams.trans h.streams,
    h'.dram.trans h.dram⟩

theorem Sampling.basinPut (s : State) (a : Nat) (bs : List Byte) : Sampling s (s.basinPut a bs) ∧ (s.basinPut a bs).test = s.test := by
  obtain ⟨r, honly, hregs⟩ := s.basinPut_stores a bs
  have hcap : (s.basinPut a bs).telemCap = s.telemCap := by
    rw [State.telemCap, hregs.f_eq (by decide), State.telemCap]
  unfold OnlyRegs at honly
  refine ⟨⟨hcap, ?_, ?_, ?_, ?_, ?_⟩, ?_⟩ <;> rw [honly]

theorem Sampling.withTelemAt (s : State) (n : Nat) : Sampling s { s with test := { s.test with telemAt := n } } :=
  ⟨rfl, rfl, rfl, rfl, rfl, rfl⟩

theorem telemStore_samples (bs : List Byte) (s : State) : Sampling s (telemStore bs s)
    ∧ (s.telemCap ≠ 0 → (telemStore bs s).test.telemAt = (s.test.telemAt + bs.length) % s.telemCap) := by
  have hdef : s.f aTelemRing 16 14 * 4096 = s.telemCap := rfl
  unfold telemStore
  dsimp only
  rw [hdef]
  by_cases hcap : s.telemCap = 0
  · rw [if_pos hcap]
    exact ⟨.refl s, fun hne => absurd hcap hne⟩
  · rw [if_neg hcap]
    generalize s.telemCap - s.test.telemAt % s.telemCap = k
    generalize s.f aTelemRing 0 14 * 4096 = base
    have h1 := (Sampling.basinPut s (base + s.test.telemAt % s.telemCap) (bs.take k)).1
    generalize s.basinPut (base + s.test.telemAt % s.telemCap) (bs.take k) = t at *
    have h2 := (Sampling.basinPut t base (bs.drop k)).1
    generalize t.basinPut base (bs.drop k) = w at *
    refine ⟨(h1.trans h2).trans (.withTelemAt w _), fun _ => ?_⟩
    exact Nat.mod_add_mod _ _ _

/-- The bytes of a tile's sample: 32, and 8 for each counter of SET. -/
def State.telemLen (s : State) : Nat := 32 + 8 * ((telemSet (s.f aTelemCtl 24 2)).2 + 1 - (telemSet (s.f aTelemCtl 24 2)).1)

theorem telemBytes_length (s : State) (t : Nat) : (telemBytes s t).length = s.telemLen := by
  have hflat : ∀ n (f : Nat → Nat), ((List.range n).flatMap (fun i => toBytes 8 (f i))).length = 8 * n := by
    intro n f
    rw [List.length_flatMap]
    simp [toBytes_length, Nat.mul_comm]
  unfold telemBytes
  dsimp only
  simp only [List.length_append, toBytes_length, hflat]
  rfl

/-- The samples of a list of tiles. -/
theorem telemSamples (src : State) (l : List Nat) (s : State) :
    Sampling s (each l s (fun t k => telemStore (telemBytes src k) t))
      ∧ (s.telemCap ≠ 0 → l ≠ [] → (each l s (fun t k => telemStore (telemBytes src k) t)).test.telemAt
        = (s.test.telemAt + l.length * src.telemLen) % s.telemCap) := by
  induction l generalizing s with
  | nil => exact ⟨.refl s, fun _ h => absurd rfl h⟩
  | cons k l ih =>
    obtain ⟨h1, hat⟩ := telemStore_samples (telemBytes src k) s
    rw [telemBytes_length] at hat
    obtain ⟨h2, hat'⟩ := ih (telemStore (telemBytes src k) s)
    rw [each, List.foldl_cons, ← each]
    refine ⟨h1.trans h2, fun hcap _ => ?_⟩
    by_cases hl : l = []
    · rw [hl, List.length_singleton, Nat.one_mul]
      exact hat hcap
    · rw [hat' (by rw [h1.cap]; exact hcap) hl, h1.cap, hat hcap, Nat.mod_add_mod, List.length_cons, Nat.succ_mul]
      congr 1
      omega

/-- The regions that telemetry samples. -/
def State.telemRegions (s : State) : List Nat := (List.range 25).filter (fun g => s.bit aTelemFilt g)

theorem length_flatMap_tilesOf (gs : List Nat) : (gs.flatMap tilesOf).length = 16 * gs.length := by
  rw [List.length_flatMap]
  induction gs with
  | nil => rfl
  | cons g gs ih =>
    rw [List.map_cons, List.sum_cons, ih, tilesOf, List.length_map, List.length_range, List.length_cons]
    omega

theorem telemetrySample_samples (hen : s.bit aTelemCtl 31 = true) (hper : s.f aTelemCtl 0 16 ≠ 0)
    (hfree : ∀ g ∈ s.telemRegions, s.scanShift g = false) : ∃ t, exec .telemetrySample s = .next t
      ∧ t.test.sampleNo = s.test.sampleNo + 1 ∧ t.tiles = s.tiles ∧ t.seqs = s.seqs ∧ t.streams = s.streams
      ∧ t.mem.dram = s.mem.dram ∧ (s.telemRegions ≠ [] → s.telemCap ≠ 0 →
        t.test.telemAt = (s.test.telemAt + 16 * s.telemRegions.length * s.telemLen) % s.telemCap) := by
  have hany : s.telemRegions.any (fun g => s.scanShift g) = false := by
    rw [List.any_eq_false]
    intro g hg
    rw [hfree g hg]
    exact Bool.false_ne_true
  obtain ⟨t, ht⟩ : ∃ t, each (s.telemRegions.flatMap tilesOf) s (fun t k => telemStore (telemBytes s k) t) = t := ⟨_, rfl⟩
  have hexec : exec .telemetrySample s = .next (signal s { t with test := { t.test with sampleNo := t.test.sampleNo + 1 } }) := by
    rw [← ht]
    change execTelemetrySample s = _
    unfold execTelemetrySample
    dsimp only
    rw [if_neg (by rw [hen, decide_eq_true hper]; decide), if_neg (by rw [Bool.not_eq_true]; exact hany), done]
    rfl
  obtain ⟨hsame, hat⟩ := telemSamples s (s.telemRegions.flatMap tilesOf) s
  rw [ht] at hsame hat
  refine ⟨_, hexec, ?_, ?_, ?_, ?_, ?_, fun hne hcap => ?_⟩
  · rw [signal_test]
    dsimp only
    rw [hsame.no]
  · rw [signal_tiles]
    exact hsame.tiles
  · rw [signal_seqs]
    exact hsame.seqs
  · rw [signal_streams]
    exact hsame.streams
  · rw [signal_mem]
    exact hsame.dram
  · rw [signal_test]
    dsimp only
    rw [hat hcap ?_, length_flatMap_tilesOf]
    intro h
    have hlen := length_flatMap_tilesOf s.telemRegions
    rw [h, List.length_nil] at hlen
    exact hne (List.length_eq_zero_iff.mp (by omega))

theorem telemetrySample_skips (hen : s.bit aTelemCtl 31 = true) (hper : s.f aTelemCtl 0 16 ≠ 0)
    (hbusy : ∃ g ∈ s.telemRegions, s.scanShift g = true) : exec .telemetrySample s = .next (signal s (s.count cTelemSkipped 1)) := by
  have hany : ((List.range 25).filter (fun g => s.bit aTelemFilt g)).any (fun g => s.scanShift g) = true := List.any_eq_true.mpr hbusy
  change execTelemetrySample s = _
  unfold execTelemetrySample
  dsimp only
  rw [if_neg (by rw [hen, decide_eq_true hper]; decide), if_pos hany, done]

theorem telemetrySample_off (hen : s.bit aTelemCtl 31 = false) : exec .telemetrySample s = .next s := by
  change execTelemetrySample s = _
  unfold execTelemetrySample
  dsimp only
  rw [if_pos (by rw [hen]; rfl), idle]

end

/-- Settles O57: one rule for each command of the counters, the trace ring and telemetry. -/
theorem countersTraceAndTelemetry : Obligations.CountersTraceAndTelemetry := by
  unfold Obligations.CountersTraceAndTelemetry
  intro u b bs s
  dsimp only
  have hlen : s.telemLen = 32 + 8 * (match s.f aTelemCtl 24 2 with | 0 => 20 | 1 => 48 | 2 => 20 | _ => 109) := by
    unfold State.telemLen
    match s.f aTelemCtl 24 2 with
    | 0 => rfl
    | 1 => rfl
    | 2 => rfl
    | n + 3 => rfl
  refine ⟨obs_acts, obs_locked, fun hcap hgo => ⟨fun hu hrec => traceRecordWrite_tile hcap hgo hu hrec,
    fun hu hrec => traceRecordWrite_seq hcap hgo hu hrec⟩, traceRecordWrite_empty,
    fun hen hper => ⟨fun hfree => ?_, telemetrySample_skips hen hper⟩, telemetrySample_off⟩
  obtain ⟨t, hexec, hno, htiles, hseqs, hstreams, hdram, hat⟩ := telemetrySample_samples hen hper hfree
  rw [hlen] at hat
  exact ⟨t, hexec, hno, htiles, hseqs, hstreams, hdram, hat⟩

end Sys2Proof.Machine
end

section
/-! Debug halts, scan-out, and the TAP (R394 to R396, R402 to R404). -/
namespace Sys2Proof.Machine

/-! ### Debug halts (R395) -/

section
variable {s : State}

theorem debug_locked (hs : Served s) (hlock : s.bit aDbgLock 0 = true) (t : TileIx) (g : RegionIx) :
    ∀ c ∈ [Instr.tileDebugHalt t, .tileDebugStep t, .seqDebugHalt g, .seqDebugStep g, .scanOut g], exec c s = .next (signal s s) := by
  have hlock' : s.dbgLocked = true := hlock
  intro c hc
  simp only [List.mem_cons, List.not_mem_nil, or_false] at hc
  obtain rfl | rfl | rfl | rfl | rfl := hc
  · change execTileDebugHalt t s = _
    rw [execTileDebugHalt, hostRow_of_served hs, if_pos hlock', done]
  · change execTileDebugStep t s = _
    rw [execTileDebugStep, hostRow_of_served hs, if_pos hlock', done]
  · change execSeqDebugHalt g s = _
    rw [execSeqDebugHalt, hostRow_of_served hs, if_pos hlock', done]
  · change execSeqDebugStep g s = _
    rw [execSeqDebugStep, hostRow_of_served hs, if_pos hlock', done]
  · change execScanOut g s = _
    rw [execScanOut, hostRow_of_served hs, scanOut, if_pos hlock', done]

theorem dbgLocked_of (hopen : s.bit aDbgLock 0 = false) : ¬ s.dbgLocked = true := by rw [State.dbgLocked, hopen]; decide

theorem tileDebugHalt_halts (hs : Served s) (hopen : s.bit aDbgLock 0 = false) (t : TileIx) : ∃ w, exec (.tileDebugHalt t) s = .next w
    ∧ RegsBut [aTileDbgCtl t.val] s w ∧ w.bit (aTileDbgCtl t.val) 31 = true
    ∧ ∀ k, w.tile k = (if k = t.val then { s.tile k with dhalt := true } else s.tile k) := by
  have hexec : exec (.tileDebugHalt t) s = .next (signal s
      ((s.setB (aTileDbgCtl t.val) 31 true).modTile t.val (fun x => { x with dhalt := true }))) := by
    change execTileDebugHalt t s = _
    rw [execTileDebugHalt, hostRow_of_served hs, if_neg (dbgLocked_of hopen), tileHalt, done]
  have hregs : RegsBut [aTileDbgCtl t.val] s (s.setB (aTileDbgCtl t.val) 31 true) := (RegsBut.refl _ s).setB List.mem_cons_self _ _
  have hbit : (s.setB (aTileDbgCtl t.val) 31 true).bit (aTileDbgCtl t.val) 31 = true := State.bit_setB_same s _ true (by omega)
  have htile : ∀ k, (s.setB (aTileDbgCtl t.val) 31 true).tile k = s.tile k := fun k => by
    rw [State.tile, State.setB, State.setF_tiles, State.tile]
  generalize s.setB (aTileDbgCtl t.val) 31 true = u at *
  have hkept := (RegsKept.refl u).modTile t.val (fun x => { x with dhalt := true })
  refine ⟨_, hexec, RegsBut.signal fun j hj => (hkept.rd j).trans (hregs j hj), ?_, fun k => ?_⟩
  · rw [signal_bit, State.bit_congr (hkept.rd _), hbit]
  · rw [signal_tile, State.modTile, State.tile_setTile, htile, htile]
    by_cases hk : k = t.val
    · rw [if_pos hk, if_pos hk, hk]
    · rw [if_neg hk, if_neg hk]

theorem tileDebugStep_steps (hs : Served s) (hopen : s.bit aDbgLock 0 = false) (t : TileIx) : ∃ w, exec (.tileDebugStep t) s = .next w
    ∧ RegsBut [] s w ∧ ∀ k, w.tile k = (if k = t.val then { s.tile k with step := (s.tile k).dhalt } else s.tile k) := by
  have hexec : exec (.tileDebugStep t) s = .next (signal s (s.modTile t.val (fun x => { x with step := x.dhalt }))) := by
    change execTileDebugStep t s = _
    rw [execTileDebugStep, hostRow_of_served hs, if_neg (dbgLocked_of hopen), tileStep, done]
  have hkept := (RegsKept.refl s).modTile t.val (fun x => { x with step := x.dhalt })
  refine ⟨_, hexec, RegsBut.signal fun j _ => hkept.rd j, fun k => ?_⟩
  rw [signal_tile, State.modTile, State.tile_setTile]
  by_cases hk : k = t.val
  · rw [if_pos hk, if_pos hk, hk]
  · rw [if_neg hk, if_neg hk]

theorem seqDebugHalt_halts (hs : Served s) (hopen : s.bit aDbgLock 0 = false) (g : RegionIx) : ∃ w, exec (.seqDebugHalt g) s = .next w
    ∧ RegsBut [aSeqDbgCtl g.val] s w ∧ w.bit (aSeqDbgCtl g.val) 31 = true
    ∧ ∀ k, w.seq k = (if k = g.val then { s.seq k with dhalt := true } else s.seq k) := by
  have hexec : exec (.seqDebugHalt g) s = .next (signal s
      ((s.setB (aSeqDbgCtl g.val) 31 true).modSeq g.val (fun x => { x with dhalt := true }))) := by
    change execSeqDebugHalt g s = _
    rw [execSeqDebugHalt, hostRow_of_served hs, if_neg (dbgLocked_of hopen), seqHalt, done]
  have hregs : RegsBut [aSeqDbgCtl g.val] s (s.setB (aSeqDbgCtl g.val) 31 true) := (RegsBut.refl _ s).setB List.mem_cons_self _ _
  have hbit : (s.setB (aSeqDbgCtl g.val) 31 true).bit (aSeqDbgCtl g.val) 31 = true := State.bit_setB_same s _ true (by omega)
  have hseq : ∀ k, (s.setB (aSeqDbgCtl g.val) 31 true).seq k = s.seq k := fun k => by
    rw [State.seq, State.setB, State.setF_seqs, State.seq]
  generalize s.setB (aSeqDbgCtl g.val) 31 true = u at *
  have hkept := (RegsKept.refl u).modSeq g.val (fun x => { x with dhalt := true })
  refine ⟨_, hexec, RegsBut.signal fun j hj => (hkept.rd j).trans (hregs j hj), ?_, fun k => ?_⟩
  · rw [signal_bit, State.bit_congr (hkept.rd _), hbit]
  · rw [signal_seq, State.modSeq, State.seq_setSeq, hseq, hseq]
    by_cases hk : k = g.val
    · rw [if_pos hk, if_pos hk, hk]
    · rw [if_neg hk, if_neg hk]

theorem seqDebugStep_steps (hs : Served s) (hopen : s.bit aDbgLock 0 = false) (g : RegionIx) : ∃ w, exec (.seqDebugStep g) s = .next w
    ∧ RegsBut [] s w ∧ ∀ k, w.seq k = (if k = g.val then { s.seq k with step := (s.seq k).dhalt } else s.seq k) := by
  have hexec : exec (.seqDebugStep g) s = .next (signal s (s.modSeq g.val (fun x => { x with step := x.dhalt }))) := by
    change execSeqDebugStep g s = _
    rw [execSeqDebugStep, hostRow_of_served hs, if_neg (dbgLocked_of hopen), seqStep, done]
  have hkept := (RegsKept.refl s).modSeq g.val (fun x => { x with step := x.dhalt })
  refine ⟨_, hexec, RegsBut.signal fun j _ => hkept.rd j, fun k => ?_⟩
  rw [signal_seq, State.modSeq, State.seq_setSeq]
  by_cases hk : k = g.val
  · rw [if_pos hk, if_pos hk, hk]
  · rw [if_neg hk, if_neg hk]

/-! ### Scan-out (R394) -/

theorem exec_scanOut (hs : Served s) (hopen : s.bit aDbgLock 0 = false) (g : RegionIx) : exec (.scanOut g) s
    = .next (signal s (if !s.scanMay g.val then reject none aScanCtl s
        else if scanRoom (s.setF aScanCtl 0 5 g.val) g.val then scanRegion g.val (s.setF aScanCtl 0 5 g.val)
          else s.setF aScanCtl 0 5 g.val)) := by
  change execScanOut g s = _
  rw [execScanOut, hostRow_of_served hs, scanOut, if_neg (dbgLocked_of hopen), done]

theorem scanCtl_facts (g : Nat) (s : State) : OnlyRegs s (s.setF aScanCtl 0 5 g) ∧ (s.setF aScanCtl 0 5 g).partBase 4 = s.partBase 4
    ∧ scanRoom (s.setF aScanCtl 0 5 g) g = scanRoom s g ∧ (g < 32 → (s.setF aScanCtl 0 5 g).f aScanCtl 0 5 = g) := by
  have hpart : ∀ lo len, (s.setF aScanCtl 0 5 g).f (aBasinPart 4) lo len = s.f (aBasinPart 4) lo len := fun lo len =>
    State.f_setF_ne s _ _ _ (by decide) lo len
  refine ⟨(OnlyRegs.refl s).setF _ _ _ _, ?_, ?_, fun hg => ?_⟩
  · rw [State.partBase, hpart, State.partBase]
  · rw [scanRoom, hpart, scanRoom]
  · exact (State.f_setF_same s _ _ (by omega)).trans (Nat.mod_eq_of_lt hg)

theorem layBytes_length (n : Nat) (ps : List (Nat × List Byte)) : (layBytes n ps).length = n := by
  have hfold : ∀ (l : List (Nat × List Byte)) (b : List Byte), n ≤ b.length →
      n ≤ (l.foldl (fun (b : List Byte) p => b.take p.1 ++ p.2 ++ b.drop (p.1 + p.2.length)) b).length := by
    intro l
    induction l with
    | nil => exact fun _ h => h
    | cons p l ih =>
      intro b hb
      rw [List.foldl_cons]
      refine ih _ ?_
      simp only [List.length_append, List.length_take, List.length_drop]
      omega
  rw [layBytes, List.length_take]
  exact Nat.min_eq_left (hfold ps _ (by rw [List.length_replicate]))

/-- Writes of the basin leave everything but the basin and its error counts. -/
structure BasinOnly (s t : State) : Prop where
  tiles : t.tiles = s.tiles
  seqs : t.seqs = s.seqs
  streams : t.streams = s.streams
  dram : t.mem.dram = s.mem.dram
  regs : RegsBut basinPutRegs s t

theorem BasinOnly.refl (s : State) : BasinOnly s s := ⟨rfl, rfl, rfl, rfl, .refl _ s⟩

theorem BasinOnly.basinPut {t : State} (h : BasinOnly s t) (a : Nat) (bs : List Byte) : BasinOnly s (t.basinPut a bs) := by
  obtain ⟨r, honly, hregs⟩ := t.basinPut_stores a bs
  unfold OnlyRegs at honly
  refine ⟨?_, ?_, ?_, ?_, h.regs.comp hregs⟩
  · rw [honly]
    exact h.tiles
  · rw [honly]
    exact h.seqs
  · rw [honly]
    exact h.streams
  · rw [honly]
    exact h.dram

/-- The images of a region's tiles. -/
def scanTiles (g : Nat) (s : State) : State :=
  each ((List.range 16).map (fun k => (s.partBase 4 + g * 0x22000 + k * 0x2000, layBytes 0x800 (tileImage s (tileOf g k))))) s
    (fun s p => s.basinPut p.1 p.2)

theorem scanTiles_only (g : Nat) (s : State) : BasinOnly s (scanTiles g s) := by
  unfold scanTiles
  exact each_keep (BasinOnly s) _ (fun t p h => h.basinPut _ _) _ s (.refl s)

theorem scanRegion_eq (g : Nat) (s : State) : scanRegion g s
    = (scanTiles g s).basinPut (s.partBase 4 + g * 0x22000 + 0x20000) (layBytes 0x2000 (seqImage s g)) := by
  unfold scanRegion scanTiles
  dsimp only
  rw [each, each, List.foldl_append, List.foldl_cons, List.foldl_nil]

/-- A region's image in the scan area: the sequencer's part stands last. -/
theorem scanRegion_scans (g : Nat) (s : State) : BasinOnly s (scanRegion g s)
    ∧ (s.partBase 4 + g * 0x22000 + 0x22000 ≤ basinSize → ∀ i < 0x2000,
      (scanRegion g s).mem.basin.byte (s.partBase 4 + g * 0x22000 + 0x20000 + i) = nth (layBytes 0x2000 (seqImage s g)) i 0) := by
  have hscan := scanRegion_eq g s
  have hu := scanTiles_only g s
  generalize scanTiles g s = u at *
  rw [hscan]
  refine ⟨hu.basinPut _ _, fun hfit i hi => ?_⟩
  have hlen := layBytes_length 0x2000 (seqImage s g)
  generalize layBytes 0x2000 (seqImage s g) = bs at *
  generalize s.partBase 4 + g * 0x22000 = base at *
  rw [(State.basinPut_stored (s := u) (a := base + 0x20000) (bs := bs) (by omega) (by omega)).mem_eq]
  dsimp only
  rw [Ram.byte_write, if_pos (by omega), Nat.add_sub_cancel_left, nth]

theorem scanOut_writes (hs : Served s) (hopen : s.bit aDbgLock 0 = false) (g : RegionIx) (hmay : s.scanMay g.val = true)
    (hroom : scanRoom s g.val = true) : ∃ w, exec (.scanOut g) s = .next w ∧ w.f aScanCtl 0 5 = g.val ∧ w.tiles = s.tiles
      ∧ w.seqs = s.seqs ∧ w.streams = s.streams ∧ w.mem.dram = s.mem.dram
      ∧ (s.partBase 4 + g.val * 0x22000 + 0x22000 ≤ basinSize → ∀ i < 0x2000,
        w.mem.basin.byte (s.partBase 4 + g.val * 0x22000 + 0x20000 + i)
          = nth (layBytes 0x2000 (seqImage (s.setF aScanCtl 0 5 g.val) g.val)) i 0) := by
  have hexec := exec_scanOut hs hopen g
  have hg := g.isLt
  obtain ⟨honly, hbase, hroom', hf⟩ := scanCtl_facts g.val s
  rw [hmay, if_neg (by decide), if_pos (hroom'.trans hroom)] at hexec
  generalize s.setF aScanCtl 0 5 g.val = u at *
  obtain ⟨hscan, hbytes⟩ := scanRegion_scans g.val u
  rw [hbase] at hbytes
  generalize scanRegion g.val u = w at *
  obtain ⟨htiles, hseqs, hstreams, hdram, hregs⟩ := hscan
  have hkept : u.tiles = s.tiles ∧ u.seqs = s.seqs ∧ u.streams = s.streams ∧ u.mem = s.mem := by
    unfold OnlyRegs at honly
    rw [honly]
    exact ⟨rfl, rfl, rfl, rfl⟩
  obtain ⟨h1, h2, h3, h4⟩ := hkept
  refine ⟨_, hexec, ?_, ?_, ?_, ?_, ?_, fun hfit i hi => ?_⟩
  · rw [signal_f, hregs.f_eq (by decide), hf (by omega)]
  · rw [signal_tiles, htiles, h1]
  · rw [signal_seqs, hseqs, h2]
  · rw [signal_streams, hstreams, h3]
  · rw [signal_mem, hdram, h4]
  · rw [signal_mem]
    exact hbytes hfit i hi

/-! ### The TAP (R402 to R404) -/

/-- A TAP instruction is loaded; TDO carries a value. -/
def tapGone (k : Nat) (drive : Bool) (out latch : BitVec 44) (s : State) : State :=
  { s with test := { s.test with tap := k, drive := drive, latch := latch }, outbox := s.outbox ++ [.tdo out] }

theorem tap_loads (load : BitVec 44) : exec .tapBypass s = .next (signal s (tapGone 0 false 0 s.test.latch s))
    ∧ exec .tapIdcode s = .next (signal s (tapGone 1 false 0x14020A5F#44 s.test.latch s))
    ∧ exec (.tapSamplePreload load) s = .next (signal s (tapGone 2 false s.cells load s)) := ⟨rfl, rfl, rfl⟩

theorem tapTest_bypassed (h : s.bit aDbgLock 0 = true ∨ ¬ (s.bit aPwrStatus 25 = true ∧ s.power.railEn = 15)) (k : Nat) :
    tapTest k s = tapGone 0 false 0 s.test.latch s := by
  have hcond : (s.dbgLocked || !(s.fabricOn && decide (s.power.railEn = 15))) = true := by
    rcases h with h | h
    · rw [State.dbgLocked, h, Bool.true_or]
    · have hno : (s.fabricOn && decide (s.power.railEn = 15)) = false := by
        rw [Bool.eq_false_iff]
        intro hyes
        rw [Bool.and_eq_true, decide_eq_true_eq] at hyes
        exact h hyes
      rw [hno, Bool.not_false, Bool.or_true]
  rw [tapTest, if_pos hcond]
  rfl

theorem tapTest_tests (hopen : s.bit aDbgLock 0 = false) (hrails : s.bit aPwrStatus 25 = true ∧ s.power.railEn = 15) (k : Nat) :
    tapTest k s = tapGone k (!s.bit aPressCtl 0) s.cells s.test.latch s := by
  have hcond : (s.dbgLocked || !(s.fabricOn && decide (s.power.railEn = 15))) = false := by
    rw [State.dbgLocked, hopen, State.fabricOn, hrails.1, decide_eq_true hrails.2]
    rfl
  rw [tapTest, hcond, if_neg Bool.false_ne_true]
  rfl

theorem exec_tapTest : exec .tapExtest s = .next (signal s (tapTest 3 s)) ∧ exec .tapExtestPulse s = .next (signal s (tapTest 6 s))
    ∧ exec .tapExtestTrain s = .next (signal s (tapTest 7 s)) := ⟨rfl, rfl, rfl⟩

theorem tap_clamps (hopen : s.bit aDbgLock 0 = false) :
    exec .tapClamp s = .next (signal s (tapGone 4 (!s.bit aPressCtl 0) 0 s.test.latch s))
    ∧ exec .tapHighz s = .next (signal s (tapGone (if !s.bit aPressCtl 0 then 5 else 0) false 0 s.test.latch s)) := by
  have hz : (if !s.bit aPressCtl 0 then 5 else 0) = if s.pressOn then 0 else 5 := by
    rw [State.pressOn]
    cases s.bit aPressCtl 0 <;> rfl
  refine ⟨?_, ?_⟩
  · change execTapClamp s = _
    rw [execTapClamp, if_neg (dbgLocked_of hopen), done]
    rfl
  · change execTapHighz s = _
    rw [execTapHighz, if_neg (dbgLocked_of hopen), done, hz]
    rfl

theorem tap_locked (hlock : s.bit aDbgLock 0 = true) : ∀ c ∈ [Instr.tapClamp, .tapHighz],
    exec c s = .next (signal s (tapGone 0 false 0 s.test.latch s)) := by
  have hlock' : s.dbgLocked = true := hlock
  intro c hc
  simp only [List.mem_cons, List.not_mem_nil, or_false] at hc
  obtain rfl | rfl := hc
  · change execTapClamp s = _
    rw [execTapClamp, if_pos hlock', done]
    rfl
  · change execTapHighz s = _
    rw [execTapHighz, if_pos hlock', done]
    rfl

/-! ### The boundary cells (R402) -/

/-- A number as the sum of its bits. -/
theorem testBit_bitSum (f : Nat → Bool) (n : Nat) :
    ((List.range n).map (fun p => b2n (f p) * 2 ^ p) |>.foldl (· + ·) 0) < 2 ^ n
      ∧ ∀ i, ((List.range n).map (fun p => b2n (f p) * 2 ^ p) |>.foldl (· + ·) 0).testBit i = (decide (i < n) && f i) := by
  induction n with
  | zero => exact ⟨by simp, fun i => by simp⟩
  | succ n ih =>
    obtain ⟨hlt, hbit⟩ := ih
    rw [List.range_succ, List.map_append, List.foldl_append, List.map_singleton, List.foldl_cons, List.foldl_nil]
    generalize ((List.range n).map (fun p => b2n (f p) * 2 ^ p)).foldl (· + ·) 0 = x at *
    have hone : b2n (f n) ≤ 1 := by
      unfold b2n
      split <;> omega
    have hswap : x + b2n (f n) * 2 ^ n = 2 ^ n * b2n (f n) + x := by rw [Nat.add_comm, Nat.mul_comm]
    rw [hswap]
    refine ⟨?_, fun i => ?_⟩
    · have := Nat.mul_le_mul_left (2 ^ n) hone
      rw [Nat.pow_succ]
      omega
    · rw [Nat.testBit_two_pow_mul_add _ hlt]
      by_cases hi : i < n
      · rw [if_pos hi, hbit, decide_eq_true hi, decide_eq_true (show i < n + 1 by omega)]
      · rw [if_neg hi]
        by_cases hin : i = n
        · rw [hin, Nat.sub_self, testBit_b2n, decide_eq_true (show n < n + 1 by omega), Bool.true_and]
        · rw [decide_eq_false (show ¬ i < n + 1 by omega), Bool.false_and]
          refine Nat.testBit_lt_two_pow (Nat.lt_of_le_of_lt hone ?_)
          exact Nat.one_lt_two_pow (by omega)

theorem cells_bit {p : Nat} (hp : p < 44) : s.cells.getLsbD p = s.pad p := by
  rw [State.cells, BitVec.getLsbD_ofNat, decide_eq_true hp, Bool.true_and, (testBit_bitSum s.pad 44).2, decide_eq_true hp, Bool.true_and]

theorem cells_input {p : Nat} (hp : p < 28) : s.cells.getLsbD p = tget false s.press.levels p := by
  rw [cells_bit (by omega), State.pad, if_pos hp]
  rfl

theorem cells_driven (hdrive : s.test.drive = true) {p : Nat} (hp : p < 44) (hout : 28 ≤ p) :
    s.cells.getLsbD p = s.test.latch.getLsbD p := by
  rw [cells_bit hp, State.pad, if_neg (by omega), if_pos hdrive]

end

/-- Settles O58: one rule for each debug command, and for each TAP instruction. -/
theorem debugHaltsAndTap : Obligations.DebugHaltsAndTap := by
  unfold Obligations.DebugHaltsAndTap
  refine ⟨fun t g s hs => ?_, fun load s => ?_⟩
  · refine ⟨fun hlock => debug_locked hs hlock t g, fun hopen => ⟨tileDebugHalt_halts hs hopen t, tileDebugStep_steps hs hopen t,
      seqDebugHalt_halts hs hopen g, seqDebugStep_steps hs hopen g, fun hmay => ?_, fun hmay hroom => ?_,
      scanOut_writes hs hopen g⟩⟩
    · rw [exec_scanOut hs hopen g, hmay, if_pos (by decide)]
    · obtain ⟨-, -, hroom', -⟩ := scanCtl_facts g.val s
      rw [exec_scanOut hs hopen g, hmay, if_neg (by decide), if_neg (by rw [hroom', hroom]; decide)]
  · obtain ⟨hbypass, hidcode, hsample⟩ := tap_loads (s := s) load
    obtain ⟨hextest, hpulse, htrain⟩ := exec_tapTest (s := s)
    refine ⟨hbypass, hidcode, hsample, fun hopen hrails => ⟨?_, ?_, ?_⟩, tap_clamps, fun h c hc => ?_, tap_locked,
      fun p hp => cells_input hp, fun hdrive p hp hout => cells_driven hdrive hp hout⟩
    · rw [tapTest_tests hopen hrails] at hextest
      exact hextest
    · rw [tapTest_tests hopen hrails] at hpulse
      exact hpulse
    · rw [tapTest_tests hopen hrails] at htrain
      exact htrain
    · rw [tapTest_bypassed h] at hextest hpulse htrain
      simp only [List.mem_cons, List.not_mem_nil, or_false] at hc
      obtain rfl | rfl | rfl := hc
      · exact hextest
      · exact hpulse
      · exact htrain

end Sys2Proof.Machine
end

section
/-! The debug lock, self-test and loop-backs (R397 to R401). -/
namespace Sys2Proof.Machine

section
variable {s : State}

/-! ### The debug lock (R397) -/

/-- The signature in DBG_RESP answers the nonce. -/
def State.answered (s : State) : Bool :=
  match s.key (s.f aDbgLock 16 4) with
  | some k => Config.ecdsaValid k (toBytes 8 s.chal.toNat) s.resp
  | none => false

/-- A failure counts, and draws a new nonce. -/
def unlockFailed (s : State) : State :=
  let t := s.setF aDbgLock 8 4 (s.f aDbgLock 8 4 + 1)
  { t with test := { t.test with noncePos := t.test.noncePos + 1 } }

theorem exec_debugUnlock (hs : Served s) : exec .debugUnlock s = .next (signal s (if 8 ≤ s.f aDbgLock 8 4 then s
    else if s.answered then s.setB aDbgLock 0 false else unlockFailed s)) := by
  change execDebugUnlock s = _
  rw [execDebugUnlock, hostRow_of_served hs, done]
  rfl

theorem debugUnlock_spent (hs : Served s) (hfull : 8 ≤ s.f aDbgLock 8 4) : exec .debugUnlock s = .next (signal s s) := by
  rw [exec_debugUnlock hs, if_pos hfull]

theorem debugUnlock_answers (hs : Served s) (hleft : s.f aDbgLock 8 4 < 8) : ∃ w, exec .debugUnlock s = .next w
    ∧ RegsBut [aDbgLock] s w ∧ w.bit aDbgLock 0 = (if s.answered then false else s.bit aDbgLock 0)
    ∧ w.f aDbgLock 8 4 = s.f aDbgLock 8 4 + (if s.answered then 0 else 1)
    ∧ w.chal = Config.nonce (s.test.noncePos + (if s.answered then 0 else 1))
    ∧ (w.test = if s.answered then s.test else { s.test with noncePos := s.test.noncePos + 1 }) := by
  have hexec := exec_debugUnlock hs
  rw [if_neg (by omega)] at hexec
  by_cases hok : s.answered = true
  · simp only [hok, if_true] at hexec ⊢
    have htest : (s.setB aDbgLock 0 false).test = s.test := State.setF_test ..
    refine ⟨_, hexec, ((RegsBut.refl _ s).setB List.mem_cons_self _ _).signal, ?_, ?_, ?_, ?_⟩
    · rw [signal_bit]
      exact State.bit_setB_same s _ false (by omega)
    · rw [signal_f]
      exact State.f_setB_of_disjoint s (by omega) (by omega) false
    · rw [State.chal, signal_test, htest]
      rfl
    · rw [signal_test, htest]
  · simp only [hok, Bool.false_eq_true, if_false] at hexec ⊢
    have hregs : RegsBut [aDbgLock] s (s.setF aDbgLock 8 4 (s.f aDbgLock 8 4 + 1)) := (RegsBut.refl _ s).setF List.mem_cons_self _ _ _
    have hf : (s.setF aDbgLock 8 4 (s.f aDbgLock 8 4 + 1)).f aDbgLock 8 4 = s.f aDbgLock 8 4 + 1 :=
      (State.f_setF_same s _ _ (by omega)).trans (Nat.mod_eq_of_lt (by omega))
    have hbit : (s.setF aDbgLock 8 4 (s.f aDbgLock 8 4 + 1)).bit aDbgLock 0 = s.bit aDbgLock 0 :=
      State.bit_setF_of_disjoint s _ _ _ (by omega) (by omega)
    have htest : (s.setF aDbgLock 8 4 (s.f aDbgLock 8 4 + 1)).test = s.test := State.setF_test ..
    unfold unlockFailed at hexec
    dsimp only at hexec
    generalize s.setF aDbgLock 8 4 (s.f aDbgLock 8 4 + 1) = u at *
    obtain ⟨-, hrd, -⟩ := withTest_facts u { u.test with noncePos := u.test.noncePos + 1 }
    refine ⟨_, hexec, RegsBut.signal fun j hj => (hrd j).trans (hregs j hj), ?_, ?_, ?_, ?_⟩
    · rw [signal_bit, State.bit_congr (hrd _), hbit]
    · rw [signal_f, State.f_congr (hrd _), hf]
    · rw [State.chal, signal_test]
      dsimp only
      rw [htest]
    · rw [signal_test]
      dsimp only
      rw [htest]

theorem debugRelock_locks (hs : Served s) : exec .debugRelock s = .next (signal s (s.setB aDbgLock 0 true)) := by
  change execDebugRelock s = _
  rw [execDebugRelock, hostRow_of_served hs, done]

/-! ### Self-test (R399, R400) -/

theorem exec_bistStart (hs : Served s) (n : BitVec 3) : exec (.bistStart n) s = .next (signal s (bistStart n.toNat s)) := by
  change execBistStart n s = _
  rw [execBistStart, hostRow_of_served hs, done]

theorem bistStart_locked (hs : Served s) (hlock : s.bit aDbgLock 0 = true) (n : BitVec 3) :
    exec (.bistStart n) s = .next (signal s s) := by
  have hlock' : s.dbgLocked = true := hlock
  rw [exec_bistStart hs, bistStart, if_pos hlock']

/-- No layout is ACTIVE. -/
theorem images_rest : s.images.all (fun p => p.2.active == 0) = true ↔ ∀ p ∈ s.images, p.2.active = 0 := by
  simp only [List.all_eq_true, beq_iff_eq]

theorem bistStart_starts (hs : Served s) (hopen : s.bit aDbgLock 0 = false) (hrest : s.mayRest = true)
    (himages : ∀ p ∈ s.images, p.2.active = 0) (hnone : s.test.bist = none) (n : BitVec 3) :
    ∃ w, exec (.bistStart n) s = .next w ∧ w.bit aBistCtl 31 = true ∧ w.f aBistCtl 0 3 = n.toNat
      ∧ w.test = { s.test with bist := some n.toNat } ∧ RegsBut [aBistCtl] s w ∧ w.tiles = s.tiles ∧ w.mem = s.mem := by
  have hexec := exec_bistStart hs n
  have hcond : (s.mayRest && s.images.all (fun p => p.2.active == 0)) = true := by rw [hrest, images_rest.mpr himages]; rfl
  rw [bistStart, if_neg (dbgLocked_of hopen), hcond, if_neg (by decide), hnone, if_neg (by decide)] at hexec
  have hregs : RegsBut [aBistCtl] s ((s.setF aBistCtl 0 3 n.toNat).setB aBistCtl 31 true) :=
    ((RegsBut.refl _ s).setF List.mem_cons_self _ _ _).setB List.mem_cons_self _ _
  have honly : OnlyRegs s ((s.setF aBistCtl 0 3 n.toNat).setB aBistCtl 31 true) := ((OnlyRegs.refl s).setF _ _ _ _).setB _ _ _
  have hgo : ((s.setF aBistCtl 0 3 n.toNat).setB aBistCtl 31 true).bit aBistCtl 31 = true := State.bit_setB_same _ _ true (by omega)
  have hf : ((s.setF aBistCtl 0 3 n.toNat).setB aBistCtl 31 true).f aBistCtl 0 3 = n.toNat :=
    (State.f_setB_of_disjoint (s.setF aBistCtl 0 3 n.toNat) (by omega) (by omega) true).trans
      ((State.f_setF_same s _ _ (by omega)).trans (Nat.mod_eq_of_lt n.isLt))
  generalize (s.setF aBistCtl 0 3 n.toNat).setB aBistCtl 31 true = u at *
  obtain ⟨-, hrd, -⟩ := withTest_facts u { s.test with bist := some n.toNat }
  refine ⟨_, hexec, ?_, ?_, ?_, RegsBut.signal fun j hj => (hrd j).trans (hregs j hj), ?_, ?_⟩
  · rw [signal_bit, State.bit_congr (hrd _), hgo]
  · rw [signal_f, State.f_congr (hrd _), hf]
  · rw [signal_test]
  · rw [signal_tiles]
    exact honly.tiles
  · rw [signal_mem]
    exact honly.mem

theorem bistStart_refused (hs : Served s) (hopen : s.bit aDbgLock 0 = false)
    (hbusy : s.mayRest = false ∨ ∃ p ∈ s.images, p.2.active ≠ 0) (n : BitVec 3) :
    exec (.bistStart n) s = .next (signal s (reject none aBistCtl s)) := by
  have hcond : (s.mayRest && s.images.all (fun p => p.2.active == 0)) = false := by
    rcases hbusy with h | ⟨p, hp, hne⟩
    · rw [h, Bool.false_and]
    · rw [Bool.eq_false_iff.mpr fun h => hne (images_rest.mp h p hp), Bool.and_false]
  rw [exec_bistStart hs, bistStart, if_neg (dbgLocked_of hopen), hcond, if_pos (by decide)]

/-- The registers of a completed self-test. -/
def bistShown (regions : BitVec 25) (banks : BitVec 16) (u : State) : State :=
  ((u.setB aBistCtl 31 false).setF aBistStatus 0 25 regions.toNat).setF aBistBasin 0 16 banks.toNat

theorem bistShown_facts (regions : BitVec 25) (banks : BitVec 16) (u : State) :
    RegsBut [aBistCtl, aBistStatus, aBistBasin] u (bistShown regions banks u) ∧ OnlyRegs u (bistShown regions banks u)
      ∧ (bistShown regions banks u).bit aBistCtl 31 = false ∧ (bistShown regions banks u).f aBistStatus 0 25 = regions.toNat
      ∧ (bistShown regions banks u).f aBistBasin 0 16 = banks.toNat := by
  have hstatus : aBistStatus ∈ [aBistCtl, aBistStatus, aBistBasin] := List.mem_cons_of_mem _ List.mem_cons_self
  have hbasin : aBistBasin ∈ [aBistCtl, aBistStatus, aBistBasin] := List.mem_cons_of_mem _ (List.mem_cons_of_mem _ List.mem_cons_self)
  have hne₁ : aBistCtl ≠ aBistBasin := by decide
  have hne₂ : aBistCtl ≠ aBistStatus := by decide
  have hne₃ : aBistStatus ≠ aBistBasin := by decide
  unfold bistShown
  refine ⟨(((RegsBut.refl _ u).setB List.mem_cons_self _ _).setF hstatus _ _ _).setF hbasin _ _ _,
    (((OnlyRegs.refl u).setB _ _ _).setF _ _ _ _).setF _ _ _ _, ?_, ?_,
    (State.f_setF_same _ _ _ (by omega)).trans (Nat.mod_eq_of_lt banks.isLt)⟩
  · rw [State.bit_setF_ne _ _ _ _ hne₁, State.bit_setF_ne _ _ _ _ hne₂]
    exact State.bit_setB_same u _ false (by omega)
  · rw [State.f_setF_ne _ _ _ _ hne₃]
    exact (State.f_setF_same _ _ _ (by omega)).trans (Nat.mod_eq_of_lt regions.isLt)

/-- A test of the tile memories leaves no tile. -/
def bistTiles (n : Nat) (s : State) : State :=
  let tilePlane := fun (p : Nat × Word) =>
    decide (0x200000 ≤ p.1 ∧ p.1 < 0x390000 ∧ 0x4000 ≤ p.1 % 0x10000 ∧ 0x100 ≤ (p.1 - 0x4000) % 0x10000 % 0xC00 ∧ (p.1 - 0x4000) % 0x10000 % 0xC00 < 0x400)
  if nbit n 0 then
    { s with tiles := [], regs := s.regs.filter (fun p => !tilePlane p), active := s.active.filter (fun p => !tilePlane p),
             fabric := { s.fabric with wires := [], holds := [], lanes := [], laneUsed := [] } }
  else s

/-- A test of the sequencer memories leaves them zero. -/
def bistSeqs (n : Nat) (s : State) : State :=
  if nbit n 1 then { s with seqs := s.seqs.map (fun p => (p.1, { p.2 with mem := [], ecc := [] })) } else s

/-- A test of the basin leaves it zero, and the image store empty. -/
def bistBasin (n : Nat) (s : State) : State :=
  if nbit n 2 then
    { s with mem := { s.mem with basin := Ram.init }, images := [], staging := [], tms := s.tms.filter (fun p => p.1 < 8184) }
  else s

theorem bistClear_eq (n : Nat) (s : State) : bistClear n s = bistBasin n (bistSeqs n (bistTiles n s)) := rfl

/-- The memories under test read zero; nothing else of the state but registers changes where no tile is tested. -/
structure Tested (n : Nat) (s t : State) : Prop where
  tiles : nbit n 0 = true → t.tiles = []
  seqs : nbit n 1 = true → ∀ h, (t.seq h).mem = [] ∧ (t.seq h).ecc = []
  basin : nbit n 2 = true → t.mem.basin = Ram.init ∧ t.images = []
  kept : nbit n 0 = false → (∀ j, t.rd j = s.rd j) ∧ t.tiles = s.tiles

theorem bistTiles_facts (n : Nat) (s : State) : (nbit n 0 = true → (bistTiles n s).tiles = [])
    ∧ (nbit n 0 = false → bistTiles n s = s) := by
  unfold bistTiles
  refine ⟨fun h => ?_, fun h => ?_⟩
  · dsimp only
    rw [if_pos h]
  · dsimp only
    rw [h, if_neg Bool.false_ne_true]

theorem bistSeqs_facts (n : Nat) (s : State) : (nbit n 1 = true → ∀ h, ((bistSeqs n s).seq h).mem = [] ∧ ((bistSeqs n s).seq h).ecc = [])
    ∧ (∀ j, (bistSeqs n s).rd j = s.rd j) ∧ (bistSeqs n s).tiles = s.tiles := by
  unfold bistSeqs
  by_cases h : nbit n 1 = true
  · rw [if_pos h]
    refine ⟨fun _ g => ?_, fun _ => rfl, rfl⟩
    exact tget_map_of_all (P := fun x : Seq => x.mem = [] ∧ x.ecc = []) (fun x : Seq => { x with mem := [], ecc := [] }) ⟨rfl, rfl⟩
      (fun _ => ⟨rfl, rfl⟩) s.seqs g
  · rw [if_neg h]
    exact ⟨fun h' => absurd h' h, fun _ => rfl, rfl⟩

theorem bistBasin_facts (n : Nat) (s : State) : (nbit n 2 = true → (bistBasin n s).mem.basin = Ram.init ∧ (bistBasin n s).images = [])
    ∧ (∀ j, (bistBasin n s).rd j = s.rd j) ∧ (bistBasin n s).tiles = s.tiles ∧ (bistBasin n s).seqs = s.seqs := by
  unfold bistBasin
  by_cases h : nbit n 2 = true
  · rw [if_pos h]
    exact ⟨fun _ => ⟨rfl, rfl⟩, fun _ => rfl, rfl, rfl⟩
  · rw [if_neg h]
    exact ⟨fun h' => absurd h' h, fun _ => rfl, rfl, rfl⟩

theorem bistClear_tests (n : Nat) (s : State) : Tested n s (bistClear n s) := by
  rw [bistClear_eq]
  obtain ⟨htiles, hkept⟩ := bistTiles_facts n s
  generalize bistTiles n s = u at *
  obtain ⟨hseqs, hrd, htiles'⟩ := bistSeqs_facts n u
  generalize bistSeqs n u = v at *
  obtain ⟨hbasin, hrd', htiles'', hseqs'⟩ := bistBasin_facts n v
  generalize bistBasin n v = w at *
  refine ⟨fun h => by rw [htiles'', htiles', htiles h], fun h g => ?_, hbasin, fun h => ⟨fun j => ?_, ?_⟩⟩
  · rw [State.seq, hseqs']
    exact hseqs h g
  · rw [hrd', hrd, hkept h]
  · rw [htiles'', htiles', hkept h]

theorem bistComplete_idle (hnone : s.test.bist = none) (regions : BitVec 25) (banks : BitVec 16) :
    exec (.bistComplete regions banks) s = .next s := by
  change execBistComplete regions banks s = _
  rw [execBistComplete, hnone]
  rfl

theorem bistComplete_shows {m : Nat} (hbist : s.test.bist = some m) (regions : BitVec 25) (banks : BitVec 16) :
    ∃ w, exec (.bistComplete regions banks) s = .next w ∧ w.test.bist = none ∧ w.bit aBistCtl 31 = false
      ∧ w.f aBistStatus 0 25 = regions.toNat ∧ w.f aBistBasin 0 16 = banks.toNat ∧ w.test.failing = regions.toNat
      ∧ (nbit m 0 = true → w.tiles = []) ∧ (nbit m 1 = true → ∀ h, (w.seq h).mem = [] ∧ (w.seq h).ecc = [])
      ∧ (nbit m 2 = true → w.mem.basin = Ram.init ∧ w.images = [])
      ∧ (nbit m 0 = false → RegsBut [aBistCtl, aBistStatus, aBistBasin] s w ∧ w.tiles = s.tiles) := by
  obtain ⟨v, hv⟩ : ∃ v, bistShown regions banks (bistClear m s) = v := ⟨_, rfl⟩
  obtain ⟨x, hx⟩ : ∃ x : Test, { (((bistClear m s).setB aBistCtl 31 false).setF aBistStatus 0 25 regions.toNat).test with
      bist := none, failing := regions.toNat } = x := ⟨_, rfl⟩
  have hx' : x.bist = none ∧ x.failing = regions.toNat := by
    rw [← hx]
    exact ⟨rfl, rfl⟩
  have hexec : exec (.bistComplete regions banks) s = .next (signal s { v with test := x }) := by
    change execBistComplete regions banks s = _
    rw [execBistComplete, hbist, ← hv, ← hx]
    rfl
  obtain ⟨htiles, hseqs, hbasin, hkept⟩ := bistClear_tests m s
  obtain ⟨hregs, honly, hgo, hstatus, hbanks⟩ := bistShown_facts regions banks (bistClear m s)
  rw [hv] at hregs honly hgo hstatus hbanks
  generalize bistClear m s = u at *
  have hsame : v.tiles = u.tiles ∧ v.seqs = u.seqs ∧ v.mem = u.mem ∧ v.images = u.images := by
    unfold OnlyRegs at honly
    rw [honly]
    exact ⟨rfl, rfl, rfl, rfl⟩
  obtain ⟨h1, h2, h3, h4⟩ := hsame
  obtain ⟨-, hrd, -⟩ := withTest_facts v x
  refine ⟨_, hexec, ?_, ?_, ?_, ?_, ?_, fun h => ?_, fun h g => ?_, fun h => ?_, fun h => ⟨?_, ?_⟩⟩
  · rw [signal_test]
    exact hx'.1
  · rw [signal_bit, State.bit_congr (hrd _), hgo]
  · rw [signal_f, State.f_congr (hrd _), hstatus]
  · rw [signal_f, State.f_congr (hrd _), hbanks]
  · rw [signal_test]
    exact hx'.2
  · rw [signal_tiles]
    exact h1.trans (htiles h)
  · rw [signal_seq]
    dsimp only [State.seq]
    rw [h2]
    exact hseqs h g
  · rw [signal_mem, signal_images]
    dsimp only
    rw [h3, h4]
    exact hbasin h
  · exact RegsBut.signal fun j hj => (hrd j).trans ((hregs j hj).trans ((hkept h).1 j))
  · rw [signal_tiles]
    exact h1.trans (hkept h).2

end

end Sys2Proof.Machine
end

section
/-! Fabric loop-backs (R401). -/
namespace Sys2Proof.Machine

section
variable {s : State}

theorem tile_mem_tilesOf (t : Nat) : t ∈ tilesOf (regionOf t) := by
  have htile : tileOf (regionOf t) (localOf t) = t := by
    unfold tileOf regionOf localOf
    omega
  have hlocal : localOf t < 16 := by
    unfold localOf
    omega
  have hmem := mem_tilesOf (g := regionOf t) hlocal
  rwa [htile] at hmem

/-- What refuses a loop-back. -/
def loopBad (t dir depth : Nat) (s : State) : Bool :=
  let used := fun (g : Nat) => !(s.streamsIn g).isEmpty
  decide (depth = 0) || used (regionOf t)
    || (decide (depth = 2) && (match neighbour t dir with | some n => used (regionOf n) | none => true))
    || (decide (depth = 3) && (edgeAt t dir).isNone)

/-- The region's clock runs at ÷1 while some tile loops back. -/
def loopClocked (g : Nat) (s : State) : State :=
  if !s.looping g then (s.modSeq g (fun q => { q with savedDiv := s.f (aRegionClk g) 16 4 })).setF (aRegionClk g) 16 4 1 else s

/-- TILE_DBG_LOOP takes EN = 1, the direction and the depth. -/
def loopShown (t dir depth : Nat) (s : State) : State :=
  ((s.setB (aTileDbgLoop t) 31 true).setF (aTileDbgLoop t) 2 2 dir).setF (aTileDbgLoop t) 0 2 depth

theorem loopSet_eq (t dir depth : Nat) (s : State) : loopSet t true dir depth s = if s.dbgLocked then s
    else if loopBad t dir depth s then reject none (aTileDbgLoop t) s
    else if (loopClocked (regionOf t) s).looping (regionOf t)
        && !(loopShown t dir depth (loopClocked (regionOf t) s)).looping (regionOf t) then
      (loopShown t dir depth (loopClocked (regionOf t) s)).setF (aRegionClk (regionOf t)) 16 4
        ((loopShown t dir depth (loopClocked (regionOf t) s)).seq (regionOf t)).savedDiv
    else loopShown t dir depth (loopClocked (regionOf t) s) := rfl

theorem exec_fabricLoopback (hs : Served s) (t : TileIx) (dir depth : BitVec 2) : exec (.fabricLoopback t dir depth) s
    = .next (signal s (loopSet t.val true dir.toNat depth.toNat s)) := by
  change execFabricLoopback t dir depth s = _
  rw [execFabricLoopback, hostRow_of_served hs, done]

/-- A loop-back may start: R401's conditions. -/
def LoopLegal (t dir depth : Nat) (s : State) : Prop :=
  depth ≠ 0 ∧ s.streamsIn (regionOf t) = [] ∧ (depth = 2 → ∃ k, neighbour t dir = some k ∧ s.streamsIn (regionOf k) = [])
    ∧ (depth = 3 → (edgeAt t dir).isSome = true)

theorem loopBad_eq_false (t dir depth : Nat) (s : State) : loopBad t dir depth s = false ↔ LoopLegal t dir depth s := by
  unfold loopBad LoopLegal
  simp only [Bool.or_eq_false_iff, decide_eq_false_iff_not, Bool.not_eq_false', List.isEmpty_iff, Bool.and_eq_false_imp,
    decide_eq_true_eq, ← Option.not_isSome, and_assoc, ne_eq]
  refine and_congr_right fun _ => and_congr_right fun _ => and_congr_left fun _ => forall_congr' fun _ => ?_
  cases neighbour t dir with
  | none => simp
  | some n => simp [List.isEmpty_iff]

/-- The clock and the loop-back register lie apart. -/
theorem loop_ne_clk (t g h : Nat) : aTileDbgLoop t ≠ aRegionClk g ∧ aRegionClk g ≠ aTileDbgLoop h := by
  have hlocal : ∀ t, localOf t < 16 := fun t => by
    unfold localOf
    omega
  have h1 := hlocal t
  have h2 := hlocal h
  unfold aTileDbgLoop aRegionClk tilePage seqPage
  constructor <;> omega

theorem looping_congr {u : State} {g : Nat} (h : ∀ t, u.bit (aTileDbgLoop t) 31 = s.bit (aTileDbgLoop t) 31) :
    u.looping g = s.looping g := by
  unfold State.looping
  exact congrArg (fun f => (tilesOf g).any f) (funext h)

theorem loopClocked_facts (g : Nat) (s : State) : RegsBut [aRegionClk g] s (loopClocked g s)
    ∧ (s.looping g = false → (loopClocked g s).f (aRegionClk g) 16 4 = 1 ∧ ((loopClocked g s).seq g).savedDiv = s.f (aRegionClk g) 16 4)
    ∧ (s.looping g = true → (loopClocked g s).rd (aRegionClk g) = s.rd (aRegionClk g)) := by
  unfold loopClocked
  by_cases h : s.looping g = true
  · rw [h, if_neg (by decide)]
    exact ⟨.refl _ s, fun h' => absurd h' (by decide), fun _ => rfl⟩
  · rw [Bool.not_eq_true] at h
    rw [h, if_pos (by decide)]
    have hkept := (RegsKept.refl s).modSeq g (fun q => { q with savedDiv := s.f (aRegionClk g) 16 4 })
    have hseq : ((s.modSeq g (fun q => { q with savedDiv := s.f (aRegionClk g) 16 4 })).seq g).savedDiv = s.f (aRegionClk g) 16 4 := by
      rw [State.seq_modSeq]
    generalize s.modSeq g (fun q => { q with savedDiv := s.f (aRegionClk g) 16 4 }) = u at *
    refine ⟨fun j hj => (State.rd_setF_ne _ _ _ _ (by simpa using hj)).trans (hkept.rd j), fun _ => ⟨State.f_setF_same u _ _ (by omega), ?_⟩,
      fun h' => absurd h' (by decide)⟩
    rw [State.seq, State.setF_seqs]
    exact hseq

theorem loopShown_facts {t dir depth : Nat} (hdir : dir < 4) (hdepth : depth < 4) (s : State) :
    RegsBut [aTileDbgLoop t] s (loopShown t dir depth s) ∧ (loopShown t dir depth s).bit (aTileDbgLoop t) 31 = true
      ∧ (loopShown t dir depth s).f (aTileDbgLoop t) 2 2 = dir ∧ (loopShown t dir depth s).f (aTileDbgLoop t) 0 2 = depth
      ∧ (loopShown t dir depth s).seqs = s.seqs := by
  unfold loopShown
  generalize aTileDbgLoop t = off
  refine ⟨(((RegsBut.refl _ s).setB List.mem_cons_self _ _).setF List.mem_cons_self _ _ _).setF List.mem_cons_self _ _ _, ?_, ?_,
    (State.f_setF_same _ _ _ (by omega)).trans (Nat.mod_eq_of_lt hdepth), ?_⟩
  · refine (State.bit_setF_of_disjoint ((s.setB off 31 true).setF off 2 2 dir) _ _ _ (by omega) (by omega)).trans ?_
    refine (State.bit_setF_of_disjoint (s.setB off 31 true) _ _ _ (by omega) (by omega)).trans ?_
    exact State.bit_setB_same s off true (by omega)
  · refine (State.f_setF_of_disjoint ((s.setB off 31 true).setF off 2 2 dir) _ _ _ (by omega) (by omega)).trans ?_
    exact (State.f_setF_same _ _ _ (by omega)).trans (Nat.mod_eq_of_lt hdir)
  · rw [State.setF_seqs, State.setF_seqs, State.setB, State.setF_seqs]

section
variable {t : TileIx} {dir depth : BitVec 2} (hs : Served s)
include hs

theorem fabricLoopback_locked (hlock : s.bit aDbgLock 0 = true) : exec (.fabricLoopback t dir depth) s = .next (signal s s) := by
  have hlock' : s.dbgLocked = true := hlock
  rw [exec_fabricLoopback hs, loopSet_eq, if_pos hlock']

theorem fabricLoopback_refused (hopen : s.bit aDbgLock 0 = false) (hbad : ¬ LoopLegal t.val dir.toNat depth.toNat s) :
    exec (.fabricLoopback t dir depth) s = .next (signal s (reject none (aTileDbgLoop t.val) s)) := by
  have hbad' : loopBad t.val dir.toNat depth.toNat s = true := by
    rw [← Bool.not_eq_false, loopBad_eq_false]
    exact hbad
  rw [exec_fabricLoopback hs, loopSet_eq, if_neg (dbgLocked_of hopen), if_pos hbad']

theorem fabricLoopback_starts (hopen : s.bit aDbgLock 0 = false) (hlegal : LoopLegal t.val dir.toNat depth.toNat s) :
    ∃ w, exec (.fabricLoopback t dir depth) s = .next w
      ∧ w.bit (aTileDbgLoop t.val) 31 = true ∧ w.f (aTileDbgLoop t.val) 2 2 = dir.toNat ∧ w.f (aTileDbgLoop t.val) 0 2 = depth.toNat
      ∧ RegsBut [aTileDbgLoop t.val, aRegionClk (regionOf t.val)] s w
      ∧ (s.looping (regionOf t.val) = false → w.f (aRegionClk (regionOf t.val)) 16 4 = 1
        ∧ (w.seq (regionOf t.val)).savedDiv = s.f (aRegionClk (regionOf t.val)) 16 4)
      ∧ (s.looping (regionOf t.val) = true → w.rd (aRegionClk (regionOf t.val)) = s.rd (aRegionClk (regionOf t.val))) := by
  have hgood := (loopBad_eq_false _ _ _ _).mpr hlegal
  have hexec := exec_fabricLoopback hs t dir depth
  rw [loopSet_eq, if_neg (dbgLocked_of hopen), hgood, if_neg Bool.false_ne_true] at hexec
  obtain ⟨hregs, hfresh, hheld⟩ := loopClocked_facts (regionOf t.val) s
  generalize loopClocked (regionOf t.val) s = u at *
  obtain ⟨hregs', hen, hdir, hdepth, hseqs⟩ := loopShown_facts (t := t.val) dir.isLt depth.isLt u
  generalize loopShown t.val dir.toNat depth.toNat u = w at *
  have hloop : w.looping (regionOf t.val) = true := List.any_eq_true.mpr ⟨t.val, tile_mem_tilesOf t.val, hen⟩
  rw [hloop, Bool.not_true, Bool.and_false, if_neg Bool.false_ne_true] at hexec
  have hclk : w.rd (aRegionClk (regionOf t.val)) = u.rd (aRegionClk (regionOf t.val)) := hregs' _ (by
    rw [List.mem_singleton]
    exact (loop_ne_clk 0 _ t.val).2)
  have hall : RegsBut [aTileDbgLoop t.val, aRegionClk (regionOf t.val)] s w := (hregs.mono fun o ho => List.mem_cons_of_mem _ ho).comp
    (hregs'.mono fun o ho => by
      rw [List.mem_singleton.mp ho]
      exact List.mem_cons_self)
  refine ⟨_, hexec, ?_, ?_, ?_, hall.signal, fun h => ⟨?_, ?_⟩, fun h => ?_⟩
  · rw [signal_bit, hen]
  · rw [signal_f, hdir]
  · rw [signal_f, hdepth]
  · rw [signal_f, State.f_congr hclk, (hfresh h).1]
  · rw [signal_seq, State.seq, hseqs]
    exact (hfresh h).2
  · rw [signal_rd, hclk, hheld h]

end

end

/-- Settles O59: one rule for each command of the debug lock, the self-test and the loop-backs. -/
theorem lockSelfTestAndLoopback : Obligations.LockSelfTestAndLoopback := by
  unfold Obligations.LockSelfTestAndLoopback
  intro n m regions banks t dir depth s hs
  dsimp only
  have hlegal : (depth ≠ 0 ∧ decide (s.streamsIn (regionOf t.val) = []) = true
      ∧ (depth = 2 → ∃ k, neighbour t.val dir.toNat = some k ∧ decide (s.streamsIn (regionOf k) = []) = true)
      ∧ (depth = 3 → (edgeAt t.val dir.toNat).isSome = true)) ↔ LoopLegal t.val dir.toNat depth.toNat s := by
    have hval : ∀ k : BitVec 2, depth = k ↔ depth.toNat = k.toNat := fun k => BitVec.toNat_inj.symm
    unfold LoopLegal
    simp only [decide_eq_true_eq, ne_eq, hval]
    rfl
  refine ⟨debugUnlock_answers hs, debugUnlock_spent hs, debugRelock_locks hs,
    fun hopen hrest himages hnone => bistStart_starts hs hopen hrest himages hnone n,
    fun hopen hbusy => bistStart_refused hs hopen hbusy n,
    fun hlock => ⟨bistStart_locked hs hlock n, fabricLoopback_locked hs hlock⟩,
    fun hbist => bistComplete_shows hbist regions banks, fun hnone => bistComplete_idle hnone regions banks,
    fun hopen hbad => fabricLoopback_refused hs hopen fun h => hbad (hlegal.mpr h),
    fun hopen hok => fabricLoopback_starts hs hopen (hlegal.mp hok)⟩

end Sys2Proof.Machine
end

section
/-! What the steps of a plane swap keep (R310): the lists of the image store, the queues of tiles, the starts of sequencers. -/
namespace Sys2Proof.Machine

/-! ### Frames -/

/-- The stagings, direct loads and uses in progress are as they were. -/
structure ListsKept (s t : State) : Prop where
  staging : t.staging = s.staging
  loads : t.loads = s.loads
  uses : t.uses = s.uses

/-- No tile's input queues or set-reset change either. -/
structure SwapKept (s t : State) : Prop extends ListsKept s t where
  iq : ∀ x, (t.tile x).iq = (s.tile x).iq
  gsr : ∀ x, (t.tile x).gsr = (s.tile x).gsr

/-- Nor do the place, KEY and SIDs of sequencer h, nor its SEQ_RESTART in effect. -/
structure PlaceKept (h : Nat) (s t : State) : Prop extends SwapKept s t where
  restart : t.act (aSeqRestart h) = s.act (aSeqRestart h)
  pc : (t.seq h).pc = (s.seq h).pc
  keyOk : (t.seq h).keyOk = (s.seq h).keyOk
  sids : (t.seq h).sids = (s.seq h).sids

/-- A relation kept by every step for a member of the list is kept by them all. -/
theorem each_related {α σ : Type} {R : σ → σ → Prop} (hrefl : ∀ s, R s s) (htrans : ∀ {s t u}, R s t → R t u → R s u)
    {f : σ → α → σ} {l : List α} (hf : ∀ x ∈ l, ∀ s, R s (f s x)) (s : σ) : R s (each l s f) := by
  unfold each
  induction l generalizing s with
  | nil => exact hrefl s
  | cons x l ih =>
    exact htrans (hf x List.mem_cons_self s) (ih (fun y hy => hf y (List.mem_cons_of_mem x hy)) (f s x))

section
variable {h : Nat} {s t u : State}

theorem ListsKept.refl (s : State) : ListsKept s s := ⟨rfl, rfl, rfl⟩

theorem ListsKept.trans (k : ListsKept s t) (k' : ListsKept t u) : ListsKept s u :=
  ⟨k'.staging.trans k.staging, k'.loads.trans k.loads, k'.uses.trans k.uses⟩

theorem ListsKept.modTile (s : State) (x : Nat) (f : Tile → Tile) : ListsKept s (s.modTile x f) := ⟨rfl, rfl, rfl⟩

theorem SwapKept.refl (s : State) : SwapKept s s := ⟨.refl s, fun _ => rfl, fun _ => rfl⟩

theorem SwapKept.trans (k : SwapKept s t) (k' : SwapKept t u) : SwapKept s u :=
  ⟨k.toListsKept.trans k'.toListsKept, fun x => (k'.iq x).trans (k.iq x), fun x => (k'.gsr x).trans (k.gsr x)⟩

theorem PlaceKept.refl (h : Nat) (s : State) : PlaceKept h s s := ⟨.refl s, rfl, rfl, rfl, rfl⟩

theorem PlaceKept.trans (k : PlaceKept h s t) (k' : PlaceKept h t u) : PlaceKept h s u :=
  ⟨k.toSwapKept.trans k'.toSwapKept, k'.restart.trans k.restart, k'.pc.trans k.pc, k'.keyOk.trans k.keyOk, k'.sids.trans k.sids⟩

/-- A step that changes neither tiles nor the lists. -/
theorem SwapKept.of_tiles (htiles : t.tiles = s.tiles) (hlists : ListsKept s t) : SwapKept s t :=
  ⟨hlists, fun x => by rw [State.tile, htiles, State.tile], fun x => by rw [State.tile, htiles, State.tile]⟩

/-- A step that changes neither tiles, sequencers, planes nor the lists. -/
theorem PlaceKept.of_fabric (h : Nat) (htiles : t.tiles = s.tiles) (hseqs : t.seqs = s.seqs) (hactive : t.active = s.active)
    (hlists : ListsKept s t) : PlaceKept h s t := by
  have hseq : t.seq h = s.seq h := by rw [State.seq, hseqs, State.seq]
  exact ⟨.of_tiles htiles hlists, by rw [State.act, hactive, State.act], by rw [hseq], by rw [hseq], by rw [hseq]⟩

theorem PlaceKept.modTile (h : Nat) (s : State) (x : Nat) (f : Tile → Tile) (hf : ∀ y, (f y).iq = y.iq ∧ (f y).gsr = y.gsr) :
    PlaceKept h s (s.modTile x f) := by
  have htile : ∀ y, ((s.modTile x f).tile y).iq = (s.tile y).iq ∧ ((s.modTile x f).tile y).gsr = (s.tile y).gsr := by
    intro y
    rw [State.modTile, State.tile_setTile]
    split
    · subst y
      exact hf _
    · exact ⟨rfl, rfl⟩
  exact ⟨⟨⟨rfl, rfl, rfl⟩, fun y => (htile y).1, fun y => (htile y).2⟩, rfl, rfl, rfl, rfl⟩

theorem SwapKept.modSeq (s : State) (g : Nat) (f : Seq → Seq) : SwapKept s (s.modSeq g f) := .of_tiles rfl ⟨rfl, rfl, rfl⟩

theorem PlaceKept.modSeq_ne (s : State) {g h : Nat} (hne : h ≠ g) (f : Seq → Seq) : PlaceKept h s (s.modSeq g f) := by
  have hseq := s.seq_modSeq_ne f hne
  exact ⟨.modSeq s g f, rfl, by rw [hseq], by rw [hseq], by rw [hseq]⟩

theorem PlaceKept.modSeq (h : Nat) (s : State) (g : Nat) (f : Seq → Seq)
    (hf : ∀ x, (f x).pc = x.pc ∧ (f x).keyOk = x.keyOk ∧ (f x).sids = x.sids) : PlaceKept h s (s.modSeq g f) := by
  by_cases hne : h = g
  · subst hne
    obtain ⟨hpc, hkey, hsids⟩ := hf (s.seq h)
    exact ⟨.modSeq s h f, rfl, by rw [State.seq_modSeq, hpc], by rw [State.seq_modSeq, hkey], by rw [State.seq_modSeq, hsids]⟩
  · exact .modSeq_ne s hne f

theorem PlaceKept.wrAct (s : State) {off : Nat} (hne : aSeqRestart h ≠ off) (w : Word) : PlaceKept h s (s.wrAct off w) :=
  ⟨.of_tiles rfl ⟨rfl, rfl, rfl⟩, by rw [State.act_wrAct, if_neg hne], rfl, rfl, rfl⟩

theorem PlaceKept.setF (h : Nat) (s : State) (off lo len v : Nat) : PlaceKept h s (s.setF off lo len v) :=
  .of_fabric h rfl rfl rfl ⟨rfl, rfl, rfl⟩

theorem PlaceKept.wr (h : Nat) (s : State) (off : Nat) (w : Word) : PlaceKept h s (s.wr off w) :=
  .of_fabric h rfl rfl rfl ⟨rfl, rfl, rfl⟩

theorem PlaceKept.setImage (h : Nat) (s : State) (k : Nat) (im : Image) : PlaceKept h s (s.setImage k (some im)) :=
  .of_fabric h rfl rfl rfl ⟨rfl, rfl, rfl⟩

theorem PlaceKept.msix (h : Nat) (s : State) (fn vector : Nat) : PlaceKept h s (s.msix fn vector) := by
  unfold State.msix
  split
  · exact .of_fabric h rfl rfl rfl ⟨rfl, rfl, rfl⟩
  · exact .of_fabric h rfl rfl rfl ⟨rfl, rfl, rfl⟩

theorem PlaceKept.cause (h : Nat) (s : State) (n k : Nat) : PlaceKept h s (s.cause n k) := by
  unfold State.cause
  dsimp only
  have hset : PlaceKept h s (s.setB (aStreamIntCause n) k true) := .setF h s _ k 1 _
  split
  · exact hset
  · exact hset.trans (.msix h _ n k)

end

/-! ### Set-reset -/

section
variable (s : State)

theorem creditFull_swapKept (c : Nat) : SwapKept s (creditFull c s) := by
  unfold creditFull
  split
  · exact (PlaceKept.modTile 0 s (c / 8) (fun y => { y with used := tset 0 y.used (c % 8) 0 }) (fun _ => ⟨rfl, rfl⟩)).toSwapKept
  · split
    · exact .of_tiles rfl ⟨rfl, rfl, rfl⟩
    · split
      · exact .of_tiles rfl ⟨rfl, rfl, rfl⟩
      · exact .of_tiles rfl ⟨rfl, rfl, rfl⟩

/-- What a set-reset of region g does before it clears the tiles changes no tile's input queues. -/
theorem gsrRegion_links (g : Nat) :
    ∃ u, gsrRegion g s = each (tilesOf g) u (fun s t => s.modTile t Tile.gsrClear) ∧ SwapKept s u := by
  unfold gsrRegion
  dsimp only
  refine ⟨_, rfl, SwapKept.trans ?_ (each_related SwapKept.refl SwapKept.trans (fun e _ u => ?_) _)⟩
  · exact (each_related SwapKept.refl SwapKept.trans (fun c _ u => creditFull_swapKept u c) s).trans (.of_tiles rfl ⟨rfl, rfl, rfl⟩)
  · split
    · exact .of_tiles rfl ⟨rfl, rfl, rfl⟩
    · exact .refl u

theorem gsrRegion_lists (g : Nat) : ListsKept s (gsrRegion g s) := by
  obtain ⟨u, hu, hkept⟩ := gsrRegion_links s g
  rw [hu]
  exact hkept.toListsKept.trans (each_related ListsKept.refl ListsKept.trans (fun t _ v => .modTile v t _) u)

theorem gsrRegion_iq (g x : Nat) : ((gsrRegion g s).tile x).iq = if x ∈ tilesOf g then [] else (s.tile x).iq := by
  obtain ⟨u, hu, hkept⟩ := gsrRegion_links s g
  rw [hu, tile_each_modTile (tilesOf_nodup g), ← hkept.iq x]
  split
  · rfl
  · rfl

theorem gsrHold_tile (b : Bool) (g x : Nat) :
    (gsrHold b g s).tile x = if x ∈ tilesOf g then { s.tile x with gsr := b } else s.tile x := by
  unfold gsrHold
  exact tile_each_modTile (tilesOf_nodup g) _ s x

theorem gsrHold_kept (b : Bool) (g : Nat) : ListsKept s (gsrHold b g s) ∧ (gsrHold b g s).seqs = s.seqs
    ∧ (gsrHold b g s).active = s.active ∧ (gsrHold b g s).images = s.images := by
  unfold gsrHold
  generalize hf : (fun x : Tile => { x with gsr := b }) = f
  exact ⟨each_related ListsKept.refl ListsKept.trans (fun t _ v => .modTile v t _) s, each_eq State.seqs (fun (s : State) t => s.modTile t f) (fun _ _ => rfl) _ s,
    each_eq State.active (fun (s : State) t => s.modTile t f) (fun _ _ => rfl) _ s, each_eq State.images (fun (s : State) t => s.modTile t f) (fun _ _ => rfl) _ s⟩

/-! ### What the image brings: weights, tidemarks, edge ports -/

theorem loadWeights_placeKept (h : Nat) (x : TileRec) : PlaceKept h s (loadWeights s x) := .modTile h s _ _ (fun _ => ⟨rfl, rfl⟩)

theorem tmUpdate_placeKept (h i : Nat) (x : Tm) : PlaceKept h s (tmUpdate i x s) := by
  have hset : ∀ y gs, PlaceKept h s { s.setTm i y with granted := gs } := fun y gs => .of_fabric h rfl rfl rfl ⟨rfl, rfl, rfl⟩
  unfold tmUpdate
  dsimp only
  split
  · exact (hset _ _).trans (.cause h _ _ _)
  · exact hset _ _

theorem loadTidemarks_placeKept (h : Nat) (b : Sections) (n : Nat) : PlaceKept h s (loadTidemarks b s n) := by
  unfold loadTidemarks
  refine each_related (PlaceKept.refl h) PlaceKept.trans (fun v _ u => ?_) s
  dsimp only
  split
  · exact tmUpdate_placeKept u h _ _
  · exact .refl h u

theorem applyReg_swapKept (off : Nat) : SwapKept s (applyReg s off) := .of_tiles rfl ⟨rfl, rfl, rfl⟩

/-- A causeway channel whose binding changes starts with fresh credits. -/
def edgeFresh (e : Nat) (s : State) : State :=
  if s.edgeMode e = 3 then
    s.setLink (s.fa (aEdgeCfg e) 20 2) { s.link (s.fa (aEdgeCfg e) 20 2) with
      spent := tset 0 (s.link (s.fa (aEdgeCfg e) 20 2)).spent (s.fa (aEdgeCfg e) 16 4) 0
      owed := tset 0 (s.link (s.fa (aEdgeCfg e) 20 2)).owed (s.fa (aEdgeCfg e) 16 4) 0
      txq := tset [] (s.link (s.fa (aEdgeCfg e) 20 2)).txq (s.fa (aEdgeCfg e) 16 4) []
      rxq := tset [] (s.link (s.fa (aEdgeCfg e) 20 2)).rxq (s.fa (aEdgeCfg e) 16 4) []
      open_ := tset [] (s.link (s.fa (aEdgeCfg e) 20 2)).open_ (s.fa (aEdgeCfg e) 16 4) [] }
  else s

/-- One edge port takes its pending values. -/
def edgeRebind (s : State) (e : Nat) : State :=
  let s' := if decide (s.rd (aEdgeCfg e) ≠ s.act (aEdgeCfg e)) then edgeFresh e s else s
  let s'' := applyReg (applyReg s' (aEdgeCfg e)) (aEdgeRing e)
  if decide (s.rd (aEdgeCfg e) ≠ s.act (aEdgeCfg e)) then edgeFresh e s'' else s''

theorem rebindEdges_eq (gs : List Nat) :
    rebindEdges gs s = each ((List.range 40).filter (fun e => gs.contains (regionOf (edgeTile e)))) s edgeRebind := rfl

theorem edgeFresh_swapKept (e : Nat) : SwapKept s (edgeFresh e s) := by
  unfold edgeFresh
  split
  · exact .of_tiles rfl ⟨rfl, rfl, rfl⟩
  · exact .refl s

theorem edgeRebind_swapKept (e : Nat) : SwapKept s (edgeRebind s e) := by
  unfold edgeRebind
  dsimp only
  split
  · exact (((edgeFresh_swapKept s e).trans (applyReg_swapKept _ _)).trans (applyReg_swapKept _ _)).trans (edgeFresh_swapKept _ e)
  · exact (applyReg_swapKept s _).trans (applyReg_swapKept _ _)

theorem rebindEdges_swapKept (gs : List Nat) : SwapKept s (rebindEdges gs s) := by
  rw [rebindEdges_eq]
  exact each_related SwapKept.refl SwapKept.trans (fun e _ u => edgeRebind_swapKept u e) s

end

end Sys2Proof.Machine
end

section
/-! The swap of planes of a region and of an image (R310): each sequencer starts at its SEQ_RESTART, each tile is empty and runs. -/
namespace Sys2Proof.Machine

/-! ### Planed registers -/

theorem mem_planedTile {t off : Nat} (ht : off ∈ planedTile t) : ∃ d, off = tilePage t + d ∧ d < 0x400 := by
  unfold planedTile at ht
  rcases List.mem_append.mp ht with ht | ht
  · rcases List.mem_append.mp ht with ht | ht
    · obtain ⟨i, hi, rfl⟩ := List.mem_map.mp ht
      have hi := List.mem_range.mp hi
      exact ⟨0x100 + i / 15 * 0x40 + i % 15 * 4, by unfold aTileSwOut; omega, by omega⟩
    · obtain ⟨i, hi, rfl⟩ := List.mem_map.mp ht
      have hi := List.mem_range.mp hi
      exact ⟨0x200 + i * 4, by unfold aTileQbind; omega, by omega⟩
  · simp only [List.mem_cons, List.not_mem_nil, or_false, aTileWinGeom, aTileWinCh, aTileWinPad, aTileWinLb, aTileWinPitch,
      aTileWinRow, aTileWinHalo, aTileDspCfg, aTileDspQ, aTileDspThr, aTileDspTm, aTileDspGb, aTileGtCfg] at ht
    exact ⟨off - tilePage t, by omega, by omega⟩

/-- No tile's planed register is a SEQ_RESTART. -/
theorem aSeqRestart_not_mem_planedTile (h t : Nat) : aSeqRestart h ∉ planedTile t := by
  intro hmem
  obtain ⟨d, hd, hlt⟩ := mem_planedTile hmem
  have hlocal : localOf t < 16 := by unfold localOf; omega
  unfold aSeqRestart tilePage seqPage at hd
  omega

theorem aSeqRestart_not_mem_planedSeq {g h : Nat} (hne : h ≠ g) : aSeqRestart h ∉ planedSeq g := by
  unfold planedSeq aSeqRestart aSeqSpillBase aSeqSpillLimit aSeqWatch seqPage
  simp only [List.mem_cons, List.not_mem_nil, or_false]
  omega

/-! ### One region -/

section
variable (s : State)

theorem planeSwapReg_swapKept (off : Nat) : SwapKept s (planeSwapReg s off) := .of_tiles rfl ⟨rfl, rfl, rfl⟩

theorem planeSwapReg_placeKept {h off : Nat} (hne : aSeqRestart h ≠ off) : PlaceKept h s (planeSwapReg s off) :=
  (PlaceKept.wr h s off _).trans (.wrAct _ hne _)

/-- A tile's planes are exchanged. -/
def tilePlaneSwap (s : State) (t : Nat) : State :=
  (each (planedTile t) s planeSwapReg).modTile t (fun x => { x with
    plane := !x.plane, imem := x.imemSh, imemSh := x.imem, imemBad := [], u := x.uSh, uSh := x.u })

/-- EXIT_PORTS of a region's east-edge tiles takes effect. -/
def exitPortApply (g : Nat) (s : State) (y : Nat) : State :=
  if regionOf (20 * y + 19) = g then
    s.wrAct aExitPorts (BitVec.ofNat 32 (nput (s.act aExitPorts).toNat y 1 (s.f aExitPorts y 1)))
  else s

/-- A sequencer's code planes are exchanged and no patch set is under way. -/
def codePlaneSwap (g : Nat) (s : State) : State :=
  s.modSeq g (fun x => { x with mem := swapCode x.mem, ecc := swapCode x.ecc, patching := false, patch := [] })

theorem swapRegion_eq (g : Nat) : swapRegion g s = seqStart g true (each (List.range 20)
    (codePlaneSwap g (each (planedSeq g) (each (tilesOf g) (applyDiv s g) tilePlaneSwap) planeSwapReg)) (exitPortApply g)) := rfl

theorem tilePlaneSwap_placeKept (h t : Nat) : PlaceKept h s (tilePlaneSwap s t) := by
  unfold tilePlaneSwap
  refine PlaceKept.trans ?_ (.modTile h _ t _ (fun _ => ⟨rfl, rfl⟩))
  exact each_related (PlaceKept.refl h) PlaceKept.trans
    (fun off hoff u => planeSwapReg_placeKept u (fun he => aSeqRestart_not_mem_planedTile h t (he ▸ hoff))) s

theorem exitPortApply_placeKept (h g y : Nat) : PlaceKept h s (exitPortApply g s y) := by
  unfold exitPortApply
  split
  · exact .wrAct s (by unfold aSeqRestart seqPage aExitPorts; omega) _
  · exact .refl h s

theorem seqStart_placeKept {g h : Nat} (hne : h ≠ g) : PlaceKept h s (seqStart g true s) := by
  unfold seqStart
  exact .modSeq_ne s hne _

/-- The swap of one region keeps what a swap keeps. -/
theorem swapRegion_swapKept (g : Nat) : SwapKept s (swapRegion g s) := by
  rw [swapRegion_eq]
  have htiles := each_related (PlaceKept.refl 0) PlaceKept.trans (fun t _ u => tilePlaneSwap_placeKept u 0 t) (l := tilesOf g) (applyDiv s g)
  have hseq := each_related SwapKept.refl SwapKept.trans (fun off _ u => planeSwapReg_swapKept u off) (l := planedSeq g)
    (each (tilesOf g) (applyDiv s g) tilePlaneSwap)
  have hdiv : SwapKept s (applyDiv s g) := (PlaceKept.setF 0 s _ _ _ _).toSwapKept
  have hbefore := (hdiv.trans htiles.toSwapKept).trans hseq
  generalize each (planedSeq g) (each (tilesOf g) (applyDiv s g) tilePlaneSwap) planeSwapReg = u at *
  have hcode : SwapKept u (codePlaneSwap g u) := .modSeq u g _
  have hexit := each_related (PlaceKept.refl 0) PlaceKept.trans (fun y _ v => exitPortApply_placeKept v 0 g y) (l := List.range 20)
    (codePlaneSwap g u)
  generalize each (List.range 20) (codePlaneSwap g u) (exitPortApply g) = v at *
  exact ((hbefore.trans hcode).trans hexit.toSwapKept).trans (.of_tiles rfl ⟨rfl, rfl, rfl⟩)

/-- The swap of one region leaves the sequencers of the others where they are. -/
theorem swapRegion_placeKept {g h : Nat} (hne : h ≠ g) : PlaceKept h s (swapRegion g s) := by
  rw [swapRegion_eq]
  have htiles := each_related (PlaceKept.refl h) PlaceKept.trans (fun t _ u => tilePlaneSwap_placeKept u h t) (l := tilesOf g) (applyDiv s g)
  have hseq := each_related (PlaceKept.refl h) PlaceKept.trans
    (fun off hoff u => planeSwapReg_placeKept u (fun he => aSeqRestart_not_mem_planedSeq hne (he ▸ hoff))) (l := planedSeq g)
    (each (tilesOf g) (applyDiv s g) tilePlaneSwap)
  have hdiv : PlaceKept h s (applyDiv s g) := .setF h s _ _ _ _
  have hbefore := (hdiv.trans htiles).trans hseq
  generalize each (planedSeq g) (each (tilesOf g) (applyDiv s g) tilePlaneSwap) planeSwapReg = u at *
  have hcode : PlaceKept h u (codePlaneSwap g u) := .modSeq_ne u hne _
  have hexit := each_related (PlaceKept.refl h) PlaceKept.trans (fun y _ v => exitPortApply_placeKept v h g y) (l := List.range 20)
    (codePlaneSwap g u)
  generalize each (List.range 20) (codePlaneSwap g u) (exitPortApply g) = v at *
  exact ((hbefore.trans hcode).trans hexit).trans (seqStart_placeKept v hne)

end

/-! ### A region that runs again -/

/-- Sequencer h stands at its SEQ_RESTART, without KEY and SIDs. -/
def SeqRestarted (h : Nat) (t : State) : Prop :=
  (t.seq h).pc = nbits (t.act (aSeqRestart h)).toNat 2 15 * 4 ∧ (t.seq h).keyOk = false ∧ (t.seq h).sids = []

/-- The input queues of region h's tiles are empty. -/
def RegionEmpty (h : Nat) (t : State) : Prop := ∀ x ∈ tilesOf h, (t.tile x).iq = []

/-- Region h runs again after a swap of its planes. -/
structure RunsAgain (h : Nat) (t : State) : Prop where
  restarted : SeqRestarted h t
  empty : RegionEmpty h t
  released : ∀ x ∈ tilesOf h, (t.tile x).gsr = false

section
variable {h : Nat} {s t : State}

theorem SeqRestarted.kept (hs : SeqRestarted h s) (hk : PlaceKept h s t) : SeqRestarted h t := by
  obtain ⟨hpc, hkey, hsids⟩ := hs
  exact ⟨by rw [hk.pc, hk.restart, hpc], hk.keyOk.trans hkey, hk.sids.trans hsids⟩

theorem RegionEmpty.kept (hs : RegionEmpty h s) (hk : SwapKept s t) : RegionEmpty h t := fun x hx => (hk.iq x).trans (hs x hx)

theorem RunsAgain.kept (hs : RunsAgain h s) (hk : PlaceKept h s t) : RunsAgain h t :=
  ⟨hs.restarted.kept hk, hs.empty.kept hk.toSwapKept, fun x hx => (hk.gsr x).trans (hs.released x hx)⟩

variable (s)

theorem swapRegion_restarts (g : Nat) : SeqRestarted g (swapRegion g s) := by
  rw [swapRegion_eq]
  generalize each (List.range 20) _ _ = u
  obtain ⟨hpc, hkey, -, hsids⟩ := seqStart_seq g u true
  exact ⟨by rw [hpc, (seqStart_kept g u true).1.act], hkey, hsids⟩

/-- The set-resets of the regions of a swap leave their queues empty. -/
theorem gsrRegions_empty {gs : List Nat} (hh : h ∈ gs) : RegionEmpty h (each gs s (fun s g => gsrRegion g s)) := by
  refine each_of_mem (RegionEmpty h) _ (fun u x hx => ?_) (fun u g hu x hx => ?_) hh s
  · rw [gsrRegion_iq, if_pos hx]
  · rw [gsrRegion_iq, hu x hx, ite_self]

theorem swapRegions_restart {gs : List Nat} (hh : h ∈ gs) : SeqRestarted h (each gs s (fun s g => swapRegion g s)) :=
  each_all (P := SeqRestarted) (fun u g => swapRegion_restarts u g) (fun u _ _ hne hk => hk.kept (swapRegion_placeKept u hne)) hh s

/-- The regions' set-reset is released. -/
theorem gsrHolds_run {gs : List Nat} (hh : h ∈ gs) (hseq : SeqRestarted h s) (hempty : RegionEmpty h s) :
    RunsAgain h (each gs s (fun s g => gsrHold false g s)) := by
  have hseqs := each_eq State.seqs (fun s g => gsrHold false g s) (fun u g => (gsrHold_kept u false g).2.1) gs s
  have hactive := each_eq State.active (fun s g => gsrHold false g s) (fun u g => (gsrHold_kept u false g).2.2.1) gs s
  refine ⟨?_, ?_, ?_⟩
  · unfold SeqRestarted
    rw [State.seq, hseqs, State.act, hactive]
    exact hseq
  · refine each_keep (RegionEmpty h) _ (fun u g hu x hx => ?_) gs s hempty
    rw [gsrHold_tile]
    split
    · exact hu x hx
    · exact hu x hx
  · refine each_of_mem (fun u : State => ∀ x ∈ tilesOf h, (u.tile x).gsr = false) _ (fun u x hx => ?_) (fun u g hu x hx => ?_) hh s
    · rw [gsrHold_tile, if_pos hx]
    · rw [gsrHold_tile]
      split
      · rfl
      · exact hu x hx

end

end Sys2Proof.Machine
end

section
/-! The swap to an image and the patch set after it (R56, R75, R310, R313): the image is active, its regions run again. -/
namespace Sys2Proof.Machine

/-! ### Images -/

section
variable (s : State)

theorem State.image_setImage_same (k : Nat) (im : Image) : (s.setImage k (some im)).image k = some im := by
  have hbefore : (s.images.filter (fun p => p.1 < k)).find? (fun p => p.1 == k) = none := by
    simp only [List.find?_eq_none, List.mem_filter, decide_eq_true_eq, beq_iff_eq]
    omega
  rw [State.image, State.setImage, List.append_assoc, List.find?_append, hbefore, Option.none_or, List.singleton_append,
    List.find?_cons_of_pos (by exact beq_self_eq_true k)]
  rfl

end

/-- A step that leaves the image store as it was. -/
structure ImagesKept (s t : State) : Prop where
  images : t.images = s.images

section
variable {s t u : State}

theorem ImagesKept.refl (s : State) : ImagesKept s s := ⟨rfl⟩

theorem ImagesKept.trans (k : ImagesKept s t) (k' : ImagesKept t u) : ImagesKept s u := ⟨k'.images.trans k.images⟩

theorem ImagesKept.modTile (s : State) (x : Nat) (f : Tile → Tile) : ImagesKept s (s.modTile x f) := ⟨rfl⟩

theorem ImagesKept.image (k : ImagesKept s t) (i : Nat) : t.image i = s.image i := by rw [State.image, k.images, State.image]

theorem ImagesKept.slotRegions (k : ImagesKept s t) (i : Nat) : t.slotRegions i = s.slotRegions i := by
  rw [State.slotRegions, k.image, State.slotRegions]

end

/-! ### Slack water -/

theorem aSeqRestart_ne_chanPage (h c : Nat) (hc : c < 32) {d : Nat} (hd : d < 0x100) : aSeqRestart h ≠ chanPage c + d := by
  unfold aSeqRestart seqPage chanPage
  omega

section
variable (h : Nat) (s : State)

theorem applyReg_placeKept {off : Nat} (hne : aSeqRestart h ≠ off) : PlaceKept h s (applyReg s off) := .wrAct s hne _

/-- Slack water of stream n moves no sequencer. -/
theorem slackWater_kept (n : Nat) : PlaceKept h s (slackWater n s) ∧ ImagesKept s (slackWater n s) := by
  unfold slackWater
  refine ⟨each_related (PlaceKept.refl h) PlaceKept.trans (fun c hc u => ?_) s,
    each_related ImagesKept.refl ImagesKept.trans (fun c hc u => ?_) s⟩
  · have hc := List.mem_range.mp hc
    dsimp only
    split
    · have hfields : PlaceKept h u (each [aIngestChFmt c, aIngestChGeom c, aIngestChSeg c, aIngestChPool c] u applyReg) := by
        refine each_related (PlaceKept.refl h) PlaceKept.trans (fun off hoff v => applyReg_placeKept h v ?_) u
        simp only [List.mem_cons, List.not_mem_nil, or_false] at hoff
        rcases hoff with rfl | rfl | rfl | rfl
        · exact aSeqRestart_ne_chanPage h c hc (by decide)
        · exact aSeqRestart_ne_chanPage h c hc (by decide)
        · exact aSeqRestart_ne_chanPage h c hc (by decide)
        · exact aSeqRestart_ne_chanPage h c hc (by decide)
      generalize each _ u applyReg = v at *
      split
      · refine hfields.trans (applyReg_placeKept h v ?_)
        have htrig : v.f (aIngestChCtl c) 16 4 < 2 ^ 4 := nbits_lt _ _ _
        unfold aSeqRestart seqPage aTrigCfg
        omega
      · exact hfields
    · exact .refl h u
  · split
    · have hfields : ImagesKept u (each [aIngestChFmt c, aIngestChGeom c, aIngestChSeg c, aIngestChPool c] u applyReg) :=
        each_related ImagesKept.refl ImagesKept.trans (f := applyReg) (fun _ _ _ => ⟨rfl⟩) u
      dsimp only
      generalize each _ u applyReg = v at *
      split
      · exact hfields.trans ⟨rfl⟩
      · exact hfields
    · exact .refl u

/-! ### Patch sets (R75, R76) -/

theorem mgmtSend_kept (p : MPkt) : PlaceKept h s (mgmtSend p s) ∧ ImagesKept s (mgmtSend p s) := by
  unfold mgmtSend
  split
  · have hbody : PlaceKept h s (match p.body with
        | some w => s.modTile p.dst (fun x => { x with patches := x.patches ++ [w] })
        | none => s) ∧ ImagesKept s (match p.body with
        | some w => s.modTile p.dst (fun x => { x with patches := x.patches ++ [w] })
        | none => s) := by
      split
      · exact ⟨.modTile h s _ _ (fun _ => ⟨rfl, rfl⟩), ⟨rfl⟩⟩
      · exact ⟨.refl h s, .refl s⟩
    unfold mgmtDeliver
    dsimp only
    split
    · exact ⟨hbody.1.trans (.of_fabric h rfl rfl rfl ⟨rfl, rfl, rfl⟩), hbody.2.trans ⟨rfl⟩⟩
    · exact hbody
  · exact ⟨.of_fabric h rfl rfl rfl ⟨rfl, rfl, rfl⟩, ⟨rfl⟩⟩

theorem patchSend_kept (g : Nat) (ws : List (Nat × Nat × Word)) : PlaceKept h s (patchSend g ws s) ∧ ImagesKept s (patchSend g ws s) := by
  unfold patchSend
  constructor
  · exact (each_related (PlaceKept.refl h) PlaceKept.trans (fun w _ u => (mgmtSend_kept h u _).1) s).trans
      (.modSeq h _ g _ (fun _ => ⟨rfl, rfl, rfl⟩))
  · exact (each_related ImagesKept.refl ImagesKept.trans (fun w _ u => (mgmtSend_kept h u _).2) s).trans ⟨rfl⟩

/-- A tile keeps the values in force before a patch set. -/
def Tile.baseKept (x : Tile) : Tile := { x with uBase := x.u }

/-- The values in force before a patch set are kept for a recovery. -/
def baseKept (g : Nat) (s : State) : State := each (tilesOf g) s (fun s t => s.modTile t Tile.baseKept)

theorem baseKept_kept (g : Nat) : PlaceKept h s (baseKept g s) ∧ ImagesKept s (baseKept g s) :=
  ⟨each_related (PlaceKept.refl h) PlaceKept.trans (fun t _ u => .modTile h u t Tile.baseKept (fun _ => ⟨rfl, rfl⟩)) s,
    each_related ImagesKept.refl ImagesKept.trans (fun t _ u => .modTile u t Tile.baseKept) s⟩

theorem patchBegin_kept (k : Nat) (ps : List (Nat × Nat × Word)) :
    PlaceKept h s (patchBegin k ps s) ∧ ImagesKept s (patchBegin k ps s) := by
  unfold patchBegin
  refine ⟨each_related (PlaceKept.refl h) PlaceKept.trans (fun g _ u => ?_) s,
    each_related ImagesKept.refl ImagesKept.trans (fun g _ u => ?_) s⟩
  · dsimp only
    split
    · exact .refl h u
    · exact (baseKept_kept h u g).1.trans (patchSend_kept h _ g _).1
  · dsimp only
    split
    · exact .refl u
    · exact (baseKept_kept h u g).2.trans (patchSend_kept h _ g _).2

/-- A stream's changeover is being applied, from its changeover frame on. -/
def pendCommitted (x : Stream) : Stream :=
  { x with pend := x.pend.map (fun q => { q with applying := true, firstTag := some (q.firstTag.getD x.nextTag) }) }

/-- One stream's changeover is committed. -/
def streamCommitted (s : State) (m : Nat) : State := (s.modStream m pendCommitted).setF (aStreamStatus m) 8 2 0

theorem streamCommitted_kept (m : Nat) : PlaceKept h s (streamCommitted s m) ∧ ImagesKept s (streamCommitted s m) := by
  have hmod : PlaceKept h s (s.modStream m pendCommitted) := .of_fabric h rfl rfl rfl ⟨rfl, rfl, rfl⟩
  exact ⟨hmod.trans (.setF h _ _ _ _ _), ⟨rfl⟩⟩

/-- A commit moves no sequencer and changes no image. -/
theorem commitGroup_kept (k : Nat) (ns : List Nat) :
    PlaceKept h s (commitGroup k ns s) ∧ ImagesKept s (commitGroup k ns s) := by
  have hplace := each_related (PlaceKept.refl h) PlaceKept.trans (fun m _ u => (streamCommitted_kept h u m).1) (l := ns) s
  have himages := each_related ImagesKept.refl ImagesKept.trans (fun m _ u => (streamCommitted_kept h u m).2) (l := ns) s
  change PlaceKept h s (match ns.findSome? (fun m => ((each ns s streamCommitted).stream m).pend) with
    | some p => patchBegin k p.ctx.patches (each ns s streamCommitted)
    | none => each ns s streamCommitted) ∧ ImagesKept s (match ns.findSome? (fun m => ((each ns s streamCommitted).stream m).pend) with
    | some p => patchBegin k p.ctx.patches (each ns s streamCommitted)
    | none => each ns s streamCommitted)
  generalize each ns s streamCommitted = u at *
  split
  · obtain ⟨hplace', himages'⟩ := patchBegin_kept h u k _
    exact ⟨hplace.trans hplace', himages.trans himages'⟩
  · exact ⟨hplace, himages⟩

end

end Sys2Proof.Machine
end

section
/-! The swap to an image: its stages (R310 to R314). -/
namespace Sys2Proof.Machine

/-- A tile's shadow plane holds the plane of an image that keeps STAGED, or nothing of use. -/
def Tile.withShadow (b : Bool) (x : Tile) : Tile := { x with shadowValid := b }

/-- An outgoing image leaves the regions of the incoming one. -/
def imageRetired (k : Nat) (im : Image) (s : State) (o : Nat) : State :=
  match s.image o with
  | some y =>
    if o ≠ k && decide (y.active &&& im.regions ≠ 0) then
      each (((List.range 25).filter (fun g => nbit (y.active &&& im.regions) g)).flatMap tilesOf)
        (s.setImage o (some { y with
          active := y.active - (y.active &&& im.regions)
          staged := fastPair y.body im.body && decide (y.regions &&& im.regions = y.regions) }))
        (fun s t => s.modTile t (Tile.withShadow (fastPair y.body im.body && decide (y.regions &&& im.regions = y.regions))))
    else s
  | none => s

/-- The regions are reset; weights, tidemarks and edge ports of the image arrive. -/
def swapArrived (ns : List Nat) (im : Image) (gs : List Nat) (late : List TileRec) (s : State) : State :=
  rebindEdges gs (each ns (each late (each gs s (fun s g => gsrRegion g s)) loadWeights) (loadTidemarks im.body))

/-- The image is the active one of its regions. -/
def swapNamed (k : Nat) (im : Image) (gs : List Nat) (s : State) : State :=
  (each (List.range 8) (each (gs.flatMap tilesOf) s (fun s t => s.modTile t (Tile.withShadow false))) (imageRetired k im)).setImage k
    (some { im with active := im.regions, staged := false })

section
variable {k : Nat} {im : Image} {s : State}

theorem swapImage_eq (him : s.image k = some im) (ns : List Nat) :
    swapImage k ns s = each ns (each (s.slotRegions k) (swapNamed k im (s.slotRegions k)
      (each (s.slotRegions k) (swapArrived ns im (s.slotRegions k) (im.body.tiles.filter (s.deferred k)) s)
        (fun s g => swapRegion g s))) (fun s g => gsrHold false g s)) (fun s n => slackWater n s) := by
  unfold swapImage
  rw [him]
  rfl

section
variable (h k : Nat) (im : Image) (s : State)

theorem withShadow_each_kept (b : Bool) (l : List Nat) : PlaceKept h s (each l s (fun s t => s.modTile t (Tile.withShadow b))) :=
  each_related (PlaceKept.refl h) PlaceKept.trans (fun t _ u => .modTile h u t (Tile.withShadow b) (fun _ => ⟨rfl, rfl⟩)) s

theorem imageRetired_kept (o : Nat) : PlaceKept h s (imageRetired k im s o) := by
  unfold imageRetired
  split
  · split
    · exact (PlaceKept.setImage h s o _).trans (withShadow_each_kept h _ _ _)
    · exact .refl h s
  · exact .refl h s

theorem swapNamed_kept (gs : List Nat) : PlaceKept h s (swapNamed k im gs s) := by
  have hshadow := withShadow_each_kept h s false (gs.flatMap tilesOf)
  unfold swapNamed
  generalize each (gs.flatMap tilesOf) s (fun s t => s.modTile t (Tile.withShadow false)) = u at *
  exact (hshadow.trans (each_related (PlaceKept.refl h) PlaceKept.trans (fun o _ v => imageRetired_kept h k im v o) u)).trans
    (.setImage h _ k _)

theorem swapArrived_lists (ns gs : List Nat) (late : List TileRec) :
    ListsKept s (swapArrived ns im gs late s) ∧ ∀ g ∈ gs, RegionEmpty g (swapArrived ns im gs late s) := by
  have hempty := fun g (hg : g ∈ gs) => gsrRegions_empty s hg
  have hlists := each_related ListsKept.refl ListsKept.trans (fun g _ u => gsrRegion_lists u g) (l := gs) s
  unfold swapArrived
  generalize each gs s (fun s g => gsrRegion g s) = u at *
  have hweights := each_related (PlaceKept.refl 0) PlaceKept.trans (fun x _ v => loadWeights_placeKept v 0 x) (l := late) u
  generalize each late u loadWeights = v at *
  have hmarks := each_related (PlaceKept.refl 0) PlaceKept.trans (fun n _ w => loadTidemarks_placeKept w 0 im.body n) (l := ns) v
  generalize each ns v (loadTidemarks im.body) = w at *
  have hkept : SwapKept u (rebindEdges gs w) :=
    (hweights.toSwapKept.trans hmarks.toSwapKept).trans (rebindEdges_swapKept w gs)
  exact ⟨hlists.trans hkept.toListsKept, fun g hg => (hempty g hg).kept hkept⟩

end

/-- The swap leaves the image active, and each of its regions runs again. -/
theorem swapImage_facts (him : s.image k = some im) (ns : List Nat) :
    ListsKept s (swapImage k ns s) ∧ (swapImage k ns s).image k = some { im with active := im.regions, staged := false }
      ∧ ∀ h ∈ s.slotRegions k, RunsAgain h (swapImage k ns s) := by
  rw [swapImage_eq him]
  generalize s.slotRegions k = gs
  obtain ⟨hlists, hempty⟩ := swapArrived_lists im s ns gs (im.body.tiles.filter (s.deferred k))
  generalize swapArrived ns im gs (im.body.tiles.filter (s.deferred k)) s = u at *
  have hplanes := each_related SwapKept.refl SwapKept.trans (fun g _ v => swapRegion_swapKept v g) (l := gs) u
  have hseq := fun h (hh : h ∈ gs) => swapRegions_restart u hh
  generalize each gs u (fun s g => swapRegion g s) = v at *
  have hnamed := fun h => swapNamed_kept h k im v gs
  have himage : (swapNamed k im gs v).image k = some { im with active := im.regions, staged := false } :=
    State.image_setImage_same ..
  generalize swapNamed k im gs v = w at *
  have hholds := each_related ListsKept.refl ListsKept.trans (fun g _ x => (gsrHold_kept x false g).1) (l := gs) w
  have himages : (each gs w (fun s g => gsrHold false g s)).images = w.images :=
    each_eq State.images (fun s g => gsrHold false g s) (fun x g => (gsrHold_kept x false g).2.2.2) gs w
  have hruns := fun h (hh : h ∈ gs) => gsrHolds_run w hh ((hseq h hh).kept (hnamed h))
    (((hempty h hh).kept hplanes).kept (hnamed h).toSwapKept)
  generalize each gs w (fun s g => gsrHold false g s) = x at *
  have hslack := fun h => each_related (PlaceKept.refl h) PlaceKept.trans (fun n _ y => (slackWater_kept h y n).1) (l := ns) x
  have hslack' := each_related ImagesKept.refl ImagesKept.trans (fun n _ y => (slackWater_kept 0 y n).2) (l := ns) x
  generalize each ns x (fun s n => slackWater n s) = y at *
  refine ⟨(((hlists.trans hplanes.toListsKept).trans (hnamed 0).toListsKept).trans hholds).trans (hslack 0).toListsKept, ?_,
    fun h hh => (hruns h hh).kept (hslack h)⟩
  rw [hslack'.image, (ImagesKept.mk himages).image, himage]

end

end Sys2Proof.Machine
end

section
/-! Staging of an image (R304 to R308), and the commands that end a staging, a direct load and a changeover's slack water. -/
namespace Sys2Proof.Machine

/-- A step of a staging: streams, the planes in effect and the active code stay, and no shadow plane loses what it holds. -/
structure StageKept (s t : State) : Prop extends ListsKept s t where
  streams : t.streams = s.streams
  active : t.active = s.active
  imem : ∀ x, (t.tile x).imem = (s.tile x).imem
  shadow : ∀ x, (s.tile x).shadowValid = true → (t.tile x).shadowValid = true

section
variable {s t u : State}

theorem StageKept.of_tiles (htiles : t.tiles = s.tiles) (hstreams : t.streams = s.streams) (hactive : t.active = s.active)
    (hlists : ListsKept s t) : StageKept s t := by
  have htile : ∀ x, t.tile x = s.tile x := fun x => by rw [State.tile, htiles, State.tile]
  exact ⟨hlists, hstreams, hactive, fun x => by rw [htile x], fun x hx => by rw [htile x, hx]⟩

theorem StageKept.refl (s : State) : StageKept s s := .of_tiles rfl rfl rfl (.refl s)

theorem StageKept.trans (k : StageKept s t) (k' : StageKept t u) : StageKept s u :=
  ⟨k.toListsKept.trans k'.toListsKept, k'.streams.trans k.streams, k'.active.trans k.active,
    fun x => (k'.imem x).trans (k.imem x), fun x hx => k'.shadow x (k.shadow x hx)⟩

theorem StageKept.wr (s : State) (off : Nat) (w : Word) : StageKept s (s.wr off w) := .of_tiles rfl rfl rfl ⟨rfl, rfl, rfl⟩

theorem StageKept.wrM (s : State) (off v : Nat) : StageKept s (s.wrM off v) := .wr s off _

theorem StageKept.setF (s : State) (off lo len v : Nat) : StageKept s (s.setF off lo len v) := .of_tiles rfl rfl rfl ⟨rfl, rfl, rfl⟩

theorem StageKept.setImage (s : State) (k : Nat) (im : Image) : StageKept s (s.setImage k (some im)) :=
  .of_tiles rfl rfl rfl ⟨rfl, rfl, rfl⟩

theorem StageKept.modSeq (s : State) (g : Nat) (f : Seq → Seq) : StageKept s (s.modSeq g f) :=
  .of_tiles rfl rfl rfl ⟨rfl, rfl, rfl⟩

theorem StageKept.modTile (s : State) (x : Nat) (f : Tile → Tile)
    (hf : ∀ y, (f y).imem = y.imem ∧ (y.shadowValid = true → (f y).shadowValid = true)) : StageKept s (s.modTile x f) := by
  have htile : ∀ y, ((s.modTile x f).tile y).imem = (s.tile y).imem
      ∧ ((s.tile y).shadowValid = true → ((s.modTile x f).tile y).shadowValid = true) := by
    intro y
    rw [State.modTile, State.tile_setTile]
    split
    · subst y
      exact hf _
    · exact ⟨rfl, id⟩
  exact ⟨.modTile s x f, rfl, rfl, fun y => (htile y).1, fun y => (htile y).2⟩

end

/-! ### One tile, one region -/

/-- A tile's shadow plane of code and U registers from its records. -/
def Tile.withStaged (rs : List TileRec) (x : Tile) : Tile :=
  { x with imemSh := (rs.flatMap (·.code)).foldl (fun m c => tset 0 m c.1 c.2) [],
           uSh := (rs.flatMap (·.uregs)).foldl (fun m c => tset 0 m c.1 c.2) [], shadowValid := true }

/-- A tile takes the weights of its record. -/
def Tile.withWeights (r : TileRec) (x : Tile) : Tile :=
  { x with store := r.weights.foldl (fun m w => m.write (w.1 * 32) (payBytes w.2) false) x.store }

/-- The shadow code plane of a sequencer from its record. -/
def Seq.withStaged (r : RegionRec) (q : Seq) : Seq :=
  { q with mem := r.code.foldl (fun m c => tset 0 m (0x3000 + c.1 / 4) c.2) (q.mem.filter (fun p => p.1 < 0x3000 || 0x6000 ≤ p.1)),
           ecc := q.ecc.filter (fun p => p.1 < 0x3000 || 0x6000 ≤ p.1) }

section
variable (b : Sections) (s : State)

theorem stageTile_eq (t : Nat) : stageTile b s t = (each ((b.tiles.filter (fun r => r.tile.val == t)).flatMap (·.regs))
    (each (planedTile t) s (fun s off => s.wr off (regReset off)))
    (fun s p => s.wrM (tilePage t + p.1) p.2.toNat)).modTile t (Tile.withStaged (b.tiles.filter (fun r => r.tile.val == t))) := rfl

theorem stageTile_kept (t : Nat) : StageKept s (stageTile b s t) := by
  have hreset := each_related StageKept.refl StageKept.trans (fun off _ u => .wr u off (regReset off)) (l := planedTile t) s
  rw [stageTile_eq]
  generalize each (planedTile t) s (fun s off => s.wr off (regReset off)) = u at *
  exact (hreset.trans (each_related StageKept.refl StageKept.trans (fun p _ v => .wrM v (tilePage t + p.1) p.2.toNat) u)).trans
    (.modTile _ t (Tile.withStaged _) (fun _ => ⟨rfl, fun _ => rfl⟩))

theorem stageTile_shadowValid (t : Nat) : ((stageTile b s t).tile t).shadowValid = true := by
  rw [stageTile_eq, State.tile_modTile]
  rfl

theorem stageRegion_eq (r : RegionRec) : stageRegion s r = (each r.regs
    (each (planedSeq r.region.val) s (fun s off => s.wr off (regReset off)))
    (fun s p => s.wrM (seqPage r.region.val + p.1) p.2.toNat)).modSeq r.region.val (Seq.withStaged r) := rfl

theorem stageRegion_kept (r : RegionRec) : StageKept s (stageRegion s r) := by
  have hreset := each_related StageKept.refl StageKept.trans (fun off _ u => .wr u off (regReset off)) (l := planedSeq r.region.val) s
  rw [stageRegion_eq]
  generalize each (planedSeq r.region.val) s (fun s off => s.wr off (regReset off)) = u at *
  exact (hreset.trans (each_related StageKept.refl StageKept.trans
    (fun p _ v => .wrM v (seqPage r.region.val + p.1) p.2.toNat) u)).trans (.modSeq _ _ (Seq.withStaged r))

theorem stagePending_kept : StageKept s (stagePending b s) := by
  unfold stagePending
  dsimp only
  have hdiv := each_related StageKept.refl StageKept.trans
    (fun (r : RegionRec) _ u => .setF u (aRegionClk r.region.val) 0 4 r.div) (l := b.regions) s
  generalize each b.regions s (fun s r => s.setF (aRegionClk r.region.val) 0 4 r.div) = u at *
  exact hdiv.trans (each_related StageKept.refl StageKept.trans (fun e _ v => (StageKept.wrM v _ _).trans (.wrM _ _ _)) u)

theorem loadWeights_kept (r : TileRec) : StageKept s (loadWeights s r) := .modTile s _ (Tile.withWeights r) (fun _ => ⟨rfl, id⟩)

end

/-! ### The image -/

/-- Another image staged in the regions of an image loses STAGED. -/
def otherUnstaged (k : Nat) (im : Image) (s : State) (o : Nat) : State :=
  match s.image o with
  | some y => if o ≠ k && decide (y.regions &&& im.regions ≠ 0) then s.setImage o (some { y with staged := false }) else s
  | none => s

/-- The tiles that take their weights at the staging. -/
def stagedNow (k : Nat) (all : Bool) (im : Image) (s : State) : List TileRec :=
  im.body.tiles.filter (fun x => all || !s.deferred k x)

/-- Shadow planes and pending values of an image are written. -/
def planesStaged (im : Image) (gs : List Nat) (s : State) : State :=
  stagePending im.body (each im.body.regions (each (gs.flatMap tilesOf) s (stageTile im.body)) stageRegion)

section
variable {k : Nat} {im : Image} {s : State}

theorem stageImage_eq (him : s.image k = some im) (all : Bool) : stageImage k all s =
    (each (List.range 8) (each (stagedNow k all im (planesStaged im (s.slotRegions k) s)) (planesStaged im (s.slotRegions k) s) loadWeights)
      (otherUnstaged k im)).setImage k (some { im with staged := true }) := by
  unfold stageImage
  rw [him]
  rfl

theorem otherUnstaged_kept (k : Nat) (im : Image) (s : State) (o : Nat) : StageKept s (otherUnstaged k im s o) := by
  unfold otherUnstaged
  split
  · split
    · exact .setImage s o _
    · exact .refl s
  · exact .refl s

theorem planesStaged_facts (im : Image) (gs : List Nat) (s : State) : StageKept s (planesStaged im gs s)
    ∧ ∀ x ∈ gs.flatMap tilesOf, ((planesStaged im gs s).tile x).shadowValid = true := by
  have htiles := each_related StageKept.refl StageKept.trans (fun t _ u => stageTile_kept im.body u t) (l := gs.flatMap tilesOf) s
  have hshadow := fun x (hx : x ∈ gs.flatMap tilesOf) => each_of_mem (fun u : State => (u.tile x).shadowValid = true) (stageTile im.body)
    (fun u => stageTile_shadowValid im.body u x) (fun u t hu => (stageTile_kept im.body u t).shadow x hu) hx s
  unfold planesStaged
  generalize each (gs.flatMap tilesOf) s (stageTile im.body) = u at *
  have hregions := each_related StageKept.refl StageKept.trans (fun r _ v => stageRegion_kept v r) (l := im.body.regions) u
  generalize each im.body.regions u stageRegion = v at *
  have hpending := hregions.trans (stagePending_kept im.body v)
  exact ⟨htiles.trans hpending, fun x hx => hpending.shadow x (hshadow x hx)⟩

/-- A staging leaves the image STAGED, its tiles' shadow planes valid. -/
theorem stageImage_facts (him : s.image k = some im) (all : Bool) :
    StageKept s (stageImage k all s) ∧ (stageImage k all s).image k = some { im with staged := true }
      ∧ ∀ x ∈ (s.slotRegions k).flatMap tilesOf, ((stageImage k all s).tile x).shadowValid = true := by
  rw [stageImage_eq him]
  obtain ⟨hplanes, hshadow⟩ := planesStaged_facts im (s.slotRegions k) s
  generalize planesStaged im (s.slotRegions k) s = u at *
  have hweights := each_related StageKept.refl StageKept.trans (fun r _ v => loadWeights_kept v r) (l := stagedNow k all im u) u
  generalize each (stagedNow k all im u) u loadWeights = v at *
  have hothers := each_related StageKept.refl StageKept.trans (fun o _ w => otherUnstaged_kept k im w o) (l := List.range 8) v
  generalize each (List.range 8) v (otherUnstaged k im) = w at *
  have hrest := (hweights.trans hothers).trans (.setImage w k { im with staged := true })
  exact ⟨hplanes.trans hrest, State.image_setImage_same .., fun x hx => hrest.shadow x (hshadow x hx)⟩

end

/-! ### The commands -/

/-- A direct load, or a staging, of slot k is no longer under way. -/
def loadTaken (k : Nat) (s : State) : State :=
  { s with loads := s.loads.filter (fun x => x != k), staging := s.staging.filter (fun x => x != k) }

/-- What the image's regions are like after a swap, as the obligation says it. -/
theorem RunsAgain.runs {h : Nat} {t : State} (hr : RunsAgain h t) :
    (t.seq h).pc = nbits (t.act (aSeqRestart h)).toNat 2 15 * 4 ∧ (t.seq h).keyOk = false ∧ (t.seq h).sids = []
      ∧ ∀ i < 16, (t.tile (tileOf h i)).gsr = false ∧ (t.tile (tileOf h i)).iq = [] := by
  obtain ⟨⟨hpc, hkey, hsids⟩, hempty, hreleased⟩ := hr
  exact ⟨hpc, hkey, hsids, fun i hi => ⟨hreleased _ (mem_tilesOf hi), hempty _ (mem_tilesOf hi)⟩⟩

theorem RunsAgain.signal {h : Nat} {u : State} (hr : RunsAgain h u) (s : State) : RunsAgain h (signal s u) := by
  obtain ⟨⟨hpc, hkey, hsids⟩, hempty, hreleased⟩ := hr
  refine ⟨⟨?_, ?_, ?_⟩, fun x hx => ?_, fun x hx => ?_⟩
  · rw [signal_seq, signal_act, hpc]
  · rw [signal_seq, hkey]
  · rw [signal_seq, hsids]
  · rw [signal_tile, hempty x hx]
  · rw [signal_tile, hreleased x hx]

section
variable {k : Fin 8} {im : Image} {s : State}

theorem stagingComplete_stages (him : s.image k.val = some im) (hk : k.val ∈ s.staging) :
    ∃ t, exec (.stagingComplete k) s = .next t ∧ k.val ∉ t.staging ∧ t.image k.val = some { im with staged := true }
      ∧ t.streams = s.streams ∧ t.active = s.active
      ∧ ∀ h, h ∈ s.slotRegions k.val → ∀ i < 16, (t.tile (tileOf h i)).shadowValid = true
          ∧ (t.tile (tileOf h i)).imem = (s.tile (tileOf h i)).imem := by
  obtain ⟨u, hu⟩ : ∃ u : State, u = { s with staging := s.staging.filter (fun x => x != k.val) } := ⟨_, rfl⟩
  have hexec : exec (.stagingComplete k) s = .next (signal s (stageImage k.val false u)) := by
    change execStagingComplete k s = _
    rw [execStagingComplete, when_, if_pos (List.contains_iff_mem.mpr hk), done, hu]
  have himu : u.image k.val = some im := by rw [hu]; exact him
  have hslots : u.slotRegions k.val = s.slotRegions k.val := by rw [hu]; rfl
  have hstaging : k.val ∉ u.staging := by
    rw [hu]
    simp
  obtain ⟨hkept, himage, hshadow⟩ := stageImage_facts himu false
  refine ⟨_, hexec, ?_, ?_, ?_, ?_, fun h hh i hi => ?_⟩
  · rw [signal_staging, hkept.staging]
    exact hstaging
  · rw [signal_image, himage]
  · rw [signal_streams, hkept.streams, hu]
  · rw [signal_active, hkept.active, hu]
  · have hmem : tileOf h i ∈ (u.slotRegions k.val).flatMap tilesOf :=
      List.mem_flatMap.mpr ⟨h, by rw [hslots]; exact hh, mem_tilesOf hi⟩
    rw [signal_tile, hshadow _ hmem, hkept.imem, hu]
    exact ⟨rfl, rfl⟩

theorem directLoadComplete_swaps (him : s.image k.val = some im) (hk : k.val ∈ s.loads) :
    ∃ t, exec (.directLoadComplete k) s = .next t ∧ k.val ∉ t.loads
      ∧ t.image k.val = some { im with active := im.regions, staged := false } ∧ ∀ h ∈ s.slotRegions k.val, RunsAgain h t := by
  obtain ⟨u, hu⟩ : ∃ u, loadTaken k.val s = u := ⟨_, rfl⟩
  obtain ⟨ns, ps, hexec⟩ : ∃ ns ps, exec (.directLoadComplete k) s
      = .next (signal s (patchBegin k.val ps (swapImage k.val ns (stageImage k.val true u)))) := by
    change ∃ ns ps, execDirectLoadComplete k s = _
    rw [execDirectLoadComplete, when_, if_pos (List.contains_iff_mem.mpr hk), done, ← hu]
    exact ⟨_, _, rfl⟩
  have himu : u.image k.val = some im := by rw [← hu]; exact him
  have hslots : s.slotRegions k.val = (stageImage k.val true u).slotRegions k.val := by
    rw [State.slotRegions, State.slotRegions, (stageImage_facts himu true).2.1, him]
  have hloads : k.val ∉ u.loads := by
    rw [← hu]
    simp [loadTaken]
  obtain ⟨hkept, himage, -⟩ := stageImage_facts himu true
  generalize stageImage k.val true u = v at *
  obtain ⟨hlists, himage', hruns⟩ := swapImage_facts himage ns
  generalize swapImage k.val ns v = w at *
  have hpatch := fun h => patchBegin_kept h w k.val ps
  generalize patchBegin k.val ps w = x at *
  refine ⟨_, hexec, ?_, ?_, fun h hh => ?_⟩
  · rw [signal_loads, (hpatch 0).1.loads, hlists.loads, hkept.loads]
    exact hloads
  · rw [signal_image, (hpatch 0).2.image, himage']
  · exact ((hruns h (hslots ▸ hh)).kept (hpatch h).1).signal s

theorem slackWaterSwap_swaps {u : Use} (hdone : s.changeDone k.val = some u) (hex : s.useExchange u = true)
    (him : s.image k.val = some im) (hstaged : im.staged = true) (hnot : k.val ∉ s.staging) :
    ∃ t, exec (.slackWaterSwap k) s = .next t ∧ u ∉ t.uses
      ∧ t.image k.val = some { im with active := im.regions, staged := false } ∧ ∀ h ∈ s.slotRegions k.val, RunsAgain h t := by
  obtain ⟨v, hv⟩ : ∃ v : State, v = { s with uses := s.uses.filter (fun x => x != u) } := ⟨_, rfl⟩
  have hnot : s.staging.contains k.val = false := by
    rw [Bool.eq_false_iff]
    exact fun h => hnot (List.contains_iff_mem.mp h)
  have happly : groupApply k.val s = some (commitGroup k.val u.streams (swapImage k.val u.streams v)) := by
    rw [groupApply, hdone]
    simp only [him, hstaged, hnot, hex, hv, Bool.not_true, Bool.or_false, Bool.and_false, Bool.false_eq_true, if_false, if_true]
  have hexec : exec (.slackWaterSwap k) s
      = .next (signal s (commitGroup k.val u.streams (swapImage k.val u.streams v))) := by
    change execSlackWaterSwap k s = _
    rw [execSlackWaterSwap, hdone]
    dsimp only
    rw [hex, happly]
    rfl
  have himv : v.image k.val = some im := by rw [hv]; exact him
  have hslots : s.slotRegions k.val = v.slotRegions k.val := by rw [hv]; rfl
  have huses : u ∉ v.uses := by
    rw [hv]
    simp
  obtain ⟨hlists, himage, hruns⟩ := swapImage_facts himv u.streams
  generalize swapImage k.val u.streams v = w at *
  have hcommit := fun h => commitGroup_kept h w k.val u.streams
  generalize commitGroup k.val u.streams w = x at *
  refine ⟨_, hexec, ?_, ?_, fun h hh => ?_⟩
  · rw [signal_uses, (hcommit 0).1.uses, hlists.uses]
    exact huses
  · rw [signal_image, (hcommit 0).2.image, himage]
  · exact ((hruns h (hslots ▸ hh)).kept (hcommit h).1).signal s

end

end Sys2Proof.Machine
end

section
/-! Operations on the image store (R299, R303, R426): how one begins, how it ends, and what install and evict leave. -/
namespace Sys2Proof.Machine

/-- Registers, what goes to the host, and the operation in progress apart, the states agree. -/
def LayOnly (s t : State) : Prop :=
  t = { s with regs := t.regs, src := t.src, outbox := t.outbox, waiting := t.waiting, layOp := t.layOp }

section
variable {s t u : State}

theorem LayOnly.trans (h : LayOnly s t) (h' : LayOnly t u) : LayOnly s u := by
  unfold LayOnly at h h'
  rw [h] at h'
  exact h'

theorem OnlyRegs.layOnly (h : OnlyRegs s t) : LayOnly s t := by
  unfold OnlyRegs at h
  unfold LayOnly
  rw [h]

theorem LayOnly.keeps (h : LayOnly s t) : t.images = s.images ∧ t.tiles = s.tiles ∧ t.streams = s.streams := by
  unfold LayOnly at h
  rw [h]
  exact ⟨rfl, rfl, rfl⟩

theorem LayOnly.tms (h : LayOnly s t) : t.tms = s.tms := by
  unfold LayOnly at h
  rw [h]

theorem LayOnly.readyGroup_eq_none (h : LayOnly s t) {k : Nat} (hn : s.readyGroup k = none) : t.readyGroup k = none := by
  unfold LayOnly at h
  rw [h]
  rw [State.readyGroup, Option.map_eq_none_iff] at hn ⊢
  exact hn

end

/-! ### Three bits of a register -/

theorem State.f_three (s : State) (off lo : Nat) :
    s.f off lo 3 = b2n (s.bit off lo) + 2 * b2n (s.bit off (lo + 1)) + 4 * b2n (s.bit off (lo + 2)) := by
  unfold State.f State.bit nbits nbit b2n
  rw [Nat.pow_add 2 lo 1, Nat.pow_add 2 lo 2, ← Nat.div_div_eq_div_mul, ← Nat.div_div_eq_div_mul]
  generalize (s.rd off).toNat / 2 ^ lo = m
  simp only [beq_iff_eq]
  split_ifs
  all_goals omega

/-! ### Begin and end -/

/-- How an operation has ended. -/
structure LayEnded (c : Nat) (s t : State) : Prop where
  outcome : t.f aLayoutStatus 29 3 = if c = 0 then 2 else 1
  reason : t.f aLayoutStatus 16 8 = c
  op : t.layOp = none
  regs : RegsBut [aLayoutStatus] s t

section
variable (s : State)

theorem layFinish_facts {c : Nat} (hc : c < 256) : LayOnly s (layFinish c s) ∧ LayEnded c s (layFinish c s) := by
  obtain ⟨u, hu⟩ : ∃ u : State, { s with layOp := none } = u := ⟨_, rfl⟩
  have honly : LayOnly s u := hu ▸ rfl
  have hrd : ∀ j, u.rd j = s.rd j := hu ▸ fun _ => rfl
  have hop : u.layOp = none := hu ▸ rfl
  unfold layFinish
  dsimp only
  rw [hu]
  obtain ⟨v, hv⟩ : ∃ v, (u.setB aLayoutStatus 31 false).setF aLayoutStatus 16 8 c = v := ⟨_, rfl⟩
  have hvregs : RegsBut [aLayoutStatus] u v := hv ▸ ((RegsBut.refl _ u).setB (by simp) 31 false).setF (by simp) 16 8 c
  have hvonly : OnlyRegs u v := hv ▸ ((OnlyRegs.refl u).setF aLayoutStatus 31 1 _).setF aLayoutStatus 16 8 c
  have hvbusy : v.bit aLayoutStatus 31 = false := by
    rw [← hv, State.bit_setF_of_disjoint _ _ _ _ (by omega) (by omega)]
    exact State.bit_setB_same u _ false (by omega)
  have hvreason : v.f aLayoutStatus 16 8 = c := by
    rw [← hv, State.f_setF_same _ _ _ (by omega)]
    exact Nat.mod_eq_of_lt hc
  rw [hv]
  obtain ⟨w, hw⟩ : ∃ w, v.setB aLayoutStatus 30 (c == 0) = w := ⟨_, rfl⟩
  have hwonly : OnlyRegs v w := hw ▸ (OnlyRegs.refl v).setF aLayoutStatus 30 1 _
  have hwregs : RegsBut [aLayoutStatus] u w := hw ▸ hvregs.setB (by simp) 30 _
  have hwdone : w.bit aLayoutStatus 30 = (c == 0) := hw ▸ State.bit_setB_same v _ _ (by omega)
  have hwbusy : w.bit aLayoutStatus 31 = false := by rw [← hw, State.bit_setB_of_ne _ (by omega) (by omega), hvbusy]
  have hwreason : w.f aLayoutStatus 16 8 = c := by rw [← hw, State.f_setB_of_disjoint _ (by omega) (by omega), hvreason]
  rw [hw]
  have hxonly : OnlyRegs w (w.setB aLayoutStatus 29 (c != 0)) := (OnlyRegs.refl w).setF aLayoutStatus 29 1 _
  refine ⟨honly.trans ((hvonly.trans hwonly).trans hxonly).layOnly, ?_, ?_, ?_, fun j hj => ?_⟩
  · rw [State.f_three, State.bit_setB_same _ _ _ (by omega), State.bit_setB_of_ne _ (by omega) (by omega),
      State.bit_setB_of_ne _ (by omega) (by omega), hwdone, hwbusy]
    by_cases h : c = 0
    · rw [h]
      rfl
    · rw [if_neg h, bne_iff_ne.mpr h, beq_eq_false_iff_ne.mpr h]
      rfl
  · rw [State.f_setB_of_disjoint _ (by omega) (by omega), hwreason]
  · have hreg := (hvonly.trans hwonly).trans hxonly
    unfold OnlyRegs at hreg
    rw [hreg]
    exact hop
  · exact ((hwregs.setB (by simp) 29 _) j hj).trans (hrd j)

theorem layBegin_facts (op : Nat) {k : Nat} (hk : k < 8) : OnlyRegs s (layBegin op k s)
    ∧ RegsBut [aLayoutCtl, aLayoutStatus] s (layBegin op k s) ∧ (layBegin op k s).bit aLayoutStatus 31 = true
    ∧ (layBegin op k s).f aLayoutStatus 8 3 = k := by
  unfold layBegin
  dsimp only
  obtain ⟨u, hu⟩ : ∃ u, (s.setF aLayoutCtl 8 3 k).setF aLayoutCtl 0 4 op = u := ⟨_, rfl⟩
  have huonly : OnlyRegs s u := hu ▸ ((OnlyRegs.refl s).setF aLayoutCtl 8 3 k).setF aLayoutCtl 0 4 op
  have huregs : RegsBut [aLayoutCtl, aLayoutStatus] s u := hu ▸ ((RegsBut.refl _ s).setF (by simp) 8 3 k).setF (by simp) 0 4 op
  rw [hu]
  obtain ⟨v, hv⟩ : ∃ v, (u.setF aLayoutStatus 29 3 4).setF aLayoutStatus 16 8 0 = v := ⟨_, rfl⟩
  have hvonly : OnlyRegs u v := hv ▸ ((OnlyRegs.refl u).setF aLayoutStatus 29 3 4).setF aLayoutStatus 16 8 0
  have hvregs : RegsBut [aLayoutCtl, aLayoutStatus] s v := hv ▸ (huregs.setF (by simp) 29 3 4).setF (by simp) 16 8 0
  have hvbusy : v.bit aLayoutStatus 31 = true := by
    rw [← hv, State.bit_setF_of_disjoint _ _ _ _ (by omega) (by omega), State.bit_setF _ _ _ _ _ (by omega), if_pos (by omega)]
    decide
  rw [hv]
  refine ⟨(huonly.trans hvonly).trans ((OnlyRegs.refl v).setF _ _ _ _), hvregs.setF (by simp) 8 3 k, ?_, ?_⟩
  · rw [State.bit_setF_of_disjoint _ _ _ _ (by omega) (by omega), hvbusy]
  · rw [State.f_setF_same _ _ _ (by omega)]
    exact Nat.mod_eq_of_lt hk

end

/-! ### An operation in progress -/

/-- Operation `op` of slot k is in progress. -/
def State.withLayOp (s : State) (op k : Nat) : State := { s with layOp := some (op, k) }

section
variable (s : State) (op k : Nat)

theorem State.withLayOp_layOnly : LayOnly s (s.withLayOp op k) := rfl
theorem State.withLayOp_rd (j : Nat) : (s.withLayOp op k).rd j = s.rd j := rfl
theorem State.withLayOp_layOp : (s.withLayOp op k).layOp = some (op, k) := rfl

end

/-! ### Slots in use -/

section
variable {s t : State}

theorem State.slotUsed_congr (himages : t.images = s.images) (hstreams : t.streams = s.streams) (hst : ∀ n, t.st n = s.st n) (k : Nat) :
    t.slotUsed k = s.slotUsed k := by
  unfold State.slotUsed State.image State.up
  rw [himages, hstreams]
  simp only [hst]

theorem layBegin_slotUsed (s : State) (op : Nat) {k : Nat} (hk : k < 8) (j : Nat) : (layBegin op k s).slotUsed j = s.slotUsed j := by
  obtain ⟨honly, hregs, -⟩ := layBegin_facts s op hk
  obtain ⟨himages, -, hstreams⟩ := honly.layOnly.keeps
  refine State.slotUsed_congr himages hstreams (fun n => ?_) j
  refine State.f_congr (hregs _ ?_) 0 3
  unfold aStreamStatus streamPage aLayoutCtl aLayoutStatus
  simp only [List.mem_cons, List.not_mem_nil, or_false]
  omega

end

/-- Slot k without image, staging and count. -/
def slotEmptied (k : Nat) (s : State) : State :=
  ({ s with staging := s.staging.filter (fun x => x != k) }.setImage k none).setTm (8184 + k) Tm.init

theorem slotEmptied_facts (k : Nat) (s : State) : (∀ j, (slotEmptied k s).rd j = s.rd j) ∧ (slotEmptied k s).image k = none
    ∧ ∀ j, j ≠ k → (slotEmptied k s).image j = s.image j := by
  have hgone : (slotEmptied k s).images = s.images.filter (fun p => p.1 != k) := rfl
  refine ⟨fun _ => rfl, ?_, fun j hj => ?_⟩
  · rw [State.image, hgone, Option.map_eq_none_iff, List.find?_eq_none]
    intro p hp
    have hne := (List.mem_filter.mp hp).2
    rw [bne_iff_ne] at hne
    rw [beq_iff_eq]
    exact hne
  · have hfind : (fun p : Nat × Image => decide ((p.1 != k) = true ∧ (p.1 == j) = true)) = fun p => p.1 == j := by
      funext p
      by_cases h : p.1 = j
      · rw [h, beq_self_eq_true, bne_iff_ne.mpr hj]
        rfl
      · rw [beq_eq_false_iff_ne.mpr h]
        exact decide_eq_false fun hp => Bool.false_ne_true hp.2
    rw [State.image, hgone, List.find?_filter, State.image]
    exact congrArg (fun q : Nat × Image → Bool => (s.images.find? q).map (·.2)) hfind

/-! ### The host's commands -/

section
variable {k : Fin 8} {s : State}

theorem layout_rejected (hs : Served s) (hbusy : s.bit aLayoutStatus 31 = true) :
    ∀ c ∈ [Instr.layoutInstall k, .layoutEvict k, .forcedExchange k], exec c s = .next (signal s (reject none aLayoutCtl s)) := by
  intro c hc
  simp only [List.mem_cons, List.not_mem_nil, or_false] at hc
  rcases hc with rfl | rfl | rfl
  · change execLayoutInstall k s = _
    rw [execLayoutInstall, hostRow_of_served hs, if_pos hbusy, done]
  · change execLayoutEvict k s = _
    rw [execLayoutEvict, hostRow_of_served hs, if_pos hbusy, done]
  · change execForcedExchange k s = _
    rw [execForcedExchange, hostRow_of_served hs, if_pos hbusy, done]

variable (hs : Served s) (hfree : s.bit aLayoutStatus 31 = false)
include hs hfree

theorem layoutInstall_begins : ∃ t, exec (.layoutInstall k) s = .next t ∧ t.layOp = some (1, k.val) ∧ t.bit aLayoutStatus 31 = true
    ∧ t.f aLayoutStatus 8 3 = k.val ∧ RegsBut [aLayoutCtl, aLayoutStatus] s t ∧ t.images = s.images := by
  have hexec : exec (.layoutInstall k) s = .next (signal s ((layBegin 1 k.val s).withLayOp 1 k.val)) := by
    change execLayoutInstall k s = _
    rw [execLayoutInstall, hostRow_of_served hs, if_neg (by rw [hfree]; decide), done, State.withLayOp]
  obtain ⟨honly, hregs, hbusy, hslot⟩ := layBegin_facts s 1 k.isLt
  generalize layBegin 1 k.val s = u at *
  have hrd := u.withLayOp_rd 1 k.val
  obtain ⟨himages, -, -⟩ := (honly.layOnly.trans (u.withLayOp_layOnly 1 k.val)).keeps
  have hop := u.withLayOp_layOp 1 k.val
  generalize u.withLayOp 1 k.val = v at *
  refine ⟨_, hexec, ?_, ?_, ?_, RegsBut.signal fun j hj => (hrd j).trans (hregs j hj), ?_⟩
  · rw [signal_layOp, hop]
  · rw [signal_bit, State.bit_congr (hrd _), hbusy]
  · rw [signal_f, State.f_congr (hrd _), hslot]
  · rw [signal_images, himages]

theorem layoutEvict_exec : exec (.layoutEvict k) s = .next (signal s (layEvict k.val (layBegin 2 k.val s))) := by
  change execLayoutEvict k s = _
  rw [execLayoutEvict, hostRow_of_served hs, if_neg (by rw [hfree]; decide), done]

theorem layoutEvict_inUse (hused : s.slotUsed k.val = true) : ∃ t, exec (.layoutEvict k) s = .next t ∧ t.f aLayoutStatus 29 3 = 1
    ∧ t.f aLayoutStatus 16 8 = 10 ∧ t.images = s.images ∧ RegsBut [aLayoutCtl, aLayoutStatus] s t := by
  have hexec := layoutEvict_exec (k := k) hs hfree
  obtain ⟨honly, hregs, -, -⟩ := layBegin_facts s 2 k.isLt
  rw [layEvict, if_pos ((layBegin_slotUsed s 2 k.isLt k.val).trans hused)] at hexec
  generalize layBegin 2 k.val s = u at *
  obtain ⟨honly', houtcome, hreason, -, hregs'⟩ := layFinish_facts u (c := 10) (by omega)
  obtain ⟨himages, -, -⟩ := (honly.layOnly.trans honly').keeps
  generalize layFinish 10 u = v at *
  refine ⟨_, hexec, ?_, ?_, ?_, (hregs.comp (hregs'.mono (by simp))).signal⟩
  · rw [signal_f, houtcome]
    rfl
  · rw [signal_f, hreason]
  · rw [signal_images, himages]

theorem layoutEvict_frees (hused : s.slotUsed k.val = false) : ∃ t, exec (.layoutEvict k) s = .next t ∧ t.f aLayoutStatus 29 3 = 2
    ∧ t.image k.val = none ∧ (∀ j, j ≠ k.val → t.image j = s.image j) ∧ RegsBut [aLayoutCtl, aLayoutStatus] s t := by
  have hexec := layoutEvict_exec (k := k) hs hfree
  obtain ⟨honly, hregs, -, -⟩ := layBegin_facts s 2 k.isLt
  obtain ⟨himages, -, -⟩ := honly.layOnly.keeps
  rw [layEvict, if_neg (by rw [layBegin_slotUsed s 2 k.isLt, hused]; decide), ← slotEmptied] at hexec
  generalize layBegin 2 k.val s = u at *
  obtain ⟨hrd, hnone, hothers⟩ := slotEmptied_facts k.val u
  generalize slotEmptied k.val u = v at *
  obtain ⟨honly', houtcome, -, -, hregs'⟩ := layFinish_facts v (c := 0) (by omega)
  obtain ⟨himages', -, -⟩ := honly'.keeps
  generalize layFinish 0 v = w at *
  refine ⟨_, hexec, ?_, ?_, fun j hj => ?_, RegsBut.signal fun j hj => ?_⟩
  · rw [signal_f, houtcome]
    rfl
  · rw [signal_image, State.image, himages', ← State.image, hnone]
  · rw [signal_image, State.image, himages', ← State.image, hothers j hj, State.image, himages, State.image]
  · exact (hregs' j (fun h => hj (List.mem_cons_of_mem _ h))).trans ((hrd j).trans (hregs j hj))

/-- The forced exchange that has begun. -/
def forcedBegun (k : Nat) (s : State) : State := (layBegin 3 k s).withLayOp 3 k

omit hs hfree in
theorem forcedBegun_facts : LayOnly s (forcedBegun k.val s) ∧ RegsBut [aLayoutCtl, aLayoutStatus] s (forcedBegun k.val s)
    ∧ (forcedBegun k.val s).layOp = some (3, k.val) := by
  obtain ⟨honly, hregs, -, -⟩ := layBegin_facts s 3 k.isLt
  unfold forcedBegun
  exact ⟨honly.layOnly.trans (State.withLayOp_layOnly ..), fun j hj => (State.withLayOp_rd ..).trans (hregs j hj),
    State.withLayOp_layOp ..⟩

theorem forcedExchange_exec : exec (.forcedExchange k) s = .next (signal s (forcedGo (forcedBegun k.val s))) := by
  change execForcedExchange k s = _
  rw [execForcedExchange, hostRow_of_served hs, if_neg (by rw [hfree]; decide), done, forcedBegun, State.withLayOp]

theorem forcedExchange_notReady (hready : s.readyGroup k.val = none) : ∃ t, exec (.forcedExchange k) s = .next t
    ∧ t.f aLayoutStatus 29 3 = 1 ∧ t.f aLayoutStatus 16 8 = 10 ∧ t.images = s.images ∧ t.tiles = s.tiles := by
  have hexec := forcedExchange_exec (k := k) hs hfree
  obtain ⟨honly, -, hop⟩ := forcedBegun_facts (k := k) (s := s)
  generalize forcedBegun k.val s = u at *
  rw [forcedGo, hop] at hexec
  simp only [honly.readyGroup_eq_none hready] at hexec
  obtain ⟨honly', houtcome, hreason, -, -⟩ := layFinish_facts u (c := 10) (by omega)
  obtain ⟨himages, htiles, -⟩ := (honly.trans honly').keeps
  generalize layFinish 10 u = v at *
  refine ⟨_, hexec, ?_, ?_, ?_, ?_⟩
  · rw [signal_f, houtcome]
    rfl
  · rw [signal_f, hreason]
  · rw [signal_images, himages]
  · rw [signal_tiles, htiles]

end

end Sys2Proof.Machine
end

section
/-! The end of an install (R299): the REASON of the check that fails first, or the image in its slot. -/
namespace Sys2Proof.Machine

/-- The package has room for its header, its table and its signature. -/
def PkgFits (bs : List Byte) (h : PkgHeader) : Prop := bs ≠ [] ∧ h.length ≤ bs.length ∧ 128 + 16 * h.sections ≤ h.length

/-- What the end of an install with REASON c leaves (0: the image is in slot k). -/
def InstallEnds (k : Nat) (p : Sections) (s : State) (c : Nat) : Prop :=
  ∃ t, exec (.layoutInstallComplete p) s = .next t ∧ t.f aLayoutStatus 29 3 = (if c = 0 then 2 else 1)
    ∧ t.f aLayoutStatus 16 8 = c ∧ t.layOp = none ∧ RegsBut [aLayoutStatus] s t ∧ (c ≠ 0 → t.images = s.images)
    ∧ (c = 0 → ∃ im, t.image k = some im ∧ im.id = (pkgHeader s.pkg).layoutId ∧ im.staged = false ∧ im.active = 0
        ∧ im.regions = (pkgHeader s.pkg).regions % 2 ^ 25 ∧ im.body = (checkImage k (pkgHeader s.pkg) p s).2
        ∧ (t.tm (8184 + k)).target = popRegions (pkgHeader s.pkg).regions ∧ (t.tm (8184 + k)).mode = 1)

section
variable (k : Nat) (h : PkgHeader) (p : Sections) (s : State)

/-- The image of an accepted package. -/
def acceptedImage : Image :=
  { id := h.layoutId, native := h.form == 1, staged := false, active := 0, regions := h.regions % 2 ^ 25, lfab := h.lfab, body := p }

/-- The system tidemark of a slot whose image has the regions of a header. -/
def acceptedTm : Tm := { Tm.init with mode := 1, target := popRegions h.regions, lay := (0, popRegions h.regions, 0, 1) }

theorem placeImage_facts : (∀ j, (placeImage k h p s).rd j = s.rd j) ∧ (placeImage k h p s).image k = some (acceptedImage h p)
    ∧ (placeImage k h p s).tm (8184 + k) = acceptedTm h := by
  have hplace : placeImage k h p s = (s.setImage k (some (acceptedImage h p))).setTm (8184 + k) (acceptedTm h) := rfl
  rw [hplace]
  refine ⟨fun _ => rfl, ?_, ?_⟩
  · exact State.image_setImage_same s k (acceptedImage h p)
  · rw [State.tm_setTm, if_pos rfl]

end

section
variable {k : Fin 8} {p : Sections} {s : State}

theorem layoutInstallComplete_exec (hop : s.layOp = some (1, k.val)) :
    exec (.layoutInstallComplete p) s = .next (signal s (layInstall k.val p s)) := by
  change execLayoutInstallComplete p s = _
  rw [execLayoutInstallComplete, hop]
  rfl

/-- An install that ends with a REASON. -/
theorem installEnds_of_reason (hop : s.layOp = some (1, k.val)) {c : Nat} (hc : c < 256) (hne : c ≠ 0)
    (hrun : layInstall k.val p s = layFinish c s) : InstallEnds k.val p s c := by
  have hexec := layoutInstallComplete_exec (p := p) hop
  rw [hrun] at hexec
  obtain ⟨honly, houtcome, hreason, hop', hregs⟩ := layFinish_facts s hc
  obtain ⟨himages, -, -⟩ := honly.keeps
  generalize layFinish c s = u at *
  refine ⟨_, hexec, ?_, ?_, ?_, hregs.signal, fun _ => ?_, fun h => absurd h hne⟩
  · rw [signal_f, houtcome]
  · rw [signal_f, hreason]
  · rw [signal_layOp, hop']
  · rw [signal_images, himages]

/-- An install whose package passes every check. -/
theorem installEnds_of_place (hop : s.layOp = some (1, k.val))
    (hrun : layInstall k.val p s
      = layFinish 0 (placeImage k.val (pkgHeader s.pkg) (checkImage k.val (pkgHeader s.pkg) p s).2 s)) : InstallEnds k.val p s 0 := by
  have hexec := layoutInstallComplete_exec (p := p) hop
  rw [hrun] at hexec
  obtain ⟨hrd, himage, htm⟩ := placeImage_facts k.val (pkgHeader s.pkg) (checkImage k.val (pkgHeader s.pkg) p s).2 s
  generalize placeImage k.val (pkgHeader s.pkg) (checkImage k.val (pkgHeader s.pkg) p s).2 s = u at *
  obtain ⟨honly, houtcome, hreason, hop', hregs⟩ := layFinish_facts u (c := 0) (by omega)
  obtain ⟨himages, -, -⟩ := honly.keeps
  have htms : (layFinish 0 u).tm (8184 + k.val) = u.tm (8184 + k.val) := by
    rw [State.tm, honly.tms, State.tm]
  generalize layFinish 0 u = v at *
  refine ⟨_, hexec, ?_, ?_, ?_, RegsBut.signal fun j hj => (hregs j hj).trans (hrd j), fun h => absurd rfl h,
    fun _ => ⟨acceptedImage (pkgHeader s.pkg) (checkImage k.val (pkgHeader s.pkg) p s).2, ?_, rfl, rfl, rfl, rfl, rfl, ?_, ?_⟩⟩
  · rw [signal_f, houtcome]
  · rw [signal_f, hreason]
  · rw [signal_layOp, hop']
  · rw [signal_image, State.image, himages, ← State.image, himage]
  · rw [signal_tm, htms, htm]
    rfl
  · rw [signal_tm, htms, htm]
    rfl

theorem layoutInstallComplete_unfit (hop : s.layOp = some (1, k.val)) (hfits : ¬ PkgFits s.pkg (pkgHeader s.pkg)) :
    InstallEnds k.val p s 2 := by
  refine installEnds_of_reason hop (by omega) (by omega) ?_
  unfold layInstall
  dsimp only
  refine if_pos ?_
  rw [Bool.or_eq_true, List.isEmpty_iff, decide_eq_true_eq]
  by_contra hno
  rw [not_or, not_or, Nat.not_lt, Nat.not_lt] at hno
  exact hfits hno

theorem layoutInstallComplete_checked (hop : s.layOp = some (1, k.val)) (hfits : PkgFits s.pkg (pkgHeader s.pkg))
    (hcheck : (checkImage k.val (pkgHeader s.pkg) p s).1 < 256) :
    InstallEnds k.val p s (if s.signed (pkgHeader s.pkg).keySlot s.pkg (pkgHeader s.pkg).length = false then 1
      else if (List.range (pkgHeader s.pkg).sections).any (sectionBad s.pkg (pkgHeader s.pkg).length) then 2
      else (checkImage k.val (pkgHeader s.pkg) p s).1) := by
  obtain ⟨hsome, hlen, htable⟩ := hfits
  have hroom : ¬ (s.pkg.isEmpty || decide (s.pkg.length < (pkgHeader s.pkg).length
      ∨ (pkgHeader s.pkg).length < 128 + 16 * (pkgHeader s.pkg).sections)) = true := by
    rw [Bool.or_eq_true, List.isEmpty_iff, decide_eq_true_eq]
    rintro (h | h | h)
    · exact hsome h
    · omega
    · omega
  have hrun : layInstall k.val p s = if !s.signed (pkgHeader s.pkg).keySlot s.pkg (pkgHeader s.pkg).length then layFinish 1 s
      else if (List.range (pkgHeader s.pkg).sections).any (sectionBad s.pkg (pkgHeader s.pkg).length) then layFinish 2 s
      else if (checkImage k.val (pkgHeader s.pkg) p s).1 ≠ 0 then layFinish (checkImage k.val (pkgHeader s.pkg) p s).1 s
      else layFinish 0 (placeImage k.val (pkgHeader s.pkg) (checkImage k.val (pkgHeader s.pkg) p s).2 s) := by
    unfold layInstall
    exact if_neg hroom
  by_cases hsig : s.signed (pkgHeader s.pkg).keySlot s.pkg (pkgHeader s.pkg).length = false
  · rw [if_pos hsig]
    rw [if_pos (by rw [hsig]; rfl)] at hrun
    exact installEnds_of_reason hop (by omega) (by omega) hrun
  · rw [if_neg hsig]
    rw [if_neg (fun h => hsig (Bool.not_eq_true' _ ▸ h))] at hrun
    by_cases hbad : (List.range (pkgHeader s.pkg).sections).any (sectionBad s.pkg (pkgHeader s.pkg).length) = true
    · rw [if_pos hbad]
      rw [if_pos hbad] at hrun
      exact installEnds_of_reason hop (by omega) (by omega) hrun
    · rw [if_neg hbad]
      rw [if_neg hbad] at hrun
      by_cases hreason : (checkImage k.val (pkgHeader s.pkg) p s).1 = 0
      · rw [if_neg (not_not.mpr hreason)] at hrun
        rw [hreason]
        exact installEnds_of_place hop hrun
      · rw [if_pos hreason] at hrun
        exact installEnds_of_reason hop hcheck hreason hrun

end

end Sys2Proof.Machine
end

section
/-! The forced exchange (R315), the increment of a quiescent region (R254, R309), and what O31 says of the image store. -/
namespace Sys2Proof.Machine

/-! ### What stops for a forced exchange leaves the image store -/

section
variable (s : State)

theorem ImagesKept.count (off k : Nat) : ImagesKept s (s.count off k) := ⟨State.count_images ..⟩

theorem ImagesKept.trace (r : TraceRec) : ImagesKept s (s.trace r) := by
  rcases s.trace_cases r with h | ⟨b, h⟩ | ⟨b, h⟩ | h <;> rw [h]
  · exact .refl s
  · exact ⟨rfl⟩
  · exact ⟨rfl⟩
  · exact .count s _ _

theorem ImagesKept.cause (n k : Nat) : ImagesKept s (s.cause n k) := by
  unfold State.cause State.msix
  dsimp only
  split
  · exact ⟨rfl⟩
  · split
    · exact ⟨rfl⟩
    · exact ⟨rfl⟩

theorem tmUpdate_images (i : Nat) (x : Tm) : ImagesKept s (tmUpdate i x s) := by
  have hset : ∀ y gs, ImagesKept s { s.setTm i y with granted := gs } := fun _ _ => ⟨rfl⟩
  unfold tmUpdate
  dsimp only
  split
  · exact (hset _ _).trans (.cause _ _ _)
  · exact hset _ _

theorem useAbandon_images (k : Nat) : ImagesKept s (useAbandon k s) := by
  unfold useAbandon
  split
  · exact .refl s
  · dsimp only
    split
    · exact (tmUpdate_images s _ _).trans ⟨rfl⟩
    · exact ⟨rfl⟩

theorem fillSlot_images (n tag outcome : Nat) : ImagesKept s (fillSlot n tag outcome s) := by
  unfold fillSlot
  split
  · exact ⟨rfl⟩
  · exact .refl s

theorem purgePool_images (n : Nat) (held : Bool) : ImagesKept s (purgePool n held s) := by
  unfold purgePool
  refine each_related ImagesKept.refl ImagesKept.trans (fun c _ u => ?_) s
  dsimp only
  split
  · exact .refl u
  · exact ⟨rfl⟩

theorem spillDrop_images (g : Nat) : ImagesKept s (spillDrop g s) := by
  unfold spillDrop
  refine each_related ImagesKept.refl ImagesKept.trans (fun n _ u => ?_) s
  split
  · exact ⟨rfl⟩
  · exact .refl u

theorem reportDone_images (t : Nat) : ImagesKept s (reportDone t s) := by
  unfold reportDone
  dsimp only
  split
  · exact .refl s
  · exact each_keep (ImagesKept s) _ (fun u d hu => hu.trans (.trace u _)) _ _ ⟨rfl⟩

theorem discardEngine_images (t : Nat) (squash : Bool) (gone : QCmd → Nat → Bool) (e : Nat) :
    ImagesKept s (discardEngine t squash gone s e) := by
  unfold discardEngine
  dsimp only
  have hmod : ∀ f, ImagesKept s (s.modTile t f) := fun f => .modTile s t f
  split
  · exact each_keep (ImagesKept s) _ (fun u c hu => hu.trans (.trace u _)) _ _ ((hmod _).trans (.count _ _ _))
  · exact hmod _

theorem discardStaged_images (t : Nat) (gone : Nat × Nat × Nat × Staged → Bool) : ImagesKept s (discardStaged t gone s) := by
  unfold discardStaged
  exact .modTile s t _

theorem dropTile_images (ds : List Nat) (t : Nat) : ImagesKept s (dropTile ds s t) := by
  have hcmds : ImagesKept s (discardCmds t true (fun c _ => c.spec && ds.contains c.sid) s) := by
    rw [discardCmds_eq]
    exact (each_related ImagesKept.refl ImagesKept.trans (fun e _ u => discardEngine_images u t true _ e) s).trans (reportDone_images _ t)
  exact hcmds.trans (discardStaged_images _ t _)

theorem cancelKicks_images (gone : Nat × Nat → Bool) : ImagesKept s (cancelKicks gone s) := by
  unfold cancelKicks
  refine each_related ImagesKept.refl ImagesKept.trans (fun f _ u => ?_) s
  dsimp only
  split
  · split
    · exact (ImagesKept.count u _ _).trans ⟨rfl⟩
    · exact ⟨rfl⟩
  · exact ⟨rfl⟩

theorem dropSids_images (g : Nat) (ds : List Nat) : ImagesKept s (dropSids g ds s) := by
  have htiles := each_related ImagesKept.refl ImagesKept.trans (fun t _ u => dropTile_images u ds t) (l := tilesOf g) s
  have htraced : ImagesKept s (sidsTraced g ds s) := by
    unfold sidsTraced
    exact (htiles.trans (cancelKicks_images _ _)).trans
      (each_related ImagesKept.refl ImagesKept.trans (fun d _ u => (ImagesKept.count u _ _).trans (.trace _ _)) _)
  rw [dropSids_eq]
  exact htraced.trans ⟨rfl⟩

/-! ### The stages of a forced exchange -/

/-- The frames of the streams `ns` in the fabric are answered, their rows discarded. -/
def framesForced (ns : List Nat) (s : State) : State :=
  each ns s (fun s n =>
    purgePool n false (each (s.stream n).admitted s (fun s t => if (s.slot n t).inFabric then fillSlot n t 2 s else s)))

/-- The regions' speculation and spill rings are dropped. -/
def regionsForced (gs : List Nat) (s : State) : State :=
  each gs s (fun s g => spillDrop g (dropSids g ((s.seq g).sids.map (·.sid)) s))

/-- The ferries of the streams `ns` stop. -/
def ferriesForced (ns : List Nat) (s : State) : State :=
  each (s.ferries.map (·.1)) s (fun s f =>
    match s.ferryOwner f with
    | some n => if ns.contains n then ferryStop f s else s
    | none => s)

/-- The image of slot k is in the shadow planes, and no staging of it is under way. -/
def forcedStaged (k : Nat) (s : State) : State :=
  let staged := match s.image k with | some im => im.staged | none => false
  { (if staged then s else stageImage k false s) with staging := s.staging.filter (fun x => x != k) }

end

theorem framesForced_images (ns : List Nat) (s : State) : ImagesKept s (framesForced ns s) := by
  unfold framesForced
  refine each_related ImagesKept.refl ImagesKept.trans (fun n _ u => ?_) s
  refine (each_related ImagesKept.refl ImagesKept.trans (fun t _ v => ?_) u).trans (purgePool_images _ n false)
  split
  · exact fillSlot_images v n t 2
  · exact .refl v

theorem regionsForced_images (gs : List Nat) (s : State) : ImagesKept s (regionsForced gs s) :=
  each_related ImagesKept.refl ImagesKept.trans (fun g _ u => (dropSids_images u g _).trans (spillDrop_images _ g)) s

theorem ferriesForced_images (ns : List Nat) (s : State) : ImagesKept s (ferriesForced ns s) := by
  unfold ferriesForced
  refine each_related ImagesKept.refl ImagesKept.trans (fun f _ u => ?_) s
  split
  · split
    · exact ⟨rfl⟩
    · exact .refl u
  · exact .refl u

section
variable {k : Nat} {im : Image} {s : State}

theorem forcedStaged_facts (him : s.image k = some im) :
    (∃ b, (forcedStaged k s).image k = some { im with staged := b }) ∧ k ∉ (forcedStaged k s).staging := by
  obtain ⟨u, hu⟩ : ∃ u, (if im.staged then s else stageImage k false s) = u := ⟨_, rfl⟩
  have himage : ∃ b, u.image k = some { im with staged := b } := by
    rw [← hu]
    split
    · exact ⟨im.staged, him⟩
    · exact ⟨true, (stageImage_facts him false).2.1⟩
  have hforced : forcedStaged k s = { u with staging := s.staging.filter (fun x => x != k) } := by
    unfold forcedStaged
    rw [him]
    dsimp only
    rw [hu]
  rw [hforced]
  exact ⟨himage, by simp⟩

/-- A forced exchange leaves the image active in its regions, which run again. -/
theorem forceSwap_facts (him : s.image k = some im) (ns : List Nat) :
    k ∉ (forceSwap k ns s).staging ∧ (forceSwap k ns s).image k = some { im with active := im.regions, staged := false }
      ∧ ∀ h ∈ s.slotRegions k, RunsAgain h (forceSwap k ns s) := by
  have hforce : forceSwap k ns s = commitGroup k ns (swapImage k ns
      (forcedStaged k (ferriesForced ns (regionsForced (s.slotRegions k) (framesForced ns (useAbandon k s)))))) := rfl
  have hstop := (((useAbandon_images s k).trans (framesForced_images ns _)).trans
    (regionsForced_images (s.slotRegions k) _)).trans (ferriesForced_images ns _)
  rw [hforce]
  generalize ferriesForced ns (regionsForced (s.slotRegions k) (framesForced ns (useAbandon k s))) = u at *
  obtain ⟨⟨b, himage⟩, hstaging⟩ := forcedStaged_facts ((hstop.image k).trans him)
  generalize forcedStaged k u = v at *
  have hslots : v.slotRegions k = s.slotRegions k := by
    rw [State.slotRegions, State.slotRegions, himage, him]
  obtain ⟨hlists, himage', hruns⟩ := swapImage_facts himage ns
  rw [hslots] at hruns
  generalize swapImage k ns v = w at *
  have hcommit := fun h => commitGroup_kept h w k ns
  generalize commitGroup k ns w = x at *
  refine ⟨?_, ?_, fun h hh => (hruns h hh).kept (hcommit h).1⟩
  · rw [(hcommit 0).1.staging, hlists.staging]
    exact hstaging
  · rw [(hcommit 0).2.image, himage']

end

theorem LayOnly.readyGroup_isSome {s t : State} (h : LayOnly s t) {k : Nat} {ns : List Nat} (hn : s.readyGroup k = some ns) :
    ∃ ns', t.readyGroup k = some ns' := by
  rw [← Option.isSome_iff_exists, ← Option.ne_none_iff_isSome]
  intro hnone
  have hback : LayOnly t s := by
    unfold LayOnly at h ⊢
    rw [h]
  rw [hback.readyGroup_eq_none hnone] at hn
  cases hn

theorem LayOnly.placeKept {s t : State} (h : LayOnly s t) (g : Nat) : PlaceKept g s t := by
  unfold LayOnly at h
  rw [h]
  exact .of_fabric g rfl rfl rfl ⟨rfl, rfl, rfl⟩

section
variable {k : Fin 8} {im : Image} {s : State}

theorem forcedBegun_scanning : (forcedBegun k.val s).scanning k.val = s.scanning k.val := by
  obtain ⟨honly, hregs, -⟩ := forcedBegun_facts (k := k) (s := s)
  obtain ⟨himages, -, -⟩ := honly.keeps
  have hslots : (forcedBegun k.val s).slotRegions k.val = s.slotRegions k.val := (ImagesKept.mk himages).slotRegions k.val
  have hphase : ∀ g, (forcedBegun k.val s).phase g = s.phase g := by
    intro g
    refine State.f_congr (hregs _ ?_) 28 4
    unfold aRegionFstatus seqPage aLayoutCtl aLayoutStatus
    simp only [List.mem_cons, List.not_mem_nil, or_false]
    omega
  unfold State.scanning
  rw [hslots]
  simp only [hphase]

theorem forcedExchange_swaps (hs : Served s) (hfree : s.bit aLayoutStatus 31 = false) {ns : List Nat}
    (hready : s.readyGroup k.val = some ns) (hscan : s.scanning k.val = false) (him : s.image k.val = some im) :
    ∃ t, exec (.forcedExchange k) s = .next t ∧ t.f aLayoutStatus 29 3 = 2 ∧ k.val ∉ t.staging
      ∧ t.image k.val = some { im with active := im.regions, staged := false } ∧ ∀ h ∈ s.slotRegions k.val, RunsAgain h t := by
  have hexec := forcedExchange_exec (k := k) hs hfree
  obtain ⟨honly, -, hop⟩ := forcedBegun_facts (k := k) (s := s)
  have hscan := forcedBegun_scanning.trans hscan
  generalize forcedBegun k.val s = u at *
  obtain ⟨himages, -, -⟩ := honly.keeps
  have hkept := ImagesKept.mk himages
  obtain ⟨ns', hready'⟩ := honly.readyGroup_isSome hready
  rw [forcedGo, hop] at hexec
  simp only [hready', hscan, Bool.false_eq_true, if_false] at hexec
  obtain ⟨hstaging, himage, hruns⟩ := forceSwap_facts ((hkept.image k.val).trans him) ns'
  rw [hkept.slotRegions] at hruns
  generalize forceSwap k.val ns' u = v at *
  obtain ⟨honly', houtcome, -, -, -⟩ := layFinish_facts v (c := 0) (by omega)
  obtain ⟨himages', -, -⟩ := honly'.keeps
  have hplace := honly'.placeKept
  generalize layFinish 0 v = w at *
  refine ⟨_, hexec, ?_, ?_, ?_, fun h hh => ((hruns h hh).kept (hplace h)).signal s⟩
  · rw [signal_f, houtcome]
    rfl
  · rw [signal_staging, (hplace 0).staging]
    exact hstaging
  · rw [signal_image, (ImagesKept.mk himages').image, himage]

end

/-! ### The increment of a quiescent region -/

/-- A count of a barrier that stays below its target. -/
theorem Tm.add_settle_serve {x : Tm} (hmode : x.mode = 1) (hcount : x.count + 1 < x.target) (htarget : x.target < 2 ^ 24) :
    (x.add 1).mode = 1 ∧ (x.add 1).settle.serve.2.count = x.count + 1 := by
  have hadd : (x.add 1).count = x.count + 1 := Nat.mod_eq_of_lt (by omega)
  have hmode' : (x.add 1).mode = 1 := hmode
  have htarget' : (x.add 1).target = x.target := rfl
  have hphases : (x.add 1).phases = (0, x.count + 1) := by
    rw [Tm.phases, if_neg (by rw [hmode', htarget']; omega), hadd, htarget', Nat.div_eq_of_lt hcount, Nat.mod_eq_of_lt hcount]
  have hsettle : (x.add 1).settle.mode = 1 ∧ (x.add 1).settle.count = x.count + 1 := by
    unfold Tm.settle
    rw [hphases]
    exact ⟨hmode', rfl⟩
  refine ⟨hmode', ?_⟩
  rw [Tm.serve_of_barrier (by rw [hsettle.1]; decide)]
  exact hsettle.2

section
variable {s : State}

theorem tmUpdate_of_barrier {x : Tm} (hmode : x.mode = 1) (i : Nat) :
    (tmUpdate i x s).regs = s.regs ∧ (tmUpdate i x s).tiles = s.tiles ∧ (tmUpdate i x s).uses = s.uses := by
  have hevent : decide (x.mode = 2) = false := by rw [hmode]; rfl
  unfold tmUpdate
  dsimp only
  split
  · next h =>
    rw [hevent, Bool.false_and] at h
    exact absurd h Bool.false_ne_true
  · exact ⟨rfl, rfl, rfl⟩

theorem regionQuiescent_adds {g : RegionIx} {k : Fin 8} {u : Use} (hnow : s.useNow k.val = some u) (hg : g.val ∈ s.slotRegions k.val)
    (hdone : g.val ∉ u.done) (hstr : ∀ n ∈ u.streams, s.purging n = false ∧ s.oldFramesOut n = true)
    (hquiet : s.quiet g.val u.streams u.change = true) (hmode : (s.tm (8184 + k.val)).mode = 1)
    (hcount : (s.tm (8184 + k.val)).count + 1 < (s.tm (8184 + k.val)).target) (htarget : (s.tm (8184 + k.val)).target < 2 ^ 24) :
    ∃ t, exec (.regionQuiescent g k) s = .next t ∧ { u with done := u.done ++ [g.val] } ∈ t.uses
      ∧ (t.tm (8184 + k.val)).count = (s.tm (8184 + k.val)).count + 1 ∧ t.regs = s.regs ∧ t.tiles = s.tiles := by
  have hpurge : each u.streams s (fun s n => if s.purging n then purgeStream n s else s) = s :=
    each_fixed fun n hn => if_neg (by rw [(hstr n hn).1]; decide)
  have hnot : u.done.contains g.val = false := by
    rw [Bool.eq_false_iff]
    exact fun h => hdone (List.contains_iff_mem.mp h)
  have hall : u.streams.all (fun n => s.oldFramesOut n) = true := List.all_eq_true.mpr fun n hn => (hstr n hn).2
  obtain ⟨v, hv⟩ : ∃ v : State, { s with uses := s.uses.map (fun v => if v = u then { u with done := u.done ++ [g.val] } else v) } = v :=
    ⟨_, rfl⟩
  have hadd : useAdd g.val k.val s = tmSystem k.val 1 v := by
    rw [useAdd, hnow]
    dsimp only
    rw [if_neg (by rw [hnot]; decide), hv]
  have hexec : exec (.regionQuiescent g k) s = .next (signal s (tmSystem k.val 1 v)) := by
    change execRegionQuiescent g k s = _
    rw [execRegionQuiescent, hnow]
    dsimp only
    rw [hpurge, when_, if_pos (by rw [List.contains_iff_mem.mpr hg, hnot, hall, hquiet]; rfl), hadd, done]
  have hmem : u ∈ s.uses := List.mem_of_find?_eq_some hnow
  have htm : v.tm (8184 + k.val) = s.tm (8184 + k.val) := by rw [← hv]; rfl
  have huses : { u with done := u.done ++ [g.val] } ∈ v.uses := by
    rw [← hv]
    exact List.mem_map.mpr ⟨u, hmem, if_pos rfl⟩
  have hregs : v.regs = s.regs := by rw [← hv]
  have htiles : v.tiles = s.tiles := by rw [← hv]
  obtain ⟨hmode', hcount'⟩ := Tm.add_settle_serve hmode hcount htarget
  obtain ⟨hregs', htiles', huses'⟩ := tmUpdate_of_barrier (s := v) hmode' (8184 + k.val)
  rw [tmSystem, htm] at hexec
  refine ⟨_, hexec, ?_, ?_, ?_, ?_⟩
  · rw [signal_uses, huses']
    exact huses
  · rw [signal_tm, tm_tmUpdate, if_pos rfl, hcount']
  · rw [signal_regs, hregs', hregs]
  · rw [signal_tiles, htiles', htiles]

end

/-- Settles O31: an operation of the image store through how it begins and ends; the swaps stage by stage, each region's
queues emptied by its set-reset, its sequencer restarted by its plane swap, and neither touched after. -/
theorem layoutsAndSwaps : Obligations.LayoutsAndSwaps := by
  unfold Obligations.LayoutsAndSwaps
  refine ⟨fun k p s hs => ⟨layout_rejected hs, fun hfree => ⟨layoutInstall_begins hs hfree, layoutEvict_inUse hs hfree,
    layoutEvict_frees hs hfree, forcedExchange_notReady hs hfree⟩, fun hop => ⟨layoutInstallComplete_unfit hop,
      layoutInstallComplete_checked hop⟩⟩, fun g k im u s => ⟨stagingComplete_stages, fun him hk => ?_, fun hdone hex him hstaged hnot => ?_,
      fun ns hs hfree hready hscan him => ?_, regionQuiescent_adds⟩⟩
  · obtain ⟨t, hexec, hloads, himage, hruns⟩ := directLoadComplete_swaps him hk
    exact ⟨t, hexec, hloads, himage, fun h hh => (hruns h hh).runs⟩
  · obtain ⟨t, hexec, huses, himage, hruns⟩ := slackWaterSwap_swaps hdone hex him hstaged hnot
    exact ⟨t, hexec, huses, himage, fun h hh => (hruns h hh).runs⟩
  · obtain ⟨t, hexec, houtcome, hstaging, himage, hruns⟩ := forcedExchange_swaps hs hfree hready hscan him
    exact ⟨t, hexec, houtcome, hstaging, himage, fun h hh => (hruns h hh).runs⟩

end Sys2Proof.Machine
end
